-- ==== Sys2Proof/Word.lean ====
section
/-! DEFINITION. The words of the machine. Byte order and field extraction are in Machine/Bits.lean. -/

namespace Sys2Proof

/-- A byte, the unit of memory. -/
abbrev Byte := BitVec 8

/-- A 32-bit word: a syllable, a literal, a vector lane, an element of an accumulator plane. -/
abbrev Word32 := BitVec 32

/-- A 64-bit word: a scalar register. -/
abbrev Word := BitVec 64

/-- A 64-byte line. -/
abbrev Line := BitVec 512

/-- A vector register: 64 lanes of 32 bits. -/
abbrev VReg := Vector Word32 64

end Sys2Proof
end

