-- ==== Sys2Proof/Operand.lean ====
section
/-! DEFINITION. The operand types of the instructions, the spec's own fields (R193, R204, R221, R257, R299, R315), and what
the events of the opcode table carry. -/

namespace Sys2Proof

/-! ## Operands of the syllables -/

/-- A scalar destination field (R193): a named scalar, the result queue alone, or a matrix parameter register. -/
inductive Dst where
  | s (i : Fin 16) | queue | a (i : Fin 8)
  deriving DecidableEq, Repr

/-- A scalar source field (R193): `s0`-`s15` or the queue entry `q0`-`q15`. -/
inductive Src where
  | s (i : Fin 16) | q (k : Fin 16)
  deriving DecidableEq, Repr

/-- The space qualifier (R14, R221): virtual, own unit store, cluster, own die store. -/
inductive Space where
  | g | u | c | d
  deriving DecidableEq, Repr

/-- The scopes of R97. -/
inductive Scope where
  | core | clus | die | dev | pod
  deriving DecidableEq, Repr

/-- ORD2 of an atomic (R221). -/
inductive AmoOrd where
  | rlx | acq | rel | sc
  deriving DecidableEq, Repr

/-- ORD2 of a fence (R221). -/
inductive FenceOrd where
  | rel | acq | acqrel | sc
  deriving DecidableEq, Repr

/-- The width `sext` extends from (R236). -/
inductive SextW where
  | b | h | w
  deriving DecidableEq, Repr

/-- Type class F of R204. -/
inductive FTy where
  | f32 | bf16 | f16 | e4m3 | e5m2
  deriving DecidableEq, Repr

/-- Type class I of R204. -/
inductive ITy where
  | i32 | i16 | i8 | u8
  deriving DecidableEq, Repr

/-- Type class X of R204. -/
inductive XTy where
  | f32 | bf16 | f16 | e4m3 | i32 | i16 | i8 | u8
  deriving DecidableEq, Repr

/-- The two types of the select unit, `vcompress` and `vexpand` (R266, R269): TYPE 000 and 100. -/
inductive KTy where
  | f32 | i32
  deriving DecidableEq, Repr

/-- The MX formats of `vqnt` and `vdqnt` (R273). -/
inductive MxFmt where
  | int8 | int6 | int4
  deriving DecidableEq, Repr

/-- The operand types of `vdot4` (R268). -/
inductive Dot4Ty where
  | bf16 | f16 | e4m3 | e5m2 | i16 | i8 | u8
  deriving DecidableEq, Repr

/-- The system registers that `sysrd` and `syswr` name (R249). -/
inductive SysReg where
  | ctxid | fpmode | issuectl | energy | loopcnt | spillptr | dsbjournal | estat | epc | ecode | eaddr | einfo
  | trapbase | permits | boostlvl | slotmap | katsig
  deriving DecidableEq, Repr

/-! ## Operands of the micro-ops -/

/-- The condition of a microword (R290). -/
inductive Cond where
  | always | c0z | c1z | c2z | c3z | aempty | bempty | seg | busy | ckmis | half
  deriving DecidableEq, Repr

/-- COND, NT and NF of a microword (R289). -/
structure MNext where
  cond : Cond
  nt : Fin 4096
  nf : Fin 4096
  deriving DecidableEq, Repr

/-- The value LDC loads (R291): an immediate, or quarter `h` of parameter register `k`. -/
inductive LdcArg where
  | imm (v : BitVec 16) | areg (k : Fin 8) (h : Fin 4)
  deriving DecidableEq, Repr

/-- The ARG flags of MAC and MACB (R291). -/
structure MacArg where
  keepA : Bool
  keepB : Bool
  cnt : Bool
  ac : Bool
  deriving DecidableEq, Repr

/-! ## What the events carry

A device is modelled alone. What a peer, the host or the physical world supplies is an operand of the event. -/

/-- The ten atomic operations (R67). -/
inductive AmoOp where
  | add | and | or | xor | min | max | minu | maxu | swap | cas
  deriving DecidableEq, Repr

/-- The four cell operations (R245). -/
inductive FxOp where
  | init | addF32 | addH | rd
  deriving DecidableEq, Repr

/-- What a remote access does at its home (R40). `rebuild` is a read of the rebuild engine: of a line as it is stored (R145). -/
inductive RemoteKind where
  | load | store | rebuild
  | amo (op : AmoOp) (w8 : Bool) (x c : BitVec 64)
  | fx (op : FxOp) (x : BitVec 64)
  deriving DecidableEq, Repr

/-- A remote access (R40): its sender, kind, line, byte mask, data, key index and PROT flag. `off` is the byte of the line
an atomic or cell update starts at; `eng` is the engine operation that accesses, if one does; `pois` names the bytes of an engine's data
that come poisoned. -/
structure RemoteReq where
  id : Nat
  src : Fin 64
  ctx : Nat
  eng : Option Nat
  kind : RemoteKind
  line : Nat
  off : Nat
  mask : BitVec 64
  data : BitVec 512
  pois : BitVec 64
  key : Nat
  prot : Bool
  gen : Nat
  deriving DecidableEq, Repr

/-- A parity delta (R134): the home that sends it, the writer, the line, the sequence number and the XOR of the bytes. `gen` tells the
writing instance from those that had the context before it (R141). -/
structure Delta where
  home : Fin 64
  writer : Fin 64
  ctx : Nat
  op : Option Nat
  gen : Nat
  line : Nat
  seq : BitVec 16
  xor : BitVec 512
  deriving DecidableEq, Repr

/-- How a protected write was settled (R136, R138): its delta applied, settled against a lost holder, or not applied. -/
inductive AckKind where
  | applied | noHold | noPar
  deriving DecidableEq, Repr

/-- A parity acknowledgement (R136, R138): the writer's device, context and instance, the engine operation if one wrote, the delta it
answers as its home and sequence number, the device that R137 records, and how the write was settled. -/
structure ParityAck where
  writer : Fin 64
  ctx : Nat
  op : Option Nat
  gen : Nat
  home : Fin 64
  seq : BitVec 16
  dev : Fin 64
  kind : AckKind
  deriving DecidableEq, Repr

/-- What peers answer while an engine operation runs: bytes by pod address, poisoned bytes, and refused lines with their
cause. A byte not listed is a free value (`Config.peerByte`). -/
structure PeerView where
  bytes : List (Nat × BitVec 8)
  poison : List Nat
  refused : List (Nat × BitVec 8)
  deriving DecidableEq, Repr

/-- A view in which no byte is named. -/
def PeerView.none : PeerView := ⟨[], [], []⟩

/-- The fields of a control flit (R377). -/
structure CtlFlit where
  sent : BitVec 32
  freed : BitVec 32
  ack : BitVec 12
  rate : BitVec 2
  mark : BitVec 48
  deriving DecidableEq, Repr

/-- A flit (R376): the sequence and kind of its trailer, the 16 data bytes, byte 0 lowest, and the CRC-16 of its trailer. -/
structure Flit where
  seq : BitVec 12
  kind : BitVec 4
  data : BitVec 128
  crc : BitVec 16
  deriving DecidableEq, Repr

/-- A message as its header announces it (R338), with the payload its data flits bring and the payload bytes that come
poisoned. `via` is the device whose link brings it, the sender or a relay, and `plane` that link's plane; `num` counts the messages of the sending context to this
device (R340, R384). `op` is the send it belongs to when the device sends to itself. -/
structure MsgArrival where
  src : Fin 64
  via : Fin 64
  plane : Fin 32
  ctx : Nat
  num : Nat
  tag : BitVec 32
  payload : List (BitVec 8)
  poison : List Nat
  op : Option Nat
  deriving DecidableEq, Repr

/-- One other member's part of a collective (R348): what the members compare, its elements as raw bits with the indices of the
poisoned ones, whether its own check failed, its rounding at issue, and its LOCAL contribution. A `coll.bar` has kind 0x0E. -/
structure CollPeer where
  dev : Fin 64
  pos : Nat
  kind : Nat
  tag : BitVec 32
  op : Nat
  ety : Nat
  count : Nat
  ring : List (Fin 64)
  elems : List (BitVec 64)
  poison : List Nat
  failed : Bool
  rm : BitVec 2
  sat8 : Bool
  localSq : BitVec 64
  deriving DecidableEq, Repr

/-- What the known-answer tests of step 3 find in a core (R422): the lane groups, ALUs and branch units that pass, whether its matrix array
does, and the map that is to be bound around them. -/
structure CoreTest where
  core : Nat
  lgs : BitVec 5
  alus : BitVec 3
  bus : BitVec 2
  array : Bool
  map : BitVec 64
  deriving DecidableEq, Repr, Inhabited

/-- What the self-test finds, step by step (R422): a unit that makes the signature of the firmware image fail, a bank that cannot be repaired,
the cores that do not pass whole in the order of their tests, a line out of its tuning range, a plane that trains no lane. -/
structure SelfTest where
  image : Option (BitVec 16)
  bank : Option (BitVec 16)
  cores : List CoreTest
  line : Option (BitVec 16)
  plane : Option (BitVec 16)
  deriving DecidableEq, Repr, Inhabited

/-- A self-test in which everything passes. -/
def SelfTest.pass : SelfTest := ⟨none, none, [], none, none⟩

/-- Where a soft error strikes (R48, R49): a bit of the stored word or line, check bits counted after the data bits, of the memory unit
at a local address; or an element of an integer plane of a core. -/
inductive SoftErr where
  | memory (addr bit : Nat)
  | plane (core : Nat) (ia : Fin 4) (row col : Fin 64) (flip : BitVec 32)
  deriving DecidableEq, Repr

/-- A host access through BAR0 or BAR2 (R424). -/
structure HostAccess where
  write : Bool
  bar2 : Bool
  off : Nat
  size : Nat
  data : BitVec 512
  deriving DecidableEq, Repr

end Sys2Proof
end

