-- ==== Sys2Proof/Config.lean ====
section
/-! DEFINITION. What the spec leaves to the part or leaves open: constants with no body, so that no proof can see a value. Each
is a free value of the assumption log. -/

namespace Sys2Proof

/-- The stepping of the part (R8, R423). Assumption 5. -/
opaque Config.stepping : BitVec 8

/-- AES-XTS-256 on one 64-byte data unit (R36): for each key material and each unit number, a permutation of the line. The spec
names the cipher and gives no algorithm. Assumption 4. -/
opaque Config.cipher : BitVec 512 → Nat → Equiv.Perm (BitVec 512)

/-- The key material the device makes for slot 0 at its n-th power-on (R37). Assumption 5. -/
opaque Config.bootKey : Nat → BitVec 512

/-- What a self-test that software starts finds, the n-th free value (R423). Assumption 5. -/
opaque Config.selfTest : Nat → SelfTest

/-- A free value of a step: the n-th one. Assumption 9. -/
opaque Config.freeWord : Nat → Word

/-- The byte a peer holds at a pod address, for the n-th look at it (R10). Assumption 10. -/
opaque Config.peerByte : Nat → Nat → Byte

/-- What sensor k shows at the n-th reading: the module power in W, the temperature of each die in degrees, the current of each
layer (R395, R402, R404). Assumption 11. -/
opaque Config.sensor : Nat → Nat → BitVec 16

/-- The energy a cluster draws up to the n-th reading of its counter, in nJ (R405). Assumption 17. -/
opaque Config.energyDrawn : Nat → BitVec 32

/-- Byte i of the quote the attestation engine writes, from the count of signatures so far, which picks the key's leaf (R427), the nonce
and DEVID (R428); the firmware is the part's own. Assumption 12. -/
opaque Config.quoteByte : Nat → Nat → Word → Nat → Byte

/-- Byte i of the FRU EEPROM, written at manufacture (R425). Assumption 5. -/
opaque Config.fruByte : Nat → Byte

/-- Bits of flit k of the n-th message that leaves the device, where no layout is given (R134, R338). Assumption 95. -/
opaque Config.flitBits : Nat → Nat → BitVec 128

/-- The code that a saved record has for a state of R165, the states in the order of its table (R418). Assumption 13. -/
opaque Config.stateCode : Nat → Byte

/-- Byte i of the opaque part of a saved context record, and of a saved core record (R418). Assumption 13. -/
opaque Config.savedByte : Nat → Nat → Byte

end Sys2Proof
end

