-- ==== Sys2Proof/Syntax.lean ====
section
/-! DEFINITION. The instructions of the machine: one constructor of `Instr` for each row of the opcode table. A field with a
fixed set of names is an inductive type, a register number is a `Fin`, an immediate keeps its bits. The events of the table
carry what arrives. -/

namespace Sys2Proof

/-- Every row of the opcode table: syllables, micro-ops of the matrix sequencer, and events. `g` is the guard (R201), `e` and
`f` the trap bits eA and eB (R194). -/
inductive Instr where
  -- B class (R223)
  | br (g : Fin 16) (d : BitVec 14) (k : Fin 64)
  | brL (g : Fin 16) (d : BitVec 14) (k : Fin 64)
  | brx (g : Fin 16) (s : Src) (e : Bool)
  | brxL (g : Fin 16) (s : Src) (e : Bool)
  | ret (g : Fin 16)
  | loopPin (g : Fin 16) (s : Src) (e : Bool) (n : Fin 128)
  | loopEnd (g : Fin 16)
  | loopBrk (g : Fin 16) (d : BitVec 14) (k : Fin 64)
  | segAlt (g : Fin 16) (d : BitVec 14) (k : Fin 64)
  | mpush (g : Fin 16) (a : Fin 8)
  | mpop (g : Fin 16) (a : Fin 8)
  | mjoin (g : Fin 16) (a b : Fin 8)
  | endNode (g : Fin 16)
  | yield (g : Fin 16)
  | parkT (g : Fin 16) (s : Src) (e : Bool)
  | waitEv (g : Fin 16) (v : Fin 64)
  | sigEv (g : Fin 16) (v : Fin 64)
  | spawn (g : Fin 16) (s : Src) (p : Fin 8) (n : Fin 4096)
  | trap (g : Fin 16) (n : BitVec 8)
  | eret (g : Fin 16)
  | brk (g : Fin 16) (n : BitVec 8)
  | katArm (g : Fin 16) (s : Src) (e : Bool)
  | haltCtx (g : Fin 16) (s : Src) (e : Bool)
  | illegal (g : Fin 16)
  -- S class (R202, R221)
  | add (g : Fin 16) (d : Dst) (a b : Src) (e f : Bool)
  | sub (g : Fin 16) (d : Dst) (a b : Src) (e f : Bool)
  | mul (g : Fin 16) (d : Dst) (a b : Src) (e f : Bool)
  | mulh (g : Fin 16) (d : Dst) (a b : Src) (e f : Bool)
  | mulhu (g : Fin 16) (d : Dst) (a b : Src) (e f : Bool)
  | div (g : Fin 16) (d : Dst) (a b : Src) (e f : Bool)
  | divu (g : Fin 16) (d : Dst) (a b : Src) (e f : Bool)
  | rem (g : Fin 16) (d : Dst) (a b : Src) (e f : Bool)
  | remu (g : Fin 16) (d : Dst) (a b : Src) (e f : Bool)
  | and (g : Fin 16) (d : Dst) (a b : Src) (e f : Bool)
  | or (g : Fin 16) (d : Dst) (a b : Src) (e f : Bool)
  | xor (g : Fin 16) (d : Dst) (a b : Src) (e f : Bool)
  | andn (g : Fin 16) (d : Dst) (a b : Src) (e f : Bool)
  | shl (g : Fin 16) (d : Dst) (a b : Src) (e f : Bool)
  | shr (g : Fin 16) (d : Dst) (a b : Src) (e f : Bool)
  | sra (g : Fin 16) (d : Dst) (a b : Src) (e f : Bool)
  | rotl (g : Fin 16) (d : Dst) (a b : Src) (e f : Bool)
  | min (g : Fin 16) (d : Dst) (a b : Src) (e f : Bool)
  | max (g : Fin 16) (d : Dst) (a b : Src) (e f : Bool)
  | minu (g : Fin 16) (d : Dst) (a b : Src) (e f : Bool)
  | maxu (g : Fin 16) (d : Dst) (a b : Src) (e f : Bool)
  | addi (g : Fin 16) (d : Dst) (a : Src) (e : Bool) (i : BitVec 9)
  | andi (g : Fin 16) (d : Dst) (a : Src) (e : Bool) (i : BitVec 9)
  | ori (g : Fin 16) (d : Dst) (a : Src) (e : Bool) (i : BitVec 9)
  | xori (g : Fin 16) (d : Dst) (a : Src) (e : Bool) (i : BitVec 9)
  | shli (g : Fin 16) (d : Dst) (a : Src) (e : Bool) (i : BitVec 9)
  | shri (g : Fin 16) (d : Dst) (a : Src) (e : Bool) (i : BitVec 9)
  | srai (g : Fin 16) (d : Dst) (a : Src) (e : Bool) (i : BitVec 9)
  | movi (g : Fin 16) (d : Dst) (i : BitVec 9)
  | movhi (g : Fin 16) (d : Dst) (a : Src) (e : Bool) (i : BitVec 9)
  | cmpEq (g : Fin 16) (p : Fin 8) (a b : Src) (e f : Bool)
  | cmpNe (g : Fin 16) (p : Fin 8) (a b : Src) (e f : Bool)
  | cmpLt (g : Fin 16) (p : Fin 8) (a b : Src) (e f : Bool)
  | cmpGe (g : Fin 16) (p : Fin 8) (a b : Src) (e f : Bool)
  | cmpLtu (g : Fin 16) (p : Fin 8) (a b : Src) (e f : Bool)
  | cmpGeu (g : Fin 16) (p : Fin 8) (a b : Src) (e f : Bool)
  | cmpiEq (g : Fin 16) (p : Fin 8) (a : Src) (e : Bool) (i : BitVec 9)
  | cmpiLt (g : Fin 16) (p : Fin 8) (a : Src) (e : Bool) (i : BitVec 9)
  | cmpiLtu (g : Fin 16) (p : Fin 8) (a : Src) (e : Bool) (i : BitVec 9)
  | clz (g : Fin 16) (d : Dst) (a : Src) (e : Bool)
  | ctz (g : Fin 16) (d : Dst) (a : Src) (e : Bool)
  | popc (g : Fin 16) (d : Dst) (a : Src) (e : Bool)
  | bfx (g : Fin 16) (d : Dst) (a b : Src) (e f x : Bool)
  | bfi (g : Fin 16) (d : Dst) (a b : Src) (e f : Bool)
  | sext (g : Fin 16) (d : Dst) (a : Src) (e : Bool) (x : SextW)
  | sel (g : Fin 16) (d : Dst) (a b : Src) (e f : Bool) (x : Fin 8)
  | lea (g : Fin 16) (d : Dst) (a b : Src) (e f : Bool) (x : Fin 8)
  | hcoord (g : Fin 16) (d : Dst) (a b : Src) (e f : Bool) (x : Fin 8)
  | pand (g : Fin 16) (p : Fin 8) (a b : Fin 16) (n : Bool)
  | por (g : Fin 16) (p : Fin 8) (a b : Fin 16) (n : Bool)
  | pxor (g : Fin 16) (p : Fin 8) (a b : Fin 16) (n : Bool)
  | mpar (g : Fin 16) (a : Src) (e : Bool) (s : Space)
  | mova (g : Fin 16) (d : Dst) (k : Fin 8)
  | hld (g h : Fin 16) (a : Src) (e : Bool) (s : Space)
  | hst (g h : Fin 16) (a : Src) (e : Bool) (s : Space)
  | hset (g h : Fin 16) (a b : Src) (e f : Bool)
  | ldB (g : Fin 16) (d : Dst) (a b : Src) (e f : Bool) (s : Space) (x : Bool)
  | ldH (g : Fin 16) (d : Dst) (a b : Src) (e f : Bool) (s : Space) (x : Bool)
  | ldW (g : Fin 16) (d : Dst) (a b : Src) (e f : Bool) (s : Space) (x : Bool)
  | ldD (g : Fin 16) (d : Dst) (a b : Src) (e f : Bool) (s : Space)
  | ldsB (g : Fin 16) (d : Dst) (a : Src) (s : Space) (r e : Bool) (c : Scope)
  | ldsH (g : Fin 16) (d : Dst) (a : Src) (s : Space) (r e : Bool) (c : Scope)
  | ldsW (g : Fin 16) (d : Dst) (a : Src) (s : Space) (r e : Bool) (c : Scope)
  | ldsD (g : Fin 16) (d : Dst) (a : Src) (s : Space) (r e : Bool) (c : Scope)
  | stB (g : Fin 16) (s : Space) (a b : Src) (e f : Bool)
  | stH (g : Fin 16) (s : Space) (a b : Src) (e f : Bool)
  | stW (g : Fin 16) (s : Space) (a b : Src) (e f : Bool)
  | stD (g : Fin 16) (s : Space) (a b : Src) (e f : Bool)
  | stsB (g : Fin 16) (s : Space) (r : Bool) (a b : Src) (e f : Bool) (c : Scope)
  | stsH (g : Fin 16) (s : Space) (r : Bool) (a b : Src) (e f : Bool) (c : Scope)
  | stsW (g : Fin 16) (s : Space) (r : Bool) (a b : Src) (e f : Bool) (c : Scope)
  | stsD (g : Fin 16) (s : Space) (r : Bool) (a b : Src) (e f : Bool) (c : Scope)
  | amoAdd (g : Fin 16) (s : Space) (w : Bool) (o : AmoOrd) (a b : Src) (e f : Bool) (c : Scope)
  | amoAnd (g : Fin 16) (s : Space) (w : Bool) (o : AmoOrd) (a b : Src) (e f : Bool) (c : Scope)
  | amoOr (g : Fin 16) (s : Space) (w : Bool) (o : AmoOrd) (a b : Src) (e f : Bool) (c : Scope)
  | amoXor (g : Fin 16) (s : Space) (w : Bool) (o : AmoOrd) (a b : Src) (e f : Bool) (c : Scope)
  | amoMin (g : Fin 16) (s : Space) (w : Bool) (o : AmoOrd) (a b : Src) (e f : Bool) (c : Scope)
  | amoMax (g : Fin 16) (s : Space) (w : Bool) (o : AmoOrd) (a b : Src) (e f : Bool) (c : Scope)
  | amoMinu (g : Fin 16) (s : Space) (w : Bool) (o : AmoOrd) (a b : Src) (e f : Bool) (c : Scope)
  | amoMaxu (g : Fin 16) (s : Space) (w : Bool) (o : AmoOrd) (a b : Src) (e f : Bool) (c : Scope)
  | amoSwap (g : Fin 16) (s : Space) (w : Bool) (o : AmoOrd) (a b : Src) (e f : Bool) (c : Scope)
  | amoCas (g : Fin 16) (s : Space) (w : Bool) (o : AmoOrd) (a : Src) (b : Fin 8) (e f : Bool) (c : Scope)
  | fxinit (g : Fin 16) (a b : Src) (e f : Bool) (s : Space)
  | fxaddF32 (g : Fin 16) (a b : Src) (e f : Bool) (s : Space)
  | fxaddH (g : Fin 16) (a b : Src) (e f : Bool) (s : Space)
  | fxrd (g : Fin 16) (d : Dst) (a : Src) (e : Bool) (s : Space)
  | fence (g : Fin 16) (o : FenceOrd) (c : Scope)
  | fenceSurv (g : Fin 16)
  | mls (g b : Fin 16)
  | mlsArr (g b : Fin 16)
  | mlsWt (g b : Fin 16)
  | mlsQ (g : Fin 16) (d : Dst) (b : Fin 16)
  | sysrd (g : Fin 16) (d : Dst) (n : SysReg)
  | syswr (g : Fin 16) (n : SysReg) (b : Src)
  | time (g : Fin 16) (d : Dst)
  | energy (g : Fin 16) (d : Dst)
  | cycle (g : Fin 16) (d : Dst)
  | tlbPf (g : Fin 16) (a : Src) (e : Bool)
  | pgInv (g : Fin 16) (a b : Src) (e f : Bool)
  | pwrReq (g : Fin 16) (a : Src) (e : Bool)
  | pwrRel (g : Fin 16)
  | lvlIdx (g : Fin 16) (d : Dst) (k : Fin 8)
  | lvlCnt (g : Fin 16) (d : Dst) (k : Fin 8)
  | crc (g : Fin 16) (d : Dst) (a b : Src) (e f : Bool) (x : Fin 4)
  -- V class (R257)
  | vfadd (g d a b : Fin 16) (m : Fin 8) (e f : Bool) (t : FTy)
  | vfsub (g d a b : Fin 16) (m : Fin 8) (e f : Bool) (t : FTy)
  | vfmul (g d a b : Fin 16) (m : Fin 8) (e f : Bool) (t : FTy)
  | vfma (g d a b : Fin 16) (m : Fin 8) (e f : Bool) (t : FTy)
  | vfms (g d a b : Fin 16) (m : Fin 8) (e f : Bool) (t : FTy)
  | vfnma (g d a b : Fin 16) (m : Fin 8) (e f : Bool) (t : FTy)
  | vfmin (g d a b : Fin 16) (m : Fin 8) (e f : Bool) (t : FTy)
  | vfmax (g d a b : Fin 16) (m : Fin 8) (e f : Bool) (t : FTy)
  | vfabs (g d a : Fin 16) (m : Fin 8) (e : Bool) (t : FTy)
  | vfneg (g d a : Fin 16) (m : Fin 8) (e : Bool) (t : FTy)
  | vfcpys (g d a b : Fin 16) (m : Fin 8) (e f : Bool) (t : FTy)
  | vrcp (g d a : Fin 16) (m : Fin 8) (e : Bool) (t : FTy)
  | vrsq (g d a : Fin 16) (m : Fin 8) (e : Bool) (t : FTy)
  | vsqrt (g d a : Fin 16) (m : Fin 8) (e : Bool) (t : FTy)
  | vexp2 (g d a : Fin 16) (m : Fin 8) (e : Bool) (t : FTy)
  | vlog2 (g d a : Fin 16) (m : Fin 8) (e : Bool) (t : FTy)
  | vtanh (g d a : Fin 16) (m : Fin 8) (e : Bool) (t : FTy)
  | vsig (g d a : Fin 16) (m : Fin 8) (e : Bool) (t : FTy)
  | vdiv (g d a b : Fin 16) (m : Fin 8) (e f : Bool) (t : FTy)
  | vfcmpEq (g : Fin 16) (p : Fin 4) (a b : Fin 16) (m : Fin 8) (e f : Bool) (t : FTy)
  | vfcmpLt (g : Fin 16) (p : Fin 4) (a b : Fin 16) (m : Fin 8) (e f : Bool) (t : FTy)
  | vfcmpLe (g : Fin 16) (p : Fin 4) (a b : Fin 16) (m : Fin 8) (e f : Bool) (t : FTy)
  | vfcmpUn (g : Fin 16) (p : Fin 4) (a b : Fin 16) (m : Fin 8) (e f : Bool) (t : FTy)
  | vadd (g d a b : Fin 16) (m : Fin 8) (e f : Bool) (t : ITy)
  | vsub (g d a b : Fin 16) (m : Fin 8) (e f : Bool) (t : ITy)
  | vmul (g d a b : Fin 16) (m : Fin 8) (e f : Bool) (t : ITy)
  | vmulh (g d a b : Fin 16) (m : Fin 8) (e f : Bool) (t : ITy)
  | vmin (g d a b : Fin 16) (m : Fin 8) (e f : Bool) (t : ITy)
  | vmax (g d a b : Fin 16) (m : Fin 8) (e f : Bool) (t : ITy)
  | vminu (g d a b : Fin 16) (m : Fin 8) (e f : Bool) (t : ITy)
  | vmaxu (g d a b : Fin 16) (m : Fin 8) (e f : Bool) (t : ITy)
  | vand (g d a b : Fin 16) (m : Fin 8) (e f : Bool)
  | vor (g d a b : Fin 16) (m : Fin 8) (e f : Bool)
  | vxor (g d a b : Fin 16) (m : Fin 8) (e f : Bool)
  | vshl (g d a b : Fin 16) (m : Fin 8) (e f : Bool) (t : ITy)
  | vshr (g d a b : Fin 16) (m : Fin 8) (e f : Bool) (t : ITy)
  | vsra (g d a b : Fin 16) (m : Fin 8) (e f : Bool) (t : ITy)
  | vabs (g d a : Fin 16) (m : Fin 8) (e : Bool) (t : ITy)
  | vcmpEq (g : Fin 16) (p : Fin 4) (a b : Fin 16) (m : Fin 8) (e f : Bool) (t : ITy)
  | vcmpLt (g : Fin 16) (p : Fin 4) (a b : Fin 16) (m : Fin 8) (e f : Bool) (t : ITy)
  | vcmpLtu (g : Fin 16) (p : Fin 4) (a b : Fin 16) (m : Fin 8) (e f : Bool) (t : ITy)
  | vmov (g d a : Fin 16) (m : Fin 8) (e : Bool)
  | vsplat (g d a : Fin 16) (m : Fin 8) (e : Bool) (t : XTy)
  | vins (g d a b : Fin 16) (m : Fin 8) (e f : Bool) (t : XTy)
  | vext (g d a b : Fin 16) (e f : Bool) (t : XTy)
  | vsel (g d a b : Fin 16) (m : Fin 8) (e f : Bool)
  | vperm (g d a b : Fin 16) (m : Fin 8) (e f : Bool)
  | vrot (g d a b : Fin 16) (m : Fin 8) (e f : Bool)
  | vzip (g d a b : Fin 16) (s : Fin 4) (e f : Bool) (t : XTy)
  | vidx (g d a b : Fin 16) (m : Fin 8) (e f : Bool)
  | vrsum (g d a : Fin 16) (m : Fin 8) (e : Bool) (t : XTy)
  | vrmax (g d a : Fin 16) (m : Fin 8) (e : Bool) (t : XTy)
  | vrmin (g d a : Fin 16) (m : Fin 8) (e : Bool) (t : XTy)
  | vrmaxi (g d a : Fin 16) (m : Fin 8) (e : Bool) (t : XTy)
  | vrpop (g d : Fin 16) (m : Fin 8)
  | vtopk (g d a b : Fin 16) (m : Fin 8) (e f : Bool) (t : KTy)
  | vtopkI (g d a b : Fin 16) (m : Fin 8) (e f : Bool) (t : KTy)
  | vsort (g d a : Fin 16) (m : Fin 8) (e : Bool) (t : KTy)
  | vrank (g d a : Fin 16) (m : Fin 8) (e : Bool) (t : KTy)
  | vqnt (g d a b : Fin 16) (e f : Bool) (t : MxFmt)
  | vdqnt (g d a b : Fin 16) (j : Fin 4) (e f : Bool) (t : MxFmt)
  | vcvt (g d a : Fin 16) (m : Fin 8) (e : Bool) (t : Fin 8)
  | vpack (g d a b : Fin 16) (m : Fin 8) (e f : Bool) (t : Fin 8)
  | vunpk (g d a h : Fin 16) (m : Fin 8) (e : Bool) (t : Fin 8)
  | vsrnd (g a : Fin 16) (m : Fin 8) (e : Bool)
  | vld (g d a b : Fin 16) (m : Fin 8) (e f : Bool) (s : Space)
  | vst (g d a b : Fin 16) (m : Fin 8) (e f : Bool) (s : Space)
  | vldT (g d h : Fin 16) (b m : Fin 8) (f c : Bool)
  | vstT (g d h : Fin 16) (b m : Fin 8) (f c : Bool)
  | vgat (g d a b : Fin 16) (m : Fin 8) (e f k : Bool) (s : Space)
  | vsca (g d a b : Fin 16) (m : Fin 8) (e f k : Bool) (s : Space)
  | vldB (g d a b : Fin 16) (m : Fin 8) (e f : Bool) (s : Space)
  | mand (g : Fin 16) (d a b : Fin 8)
  | mor (g : Fin 16) (d a b : Fin 8)
  | mxor (g : Fin 16) (d a b : Fin 8)
  | mnot (g : Fin 16) (d a : Fin 8)
  | mfirst (g : Fin 16) (d a : Fin 8)
  | mset (g : Fin 16) (d : Fin 8) (a : Fin 16) (e : Bool)
  | msetRd (g d : Fin 16) (a : Fin 8)
  | vaccRd (g d : Fin 16) (n : Fin 8) (b : Fin 16) (m : Fin 8) (f c : Bool)
  | vaccPk (g d : Fin 16) (n : Fin 8) (b : Fin 16) (m : Fin 8) (f c : Bool)
  | vaccWr (g : Fin 16) (n : Fin 8) (a b : Fin 16) (m : Fin 8) (e f c : Bool)
  | vclamp (g d a b : Fin 16) (m : Fin 8) (e f : Bool) (t : XTy)
  | vdot4 (g d a b : Fin 16) (m : Fin 8) (e f : Bool) (t : Dot4Ty)
  | vfrnd (g d a : Fin 16) (m : Fin 8) (e : Bool) (t : FTy)
  | vfexp (g d a : Fin 16) (m : Fin 8) (e : Bool) (t : FTy)
  | vscl (g d a b : Fin 16) (m : Fin 8) (e f : Bool) (t : FTy)
  | vcompress (g d a : Fin 16) (m : Fin 8) (e : Bool) (t : KTy)
  | vexpand (g d a : Fin 16) (m : Fin 8) (e : Bool) (t : KTy)
  | vscan (g d a : Fin 16) (m : Fin 8) (e : Bool) (t : XTy)
  | vlut (g d a b : Fin 16) (m : Fin 8) (e f t : Bool)
  | vclz (g d a : Fin 16) (m : Fin 8) (e : Bool) (t : ITy)
  | vpopc (g d a : Fin 16) (m : Fin 8) (e : Bool) (t : ITy)
  | vbfx (g d a b : Fin 16) (m : Fin 8) (e f : Bool) (t : ITy)
  | vrev (g d a : Fin 16) (m : Fin 8) (e : Bool) (t : XTy)
  | vhist (g d a : Fin 16) (m : Fin 8) (e : Bool) (t : ITy)
  | vbcast (g d a b : Fin 16) (m : Fin 8) (e f : Bool) (t : XTy)
  -- M class (R299)
  | mcall (g : Fin 16) (k : Fin 256)
  | mcallB (g : Fin 16) (k : Fin 256)
  | mwait (g : Fin 16)
  | mscale (g : Fin 16) (f i : Fin 4)
  | mdrain (g : Fin 16) (i : Fin 4)
  | mclr (g : Fin 16) (i f : BitVec 4)
  | mldMs (g : Fin 16) (a : Src) (e : Bool)
  | mstMs (g : Fin 16) (a b : Src) (e f : Bool)
  | mqClr (g : Fin 16) (a b l : Bool)
  | mqSt (g : Fin 16) (d : Dst)
  | mhalf (g : Fin 16) (n : Bool)
  | mchk (g : Fin 16) (d : Dst) (i : Fin 4)
  | mfix (g : Fin 16) (f i : Fin 4) (x : BitVec 8)
  | mmov (g : Fin 16) (d s : Fin 8)
  | mstat (g : Fin 16) (d : Dst)
  | mabort (g : Fin 16)
  -- micro-ops (R291)
  | nop (n : MNext)
  | ldc (n : MNext) (c : Fin 4) (v : LdcArg)
  | decc (n : MNext) (c : Fin 4)
  | jmp (nt : Fin 4096) (k : Fin 8)
  | jcnd (nt nf : Fin 4096) (k : Fin 8) (b : Fin 64)
  | pulla (n : MNext)
  | pullb (n : MNext)
  | mac (n : MNext) (x : MacArg)
  | macb (n : MNext) (x : MacArg)
  | segcut (n : MNext)
  | ckacc (n : MNext)
  | ckcmp (n : MNext)
  | postp (n : MNext) (tag : BitVec 16)
  | halfp (n : MNext)
  | waitq (n : MNext) (a b : Bool) (k : Fin 8)
  | endRoutine
  -- C class (R315)
  | cpyGo (g : Fin 16) (a : Src) (e : Bool) (c : Fin 4)
  | cpyGq (g : Fin 16) (a b : Src) (e f : Bool) (c : Fin 4)
  | cpyDrn (g : Fin 16) (c : Fin 4)
  | cpySt (g : Fin 16) (d : Dst) (c : Fin 4)
  | cpyPb (g : Fin 16) (a : Src) (e : Bool)
  | cpyInv (g : Fin 16) (a : Src) (e : Bool)
  | cpyZero (g h : Fin 16) (c : Fin 4)
  | cpyFill (g : Fin 16) (a b : Src) (e f : Bool) (c : Fin 4)
  | cpyCvt (g : Fin 16) (a : Src) (e : Bool) (c : Fin 4)
  | cpyCancel (g : Fin 16) (c : Fin 4)
  | tmov (g d s : Fin 16) (a b : Fin 8)
  | tmovH (g d s : Fin 16) (a b : Fin 8)
  | rlay (g h : Fin 16) (a b : Src) (e f : Bool)
  | rlayWt (g h : Fin 16)
  | rlaySt (g h : Fin 16)
  | bcDrv (g : Fin 16) (d : Dst) (a : Src) (e : Bool)
  | bcLat (g : Fin 16) (d : Dst) (a : Src) (e : Bool)
  | bcSync (g : Fin 16) (a b : Src) (e f : Bool)
  | bufArm (g : Fin 16) (c k : Fin 4) (a b : Src) (e f : Bool)
  | bufSwp (g : Fin 16) (k : Fin 4)
  | bufSt (g : Fin 16) (d : Dst) (k : Fin 4)
  | pfG (g : Fin 16) (a b : Src) (e f : Bool)
  -- F class (R315)
  | fsend (g h : Fin 16) (a : Src) (e : Bool)
  | fsendV (g v : Fin 16) (a : Src) (e : Bool)
  | fsendM (g : Fin 16) (a : Src) (b : Fin 8) (e f : Bool)
  | rpost (g h : Fin 16) (a : Fin 8) (b : Src) (e f : Bool)
  | rpostW (g h : Fin 16) (a : Fin 8) (b : Src) (e f : Bool)
  | rcancel (g : Fin 16) (d : Dst) (a : Src) (e : Bool)
  | rprobe (g : Fin 16) (d : Dst) (a : Src) (e : Bool)
  | rwait (g : Fin 16) (d : Dst) (a : Src) (e : Bool)
  | rlbQ (g : Fin 16) (d : Dst) (a : Fin 8) (e : Bool)
  | fdrn (g : Fin 16)
  | collRed (g h : Fin 16) (a : Src) (e : Bool)
  | collAg (g h : Fin 16) (a : Src) (e : Bool)
  | collRs (g h : Fin 16) (a : Src) (e : Bool)
  | collA2a (g h : Fin 16) (a : Src) (e : Bool)
  | collBar (g : Fin 16) (a : Src) (e : Bool)
  | collSt (g : Fin 16) (d : Dst)
  | collRing (g : Fin 16) (a b : Src) (e f : Bool)
  | noiseRd (g : Fin 16) (d : Dst) (n : Fin 4)
  | noiseClr (g : Fin 16)
  | fpeer (g : Fin 16) (d : Dst) (a : Src) (e : Bool)
  | fslot (g : Fin 16) (d : Dst) (a : Src) (e : Bool)
  | fbays (g : Fin 16) (d : Dst) (a : Src) (e : Bool)
  | fevt (g : Fin 16) (d : Dst)
  | fretune (g : Fin 16) (a : Src) (e : Bool)
  | frepair (g : Fin 16) (a b : Src) (e f : Bool)
  | fgrant (g : Fin 16) (a : Src) (e : Bool)
  -- events and engine steps
  | resultLand (c : Nat) (k : Nat)
  | blockCleared (c : Nat)
  | contextSwitch (g : Nat)
  | quantum (g : Nat)
  | stopSpacing (c : Nat)
  | fetchRefill (c : Nat)
  | parkTExpiry (c : Nat)
  | syncRoundRelease (n : Nat) (id : Nat)
  | katInject (g : Nat) (inst : BitVec 8) (fails : BitVec 16)
  | kickGo
  | poolPlace
  | priorityAging
  | dieDispatch (d : Nat)
  | lineAck (c : Nat) (id : Nat)
  | walkComplete (c : Nat)
  | remoteAccessArrival (r : RemoteReq)
  | remoteReply (id : Nat) (data : BitVec 512)
  | remoteRefusal (id : Nat) (dev : Fin 64) (cause : BitVec 8)
  | poisonConsumed (c : Nat) (addr : Nat) (space : Space) (slot : Fin 8)
  | patrolScrub (addr : Nat)
  | deltaArrival (d : Delta)
  | parityAckArrival (l : List ParityAck)
  | relayoutTile (d : Nat) (view : PeerView)
  | copyExecute (g : Nat) (ch : Fin 4) (view : PeerView)
  | copyComplete (g : Nat) (ch : Fin 4)
  | routineStart (g : Nat)
  | scalePerform (g : Nat)
  | mdrainPerform (g : Nat)
  | mclrPerform (g : Nat)
  | mmovPerform (g : Nat)
  | vaccRdPerform (g : Nat)
  | rotorSlotBoundary
  | periodBoundary
  | controlFlitArrival (plane : Fin 32) (peer : Fin 64) (f : Flit)
  | dataFlitArrival (plane : Fin 32) (peer : Fin 64) (f : Flit)
  | messageHeaderArrival (m : MsgArrival)
  | relayedHeaderArrival (plane : Fin 32) (peer origin target : Fin 64) (flits : List (BitVec 4 × BitVec 128))
  | landingComplete (e : Nat)
  | sendComplete (id : Nat) (lost : Bool)
  | collectiveExecute (r : Fin 16) (peers : List CollPeer) (lost : Bool)
  | lineDrift (comb : Fin 3) (w : Fin 64) (offset : BitVec 8)
  | reserveSubstitution
  | linkTraining (plane : Fin 32) (peer : Fin 64) (rate : BitVec 2)
  | retrainTimeout (plane : Fin 32) (peer : Fin 64)
  | keeperMarkLoss
  | fabricDrained
  | tollBoundary
  | mailboxWrite (therm : Bool) (v : BitVec 64)
  | permitsWrite (n : Nat) (v : BitVec 64)
  | framemapSync
  | framemapSyncDone
  | protctlWrite (v : BitVec 64)
  | rebuildAll (view : PeerView)
  | rebuildFrame (view : PeerView)
  | rebuildParity (view : PeerView)
  | rebuildDone
  | devnumWrite (v : BitVec 64)
  | fabricEnable (on : Bool)
  | fabricDrain
  | profileSelect (profile : BitVec 2) (psw : BitVec 24)
  | preemptSave
  | preemptRestore
  | saveRoutineTimeout
  | contextSaved (c : Nat)
  | fatalStore (c : Nat) (v : BitVec 64)
  | powerOn (r : SelfTest)
  | powerLoss
  | selftestRetest (r : SelfTest)
  | pcieLinkTraining (hostMax : Fin 8)
  | fruRead (addr : Nat) (size : Nat)
  | vacateGo
  | vacateBudgetTimeout
  | attestGo
  | attestDone
  | keyLoad
  | keyErase
  | registerWrite (addr : Nat) (size : Nat) (v : BitVec 64)
  | softError (e : SoftErr)
  | hostBarAccess (h : HostAccess)
  | vacateCopyDone
  deriving DecidableEq, Repr

end Sys2Proof
end

