-- ==== Sys2Proof/Engine.lean ====
section
/-! DEFINITION. The table's C and F syllables, micro-ops and events as types of their own. `Instr` has one constructor for each
row of the table, more than Lean's compiled code can build (it allows a data constructor at most 245 places), so the parts of
the machine that PRODUCE such an instruction while it runs (the decoders of classes C and F, the matrix sequencer, the agenda
of events) produce these, and `toInstr` names the instruction each stands for. They add no meaning of their own. -/

namespace Sys2Proof

/-- A C or F syllable. -/
inductive EngSyl where
  | cpyGo (g : Fin 16) (a : Src) (e : Bool) (c : Fin 4)
  | cpyGq (g : Fin 16) (a b : Src) (e f : Bool) (c : Fin 4)
  | cpyDrn (g : Fin 16) (c : Fin 4)
  | cpySt (g : Fin 16) (d : Dst) (c : Fin 4)
  | cpyPb (g : Fin 16) (a : Src) (e : Bool)
  | cpyInv (g : Fin 16) (a : Src) (e : Bool)
  | cpyZero (g h : Fin 16) (c : Fin 4)
  | cpyFill (g : Fin 16) (a b : Src) (e f : Bool) (c : Fin 4)
  | cpyCvt (g : Fin 16) (a : Src) (e : Bool) (c : Fin 4)
  | cpyCancel (g : Fin 16) (c : Fin 4)
  | tmov (g d s : Fin 16) (a b : Fin 8)
  | tmovH (g d s : Fin 16) (a b : Fin 8)
  | rlay (g h : Fin 16) (a b : Src) (e f : Bool)
  | rlayWt (g h : Fin 16)
  | rlaySt (g h : Fin 16)
  | bcDrv (g : Fin 16) (d : Dst) (a : Src) (e : Bool)
  | bcLat (g : Fin 16) (d : Dst) (a : Src) (e : Bool)
  | bcSync (g : Fin 16) (a b : Src) (e f : Bool)
  | bufArm (g : Fin 16) (c k : Fin 4) (a b : Src) (e f : Bool)
  | bufSwp (g : Fin 16) (k : Fin 4)
  | bufSt (g : Fin 16) (d : Dst) (k : Fin 4)
  | pfG (g : Fin 16) (a b : Src) (e f : Bool)
  | fsend (g h : Fin 16) (a : Src) (e : Bool)
  | fsendV (g v : Fin 16) (a : Src) (e : Bool)
  | fsendM (g : Fin 16) (a : Src) (b : Fin 8) (e f : Bool)
  | rpost (g h : Fin 16) (a : Fin 8) (b : Src) (e f : Bool)
  | rpostW (g h : Fin 16) (a : Fin 8) (b : Src) (e f : Bool)
  | rcancel (g : Fin 16) (d : Dst) (a : Src) (e : Bool)
  | rprobe (g : Fin 16) (d : Dst) (a : Src) (e : Bool)
  | rwait (g : Fin 16) (d : Dst) (a : Src) (e : Bool)
  | rlbQ (g : Fin 16) (d : Dst) (a : Fin 8) (e : Bool)
  | fdrn (g : Fin 16)
  | collRed (g h : Fin 16) (a : Src) (e : Bool)
  | collAg (g h : Fin 16) (a : Src) (e : Bool)
  | collRs (g h : Fin 16) (a : Src) (e : Bool)
  | collA2a (g h : Fin 16) (a : Src) (e : Bool)
  | collBar (g : Fin 16) (a : Src) (e : Bool)
  | collSt (g : Fin 16) (d : Dst)
  | collRing (g : Fin 16) (a b : Src) (e f : Bool)
  | noiseRd (g : Fin 16) (d : Dst) (n : Fin 4)
  | noiseClr (g : Fin 16)
  | fpeer (g : Fin 16) (d : Dst) (a : Src) (e : Bool)
  | fslot (g : Fin 16) (d : Dst) (a : Src) (e : Bool)
  | fbays (g : Fin 16) (d : Dst) (a : Src) (e : Bool)
  | fevt (g : Fin 16) (d : Dst)
  | fretune (g : Fin 16) (a : Src) (e : Bool)
  | frepair (g : Fin 16) (a b : Src) (e f : Bool)
  | fgrant (g : Fin 16) (a : Src) (e : Bool)
  deriving DecidableEq, Repr

/-- The instruction it stands for. -/
noncomputable def EngSyl.toInstr : EngSyl → Instr
  | .cpyGo g a e c => .cpyGo g a e c
  | .cpyGq g a b e f c => .cpyGq g a b e f c
  | .cpyDrn g c => .cpyDrn g c
  | .cpySt g d c => .cpySt g d c
  | .cpyPb g a e => .cpyPb g a e
  | .cpyInv g a e => .cpyInv g a e
  | .cpyZero g h c => .cpyZero g h c
  | .cpyFill g a b e f c => .cpyFill g a b e f c
  | .cpyCvt g a e c => .cpyCvt g a e c
  | .cpyCancel g c => .cpyCancel g c
  | .tmov g d s a b => .tmov g d s a b
  | .tmovH g d s a b => .tmovH g d s a b
  | .rlay g h a b e f => .rlay g h a b e f
  | .rlayWt g h => .rlayWt g h
  | .rlaySt g h => .rlaySt g h
  | .bcDrv g d a e => .bcDrv g d a e
  | .bcLat g d a e => .bcLat g d a e
  | .bcSync g a b e f => .bcSync g a b e f
  | .bufArm g c k a b e f => .bufArm g c k a b e f
  | .bufSwp g k => .bufSwp g k
  | .bufSt g d k => .bufSt g d k
  | .pfG g a b e f => .pfG g a b e f
  | .fsend g h a e => .fsend g h a e
  | .fsendV g v a e => .fsendV g v a e
  | .fsendM g a b e f => .fsendM g a b e f
  | .rpost g h a b e f => .rpost g h a b e f
  | .rpostW g h a b e f => .rpostW g h a b e f
  | .rcancel g d a e => .rcancel g d a e
  | .rprobe g d a e => .rprobe g d a e
  | .rwait g d a e => .rwait g d a e
  | .rlbQ g d a e => .rlbQ g d a e
  | .fdrn g => .fdrn g
  | .collRed g h a e => .collRed g h a e
  | .collAg g h a e => .collAg g h a e
  | .collRs g h a e => .collRs g h a e
  | .collA2a g h a e => .collA2a g h a e
  | .collBar g a e => .collBar g a e
  | .collSt g d => .collSt g d
  | .collRing g a b e f => .collRing g a b e f
  | .noiseRd g d n => .noiseRd g d n
  | .noiseClr g => .noiseClr g
  | .fpeer g d a e => .fpeer g d a e
  | .fslot g d a e => .fslot g d a e
  | .fbays g d a e => .fbays g d a e
  | .fevt g d => .fevt g d
  | .fretune g a e => .fretune g a e
  | .frepair g a b e f => .frepair g a b e f
  | .fgrant g a e => .fgrant g a e

/-- A micro-op of the matrix sequencer (R291). -/
inductive Micro where
  | nop (n : MNext)
  | ldc (n : MNext) (c : Fin 4) (v : LdcArg)
  | decc (n : MNext) (c : Fin 4)
  | jmp (nt : Fin 4096) (k : Fin 8)
  | jcnd (nt nf : Fin 4096) (k : Fin 8) (b : Fin 64)
  | pulla (n : MNext)
  | pullb (n : MNext)
  | mac (n : MNext) (x : MacArg)
  | macb (n : MNext) (x : MacArg)
  | segcut (n : MNext)
  | ckacc (n : MNext)
  | ckcmp (n : MNext)
  | postp (n : MNext) (tag : BitVec 16)
  | halfp (n : MNext)
  | waitq (n : MNext) (a b : Bool) (k : Fin 8)
  | endRoutine
  deriving DecidableEq, Repr

/-- The instruction it stands for. -/
noncomputable def Micro.toInstr : Micro → Instr
  | .nop n => .nop n
  | .ldc n c v => .ldc n c v
  | .decc n c => .decc n c
  | .jmp nt k => .jmp nt k
  | .jcnd nt nf k b => .jcnd nt nf k b
  | .pulla n => .pulla n
  | .pullb n => .pullb n
  | .mac n x => .mac n x
  | .macb n x => .macb n x
  | .segcut n => .segcut n
  | .ckacc n => .ckacc n
  | .ckcmp n => .ckcmp n
  | .postp n tag => .postp n tag
  | .halfp n => .halfp n
  | .waitq n a b k => .waitq n a b k
  | .endRoutine => .endRoutine

/-- An event or engine step of the table. -/
inductive Event where
  | resultLand (c : Nat) (k : Nat)
  | blockCleared (c : Nat)
  | contextSwitch (g : Nat)
  | quantum (g : Nat)
  | stopSpacing (c : Nat)
  | fetchRefill (c : Nat)
  | parkTExpiry (c : Nat)
  | syncRoundRelease (n : Nat) (id : Nat)
  | katInject (g : Nat) (inst : BitVec 8) (fails : BitVec 16)
  | kickGo
  | poolPlace
  | priorityAging
  | dieDispatch (d : Nat)
  | lineAck (c : Nat) (id : Nat)
  | walkComplete (c : Nat)
  | remoteAccessArrival (r : RemoteReq)
  | remoteReply (id : Nat) (data : BitVec 512)
  | remoteRefusal (id : Nat) (dev : Fin 64) (cause : BitVec 8)
  | poisonConsumed (c : Nat) (addr : Nat) (space : Space) (slot : Fin 8)
  | patrolScrub (addr : Nat)
  | deltaArrival (d : Delta)
  | parityAckArrival (l : List ParityAck)
  | relayoutTile (d : Nat) (view : PeerView)
  | copyExecute (g : Nat) (ch : Fin 4) (view : PeerView)
  | copyComplete (g : Nat) (ch : Fin 4)
  | routineStart (g : Nat)
  | scalePerform (g : Nat)
  | mdrainPerform (g : Nat)
  | mclrPerform (g : Nat)
  | mmovPerform (g : Nat)
  | vaccRdPerform (g : Nat)
  | rotorSlotBoundary
  | periodBoundary
  | controlFlitArrival (plane : Fin 32) (peer : Fin 64) (f : Flit)
  | dataFlitArrival (plane : Fin 32) (peer : Fin 64) (f : Flit)
  | messageHeaderArrival (m : MsgArrival)
  | relayedHeaderArrival (plane : Fin 32) (peer origin target : Fin 64) (flits : List (BitVec 4 × BitVec 128))
  | landingComplete (e : Nat)
  | sendComplete (id : Nat) (lost : Bool)
  | collectiveExecute (r : Fin 16) (peers : List CollPeer) (lost : Bool)
  | lineDrift (comb : Fin 3) (w : Fin 64) (offset : BitVec 8)
  | reserveSubstitution
  | linkTraining (plane : Fin 32) (peer : Fin 64) (rate : BitVec 2)
  | retrainTimeout (plane : Fin 32) (peer : Fin 64)
  | keeperMarkLoss
  | fabricDrained
  | tollBoundary
  | mailboxWrite (therm : Bool) (v : BitVec 64)
  | permitsWrite (n : Nat) (v : BitVec 64)
  | framemapSync
  | framemapSyncDone
  | protctlWrite (v : BitVec 64)
  | rebuildAll (view : PeerView)
  | rebuildFrame (view : PeerView)
  | rebuildParity (view : PeerView)
  | rebuildDone
  | devnumWrite (v : BitVec 64)
  | fabricEnable (on : Bool)
  | fabricDrain
  | profileSelect (profile : BitVec 2) (psw : BitVec 24)
  | preemptSave
  | preemptRestore
  | saveRoutineTimeout
  | contextSaved (c : Nat)
  | fatalStore (c : Nat) (v : BitVec 64)
  | powerOn (r : SelfTest)
  | powerLoss
  | selftestRetest (r : SelfTest)
  | pcieLinkTraining (hostMax : Fin 8)
  | fruRead (addr : Nat) (size : Nat)
  | vacateGo
  | vacateBudgetTimeout
  | attestGo
  | attestDone
  | keyLoad
  | keyErase
  | registerWrite (addr : Nat) (size : Nat) (v : BitVec 64)
  | softError (e : SoftErr)
  | hostBarAccess (h : HostAccess)
  | vacateCopyDone
  deriving DecidableEq, Repr

/-- The instruction it stands for. -/
noncomputable def Event.toInstr : Event → Instr
  | .resultLand c k => .resultLand c k
  | .blockCleared c => .blockCleared c
  | .contextSwitch g => .contextSwitch g
  | .quantum g => .quantum g
  | .stopSpacing c => .stopSpacing c
  | .fetchRefill c => .fetchRefill c
  | .parkTExpiry c => .parkTExpiry c
  | .syncRoundRelease n id => .syncRoundRelease n id
  | .katInject g inst fails => .katInject g inst fails
  | .kickGo => .kickGo
  | .poolPlace => .poolPlace
  | .priorityAging => .priorityAging
  | .dieDispatch d => .dieDispatch d
  | .lineAck c id => .lineAck c id
  | .walkComplete c => .walkComplete c
  | .remoteAccessArrival r => .remoteAccessArrival r
  | .remoteReply id data => .remoteReply id data
  | .remoteRefusal id dev cause => .remoteRefusal id dev cause
  | .poisonConsumed c addr space slot => .poisonConsumed c addr space slot
  | .patrolScrub addr => .patrolScrub addr
  | .deltaArrival d => .deltaArrival d
  | .parityAckArrival l => .parityAckArrival l
  | .relayoutTile d view => .relayoutTile d view
  | .copyExecute g ch view => .copyExecute g ch view
  | .copyComplete g ch => .copyComplete g ch
  | .routineStart g => .routineStart g
  | .scalePerform g => .scalePerform g
  | .mdrainPerform g => .mdrainPerform g
  | .mclrPerform g => .mclrPerform g
  | .mmovPerform g => .mmovPerform g
  | .vaccRdPerform g => .vaccRdPerform g
  | .rotorSlotBoundary => .rotorSlotBoundary
  | .periodBoundary => .periodBoundary
  | .controlFlitArrival plane peer f => .controlFlitArrival plane peer f
  | .dataFlitArrival plane peer f => .dataFlitArrival plane peer f
  | .messageHeaderArrival m => .messageHeaderArrival m
  | .relayedHeaderArrival plane peer origin target flits => .relayedHeaderArrival plane peer origin target flits
  | .landingComplete e => .landingComplete e
  | .sendComplete id lost => .sendComplete id lost
  | .collectiveExecute r peers lost => .collectiveExecute r peers lost
  | .lineDrift comb w offset => .lineDrift comb w offset
  | .reserveSubstitution => .reserveSubstitution
  | .linkTraining plane peer rate => .linkTraining plane peer rate
  | .retrainTimeout plane peer => .retrainTimeout plane peer
  | .keeperMarkLoss => .keeperMarkLoss
  | .fabricDrained => .fabricDrained
  | .tollBoundary => .tollBoundary
  | .mailboxWrite therm v => .mailboxWrite therm v
  | .permitsWrite n v => .permitsWrite n v
  | .framemapSync => .framemapSync
  | .framemapSyncDone => .framemapSyncDone
  | .protctlWrite v => .protctlWrite v
  | .rebuildAll view => .rebuildAll view
  | .rebuildFrame view => .rebuildFrame view
  | .rebuildParity view => .rebuildParity view
  | .rebuildDone => .rebuildDone
  | .devnumWrite v => .devnumWrite v
  | .fabricEnable on => .fabricEnable on
  | .fabricDrain => .fabricDrain
  | .profileSelect profile psw => .profileSelect profile psw
  | .preemptSave => .preemptSave
  | .preemptRestore => .preemptRestore
  | .saveRoutineTimeout => .saveRoutineTimeout
  | .contextSaved c => .contextSaved c
  | .fatalStore c v => .fatalStore c v
  | .powerOn r => .powerOn r
  | .powerLoss => .powerLoss
  | .selftestRetest r => .selftestRetest r
  | .pcieLinkTraining hostMax => .pcieLinkTraining hostMax
  | .fruRead addr size => .fruRead addr size
  | .vacateGo => .vacateGo
  | .vacateBudgetTimeout => .vacateBudgetTimeout
  | .attestGo => .attestGo
  | .attestDone => .attestDone
  | .keyLoad => .keyLoad
  | .keyErase => .keyErase
  | .registerWrite addr size v => .registerWrite addr size v
  | .softError e => .softError e
  | .hostBarAccess h => .hostBarAccess h
  | .vacateCopyDone => .vacateCopyDone

end Sys2Proof
end

