-- ==== Sys2Proof/WellFormed.lean ====
section
/-! DEFINITION. What the operand types do not already say of an instruction: the checks on a syllable's own fields that join two
of them, and the shape of a microword. Also the class of each instruction. -/

namespace Sys2Proof

/-- The six syllable classes (R201), the micro-ops and the events. -/
inductive Cls where
  | b | s | v | m | micro | c | f | event
  deriving DecidableEq, Repr

/-- COND = 0 has NF = 0 (R289). -/
def MNext.wf (n : MNext) : Bool := !(n.cond == .always) || n.nf == 0

/-- The granules `vunpk` may name (R272): `h` is below the ratio of the element counts. -/
def unpkLimit (t : Fin 8) : Nat := if t = 2 ∨ t = 3 then 4 else 2

/-- The well-formed instructions: what the decoder accepts beyond the ranges of the operand types. -/
def Instr.wf : Instr → Bool
  | .br _ _ _ => true
  | .brL _ _ _ => true
  | .brx _ _ _ => true
  | .brxL _ _ _ => true
  | .ret _ => true
  | .loopPin _ _ _ n => 1 ≤ n.val && n.val ≤ 64
  | .loopEnd _ => true
  | .loopBrk _ _ _ => true
  | .segAlt _ _ _ => true
  | .mpush _ _ => true
  | .mpop _ _ => true
  | .mjoin _ _ _ => true
  | .endNode _ => true
  | .yield _ => true
  | .parkT _ _ _ => true
  | .waitEv _ _ => true
  | .sigEv _ _ => true
  | .spawn _ _ _ _ => true
  | .trap _ _ => true
  | .eret _ => true
  | .brk _ _ => true
  | .katArm _ _ _ => true
  | .haltCtx _ _ _ => true
  | .illegal _ => true
  | .add _ _ _ _ _ _ => true
  | .sub _ _ _ _ _ _ => true
  | .mul _ _ _ _ _ _ => true
  | .mulh _ _ _ _ _ _ => true
  | .mulhu _ _ _ _ _ _ => true
  | .div _ _ _ _ _ _ => true
  | .divu _ _ _ _ _ _ => true
  | .rem _ _ _ _ _ _ => true
  | .remu _ _ _ _ _ _ => true
  | .and _ _ _ _ _ _ => true
  | .or _ _ _ _ _ _ => true
  | .xor _ _ _ _ _ _ => true
  | .andn _ _ _ _ _ _ => true
  | .shl _ _ _ _ _ _ => true
  | .shr _ _ _ _ _ _ => true
  | .sra _ _ _ _ _ _ => true
  | .rotl _ _ _ _ _ _ => true
  | .min _ _ _ _ _ _ => true
  | .max _ _ _ _ _ _ => true
  | .minu _ _ _ _ _ _ => true
  | .maxu _ _ _ _ _ _ => true
  | .addi _ _ _ _ _ => true
  | .andi _ _ _ _ _ => true
  | .ori _ _ _ _ _ => true
  | .xori _ _ _ _ _ => true
  | .shli _ _ _ _ _ => true
  | .shri _ _ _ _ _ => true
  | .srai _ _ _ _ _ => true
  | .movi _ _ _ => true
  | .movhi _ _ _ _ _ => true
  | .cmpEq _ _ _ _ _ _ => true
  | .cmpNe _ _ _ _ _ _ => true
  | .cmpLt _ _ _ _ _ _ => true
  | .cmpGe _ _ _ _ _ _ => true
  | .cmpLtu _ _ _ _ _ _ => true
  | .cmpGeu _ _ _ _ _ _ => true
  | .cmpiEq _ _ _ _ _ => true
  | .cmpiLt _ _ _ _ _ => true
  | .cmpiLtu _ _ _ _ _ => true
  | .clz _ _ _ _ => true
  | .ctz _ _ _ _ => true
  | .popc _ _ _ _ => true
  | .bfx _ _ _ _ _ _ _ => true
  | .bfi _ d _ _ _ _ => d != .queue
  | .sext _ _ _ _ _ => true
  | .sel _ _ _ _ _ _ _ => true
  | .lea _ _ _ _ _ _ _ => true
  | .hcoord _ _ _ _ _ _ _ => true
  | .pand _ _ _ _ _ => true
  | .por _ _ _ _ _ => true
  | .pxor _ _ _ _ _ => true
  | .mpar _ _ _ _ => true
  | .mova _ _ _ => true
  | .hld _ _ _ _ _ => true
  | .hst _ _ _ _ _ => true
  | .hset _ _ _ _ _ _ => true
  | .ldB _ _ _ _ _ _ _ _ => true
  | .ldH _ _ _ _ _ _ _ _ => true
  | .ldW _ _ _ _ _ _ _ _ => true
  | .ldD _ _ _ _ _ _ _ => true
  | .ldsB _ _ _ _ _ _ _ => true
  | .ldsH _ _ _ _ _ _ _ => true
  | .ldsW _ _ _ _ _ _ _ => true
  | .ldsD _ _ _ _ _ _ _ => true
  | .stB _ _ _ _ _ _ => true
  | .stH _ _ _ _ _ _ => true
  | .stW _ _ _ _ _ _ => true
  | .stD _ _ _ _ _ _ => true
  | .stsB _ _ _ _ _ _ _ _ => true
  | .stsH _ _ _ _ _ _ _ _ => true
  | .stsW _ _ _ _ _ _ _ _ => true
  | .stsD _ _ _ _ _ _ _ _ => true
  | .amoAdd _ _ _ _ _ _ _ _ _ => true
  | .amoAnd _ _ _ _ _ _ _ _ _ => true
  | .amoOr _ _ _ _ _ _ _ _ _ => true
  | .amoXor _ _ _ _ _ _ _ _ _ => true
  | .amoMin _ _ _ _ _ _ _ _ _ => true
  | .amoMax _ _ _ _ _ _ _ _ _ => true
  | .amoMinu _ _ _ _ _ _ _ _ _ => true
  | .amoMaxu _ _ _ _ _ _ _ _ _ => true
  | .amoSwap _ _ _ _ _ _ _ _ _ => true
  | .amoCas _ _ _ _ _ _ _ _ _ => true
  | .fxinit _ _ _ _ _ _ => true
  | .fxaddF32 _ _ _ _ _ _ => true
  | .fxaddH _ _ _ _ _ _ => true
  | .fxrd _ _ _ _ _ => true
  | .fence _ _ _ => true
  | .fenceSurv _ => true
  | .mls _ _ => true
  | .mlsArr _ _ => true
  | .mlsWt _ _ => true
  | .mlsQ _ _ _ => true
  | .sysrd _ _ _ => true
  | .syswr _ _ _ => true
  | .time _ _ => true
  | .energy _ _ => true
  | .cycle _ _ => true
  | .tlbPf _ _ _ => true
  | .pgInv _ _ _ _ _ => true
  | .pwrReq _ _ _ => true
  | .pwrRel _ => true
  | .lvlIdx _ _ _ => true
  | .lvlCnt _ _ _ => true
  | .crc _ _ _ _ _ _ _ => true
  | .vfadd _ _ _ _ _ _ _ _ => true
  | .vfsub _ _ _ _ _ _ _ _ => true
  | .vfmul _ _ _ _ _ _ _ _ => true
  | .vfma _ _ _ _ _ _ _ _ => true
  | .vfms _ _ _ _ _ _ _ _ => true
  | .vfnma _ _ _ _ _ _ _ _ => true
  | .vfmin _ _ _ _ _ _ _ _ => true
  | .vfmax _ _ _ _ _ _ _ _ => true
  | .vfabs _ _ _ _ _ _ => true
  | .vfneg _ _ _ _ _ _ => true
  | .vfcpys _ _ _ _ _ _ _ _ => true
  | .vrcp _ _ _ _ _ _ => true
  | .vrsq _ _ _ _ _ _ => true
  | .vsqrt _ _ _ _ _ _ => true
  | .vexp2 _ _ _ _ _ _ => true
  | .vlog2 _ _ _ _ _ _ => true
  | .vtanh _ _ _ _ _ _ => true
  | .vsig _ _ _ _ _ _ => true
  | .vdiv _ _ _ _ _ _ _ _ => true
  | .vfcmpEq _ _ _ _ _ _ _ _ => true
  | .vfcmpLt _ _ _ _ _ _ _ _ => true
  | .vfcmpLe _ _ _ _ _ _ _ _ => true
  | .vfcmpUn _ _ _ _ _ _ _ _ => true
  | .vadd _ _ _ _ _ _ _ _ => true
  | .vsub _ _ _ _ _ _ _ _ => true
  | .vmul _ _ _ _ _ _ _ _ => true
  | .vmulh _ _ _ _ _ _ _ _ => true
  | .vmin _ _ _ _ _ _ _ _ => true
  | .vmax _ _ _ _ _ _ _ _ => true
  | .vminu _ _ _ _ _ _ _ _ => true
  | .vmaxu _ _ _ _ _ _ _ _ => true
  | .vand _ _ _ _ _ _ _ => true
  | .vor _ _ _ _ _ _ _ => true
  | .vxor _ _ _ _ _ _ _ => true
  | .vshl _ _ _ _ _ _ _ _ => true
  | .vshr _ _ _ _ _ _ _ _ => true
  | .vsra _ _ _ _ _ _ _ _ => true
  | .vabs _ _ _ _ _ _ => true
  | .vcmpEq _ _ _ _ _ _ _ _ => true
  | .vcmpLt _ _ _ _ _ _ _ _ => true
  | .vcmpLtu _ _ _ _ _ _ _ _ => true
  | .vmov _ _ _ _ _ => true
  | .vsplat _ _ _ _ _ _ => true
  | .vins _ _ _ _ _ _ _ _ => true
  | .vext _ _ _ _ _ _ _ => true
  | .vsel _ _ _ _ _ _ _ => true
  | .vperm _ _ _ _ _ _ _ => true
  | .vrot _ _ _ _ _ _ _ => true
  | .vzip _ _ _ _ _ _ _ _ => true
  | .vidx _ _ _ _ _ _ _ => true
  | .vrsum _ _ _ _ _ _ => true
  | .vrmax _ _ _ _ _ _ => true
  | .vrmin _ _ _ _ _ _ => true
  | .vrmaxi _ _ _ _ _ _ => true
  | .vrpop _ _ _ => true
  | .vtopk _ _ _ _ _ _ _ _ => true
  | .vtopkI _ _ _ _ _ _ _ _ => true
  | .vsort _ _ _ _ _ _ => true
  | .vrank _ _ _ _ _ _ => true
  | .vqnt _ _ _ _ _ _ _ => true
  | .vdqnt _ _ _ _ _ _ _ _ => true
  | .vcvt _ _ _ _ _ _ => true
  | .vpack _ _ _ b _ _ f t => !(t == 2 || t == 3) || (b.val < 4 && !f)
  | .vunpk _ _ _ h _ _ t => h.val < unpkLimit t
  | .vsrnd _ _ _ _ => true
  | .vld _ _ _ _ _ _ _ _ => true
  | .vst _ _ _ _ _ _ _ _ => true
  | .vldT _ _ _ _ _ _ _ => true
  | .vstT _ _ _ _ _ _ _ => true
  | .vgat _ _ _ _ _ _ _ _ _ => true
  | .vsca _ _ _ _ _ _ _ _ _ => true
  | .vldB _ _ _ _ _ _ _ _ => true
  | .mand _ _ _ _ => true
  | .mor _ _ _ _ => true
  | .mxor _ _ _ _ => true
  | .mnot _ _ _ => true
  | .mfirst _ _ _ => true
  | .mset _ _ _ _ => true
  | .msetRd _ _ _ => true
  | .vaccRd _ _ _ _ _ _ _ => true
  | .vaccPk _ _ _ _ _ _ _ => true
  | .vaccWr _ _ _ _ _ _ _ _ => true
  | .vclamp _ _ _ _ _ _ _ _ => true
  | .vdot4 _ _ _ _ _ _ _ _ => true
  | .vfrnd _ _ _ _ _ _ => true
  | .vfexp _ _ _ _ _ _ => true
  | .vscl _ _ _ _ _ _ _ _ => true
  | .vcompress _ _ _ _ _ _ => true
  | .vexpand _ _ _ _ _ _ => true
  | .vscan _ _ _ _ _ _ => true
  | .vlut _ _ _ _ _ _ _ _ => true
  | .vclz _ _ _ _ _ _ => true
  | .vpopc _ _ _ _ _ _ => true
  | .vbfx _ _ _ _ _ _ _ _ => true
  | .vrev _ _ _ _ _ _ => true
  | .vhist _ _ _ _ _ _ => true
  | .vbcast _ _ _ _ _ _ _ _ => true
  | .mcall _ _ => true
  | .mcallB _ _ => true
  | .mwait _ => true
  | .mscale _ _ _ => true
  | .mdrain _ _ => true
  | .mclr _ _ _ => true
  | .mldMs _ _ _ => true
  | .mstMs _ _ _ _ _ => true
  | .mqClr _ _ _ _ => true
  | .mqSt _ _ => true
  | .mhalf _ _ => true
  | .mchk _ _ _ => true
  | .mfix _ _ _ _ => true
  | .mmov _ _ _ => true
  | .mstat _ _ => true
  | .mabort _ => true
  | .nop n => n.wf
  | .ldc n _ _ => n.wf
  | .decc n _ => n.wf
  | .jmp _ _ => true
  | .jcnd _ _ _ _ => true
  | .pulla n => n.wf
  | .pullb n => n.wf
  | .mac n _ => n.wf
  | .macb n _ => n.wf
  | .segcut n => n.wf
  | .ckacc n => n.wf
  | .ckcmp n => n.wf
  | .postp n _ => n.wf
  | .halfp n => n.wf
  | .waitq n _ _ k => n.wf && 1 ≤ k.val && k.val ≤ 4
  | .endRoutine => true
  | .cpyGo _ _ _ _ => true
  | .cpyGq _ _ _ _ _ _ => true
  | .cpyDrn _ _ => true
  | .cpySt _ _ _ => true
  | .cpyPb _ _ _ => true
  | .cpyInv _ _ _ => true
  | .cpyZero _ _ _ => true
  | .cpyFill _ _ _ _ _ _ => true
  | .cpyCvt _ _ _ _ => true
  | .cpyCancel _ _ => true
  | .tmov _ _ _ _ _ => true
  | .tmovH _ _ _ _ _ => true
  | .rlay _ _ _ _ _ _ => true
  | .rlayWt _ _ => true
  | .rlaySt _ _ => true
  | .bcDrv _ _ _ _ => true
  | .bcLat _ _ _ _ => true
  | .bcSync _ _ _ _ _ => true
  | .bufArm _ _ _ _ _ _ _ => true
  | .bufSwp _ _ => true
  | .bufSt _ _ _ => true
  | .pfG _ _ _ _ _ => true
  | .fsend _ _ _ _ => true
  | .fsendV _ _ _ _ => true
  | .fsendM _ _ _ _ _ => true
  | .rpost _ _ _ _ _ _ => true
  | .rpostW _ _ _ _ _ _ => true
  | .rcancel _ _ _ _ => true
  | .rprobe _ _ _ _ => true
  | .rwait _ _ _ _ => true
  | .rlbQ _ _ _ _ => true
  | .fdrn _ => true
  | .collRed _ _ _ _ => true
  | .collAg _ _ _ _ => true
  | .collRs _ _ _ _ => true
  | .collA2a _ _ _ _ => true
  | .collBar _ _ _ => true
  | .collSt _ _ => true
  | .collRing _ _ _ _ _ => true
  | .noiseRd _ _ _ => true
  | .noiseClr _ => true
  | .fpeer _ _ _ _ => true
  | .fslot _ _ _ _ => true
  | .fbays _ _ _ _ => true
  | .fevt _ _ => true
  | .fretune _ _ _ => true
  | .frepair _ _ _ _ _ => true
  | .fgrant _ _ _ => true
  | .resultLand _ _ => true
  | .blockCleared _ => true
  | .contextSwitch _ => true
  | .quantum _ => true
  | .stopSpacing _ => true
  | .fetchRefill _ => true
  | .parkTExpiry _ => true
  | .syncRoundRelease _ _ => true
  | .katInject _ _ _ => true
  | .kickGo => true
  | .poolPlace => true
  | .priorityAging => true
  | .dieDispatch _ => true
  | .lineAck _ _ => true
  | .walkComplete _ => true
  | .remoteAccessArrival _ => true
  | .remoteReply _ _ => true
  | .remoteRefusal _ _ _ => true
  | .poisonConsumed _ _ _ _ => true
  | .patrolScrub _ => true
  | .deltaArrival _ => true
  | .parityAckArrival l => 0 < l.length && l.length ≤ 8
  | .relayoutTile _ _ => true
  | .copyExecute _ _ _ => true
  | .copyComplete _ _ => true
  | .routineStart _ => true
  | .scalePerform _ => true
  | .mdrainPerform _ => true
  | .mclrPerform _ => true
  | .mmovPerform _ => true
  | .vaccRdPerform _ => true
  | .rotorSlotBoundary => true
  | .periodBoundary => true
  | .controlFlitArrival _ _ _ => true
  | .dataFlitArrival _ _ _ => true
  | .messageHeaderArrival _ => true
  | .relayedHeaderArrival _ _ _ _ _ => true
  | .landingComplete _ => true
  | .sendComplete _ _ => true
  | .collectiveExecute _ _ _ => true
  | .lineDrift _ _ _ => true
  | .reserveSubstitution => true
  | .linkTraining _ _ _ => true
  | .retrainTimeout _ _ => true
  | .keeperMarkLoss => true
  | .fabricDrained => true
  | .tollBoundary => true
  | .mailboxWrite _ _ => true
  | .permitsWrite _ _ => true
  | .framemapSync => true
  | .framemapSyncDone => true
  | .protctlWrite _ => true
  | .rebuildAll _ => true
  | .rebuildFrame _ => true
  | .rebuildParity _ => true
  | .rebuildDone => true
  | .devnumWrite _ => true
  | .fabricEnable _ => true
  | .fabricDrain => true
  | .profileSelect _ _ => true
  | .preemptSave => true
  | .preemptRestore => true
  | .saveRoutineTimeout => true
  | .contextSaved _ => true
  | .fatalStore _ _ => true
  | .powerOn _ => true
  | .powerLoss => true
  | .selftestRetest _ => true
  | .pcieLinkTraining _ => true
  | .fruRead _ _ => true
  | .vacateGo => true
  | .vacateBudgetTimeout => true
  | .attestGo => true
  | .attestDone => true
  | .keyLoad => true
  | .keyErase => true
  | .registerWrite _ _ _ => true
  | .softError _ => true
  | .hostBarAccess _ => true
  | .vacateCopyDone => true

/-- The cause an ill-formed syllable shows (R208, R236, R272). -/
def Instr.illFormedCause : Instr → Nat
  | .loopPin .. => 0x0E
  | _ => 0x02

/-- The class of an instruction. -/
def Instr.cls : Instr → Cls
  | .br _ _ _ => .b
  | .brL _ _ _ => .b
  | .brx _ _ _ => .b
  | .brxL _ _ _ => .b
  | .ret _ => .b
  | .loopPin _ _ _ _ => .b
  | .loopEnd _ => .b
  | .loopBrk _ _ _ => .b
  | .segAlt _ _ _ => .b
  | .mpush _ _ => .b
  | .mpop _ _ => .b
  | .mjoin _ _ _ => .b
  | .endNode _ => .b
  | .yield _ => .b
  | .parkT _ _ _ => .b
  | .waitEv _ _ => .b
  | .sigEv _ _ => .b
  | .spawn _ _ _ _ => .b
  | .trap _ _ => .b
  | .eret _ => .b
  | .brk _ _ => .b
  | .katArm _ _ _ => .b
  | .haltCtx _ _ _ => .b
  | .illegal _ => .b
  | .add _ _ _ _ _ _ => .s
  | .sub _ _ _ _ _ _ => .s
  | .mul _ _ _ _ _ _ => .s
  | .mulh _ _ _ _ _ _ => .s
  | .mulhu _ _ _ _ _ _ => .s
  | .div _ _ _ _ _ _ => .s
  | .divu _ _ _ _ _ _ => .s
  | .rem _ _ _ _ _ _ => .s
  | .remu _ _ _ _ _ _ => .s
  | .and _ _ _ _ _ _ => .s
  | .or _ _ _ _ _ _ => .s
  | .xor _ _ _ _ _ _ => .s
  | .andn _ _ _ _ _ _ => .s
  | .shl _ _ _ _ _ _ => .s
  | .shr _ _ _ _ _ _ => .s
  | .sra _ _ _ _ _ _ => .s
  | .rotl _ _ _ _ _ _ => .s
  | .min _ _ _ _ _ _ => .s
  | .max _ _ _ _ _ _ => .s
  | .minu _ _ _ _ _ _ => .s
  | .maxu _ _ _ _ _ _ => .s
  | .addi _ _ _ _ _ => .s
  | .andi _ _ _ _ _ => .s
  | .ori _ _ _ _ _ => .s
  | .xori _ _ _ _ _ => .s
  | .shli _ _ _ _ _ => .s
  | .shri _ _ _ _ _ => .s
  | .srai _ _ _ _ _ => .s
  | .movi _ _ _ => .s
  | .movhi _ _ _ _ _ => .s
  | .cmpEq _ _ _ _ _ _ => .s
  | .cmpNe _ _ _ _ _ _ => .s
  | .cmpLt _ _ _ _ _ _ => .s
  | .cmpGe _ _ _ _ _ _ => .s
  | .cmpLtu _ _ _ _ _ _ => .s
  | .cmpGeu _ _ _ _ _ _ => .s
  | .cmpiEq _ _ _ _ _ => .s
  | .cmpiLt _ _ _ _ _ => .s
  | .cmpiLtu _ _ _ _ _ => .s
  | .clz _ _ _ _ => .s
  | .ctz _ _ _ _ => .s
  | .popc _ _ _ _ => .s
  | .bfx _ _ _ _ _ _ _ => .s
  | .bfi _ _ _ _ _ _ => .s
  | .sext _ _ _ _ _ => .s
  | .sel _ _ _ _ _ _ _ => .s
  | .lea _ _ _ _ _ _ _ => .s
  | .hcoord _ _ _ _ _ _ _ => .s
  | .pand _ _ _ _ _ => .s
  | .por _ _ _ _ _ => .s
  | .pxor _ _ _ _ _ => .s
  | .mpar _ _ _ _ => .s
  | .mova _ _ _ => .s
  | .hld _ _ _ _ _ => .s
  | .hst _ _ _ _ _ => .s
  | .hset _ _ _ _ _ _ => .s
  | .ldB _ _ _ _ _ _ _ _ => .s
  | .ldH _ _ _ _ _ _ _ _ => .s
  | .ldW _ _ _ _ _ _ _ _ => .s
  | .ldD _ _ _ _ _ _ _ => .s
  | .ldsB _ _ _ _ _ _ _ => .s
  | .ldsH _ _ _ _ _ _ _ => .s
  | .ldsW _ _ _ _ _ _ _ => .s
  | .ldsD _ _ _ _ _ _ _ => .s
  | .stB _ _ _ _ _ _ => .s
  | .stH _ _ _ _ _ _ => .s
  | .stW _ _ _ _ _ _ => .s
  | .stD _ _ _ _ _ _ => .s
  | .stsB _ _ _ _ _ _ _ _ => .s
  | .stsH _ _ _ _ _ _ _ _ => .s
  | .stsW _ _ _ _ _ _ _ _ => .s
  | .stsD _ _ _ _ _ _ _ _ => .s
  | .amoAdd _ _ _ _ _ _ _ _ _ => .s
  | .amoAnd _ _ _ _ _ _ _ _ _ => .s
  | .amoOr _ _ _ _ _ _ _ _ _ => .s
  | .amoXor _ _ _ _ _ _ _ _ _ => .s
  | .amoMin _ _ _ _ _ _ _ _ _ => .s
  | .amoMax _ _ _ _ _ _ _ _ _ => .s
  | .amoMinu _ _ _ _ _ _ _ _ _ => .s
  | .amoMaxu _ _ _ _ _ _ _ _ _ => .s
  | .amoSwap _ _ _ _ _ _ _ _ _ => .s
  | .amoCas _ _ _ _ _ _ _ _ _ => .s
  | .fxinit _ _ _ _ _ _ => .s
  | .fxaddF32 _ _ _ _ _ _ => .s
  | .fxaddH _ _ _ _ _ _ => .s
  | .fxrd _ _ _ _ _ => .s
  | .fence _ _ _ => .s
  | .fenceSurv _ => .s
  | .mls _ _ => .s
  | .mlsArr _ _ => .s
  | .mlsWt _ _ => .s
  | .mlsQ _ _ _ => .s
  | .sysrd _ _ _ => .s
  | .syswr _ _ _ => .s
  | .time _ _ => .s
  | .energy _ _ => .s
  | .cycle _ _ => .s
  | .tlbPf _ _ _ => .s
  | .pgInv _ _ _ _ _ => .s
  | .pwrReq _ _ _ => .s
  | .pwrRel _ => .s
  | .lvlIdx _ _ _ => .s
  | .lvlCnt _ _ _ => .s
  | .crc _ _ _ _ _ _ _ => .s
  | .vfadd _ _ _ _ _ _ _ _ => .v
  | .vfsub _ _ _ _ _ _ _ _ => .v
  | .vfmul _ _ _ _ _ _ _ _ => .v
  | .vfma _ _ _ _ _ _ _ _ => .v
  | .vfms _ _ _ _ _ _ _ _ => .v
  | .vfnma _ _ _ _ _ _ _ _ => .v
  | .vfmin _ _ _ _ _ _ _ _ => .v
  | .vfmax _ _ _ _ _ _ _ _ => .v
  | .vfabs _ _ _ _ _ _ => .v
  | .vfneg _ _ _ _ _ _ => .v
  | .vfcpys _ _ _ _ _ _ _ _ => .v
  | .vrcp _ _ _ _ _ _ => .v
  | .vrsq _ _ _ _ _ _ => .v
  | .vsqrt _ _ _ _ _ _ => .v
  | .vexp2 _ _ _ _ _ _ => .v
  | .vlog2 _ _ _ _ _ _ => .v
  | .vtanh _ _ _ _ _ _ => .v
  | .vsig _ _ _ _ _ _ => .v
  | .vdiv _ _ _ _ _ _ _ _ => .v
  | .vfcmpEq _ _ _ _ _ _ _ _ => .v
  | .vfcmpLt _ _ _ _ _ _ _ _ => .v
  | .vfcmpLe _ _ _ _ _ _ _ _ => .v
  | .vfcmpUn _ _ _ _ _ _ _ _ => .v
  | .vadd _ _ _ _ _ _ _ _ => .v
  | .vsub _ _ _ _ _ _ _ _ => .v
  | .vmul _ _ _ _ _ _ _ _ => .v
  | .vmulh _ _ _ _ _ _ _ _ => .v
  | .vmin _ _ _ _ _ _ _ _ => .v
  | .vmax _ _ _ _ _ _ _ _ => .v
  | .vminu _ _ _ _ _ _ _ _ => .v
  | .vmaxu _ _ _ _ _ _ _ _ => .v
  | .vand _ _ _ _ _ _ _ => .v
  | .vor _ _ _ _ _ _ _ => .v
  | .vxor _ _ _ _ _ _ _ => .v
  | .vshl _ _ _ _ _ _ _ _ => .v
  | .vshr _ _ _ _ _ _ _ _ => .v
  | .vsra _ _ _ _ _ _ _ _ => .v
  | .vabs _ _ _ _ _ _ => .v
  | .vcmpEq _ _ _ _ _ _ _ _ => .v
  | .vcmpLt _ _ _ _ _ _ _ _ => .v
  | .vcmpLtu _ _ _ _ _ _ _ _ => .v
  | .vmov _ _ _ _ _ => .v
  | .vsplat _ _ _ _ _ _ => .v
  | .vins _ _ _ _ _ _ _ _ => .v
  | .vext _ _ _ _ _ _ _ => .v
  | .vsel _ _ _ _ _ _ _ => .v
  | .vperm _ _ _ _ _ _ _ => .v
  | .vrot _ _ _ _ _ _ _ => .v
  | .vzip _ _ _ _ _ _ _ _ => .v
  | .vidx _ _ _ _ _ _ _ => .v
  | .vrsum _ _ _ _ _ _ => .v
  | .vrmax _ _ _ _ _ _ => .v
  | .vrmin _ _ _ _ _ _ => .v
  | .vrmaxi _ _ _ _ _ _ => .v
  | .vrpop _ _ _ => .v
  | .vtopk _ _ _ _ _ _ _ _ => .v
  | .vtopkI _ _ _ _ _ _ _ _ => .v
  | .vsort _ _ _ _ _ _ => .v
  | .vrank _ _ _ _ _ _ => .v
  | .vqnt _ _ _ _ _ _ _ => .v
  | .vdqnt _ _ _ _ _ _ _ _ => .v
  | .vcvt _ _ _ _ _ _ => .v
  | .vpack _ _ _ _ _ _ _ _ => .v
  | .vunpk _ _ _ _ _ _ _ => .v
  | .vsrnd _ _ _ _ => .v
  | .vld _ _ _ _ _ _ _ _ => .v
  | .vst _ _ _ _ _ _ _ _ => .v
  | .vldT _ _ _ _ _ _ _ => .v
  | .vstT _ _ _ _ _ _ _ => .v
  | .vgat _ _ _ _ _ _ _ _ _ => .v
  | .vsca _ _ _ _ _ _ _ _ _ => .v
  | .vldB _ _ _ _ _ _ _ _ => .v
  | .mand _ _ _ _ => .v
  | .mor _ _ _ _ => .v
  | .mxor _ _ _ _ => .v
  | .mnot _ _ _ => .v
  | .mfirst _ _ _ => .v
  | .mset _ _ _ _ => .v
  | .msetRd _ _ _ => .v
  | .vaccRd _ _ _ _ _ _ _ => .v
  | .vaccPk _ _ _ _ _ _ _ => .v
  | .vaccWr _ _ _ _ _ _ _ _ => .v
  | .vclamp _ _ _ _ _ _ _ _ => .v
  | .vdot4 _ _ _ _ _ _ _ _ => .v
  | .vfrnd _ _ _ _ _ _ => .v
  | .vfexp _ _ _ _ _ _ => .v
  | .vscl _ _ _ _ _ _ _ _ => .v
  | .vcompress _ _ _ _ _ _ => .v
  | .vexpand _ _ _ _ _ _ => .v
  | .vscan _ _ _ _ _ _ => .v
  | .vlut _ _ _ _ _ _ _ _ => .v
  | .vclz _ _ _ _ _ _ => .v
  | .vpopc _ _ _ _ _ _ => .v
  | .vbfx _ _ _ _ _ _ _ _ => .v
  | .vrev _ _ _ _ _ _ => .v
  | .vhist _ _ _ _ _ _ => .v
  | .vbcast _ _ _ _ _ _ _ _ => .v
  | .mcall _ _ => .m
  | .mcallB _ _ => .m
  | .mwait _ => .m
  | .mscale _ _ _ => .m
  | .mdrain _ _ => .m
  | .mclr _ _ _ => .m
  | .mldMs _ _ _ => .m
  | .mstMs _ _ _ _ _ => .m
  | .mqClr _ _ _ _ => .m
  | .mqSt _ _ => .m
  | .mhalf _ _ => .m
  | .mchk _ _ _ => .m
  | .mfix _ _ _ _ => .m
  | .mmov _ _ _ => .m
  | .mstat _ _ => .m
  | .mabort _ => .m
  | .nop _ => .micro
  | .ldc _ _ _ => .micro
  | .decc _ _ => .micro
  | .jmp _ _ => .micro
  | .jcnd _ _ _ _ => .micro
  | .pulla _ => .micro
  | .pullb _ => .micro
  | .mac _ _ => .micro
  | .macb _ _ => .micro
  | .segcut _ => .micro
  | .ckacc _ => .micro
  | .ckcmp _ => .micro
  | .postp _ _ => .micro
  | .halfp _ => .micro
  | .waitq _ _ _ _ => .micro
  | .endRoutine => .micro
  | .cpyGo _ _ _ _ => .c
  | .cpyGq _ _ _ _ _ _ => .c
  | .cpyDrn _ _ => .c
  | .cpySt _ _ _ => .c
  | .cpyPb _ _ _ => .c
  | .cpyInv _ _ _ => .c
  | .cpyZero _ _ _ => .c
  | .cpyFill _ _ _ _ _ _ => .c
  | .cpyCvt _ _ _ _ => .c
  | .cpyCancel _ _ => .c
  | .tmov _ _ _ _ _ => .c
  | .tmovH _ _ _ _ _ => .c
  | .rlay _ _ _ _ _ _ => .c
  | .rlayWt _ _ => .c
  | .rlaySt _ _ => .c
  | .bcDrv _ _ _ _ => .c
  | .bcLat _ _ _ _ => .c
  | .bcSync _ _ _ _ _ => .c
  | .bufArm _ _ _ _ _ _ _ => .c
  | .bufSwp _ _ => .c
  | .bufSt _ _ _ => .c
  | .pfG _ _ _ _ _ => .c
  | .fsend _ _ _ _ => .f
  | .fsendV _ _ _ _ => .f
  | .fsendM _ _ _ _ _ => .f
  | .rpost _ _ _ _ _ _ => .f
  | .rpostW _ _ _ _ _ _ => .f
  | .rcancel _ _ _ _ => .f
  | .rprobe _ _ _ _ => .f
  | .rwait _ _ _ _ => .f
  | .rlbQ _ _ _ _ => .f
  | .fdrn _ => .f
  | .collRed _ _ _ _ => .f
  | .collAg _ _ _ _ => .f
  | .collRs _ _ _ _ => .f
  | .collA2a _ _ _ _ => .f
  | .collBar _ _ _ => .f
  | .collSt _ _ => .f
  | .collRing _ _ _ _ _ => .f
  | .noiseRd _ _ _ => .f
  | .noiseClr _ => .f
  | .fpeer _ _ _ _ => .f
  | .fslot _ _ _ _ => .f
  | .fbays _ _ _ _ => .f
  | .fevt _ _ => .f
  | .fretune _ _ _ => .f
  | .frepair _ _ _ _ _ => .f
  | .fgrant _ _ _ => .f
  | .resultLand _ _ => .event
  | .blockCleared _ => .event
  | .contextSwitch _ => .event
  | .quantum _ => .event
  | .stopSpacing _ => .event
  | .fetchRefill _ => .event
  | .parkTExpiry _ => .event
  | .syncRoundRelease _ _ => .event
  | .katInject _ _ _ => .event
  | .kickGo => .event
  | .poolPlace => .event
  | .priorityAging => .event
  | .dieDispatch _ => .event
  | .lineAck _ _ => .event
  | .walkComplete _ => .event
  | .remoteAccessArrival _ => .event
  | .remoteReply _ _ => .event
  | .remoteRefusal _ _ _ => .event
  | .poisonConsumed _ _ _ _ => .event
  | .patrolScrub _ => .event
  | .deltaArrival _ => .event
  | .parityAckArrival _ => .event
  | .relayoutTile _ _ => .event
  | .copyExecute _ _ _ => .event
  | .copyComplete _ _ => .event
  | .routineStart _ => .event
  | .scalePerform _ => .event
  | .mdrainPerform _ => .event
  | .mclrPerform _ => .event
  | .mmovPerform _ => .event
  | .vaccRdPerform _ => .event
  | .rotorSlotBoundary => .event
  | .periodBoundary => .event
  | .controlFlitArrival _ _ _ => .event
  | .dataFlitArrival _ _ _ => .event
  | .messageHeaderArrival _ => .event
  | .relayedHeaderArrival _ _ _ _ _ => .event
  | .landingComplete _ => .event
  | .sendComplete _ _ => .event
  | .collectiveExecute _ _ _ => .event
  | .lineDrift _ _ _ => .event
  | .reserveSubstitution => .event
  | .linkTraining _ _ _ => .event
  | .retrainTimeout _ _ => .event
  | .keeperMarkLoss => .event
  | .fabricDrained => .event
  | .tollBoundary => .event
  | .mailboxWrite _ _ => .event
  | .permitsWrite _ _ => .event
  | .framemapSync => .event
  | .framemapSyncDone => .event
  | .protctlWrite _ => .event
  | .rebuildAll _ => .event
  | .rebuildFrame _ => .event
  | .rebuildParity _ => .event
  | .rebuildDone => .event
  | .devnumWrite _ => .event
  | .fabricEnable _ => .event
  | .fabricDrain => .event
  | .profileSelect _ _ => .event
  | .preemptSave => .event
  | .preemptRestore => .event
  | .saveRoutineTimeout => .event
  | .contextSaved _ => .event
  | .fatalStore _ _ => .event
  | .powerOn _ => .event
  | .powerLoss => .event
  | .selftestRetest _ => .event
  | .pcieLinkTraining _ => .event
  | .fruRead _ _ => .event
  | .vacateGo => .event
  | .vacateBudgetTimeout => .event
  | .attestGo => .event
  | .attestDone => .event
  | .keyLoad => .event
  | .keyErase => .event
  | .registerWrite _ _ _ => .event
  | .softError _ => .event
  | .hostBarAccess _ => .event
  | .vacateCopyDone => .event

end Sys2Proof
end

