-- ==== Sys2Proof/Decode.lean ====
section
/-! DEFINITION. Decoding. A syllable is a 32-bit word, a microword a 64-bit word, both as natural numbers. `unpack` cuts a word
into its fields, lowest first, by a list of widths; `pack` builds it again. One decoder per class of syllable (R201, R220),
total on any word: it answers an instruction or the lowest-numbered cause of the illegal-syllable fault that the word itself
shows (R205, R207, R208, R256, R281, R313, R356). Causes that need the state are checked at issue. -/

namespace Sys2Proof

/-! ## Fields -/

/-- The fields of a word, lowest first. -/
def unpack : List Nat → Nat → List Nat
  | [], _ => []
  | k :: ks, w => w % 2 ^ k :: unpack ks (w / 2 ^ k)

/-- The word of fields given as (width, value), lowest first. -/
def pack : List (Nat × Nat) → Nat
  | [] => 0
  | (k, v) :: fs => v + 2 ^ k * pack fs

/-- The first check that fails gives the cause; checks stand in rising order of cause (R207). -/
def checked {α : Type} (checks : List (Bool × Nat)) (i : α) : Except Nat α :=
  match checks.find? (·.1) with
  | some (_, cause) => .error cause
  | none => .ok i

/-- A field value as an index below a power of two. -/
def fin (n v : Nat) [NeZero n] : Fin n := Fin.ofNat n v

/-- A one-bit field. -/
def bit (v : Nat) : Bool := v % 2 == 1

def Dst.ofCode (v : Nat) : Dst := if v < 16 then .s (fin 16 v) else if v = 16 then .queue else .a (fin 8 (v - 17))

def Dst.code : Dst → Nat
  | .s i => i.val
  | .queue => 16
  | .a i => 17 + i.val

def Src.ofCode (v : Nat) : Src := if v < 16 then .s (fin 16 v) else .q (fin 16 (v - 16))

def Src.code : Src → Nat
  | .s i => i.val
  | .q k => 16 + k.val

def Space.ofCode : Nat → Space
  | 0 => .g
  | 1 => .u
  | 2 => .c
  | _ => .d

def Space.code : Space → Nat
  | .g => 0
  | .u => 1
  | .c => 2
  | .d => 3

def Scope.ofCode : Nat → Scope
  | 0 => .core
  | 1 => .clus
  | 2 => .die
  | 3 => .dev
  | _ => .pod

def Scope.code : Scope → Nat
  | .core => 0
  | .clus => 1
  | .die => 2
  | .dev => 3
  | .pod => 4

def AmoOrd.ofCode : Nat → AmoOrd
  | 0 => .rlx
  | 1 => .acq
  | 2 => .rel
  | _ => .sc

def AmoOrd.code : AmoOrd → Nat
  | .rlx => 0
  | .acq => 1
  | .rel => 2
  | .sc => 3

def FenceOrd.ofCode : Nat → FenceOrd
  | 0 => .rel
  | 1 => .acq
  | 2 => .acqrel
  | _ => .sc

def FenceOrd.code : FenceOrd → Nat
  | .rel => 0
  | .acq => 1
  | .acqrel => 2
  | .sc => 3

def SextW.ofCode : Nat → SextW
  | 0 => .b
  | 1 => .h
  | _ => .w

def SextW.code : SextW → Nat
  | .b => 0
  | .h => 1
  | .w => 2

def FTy.ofCode : Nat → FTy
  | 0 => .f32
  | 1 => .bf16
  | 2 => .f16
  | 3 => .e4m3
  | _ => .e5m2

def FTy.code : FTy → Nat
  | .f32 => 0
  | .bf16 => 1
  | .f16 => 2
  | .e4m3 => 3
  | .e5m2 => 4

def ITy.ofCode : Nat → ITy
  | 0 => .i32
  | 1 => .i16
  | 2 => .i8
  | _ => .u8

def ITy.code : ITy → Nat
  | .i32 => 0
  | .i16 => 1
  | .i8 => 2
  | .u8 => 3

def XTy.ofCode : Nat → XTy
  | 0 => .f32
  | 1 => .bf16
  | 2 => .f16
  | 3 => .e4m3
  | 4 => .i32
  | 5 => .i16
  | 6 => .i8
  | _ => .u8

def XTy.code : XTy → Nat
  | .f32 => 0
  | .bf16 => 1
  | .f16 => 2
  | .e4m3 => 3
  | .i32 => 4
  | .i16 => 5
  | .i8 => 6
  | .u8 => 7

def MxFmt.ofCode : Nat → MxFmt
  | 0 => .int8
  | 1 => .int6
  | _ => .int4

def MxFmt.code : MxFmt → Nat
  | .int8 => 0
  | .int6 => 1
  | .int4 => 2

def Dot4Ty.ofCode : Nat → Dot4Ty
  | 0 => .bf16
  | 1 => .f16
  | 2 => .e4m3
  | 3 => .e5m2
  | 4 => .i16
  | 5 => .i8
  | _ => .u8

def Dot4Ty.code : Dot4Ty → Nat
  | .bf16 => 0
  | .f16 => 1
  | .e4m3 => 2
  | .e5m2 => 3
  | .i16 => 4
  | .i8 => 5
  | .u8 => 6

def KTy.ofCode (v : Nat) : KTy := if v = 0 then .f32 else .i32

def KTy.code : KTy → Nat
  | .f32 => 0
  | .i32 => 4

/-- The register numbers of R249. -/
def SysReg.ofCode? : Nat → Option SysReg
  | 0x000 => some .ctxid
  | 0x001 => some .fpmode
  | 0x002 => some .issuectl
  | 0x003 => some .energy
  | 0x004 => some .loopcnt
  | 0x005 => some .spillptr
  | 0x006 => some .dsbjournal
  | 0x008 => some .estat
  | 0x009 => some .epc
  | 0x00A => some .ecode
  | 0x00B => some .eaddr
  | 0x00C => some .einfo
  | 0x00D => some .trapbase
  | 0x010 => some .permits
  | 0x011 => some .boostlvl
  | 0x012 => some .slotmap
  | 0x013 => some .katsig
  | _ => none

def SysReg.code : SysReg → Nat
  | .ctxid => 0x000
  | .fpmode => 0x001
  | .issuectl => 0x002
  | .energy => 0x003
  | .loopcnt => 0x004
  | .spillptr => 0x005
  | .dsbjournal => 0x006
  | .estat => 0x008
  | .epc => 0x009
  | .ecode => 0x00A
  | .eaddr => 0x00B
  | .einfo => 0x00C
  | .trapbase => 0x00D
  | .permits => 0x010
  | .boostlvl => 0x011
  | .slotmap => 0x012
  | .katsig => 0x013

def Cond.ofCode? : Nat → Option Cond
  | 0 => some .always
  | 1 => some .c0z
  | 2 => some .c1z
  | 3 => some .c2z
  | 4 => some .c3z
  | 5 => some .aempty
  | 6 => some .bempty
  | 7 => some .seg
  | 8 => some .busy
  | 9 => some .ckmis
  | 10 => some .half
  | _ => none

def Cond.code : Cond → Nat
  | .always => 0
  | .c0z => 1
  | .c1z => 2
  | .c2z => 3
  | .c3z => 4
  | .aempty => 5
  | .bempty => 6
  | .seg => 7
  | .busy => 8
  | .ckmis => 9
  | .half => 10

/-- The layout of br, br.l, loop.brk, seg.alt. -/
def shB_gdk.dec (mk : Fin 16 → BitVec 14 → Fin 64 → Instr) (w : Nat) : Except Nat Instr :=
  match unpack [6, 14, 8, 4] w with
  | [k, d, _, g] =>
    checked []
      (mk (fin 16 g) (BitVec.ofNat 14 d) (fin 64 k))
  | _ => .error 1

def shB_gdk.enc (op : Nat) (g : Fin 16) (d : BitVec 14) (k : Fin 64) : Nat :=
  pack [(6, k.val), (14, d.toNat), (8, op), (4, g.val)]

/-- The layout of brx, brx.l, park.t, kat.arm …. -/
def shB_gse.dec (mk : Fin 16 → Src → Bool → Instr) (w : Nat) : Except Nat Instr :=
  match unpack [14, 1, 5, 8, 4] w with
  | [r0, e, s, _, g] =>
    checked [(r0 != 0, 2)]
      (mk (fin 16 g) (Src.ofCode s) (bit e))
  | _ => .error 1

def shB_gse.enc (op : Nat) (g : Fin 16) (s : Src) (e : Bool) : Nat :=
  pack [(14, 0), (1, e.toNat), (5, s.code), (8, op), (4, g.val)]

/-- The layout of ret, loop.end, end.node, yield …. -/
def shB_g.dec (mk : Fin 16 → Instr) (w : Nat) : Except Nat Instr :=
  match unpack [20, 8, 4] w with
  | [r0, _, g] =>
    checked [(r0 != 0, 2)]
      (mk (fin 16 g))
  | _ => .error 1

def shB_g.enc (op : Nat) (g : Fin 16) : Nat :=
  pack [(20, 0), (8, op), (4, g.val)]

/-- The layout of loop.pin. -/
def shB_gsen.dec (mk : Fin 16 → Src → Bool → Fin 128 → Instr) (w : Nat) : Except Nat Instr :=
  match unpack [7, 7, 1, 5, 8, 4] w with
  | [r0, n, e, s, _, g] =>
    checked [(r0 != 0, 2)]
      (mk (fin 16 g) (Src.ofCode s) (bit e) (fin 128 n))
  | _ => .error 1

def shB_gsen.enc (op : Nat) (g : Fin 16) (s : Src) (e : Bool) (n : Fin 128) : Nat :=
  pack [(7, 0), (7, n.val), (1, e.toNat), (5, s.code), (8, op), (4, g.val)]

/-- The layout of mpush, mpop. -/
def shB_ga.dec (mk : Fin 16 → Fin 8 → Instr) (w : Nat) : Except Nat Instr :=
  match unpack [17, 3, 8, 4] w with
  | [r0, a, _, g] =>
    checked [(r0 != 0, 2)]
      (mk (fin 16 g) (fin 8 a))
  | _ => .error 1

def shB_ga.enc (op : Nat) (g : Fin 16) (a : Fin 8) : Nat :=
  pack [(17, 0), (3, a.val), (8, op), (4, g.val)]

/-- The layout of mjoin. -/
def shB_gab.dec (mk : Fin 16 → Fin 8 → Fin 8 → Instr) (w : Nat) : Except Nat Instr :=
  match unpack [14, 3, 3, 8, 4] w with
  | [r0, b, a, _, g] =>
    checked [(r0 != 0, 2)]
      (mk (fin 16 g) (fin 8 a) (fin 8 b))
  | _ => .error 1

def shB_gab.enc (op : Nat) (g : Fin 16) (a : Fin 8) (b : Fin 8) : Nat :=
  pack [(14, 0), (3, b.val), (3, a.val), (8, op), (4, g.val)]

/-- The layout of wait.ev, sig.ev. -/
def shB_gv.dec (mk : Fin 16 → Fin 64 → Instr) (w : Nat) : Except Nat Instr :=
  match unpack [14, 6, 8, 4] w with
  | [r0, v, _, g] =>
    checked [(r0 != 0, 2)]
      (mk (fin 16 g) (fin 64 v))
  | _ => .error 1

def shB_gv.enc (op : Nat) (g : Fin 16) (v : Fin 64) : Nat :=
  pack [(14, 0), (6, v.val), (8, op), (4, g.val)]

/-- The layout of spawn. -/
def shB_gspn.dec (mk : Fin 16 → Src → Fin 8 → Fin 4096 → Instr) (w : Nat) : Except Nat Instr :=
  match unpack [12, 3, 5, 8, 4] w with
  | [n, p, s, _, g] =>
    checked []
      (mk (fin 16 g) (Src.ofCode s) (fin 8 p) (fin 4096 n))
  | _ => .error 1

def shB_gspn.enc (op : Nat) (g : Fin 16) (s : Src) (p : Fin 8) (n : Fin 4096) : Nat :=
  pack [(12, n.val), (3, p.val), (5, s.code), (8, op), (4, g.val)]

/-- The layout of trap, brk. -/
def shB_gn.dec (mk : Fin 16 → BitVec 8 → Instr) (w : Nat) : Except Nat Instr :=
  match unpack [12, 8, 8, 4] w with
  | [r0, n, _, g] =>
    checked [(r0 != 0, 2)]
      (mk (fin 16 g) (BitVec.ofNat 8 n))
  | _ => .error 1

def shB_gn.enc (op : Nat) (g : Fin 16) (n : BitVec 8) : Nat :=
  pack [(12, 0), (8, n.toNat), (8, op), (4, g.val)]

/-- The layout of add, sub, mul, mulh …. -/
def shS_gdabef.dec (mk : Fin 16 → Dst → Src → Src → Bool → Bool → Instr) (w : Nat) : Except Nat Instr :=
  match unpack [3, 1, 1, 5, 5, 5, 8, 4] w with
  | [r0, f, e, b, a, d, _, g] =>
    checked [(r0 != 0, 2), (24 < d, 5)]
      (mk (fin 16 g) (Dst.ofCode d) (Src.ofCode a) (Src.ofCode b) (bit e) (bit f))
  | _ => .error 1

def shS_gdabef.enc (op : Nat) (g : Fin 16) (d : Dst) (a : Src) (b : Src) (e : Bool) (f : Bool) : Nat :=
  pack [(3, 0), (1, f.toNat), (1, e.toNat), (5, b.code), (5, a.code), (5, d.code), (8, op), (4, g.val)]

/-- The layout of addi, andi, ori, xori …. -/
def shS_gdaei.dec (nlit : Nat) (mk : Fin 16 → Dst → Src → Bool → BitVec 9 → Instr) (w : Nat) : Except Nat Instr :=
  match unpack [9, 1, 5, 5, 8, 4] w with
  | [i, e, a, d, _, g] =>
    checked [(nlit ≤ i - 0x100 && 0x100 ≤ i && i ≤ 0x101, 4), (24 < d, 5)]
      (mk (fin 16 g) (Dst.ofCode d) (Src.ofCode a) (bit e) (BitVec.ofNat 9 i))
  | _ => .error 1

def shS_gdaei.enc (op : Nat) (g : Fin 16) (d : Dst) (a : Src) (e : Bool) (i : BitVec 9) : Nat :=
  pack [(9, i.toNat), (1, e.toNat), (5, a.code), (5, d.code), (8, op), (4, g.val)]

/-- The layout of movi. -/
def shS_gdi.dec (nlit : Nat) (mk : Fin 16 → Dst → BitVec 9 → Instr) (w : Nat) : Except Nat Instr :=
  match unpack [9, 6, 5, 8, 4] w with
  | [i, r1, d, _, g] =>
    checked [(r1 != 0, 2), (nlit ≤ i - 0x100 && 0x100 ≤ i && i ≤ 0x101, 4), (24 < d, 5)]
      (mk (fin 16 g) (Dst.ofCode d) (BitVec.ofNat 9 i))
  | _ => .error 1

def shS_gdi.enc (op : Nat) (g : Fin 16) (d : Dst) (i : BitVec 9) : Nat :=
  pack [(9, i.toNat), (6, 0), (5, d.code), (8, op), (4, g.val)]

/-- The layout of cmp.eq, cmp.ne, cmp.lt, cmp.ge …. -/
def shS_gpabef.dec (mk : Fin 16 → Fin 8 → Src → Src → Bool → Bool → Instr) (w : Nat) : Except Nat Instr :=
  match unpack [3, 1, 1, 5, 5, 3, 2, 8, 4] w with
  | [r0, f, e, b, a, p, r6, _, g] =>
    checked [(r0 != 0, 2), (r6 != 0, 2)]
      (mk (fin 16 g) (fin 8 p) (Src.ofCode a) (Src.ofCode b) (bit e) (bit f))
  | _ => .error 1

def shS_gpabef.enc (op : Nat) (g : Fin 16) (p : Fin 8) (a : Src) (b : Src) (e : Bool) (f : Bool) : Nat :=
  pack [(3, 0), (1, f.toNat), (1, e.toNat), (5, b.code), (5, a.code), (3, p.val), (2, 0), (8, op), (4, g.val)]

/-- The layout of cmpi.eq, cmpi.lt, cmpi.ltu. -/
def shS_gpaei.dec (nlit : Nat) (mk : Fin 16 → Fin 8 → Src → Bool → BitVec 9 → Instr) (w : Nat) : Except Nat Instr :=
  match unpack [9, 1, 5, 3, 2, 8, 4] w with
  | [i, e, a, p, r4, _, g] =>
    checked [(r4 != 0, 2), (nlit ≤ i - 0x100 && 0x100 ≤ i && i ≤ 0x101, 4)]
      (mk (fin 16 g) (fin 8 p) (Src.ofCode a) (bit e) (BitVec.ofNat 9 i))
  | _ => .error 1

def shS_gpaei.enc (op : Nat) (g : Fin 16) (p : Fin 8) (a : Src) (e : Bool) (i : BitVec 9) : Nat :=
  pack [(9, i.toNat), (1, e.toNat), (5, a.code), (3, p.val), (2, 0), (8, op), (4, g.val)]

/-- The layout of clz, ctz, popc. -/
def shS_gdae.dec (mk : Fin 16 → Dst → Src → Bool → Instr) (w : Nat) : Except Nat Instr :=
  match unpack [4, 1, 5, 5, 5, 8, 4] w with
  | [r0, e, r2, a, d, _, g] =>
    checked [(r0 != 0, 2), (r2 != 0, 2), (24 < d, 5)]
      (mk (fin 16 g) (Dst.ofCode d) (Src.ofCode a) (bit e))
  | _ => .error 1

def shS_gdae.enc (op : Nat) (g : Fin 16) (d : Dst) (a : Src) (e : Bool) : Nat :=
  pack [(4, 0), (1, e.toNat), (5, 0), (5, a.code), (5, d.code), (8, op), (4, g.val)]

/-- The layout of bfx. -/
def shS_gdabefx.dec (mk : Fin 16 → Dst → Src → Src → Bool → Bool → Bool → Instr) (w : Nat) : Except Nat Instr :=
  match unpack [1, 2, 1, 1, 5, 5, 5, 8, 4] w with
  | [x, r1, f, e, b, a, d, _, g] =>
    checked [(r1 != 0, 2), (24 < d, 5)]
      (mk (fin 16 g) (Dst.ofCode d) (Src.ofCode a) (Src.ofCode b) (bit e) (bit f) (bit x))
  | _ => .error 1

def shS_gdabefx.enc (op : Nat) (g : Fin 16) (d : Dst) (a : Src) (b : Src) (e : Bool) (f : Bool) (x : Bool) : Nat :=
  pack [(1, x.toNat), (2, 0), (1, f.toNat), (1, e.toNat), (5, b.code), (5, a.code), (5, d.code), (8, op), (4, g.val)]

/-- The layout of sext. -/
def shS_gdaex.dec (mk : Fin 16 → Dst → Src → Bool → SextW → Instr) (w : Nat) : Except Nat Instr :=
  match unpack [2, 2, 1, 5, 5, 5, 8, 4] w with
  | [x, r1, e, r3, a, d, _, g] =>
    checked [(3 ≤ x, 2), (r1 != 0, 2), (r3 != 0, 2), (24 < d, 5)]
      (mk (fin 16 g) (Dst.ofCode d) (Src.ofCode a) (bit e) (SextW.ofCode x))
  | _ => .error 1

def shS_gdaex.enc (op : Nat) (g : Fin 16) (d : Dst) (a : Src) (e : Bool) (x : SextW) : Nat :=
  pack [(2, x.code), (2, 0), (1, e.toNat), (5, 0), (5, a.code), (5, d.code), (8, op), (4, g.val)]

/-- The layout of sel, lea, hcoord. -/
def shS_gdabefx2.dec (mk : Fin 16 → Dst → Src → Src → Bool → Bool → Fin 8 → Instr) (w : Nat) : Except Nat Instr :=
  match unpack [3, 1, 1, 5, 5, 5, 8, 4] w with
  | [x, f, e, b, a, d, _, g] =>
    checked [(24 < d, 5)]
      (mk (fin 16 g) (Dst.ofCode d) (Src.ofCode a) (Src.ofCode b) (bit e) (bit f) (fin 8 x))
  | _ => .error 1

def shS_gdabefx2.enc (op : Nat) (g : Fin 16) (d : Dst) (a : Src) (b : Src) (e : Bool) (f : Bool) (x : Fin 8) : Nat :=
  pack [(3, x.val), (1, f.toNat), (1, e.toNat), (5, b.code), (5, a.code), (5, d.code), (8, op), (4, g.val)]

/-- The layout of pand, por, pxor. -/
def shS_gpabn.dec (mk : Fin 16 → Fin 8 → Fin 16 → Fin 16 → Bool → Instr) (w : Nat) : Except Nat Instr :=
  match unpack [1, 4, 5, 5, 3, 2, 8, 4] w with
  | [n, r1, b, a, p, r5, _, g] =>
    checked [(r1 != 0, 2), (16 ≤ b, 2), (16 ≤ a, 2), (r5 != 0, 2)]
      (mk (fin 16 g) (fin 8 p) (fin 16 a) (fin 16 b) (bit n))
  | _ => .error 1

def shS_gpabn.enc (op : Nat) (g : Fin 16) (p : Fin 8) (a : Fin 16) (b : Fin 16) (n : Bool) : Nat :=
  pack [(1, n.toNat), (4, 0), (5, b.val), (5, a.val), (3, p.val), (2, 0), (8, op), (4, g.val)]

/-- The layout of mpar. -/
def shS_gaes.dec (mk : Fin 16 → Src → Bool → Space → Instr) (w : Nat) : Except Nat Instr :=
  match unpack [1, 2, 1, 1, 5, 5, 5, 8, 4] w with
  | [r0, s, r2, e, r4, a, r6, _, g] =>
    checked [(r0 != 0, 2), (r2 != 0, 2), (r4 != 0, 2), (r6 != 0, 2)]
      (mk (fin 16 g) (Src.ofCode a) (bit e) (Space.ofCode s))
  | _ => .error 1

def shS_gaes.enc (op : Nat) (g : Fin 16) (a : Src) (e : Bool) (s : Space) : Nat :=
  pack [(1, 0), (2, s.code), (1, 0), (1, e.toNat), (5, 0), (5, a.code), (5, 0), (8, op), (4, g.val)]

/-- The layout of mova. -/
def shS_gdk.dec (mk : Fin 16 → Dst → Fin 8 → Instr) (w : Nat) : Except Nat Instr :=
  match unpack [3, 12, 5, 8, 4] w with
  | [k, r1, d, _, g] =>
    checked [(r1 != 0, 2), (24 < d, 5)]
      (mk (fin 16 g) (Dst.ofCode d) (fin 8 k))
  | _ => .error 1

def shS_gdk.enc (op : Nat) (g : Fin 16) (d : Dst) (k : Fin 8) : Nat :=
  pack [(3, k.val), (12, 0), (5, d.code), (8, op), (4, g.val)]

/-- The layout of hld, hst. -/
def shS_ghaes.dec (mk : Fin 16 → Fin 16 → Src → Bool → Space → Instr) (w : Nat) : Except Nat Instr :=
  match unpack [1, 2, 1, 1, 5, 5, 4, 1, 8, 4] w with
  | [r0, s, r2, e, r4, a, h, r7, _, g] =>
    checked [(r0 != 0, 2), (r2 != 0, 2), (r4 != 0, 2), (r7 != 0, 2)]
      (mk (fin 16 g) (fin 16 h) (Src.ofCode a) (bit e) (Space.ofCode s))
  | _ => .error 1

def shS_ghaes.enc (op : Nat) (g : Fin 16) (h : Fin 16) (a : Src) (e : Bool) (s : Space) : Nat :=
  pack [(1, 0), (2, s.code), (1, 0), (1, e.toNat), (5, 0), (5, a.code), (4, h.val), (1, 0), (8, op), (4, g.val)]

/-- The layout of hset. -/
def shS_ghabef.dec (mk : Fin 16 → Fin 16 → Src → Src → Bool → Bool → Instr) (w : Nat) : Except Nat Instr :=
  match unpack [3, 1, 1, 5, 5, 4, 1, 8, 4] w with
  | [r0, f, e, b, a, h, r6, _, g] =>
    checked [(r0 != 0, 2), (r6 != 0, 2)]
      (mk (fin 16 g) (fin 16 h) (Src.ofCode a) (Src.ofCode b) (bit e) (bit f))
  | _ => .error 1

def shS_ghabef.enc (op : Nat) (g : Fin 16) (h : Fin 16) (a : Src) (b : Src) (e : Bool) (f : Bool) : Nat :=
  pack [(3, 0), (1, f.toNat), (1, e.toNat), (5, b.code), (5, a.code), (4, h.val), (1, 0), (8, op), (4, g.val)]

/-- The layout of ld.b, ld.h, ld.w. -/
def shS_gdabefsx.dec (mk : Fin 16 → Dst → Src → Src → Bool → Bool → Space → Bool → Instr) (w : Nat) : Except Nat Instr :=
  match unpack [1, 2, 1, 1, 5, 5, 5, 8, 4] w with
  | [x, s, f, e, b, a, d, _, g] =>
    checked [(24 < d, 5)]
      (mk (fin 16 g) (Dst.ofCode d) (Src.ofCode a) (Src.ofCode b) (bit e) (bit f) (Space.ofCode s) (bit x))
  | _ => .error 1

def shS_gdabefsx.enc (op : Nat) (g : Fin 16) (d : Dst) (a : Src) (b : Src) (e : Bool) (f : Bool) (s : Space) (x : Bool) : Nat :=
  pack [(1, x.toNat), (2, s.code), (1, f.toNat), (1, e.toNat), (5, b.code), (5, a.code), (5, d.code), (8, op), (4, g.val)]

/-- The layout of ld.d. -/
def shS_gdabefs.dec (mk : Fin 16 → Dst → Src → Src → Bool → Bool → Space → Instr) (w : Nat) : Except Nat Instr :=
  match unpack [1, 2, 1, 1, 5, 5, 5, 8, 4] w with
  | [r0, s, f, e, b, a, d, _, g] =>
    checked [(r0 != 0, 2), (24 < d, 5)]
      (mk (fin 16 g) (Dst.ofCode d) (Src.ofCode a) (Src.ofCode b) (bit e) (bit f) (Space.ofCode s))
  | _ => .error 1

def shS_gdabefs.enc (op : Nat) (g : Fin 16) (d : Dst) (a : Src) (b : Src) (e : Bool) (f : Bool) (s : Space) : Nat :=
  pack [(1, 0), (2, s.code), (1, f.toNat), (1, e.toNat), (5, b.code), (5, a.code), (5, d.code), (8, op), (4, g.val)]

/-- The layout of lds.b, lds.h, lds.w, lds.d. -/
def shS_gdasrec.dec (mk : Fin 16 → Dst → Src → Space → Bool → Bool → Scope → Instr) (w : Nat) : Except Nat Instr :=
  match unpack [3, 1, 1, 2, 1, 2, 5, 5, 8, 4] w with
  | [c, r1, e, r3, r, s, a, d, _, g] =>
    checked [(r1 != 0, 2), (r3 != 0, 2), (24 < d, 5), (5 ≤ c, 9)]
      (mk (fin 16 g) (Dst.ofCode d) (Src.ofCode a) (Space.ofCode s) (bit r) (bit e) (Scope.ofCode c))
  | _ => .error 1

def shS_gdasrec.enc (op : Nat) (g : Fin 16) (d : Dst) (a : Src) (s : Space) (r : Bool) (e : Bool) (c : Scope) : Nat :=
  pack [(3, c.code), (1, 0), (1, e.toNat), (2, 0), (1, r.toNat), (2, s.code), (5, a.code), (5, d.code), (8, op), (4, g.val)]

/-- The layout of st.b, st.h, st.w, st.d. -/
def shS_gsabef.dec (mk : Fin 16 → Space → Src → Src → Bool → Bool → Instr) (w : Nat) : Except Nat Instr :=
  match unpack [3, 1, 1, 5, 5, 3, 2, 8, 4] w with
  | [r0, f, e, b, a, r5, s, _, g] =>
    checked [(r0 != 0, 2), (r5 != 0, 2)]
      (mk (fin 16 g) (Space.ofCode s) (Src.ofCode a) (Src.ofCode b) (bit e) (bit f))
  | _ => .error 1

def shS_gsabef.enc (op : Nat) (g : Fin 16) (s : Space) (a : Src) (b : Src) (e : Bool) (f : Bool) : Nat :=
  pack [(3, 0), (1, f.toNat), (1, e.toNat), (5, b.code), (5, a.code), (3, 0), (2, s.code), (8, op), (4, g.val)]

/-- The layout of sts.b, sts.h, sts.w, sts.d. -/
def shS_gsrabefc.dec (mk : Fin 16 → Space → Bool → Src → Src → Bool → Bool → Scope → Instr) (w : Nat) : Except Nat Instr :=
  match unpack [3, 1, 1, 5, 5, 2, 1, 2, 8, 4] w with
  | [c, f, e, b, a, r5, r, s, _, g] =>
    checked [(r5 != 0, 2), (5 ≤ c, 9)]
      (mk (fin 16 g) (Space.ofCode s) (bit r) (Src.ofCode a) (Src.ofCode b) (bit e) (bit f) (Scope.ofCode c))
  | _ => .error 1

def shS_gsrabefc.enc (op : Nat) (g : Fin 16) (s : Space) (r : Bool) (a : Src) (b : Src) (e : Bool) (f : Bool) (c : Scope) : Nat :=
  pack [(3, c.code), (1, f.toNat), (1, e.toNat), (5, b.code), (5, a.code), (2, 0), (1, r.toNat), (2, s.code), (8, op), (4, g.val)]

/-- The layout of amo.add, amo.and, amo.or, amo.xor …. -/
def shS_gswoabefc.dec (mk : Fin 16 → Space → Bool → AmoOrd → Src → Src → Bool → Bool → Scope → Instr) (w : Nat) : Except Nat Instr :=
  match unpack [3, 1, 1, 5, 5, 2, 1, 2, 8, 4] w with
  | [c, f, e, b, a, o, w, s, _, g] =>
    checked [(5 ≤ c, 9)]
      (mk (fin 16 g) (Space.ofCode s) (bit w) (AmoOrd.ofCode o) (Src.ofCode a) (Src.ofCode b) (bit e) (bit f) (Scope.ofCode c))
  | _ => .error 1

def shS_gswoabefc.enc (op : Nat) (g : Fin 16) (s : Space) (w : Bool) (o : AmoOrd) (a : Src) (b : Src) (e : Bool) (f : Bool) (c : Scope) : Nat :=
  pack [(3, c.code), (1, f.toNat), (1, e.toNat), (5, b.code), (5, a.code), (2, o.code), (1, w.toNat), (2, s.code), (8, op), (4, g.val)]

/-- The layout of amo.cas. -/
def shS_gswoabefc2.dec (mk : Fin 16 → Space → Bool → AmoOrd → Src → Fin 8 → Bool → Bool → Scope → Instr) (w : Nat) : Except Nat Instr :=
  match unpack [3, 1, 1, 5, 5, 2, 1, 2, 8, 4] w with
  | [c, f, e, b, a, o, w, s, _, g] =>
    checked [(5 ≤ c, 9), ((b % 2 == 1 || 14 < b), 0x28)]
      (mk (fin 16 g) (Space.ofCode s) (bit w) (AmoOrd.ofCode o) (Src.ofCode a) (fin 8 (b / 2)) (bit e) (bit f) (Scope.ofCode c))
  | _ => .error 1

def shS_gswoabefc2.enc (op : Nat) (g : Fin 16) (s : Space) (w : Bool) (o : AmoOrd) (a : Src) (b : Fin 8) (e : Bool) (f : Bool) (c : Scope) : Nat :=
  pack [(3, c.code), (1, f.toNat), (1, e.toNat), (5, 2 * b.val), (5, a.code), (2, o.code), (1, w.toNat), (2, s.code), (8, op), (4, g.val)]

/-- The layout of fxinit, fxadd.f32, fxadd.h. -/
def shS_gabefs.dec (mk : Fin 16 → Src → Src → Bool → Bool → Space → Instr) (w : Nat) : Except Nat Instr :=
  match unpack [1, 2, 1, 1, 5, 5, 5, 8, 4] w with
  | [r0, s, f, e, b, a, r6, _, g] =>
    checked [(r0 != 0, 2), (r6 != 0, 2)]
      (mk (fin 16 g) (Src.ofCode a) (Src.ofCode b) (bit e) (bit f) (Space.ofCode s))
  | _ => .error 1

def shS_gabefs.enc (op : Nat) (g : Fin 16) (a : Src) (b : Src) (e : Bool) (f : Bool) (s : Space) : Nat :=
  pack [(1, 0), (2, s.code), (1, f.toNat), (1, e.toNat), (5, b.code), (5, a.code), (5, 0), (8, op), (4, g.val)]

/-- The layout of fxrd. -/
def shS_gdaes.dec (mk : Fin 16 → Dst → Src → Bool → Space → Instr) (w : Nat) : Except Nat Instr :=
  match unpack [1, 2, 1, 1, 5, 5, 5, 8, 4] w with
  | [r0, s, r2, e, r4, a, d, _, g] =>
    checked [(r0 != 0, 2), (r2 != 0, 2), (r4 != 0, 2), (24 < d, 5)]
      (mk (fin 16 g) (Dst.ofCode d) (Src.ofCode a) (bit e) (Space.ofCode s))
  | _ => .error 1

def shS_gdaes.enc (op : Nat) (g : Fin 16) (d : Dst) (a : Src) (e : Bool) (s : Space) : Nat :=
  pack [(1, 0), (2, s.code), (1, 0), (1, e.toNat), (5, 0), (5, a.code), (5, d.code), (8, op), (4, g.val)]

/-- The layout of fence. -/
def shS_goc.dec (mk : Fin 16 → FenceOrd → Scope → Instr) (w : Nat) : Except Nat Instr :=
  match unpack [3, 12, 2, 3, 8, 4] w with
  | [c, r1, o, r3, _, g] =>
    checked [(r1 != 0, 2), (r3 != 0, 2), (5 ≤ c, 9)]
      (mk (fin 16 g) (FenceOrd.ofCode o) (Scope.ofCode c))
  | _ => .error 1

def shS_goc.enc (op : Nat) (g : Fin 16) (o : FenceOrd) (c : Scope) : Nat :=
  pack [(3, c.code), (12, 0), (2, o.code), (3, 0), (8, op), (4, g.val)]

/-- The layout of fence.surv, pwr.rel. -/
def shS_g.dec (mk : Fin 16 → Instr) (w : Nat) : Except Nat Instr :=
  match unpack [20, 8, 4] w with
  | [r0, _, g] =>
    checked [(r0 != 0, 2)]
      (mk (fin 16 g))
  | _ => .error 1

def shS_g.enc (op : Nat) (g : Fin 16) : Nat :=
  pack [(20, 0), (8, op), (4, g.val)]

/-- The layout of mls, mls.arr, mls.wt. -/
def shS_gb.dec (mk : Fin 16 → Fin 16 → Instr) (w : Nat) : Except Nat Instr :=
  match unpack [5, 4, 11, 8, 4] w with
  | [r0, b, r2, _, g] =>
    checked [(r0 != 0, 2), (r2 != 0, 2)]
      (mk (fin 16 g) (fin 16 b))
  | _ => .error 1

def shS_gb.enc (op : Nat) (g : Fin 16) (b : Fin 16) : Nat :=
  pack [(5, 0), (4, b.val), (11, 0), (8, op), (4, g.val)]

/-- The layout of mls.q. -/
def shS_gdb.dec (mk : Fin 16 → Dst → Fin 16 → Instr) (w : Nat) : Except Nat Instr :=
  match unpack [5, 4, 6, 5, 8, 4] w with
  | [r0, b, r2, d, _, g] =>
    checked [(r0 != 0, 2), (r2 != 0, 2), (24 < d, 5)]
      (mk (fin 16 g) (Dst.ofCode d) (fin 16 b))
  | _ => .error 1

def shS_gdb.enc (op : Nat) (g : Fin 16) (d : Dst) (b : Fin 16) : Nat :=
  pack [(5, 0), (4, b.val), (6, 0), (5, d.code), (8, op), (4, g.val)]

/-- The layout of sysrd. -/
def shS_gdn.dec (mk : Fin 16 → Dst → SysReg → Instr) (w : Nat) : Except Nat Instr :=
  match unpack [5, 10, 5, 8, 4] w with
  | [r0, n, d, _, g] =>
    checked [(r0 != 0, 2), (24 < d, 5), ((SysReg.ofCode? n).isNone, 0x25)]
      (mk (fin 16 g) (Dst.ofCode d) ((SysReg.ofCode? n).getD .ctxid))
  | _ => .error 1

def shS_gdn.enc (op : Nat) (g : Fin 16) (d : Dst) (n : SysReg) : Nat :=
  pack [(5, 0), (10, n.code), (5, d.code), (8, op), (4, g.val)]

/-- The layout of syswr. -/
def shS_gnb.dec (mk : Fin 16 → SysReg → Src → Instr) (w : Nat) : Except Nat Instr :=
  match unpack [5, 5, 10, 8, 4] w with
  | [r0, b, n, _, g] =>
    checked [(r0 != 0, 2), ((SysReg.ofCode? n).isNone, 0x25)]
      (mk (fin 16 g) ((SysReg.ofCode? n).getD .ctxid) (Src.ofCode b))
  | _ => .error 1

def shS_gnb.enc (op : Nat) (g : Fin 16) (n : SysReg) (b : Src) : Nat :=
  pack [(5, 0), (5, b.code), (10, n.code), (8, op), (4, g.val)]

/-- The layout of time, energy, cycle. -/
def shS_gd.dec (mk : Fin 16 → Dst → Instr) (w : Nat) : Except Nat Instr :=
  match unpack [15, 5, 8, 4] w with
  | [r0, d, _, g] =>
    checked [(r0 != 0, 2), (24 < d, 5)]
      (mk (fin 16 g) (Dst.ofCode d))
  | _ => .error 1

def shS_gd.enc (op : Nat) (g : Fin 16) (d : Dst) : Nat :=
  pack [(15, 0), (5, d.code), (8, op), (4, g.val)]

/-- The layout of tlb.pf, pwr.req. -/
def shS_gae.dec (mk : Fin 16 → Src → Bool → Instr) (w : Nat) : Except Nat Instr :=
  match unpack [4, 1, 5, 5, 5, 8, 4] w with
  | [r0, e, r2, a, r4, _, g] =>
    checked [(r0 != 0, 2), (r2 != 0, 2), (r4 != 0, 2)]
      (mk (fin 16 g) (Src.ofCode a) (bit e))
  | _ => .error 1

def shS_gae.enc (op : Nat) (g : Fin 16) (a : Src) (e : Bool) : Nat :=
  pack [(4, 0), (1, e.toNat), (5, 0), (5, a.code), (5, 0), (8, op), (4, g.val)]

/-- The layout of pg.inv. -/
def shS_gabef.dec (mk : Fin 16 → Src → Src → Bool → Bool → Instr) (w : Nat) : Except Nat Instr :=
  match unpack [3, 1, 1, 5, 5, 5, 8, 4] w with
  | [r0, f, e, b, a, r5, _, g] =>
    checked [(r0 != 0, 2), (r5 != 0, 2)]
      (mk (fin 16 g) (Src.ofCode a) (Src.ofCode b) (bit e) (bit f))
  | _ => .error 1

def shS_gabef.enc (op : Nat) (g : Fin 16) (a : Src) (b : Src) (e : Bool) (f : Bool) : Nat :=
  pack [(3, 0), (1, f.toNat), (1, e.toNat), (5, b.code), (5, a.code), (5, 0), (8, op), (4, g.val)]

/-- The layout of lvl.idx, lvl.cnt. -/
def shS_gdk2.dec (mk : Fin 16 → Dst → Fin 8 → Instr) (w : Nat) : Except Nat Instr :=
  match unpack [5, 3, 7, 5, 8, 4] w with
  | [r0, k, r2, d, _, g] =>
    checked [(r0 != 0, 2), (r2 != 0, 2), (24 < d, 5)]
      (mk (fin 16 g) (Dst.ofCode d) (fin 8 k))
  | _ => .error 1

def shS_gdk2.enc (op : Nat) (g : Fin 16) (d : Dst) (k : Fin 8) : Nat :=
  pack [(5, 0), (3, k.val), (7, 0), (5, d.code), (8, op), (4, g.val)]

/-- The layout of crc. -/
def shS_gdabefx3.dec (mk : Fin 16 → Dst → Src → Src → Bool → Bool → Fin 4 → Instr) (w : Nat) : Except Nat Instr :=
  match unpack [2, 1, 1, 1, 5, 5, 5, 8, 4] w with
  | [x, r1, f, e, b, a, d, _, g] =>
    checked [(r1 != 0, 2), (24 < d, 5)]
      (mk (fin 16 g) (Dst.ofCode d) (Src.ofCode a) (Src.ofCode b) (bit e) (bit f) (fin 4 x))
  | _ => .error 1

def shS_gdabefx3.enc (op : Nat) (g : Fin 16) (d : Dst) (a : Src) (b : Src) (e : Bool) (f : Bool) (x : Fin 4) : Nat :=
  pack [(2, x.val), (1, 0), (1, f.toNat), (1, e.toNat), (5, b.code), (5, a.code), (5, d.code), (8, op), (4, g.val)]

/-- The layout of vfadd, vfsub, vfmul, vfma …. -/
def shV_gdabmeft.dec (mk : Fin 16 → Fin 16 → Fin 16 → Fin 16 → Fin 8 → Bool → Bool → FTy → Instr) (w : Nat) : Except Nat Instr :=
  match unpack [3, 1, 1, 3, 4, 4, 4, 8, 4] w with
  | [t, f, e, m, b, a, d, _, g] =>
    checked [(5 ≤ t, 8)]
      (mk (fin 16 g) (fin 16 d) (fin 16 a) (fin 16 b) (fin 8 m) (bit e) (bit f) (FTy.ofCode t))
  | _ => .error 1

def shV_gdabmeft.enc (op : Nat) (g : Fin 16) (d : Fin 16) (a : Fin 16) (b : Fin 16) (m : Fin 8) (e : Bool) (f : Bool) (t : FTy) : Nat :=
  pack [(3, t.code), (1, f.toNat), (1, e.toNat), (3, m.val), (4, b.val), (4, a.val), (4, d.val), (8, op), (4, g.val)]

/-- The layout of vfabs, vfneg, vrcp, vrsq …. -/
def shV_gdamet.dec (mk : Fin 16 → Fin 16 → Fin 16 → Fin 8 → Bool → FTy → Instr) (w : Nat) : Except Nat Instr :=
  match unpack [3, 1, 1, 3, 4, 4, 4, 8, 4] w with
  | [t, r1, e, m, r4, a, d, _, g] =>
    checked [(r1 != 0, 2), (r4 != 0, 2), (5 ≤ t, 8)]
      (mk (fin 16 g) (fin 16 d) (fin 16 a) (fin 8 m) (bit e) (FTy.ofCode t))
  | _ => .error 1

def shV_gdamet.enc (op : Nat) (g : Fin 16) (d : Fin 16) (a : Fin 16) (m : Fin 8) (e : Bool) (t : FTy) : Nat :=
  pack [(3, t.code), (1, 0), (1, e.toNat), (3, m.val), (4, 0), (4, a.val), (4, d.val), (8, op), (4, g.val)]

/-- The layout of vfcmp.eq, vfcmp.lt, vfcmp.le, vfcmp.un. -/
def shV_gpabmeft.dec (mk : Fin 16 → Fin 4 → Fin 16 → Fin 16 → Fin 8 → Bool → Bool → FTy → Instr) (w : Nat) : Except Nat Instr :=
  match unpack [3, 1, 1, 3, 4, 4, 2, 2, 8, 4] w with
  | [t, f, e, m, b, a, p, r7, _, g] =>
    checked [(r7 != 0, 2), (5 ≤ t, 8)]
      (mk (fin 16 g) (fin 4 p) (fin 16 a) (fin 16 b) (fin 8 m) (bit e) (bit f) (FTy.ofCode t))
  | _ => .error 1

def shV_gpabmeft.enc (op : Nat) (g : Fin 16) (p : Fin 4) (a : Fin 16) (b : Fin 16) (m : Fin 8) (e : Bool) (f : Bool) (t : FTy) : Nat :=
  pack [(3, t.code), (1, f.toNat), (1, e.toNat), (3, m.val), (4, b.val), (4, a.val), (2, p.val), (2, 0), (8, op), (4, g.val)]

/-- The layout of vadd, vsub, vmul, vmulh …. -/
def shV_gdabmeft2.dec (mk : Fin 16 → Fin 16 → Fin 16 → Fin 16 → Fin 8 → Bool → Bool → ITy → Instr) (w : Nat) : Except Nat Instr :=
  match unpack [3, 1, 1, 3, 4, 4, 4, 8, 4] w with
  | [t, f, e, m, b, a, d, _, g] =>
    checked [(4 ≤ t, 8)]
      (mk (fin 16 g) (fin 16 d) (fin 16 a) (fin 16 b) (fin 8 m) (bit e) (bit f) (ITy.ofCode t))
  | _ => .error 1

def shV_gdabmeft2.enc (op : Nat) (g : Fin 16) (d : Fin 16) (a : Fin 16) (b : Fin 16) (m : Fin 8) (e : Bool) (f : Bool) (t : ITy) : Nat :=
  pack [(3, t.code), (1, f.toNat), (1, e.toNat), (3, m.val), (4, b.val), (4, a.val), (4, d.val), (8, op), (4, g.val)]

/-- The layout of vand, vor, vxor, vsel …. -/
def shV_gdabmef.dec (mk : Fin 16 → Fin 16 → Fin 16 → Fin 16 → Fin 8 → Bool → Bool → Instr) (w : Nat) : Except Nat Instr :=
  match unpack [3, 1, 1, 3, 4, 4, 4, 8, 4] w with
  | [r0, f, e, m, b, a, d, _, g] =>
    checked [(r0 != 0, 8)]
      (mk (fin 16 g) (fin 16 d) (fin 16 a) (fin 16 b) (fin 8 m) (bit e) (bit f))
  | _ => .error 1

def shV_gdabmef.enc (op : Nat) (g : Fin 16) (d : Fin 16) (a : Fin 16) (b : Fin 16) (m : Fin 8) (e : Bool) (f : Bool) : Nat :=
  pack [(3, 0), (1, f.toNat), (1, e.toNat), (3, m.val), (4, b.val), (4, a.val), (4, d.val), (8, op), (4, g.val)]

/-- The layout of vabs, vclz, vpopc, vhist. -/
def shV_gdamet2.dec (mk : Fin 16 → Fin 16 → Fin 16 → Fin 8 → Bool → ITy → Instr) (w : Nat) : Except Nat Instr :=
  match unpack [3, 1, 1, 3, 4, 4, 4, 8, 4] w with
  | [t, r1, e, m, r4, a, d, _, g] =>
    checked [(r1 != 0, 2), (r4 != 0, 2), (4 ≤ t, 8)]
      (mk (fin 16 g) (fin 16 d) (fin 16 a) (fin 8 m) (bit e) (ITy.ofCode t))
  | _ => .error 1

def shV_gdamet2.enc (op : Nat) (g : Fin 16) (d : Fin 16) (a : Fin 16) (m : Fin 8) (e : Bool) (t : ITy) : Nat :=
  pack [(3, t.code), (1, 0), (1, e.toNat), (3, m.val), (4, 0), (4, a.val), (4, d.val), (8, op), (4, g.val)]

/-- The layout of vcmp.eq, vcmp.lt, vcmp.ltu. -/
def shV_gpabmeft2.dec (mk : Fin 16 → Fin 4 → Fin 16 → Fin 16 → Fin 8 → Bool → Bool → ITy → Instr) (w : Nat) : Except Nat Instr :=
  match unpack [3, 1, 1, 3, 4, 4, 2, 2, 8, 4] w with
  | [t, f, e, m, b, a, p, r7, _, g] =>
    checked [(r7 != 0, 2), (4 ≤ t, 8)]
      (mk (fin 16 g) (fin 4 p) (fin 16 a) (fin 16 b) (fin 8 m) (bit e) (bit f) (ITy.ofCode t))
  | _ => .error 1

def shV_gpabmeft2.enc (op : Nat) (g : Fin 16) (p : Fin 4) (a : Fin 16) (b : Fin 16) (m : Fin 8) (e : Bool) (f : Bool) (t : ITy) : Nat :=
  pack [(3, t.code), (1, f.toNat), (1, e.toNat), (3, m.val), (4, b.val), (4, a.val), (2, p.val), (2, 0), (8, op), (4, g.val)]

/-- The layout of vmov. -/
def shV_gdame.dec (mk : Fin 16 → Fin 16 → Fin 16 → Fin 8 → Bool → Instr) (w : Nat) : Except Nat Instr :=
  match unpack [3, 1, 1, 3, 4, 4, 4, 8, 4] w with
  | [r0, r1, e, m, r4, a, d, _, g] =>
    checked [(r1 != 0, 2), (r4 != 0, 2), (r0 != 0, 8)]
      (mk (fin 16 g) (fin 16 d) (fin 16 a) (fin 8 m) (bit e))
  | _ => .error 1

def shV_gdame.enc (op : Nat) (g : Fin 16) (d : Fin 16) (a : Fin 16) (m : Fin 8) (e : Bool) : Nat :=
  pack [(3, 0), (1, 0), (1, e.toNat), (3, m.val), (4, 0), (4, a.val), (4, d.val), (8, op), (4, g.val)]

/-- The layout of vsplat, vrsum, vrmax, vrmin …. -/
def shV_gdamet3.dec (mk : Fin 16 → Fin 16 → Fin 16 → Fin 8 → Bool → XTy → Instr) (w : Nat) : Except Nat Instr :=
  match unpack [3, 1, 1, 3, 4, 4, 4, 8, 4] w with
  | [t, r1, e, m, r4, a, d, _, g] =>
    checked [(r1 != 0, 2), (r4 != 0, 2)]
      (mk (fin 16 g) (fin 16 d) (fin 16 a) (fin 8 m) (bit e) (XTy.ofCode t))
  | _ => .error 1

def shV_gdamet3.enc (op : Nat) (g : Fin 16) (d : Fin 16) (a : Fin 16) (m : Fin 8) (e : Bool) (t : XTy) : Nat :=
  pack [(3, t.code), (1, 0), (1, e.toNat), (3, m.val), (4, 0), (4, a.val), (4, d.val), (8, op), (4, g.val)]

/-- The layout of vins, vclamp, vbcast. -/
def shV_gdabmeft3.dec (mk : Fin 16 → Fin 16 → Fin 16 → Fin 16 → Fin 8 → Bool → Bool → XTy → Instr) (w : Nat) : Except Nat Instr :=
  match unpack [3, 1, 1, 3, 4, 4, 4, 8, 4] w with
  | [t, f, e, m, b, a, d, _, g] =>
    checked []
      (mk (fin 16 g) (fin 16 d) (fin 16 a) (fin 16 b) (fin 8 m) (bit e) (bit f) (XTy.ofCode t))
  | _ => .error 1

def shV_gdabmeft3.enc (op : Nat) (g : Fin 16) (d : Fin 16) (a : Fin 16) (b : Fin 16) (m : Fin 8) (e : Bool) (f : Bool) (t : XTy) : Nat :=
  pack [(3, t.code), (1, f.toNat), (1, e.toNat), (3, m.val), (4, b.val), (4, a.val), (4, d.val), (8, op), (4, g.val)]

/-- The layout of vext. -/
def shV_gdabeft.dec (mk : Fin 16 → Fin 16 → Fin 16 → Fin 16 → Bool → Bool → XTy → Instr) (w : Nat) : Except Nat Instr :=
  match unpack [3, 1, 1, 3, 4, 4, 4, 8, 4] w with
  | [t, f, e, r3, b, a, d, _, g] =>
    checked [(r3 != 0, 2)]
      (mk (fin 16 g) (fin 16 d) (fin 16 a) (fin 16 b) (bit e) (bit f) (XTy.ofCode t))
  | _ => .error 1

def shV_gdabeft.enc (op : Nat) (g : Fin 16) (d : Fin 16) (a : Fin 16) (b : Fin 16) (e : Bool) (f : Bool) (t : XTy) : Nat :=
  pack [(3, t.code), (1, f.toNat), (1, e.toNat), (3, 0), (4, b.val), (4, a.val), (4, d.val), (8, op), (4, g.val)]

/-- The layout of vzip. -/
def shV_gdabseft.dec (mk : Fin 16 → Fin 16 → Fin 16 → Fin 16 → Fin 4 → Bool → Bool → XTy → Instr) (w : Nat) : Except Nat Instr :=
  match unpack [3, 1, 1, 3, 4, 4, 4, 8, 4] w with
  | [t, f, e, s, b, a, d, _, g] =>
    checked [(4 ≤ s, 2)]
      (mk (fin 16 g) (fin 16 d) (fin 16 a) (fin 16 b) (fin 4 s) (bit e) (bit f) (XTy.ofCode t))
  | _ => .error 1

def shV_gdabseft.enc (op : Nat) (g : Fin 16) (d : Fin 16) (a : Fin 16) (b : Fin 16) (s : Fin 4) (e : Bool) (f : Bool) (t : XTy) : Nat :=
  pack [(3, t.code), (1, f.toNat), (1, e.toNat), (3, s.val), (4, b.val), (4, a.val), (4, d.val), (8, op), (4, g.val)]

/-- The layout of vrpop. -/
def shV_gdm.dec (mk : Fin 16 → Fin 16 → Fin 8 → Instr) (w : Nat) : Except Nat Instr :=
  match unpack [3, 2, 3, 8, 4, 8, 4] w with
  | [r0, r1, m, r3, d, _, g] =>
    checked [(r1 != 0, 2), (r3 != 0, 2), (r0 != 0, 8)]
      (mk (fin 16 g) (fin 16 d) (fin 8 m))
  | _ => .error 1

def shV_gdm.enc (op : Nat) (g : Fin 16) (d : Fin 16) (m : Fin 8) : Nat :=
  pack [(3, 0), (2, 0), (3, m.val), (8, 0), (4, d.val), (8, op), (4, g.val)]

/-- The layout of vtopk, vtopk.i. -/
def shV_gdabmeft4.dec (mk : Fin 16 → Fin 16 → Fin 16 → Fin 16 → Fin 8 → Bool → Bool → KTy → Instr) (w : Nat) : Except Nat Instr :=
  match unpack [3, 1, 1, 3, 4, 4, 4, 8, 4] w with
  | [t, f, e, m, b, a, d, _, g] =>
    checked [(t != 0 && t != 4, 8)]
      (mk (fin 16 g) (fin 16 d) (fin 16 a) (fin 16 b) (fin 8 m) (bit e) (bit f) (KTy.ofCode t))
  | _ => .error 1

def shV_gdabmeft4.enc (op : Nat) (g : Fin 16) (d : Fin 16) (a : Fin 16) (b : Fin 16) (m : Fin 8) (e : Bool) (f : Bool) (t : KTy) : Nat :=
  pack [(3, t.code), (1, f.toNat), (1, e.toNat), (3, m.val), (4, b.val), (4, a.val), (4, d.val), (8, op), (4, g.val)]

/-- The layout of vsort, vrank, vcompress, vexpand. -/
def shV_gdamet4.dec (mk : Fin 16 → Fin 16 → Fin 16 → Fin 8 → Bool → KTy → Instr) (w : Nat) : Except Nat Instr :=
  match unpack [3, 1, 1, 3, 4, 4, 4, 8, 4] w with
  | [t, r1, e, m, r4, a, d, _, g] =>
    checked [(r1 != 0, 2), (r4 != 0, 2), (t != 0 && t != 4, 8)]
      (mk (fin 16 g) (fin 16 d) (fin 16 a) (fin 8 m) (bit e) (KTy.ofCode t))
  | _ => .error 1

def shV_gdamet4.enc (op : Nat) (g : Fin 16) (d : Fin 16) (a : Fin 16) (m : Fin 8) (e : Bool) (t : KTy) : Nat :=
  pack [(3, t.code), (1, 0), (1, e.toNat), (3, m.val), (4, 0), (4, a.val), (4, d.val), (8, op), (4, g.val)]

/-- The layout of vqnt. -/
def shV_gdabeft2.dec (mk : Fin 16 → Fin 16 → Fin 16 → Fin 16 → Bool → Bool → MxFmt → Instr) (w : Nat) : Except Nat Instr :=
  match unpack [3, 1, 1, 3, 4, 4, 4, 8, 4] w with
  | [t, f, e, r3, b, a, d, _, g] =>
    checked [(r3 != 0, 2), (3 ≤ t, 8)]
      (mk (fin 16 g) (fin 16 d) (fin 16 a) (fin 16 b) (bit e) (bit f) (MxFmt.ofCode t))
  | _ => .error 1

def shV_gdabeft2.enc (op : Nat) (g : Fin 16) (d : Fin 16) (a : Fin 16) (b : Fin 16) (e : Bool) (f : Bool) (t : MxFmt) : Nat :=
  pack [(3, t.code), (1, f.toNat), (1, e.toNat), (3, 0), (4, b.val), (4, a.val), (4, d.val), (8, op), (4, g.val)]

/-- The layout of vdqnt. -/
def shV_gdabjeft.dec (mk : Fin 16 → Fin 16 → Fin 16 → Fin 16 → Fin 4 → Bool → Bool → MxFmt → Instr) (w : Nat) : Except Nat Instr :=
  match unpack [3, 1, 1, 3, 4, 4, 4, 8, 4] w with
  | [t, f, e, j, b, a, d, _, g] =>
    checked [(4 ≤ j, 2), (3 ≤ t, 8)]
      (mk (fin 16 g) (fin 16 d) (fin 16 a) (fin 16 b) (fin 4 j) (bit e) (bit f) (MxFmt.ofCode t))
  | _ => .error 1

def shV_gdabjeft.enc (op : Nat) (g : Fin 16) (d : Fin 16) (a : Fin 16) (b : Fin 16) (j : Fin 4) (e : Bool) (f : Bool) (t : MxFmt) : Nat :=
  pack [(3, t.code), (1, f.toNat), (1, e.toNat), (3, j.val), (4, b.val), (4, a.val), (4, d.val), (8, op), (4, g.val)]

/-- The layout of vcvt. -/
def shV_gdamet5.dec (mk : Fin 16 → Fin 16 → Fin 16 → Fin 8 → Bool → Fin 8 → Instr) (w : Nat) : Except Nat Instr :=
  match unpack [3, 1, 1, 3, 4, 4, 4, 8, 4] w with
  | [t, r1, e, m, r4, a, d, _, g] =>
    checked [(r1 != 0, 2), (r4 != 0, 2)]
      (mk (fin 16 g) (fin 16 d) (fin 16 a) (fin 8 m) (bit e) (fin 8 t))
  | _ => .error 1

def shV_gdamet5.enc (op : Nat) (g : Fin 16) (d : Fin 16) (a : Fin 16) (m : Fin 8) (e : Bool) (t : Fin 8) : Nat :=
  pack [(3, t.val), (1, 0), (1, e.toNat), (3, m.val), (4, 0), (4, a.val), (4, d.val), (8, op), (4, g.val)]

/-- The layout of vpack. -/
def shV_gdabmeft5.dec (mk : Fin 16 → Fin 16 → Fin 16 → Fin 16 → Fin 8 → Bool → Bool → Fin 8 → Instr) (w : Nat) : Except Nat Instr :=
  match unpack [3, 1, 1, 3, 4, 4, 4, 8, 4] w with
  | [t, f, e, m, b, a, d, _, g] =>
    checked []
      (mk (fin 16 g) (fin 16 d) (fin 16 a) (fin 16 b) (fin 8 m) (bit e) (bit f) (fin 8 t))
  | _ => .error 1

def shV_gdabmeft5.enc (op : Nat) (g : Fin 16) (d : Fin 16) (a : Fin 16) (b : Fin 16) (m : Fin 8) (e : Bool) (f : Bool) (t : Fin 8) : Nat :=
  pack [(3, t.val), (1, f.toNat), (1, e.toNat), (3, m.val), (4, b.val), (4, a.val), (4, d.val), (8, op), (4, g.val)]

/-- The layout of vunpk. -/
def shV_gdahmet.dec (mk : Fin 16 → Fin 16 → Fin 16 → Fin 16 → Fin 8 → Bool → Fin 8 → Instr) (w : Nat) : Except Nat Instr :=
  match unpack [3, 1, 1, 3, 4, 4, 4, 8, 4] w with
  | [t, r1, e, m, h, a, d, _, g] =>
    checked [(r1 != 0, 2)]
      (mk (fin 16 g) (fin 16 d) (fin 16 a) (fin 16 h) (fin 8 m) (bit e) (fin 8 t))
  | _ => .error 1

def shV_gdahmet.enc (op : Nat) (g : Fin 16) (d : Fin 16) (a : Fin 16) (h : Fin 16) (m : Fin 8) (e : Bool) (t : Fin 8) : Nat :=
  pack [(3, t.val), (1, 0), (1, e.toNat), (3, m.val), (4, h.val), (4, a.val), (4, d.val), (8, op), (4, g.val)]

/-- The layout of vsrnd. -/
def shV_game.dec (mk : Fin 16 → Fin 16 → Fin 8 → Bool → Instr) (w : Nat) : Except Nat Instr :=
  match unpack [3, 1, 1, 3, 4, 4, 4, 8, 4] w with
  | [r0, r1, e, m, r4, a, r6, _, g] =>
    checked [(r1 != 0, 2), (r4 != 0, 2), (r6 != 0, 2), (r0 != 0, 8)]
      (mk (fin 16 g) (fin 16 a) (fin 8 m) (bit e))
  | _ => .error 1

def shV_game.enc (op : Nat) (g : Fin 16) (a : Fin 16) (m : Fin 8) (e : Bool) : Nat :=
  pack [(3, 0), (1, 0), (1, e.toNat), (3, m.val), (4, 0), (4, a.val), (4, 0), (8, op), (4, g.val)]

/-- The layout of vld, vst, vld.b. -/
def shV_gdabmefs.dec (mk : Fin 16 → Fin 16 → Fin 16 → Fin 16 → Fin 8 → Bool → Bool → Space → Instr) (w : Nat) : Except Nat Instr :=
  match unpack [2, 1, 1, 1, 3, 4, 4, 4, 8, 4] w with
  | [s, r1, f, e, m, b, a, d, _, g] =>
    checked [(r1 != 0, 8)]
      (mk (fin 16 g) (fin 16 d) (fin 16 a) (fin 16 b) (fin 8 m) (bit e) (bit f) (Space.ofCode s))
  | _ => .error 1

def shV_gdabmefs.enc (op : Nat) (g : Fin 16) (d : Fin 16) (a : Fin 16) (b : Fin 16) (m : Fin 8) (e : Bool) (f : Bool) (s : Space) : Nat :=
  pack [(2, s.code), (1, 0), (1, f.toNat), (1, e.toNat), (3, m.val), (4, b.val), (4, a.val), (4, d.val), (8, op), (4, g.val)]

/-- The layout of vld.t, vst.t. -/
def shV_gdhbmfc.dec (mk : Fin 16 → Fin 16 → Fin 16 → Fin 8 → Fin 8 → Bool → Bool → Instr) (w : Nat) : Except Nat Instr :=
  match unpack [1, 2, 1, 1, 3, 4, 4, 4, 8, 4] w with
  | [c, r1, f, r3, m, b, h, d, _, g] =>
    checked [(r3 != 0, 2), (r1 != 0, 8), (b % 2 == 1, 0x29)]
      (mk (fin 16 g) (fin 16 d) (fin 16 h) (fin 8 (b / 2)) (fin 8 m) (bit f) (bit c))
  | _ => .error 1

def shV_gdhbmfc.enc (op : Nat) (g : Fin 16) (d : Fin 16) (h : Fin 16) (b : Fin 8) (m : Fin 8) (f : Bool) (c : Bool) : Nat :=
  pack [(1, c.toNat), (2, 0), (1, f.toNat), (1, 0), (3, m.val), (4, 2 * b.val), (4, h.val), (4, d.val), (8, op), (4, g.val)]

/-- The layout of vgat, vsca. -/
def shV_gdabmefks.dec (mk : Fin 16 → Fin 16 → Fin 16 → Fin 16 → Fin 8 → Bool → Bool → Bool → Space → Instr) (w : Nat) : Except Nat Instr :=
  match unpack [2, 1, 1, 1, 3, 4, 4, 4, 8, 4] w with
  | [s, k, f, e, m, b, a, d, _, g] =>
    checked []
      (mk (fin 16 g) (fin 16 d) (fin 16 a) (fin 16 b) (fin 8 m) (bit e) (bit f) (bit k) (Space.ofCode s))
  | _ => .error 1

def shV_gdabmefks.enc (op : Nat) (g : Fin 16) (d : Fin 16) (a : Fin 16) (b : Fin 16) (m : Fin 8) (e : Bool) (f : Bool) (k : Bool) (s : Space) : Nat :=
  pack [(2, s.code), (1, k.toNat), (1, f.toNat), (1, e.toNat), (3, m.val), (4, b.val), (4, a.val), (4, d.val), (8, op), (4, g.val)]

/-- The layout of mand, mor, mxor. -/
def shV_gdab.dec (mk : Fin 16 → Fin 8 → Fin 8 → Fin 8 → Instr) (w : Nat) : Except Nat Instr :=
  match unpack [3, 5, 3, 1, 3, 1, 3, 1, 8, 4] w with
  | [r0, r1, b, r3, a, r5, d, r7, _, g] =>
    checked [(r1 != 0, 2), (r3 != 0, 2), (r5 != 0, 2), (r7 != 0, 2), (r0 != 0, 8)]
      (mk (fin 16 g) (fin 8 d) (fin 8 a) (fin 8 b))
  | _ => .error 1

def shV_gdab.enc (op : Nat) (g : Fin 16) (d : Fin 8) (a : Fin 8) (b : Fin 8) : Nat :=
  pack [(3, 0), (5, 0), (3, b.val), (1, 0), (3, a.val), (1, 0), (3, d.val), (1, 0), (8, op), (4, g.val)]

/-- The layout of mnot, mfirst. -/
def shV_gda.dec (mk : Fin 16 → Fin 8 → Fin 8 → Instr) (w : Nat) : Except Nat Instr :=
  match unpack [3, 9, 3, 1, 3, 1, 8, 4] w with
  | [r0, r1, a, r3, d, r5, _, g] =>
    checked [(r1 != 0, 2), (r3 != 0, 2), (r5 != 0, 2), (r0 != 0, 8)]
      (mk (fin 16 g) (fin 8 d) (fin 8 a))
  | _ => .error 1

def shV_gda.enc (op : Nat) (g : Fin 16) (d : Fin 8) (a : Fin 8) : Nat :=
  pack [(3, 0), (9, 0), (3, a.val), (1, 0), (3, d.val), (1, 0), (8, op), (4, g.val)]

/-- The layout of mset. -/
def shV_gdae.dec (mk : Fin 16 → Fin 8 → Fin 16 → Bool → Instr) (w : Nat) : Except Nat Instr :=
  match unpack [3, 1, 1, 7, 4, 3, 1, 8, 4] w with
  | [r0, r1, e, r3, a, d, r6, _, g] =>
    checked [(r1 != 0, 2), (r3 != 0, 2), (r6 != 0, 2), (r0 != 0, 8)]
      (mk (fin 16 g) (fin 8 d) (fin 16 a) (bit e))
  | _ => .error 1

def shV_gdae.enc (op : Nat) (g : Fin 16) (d : Fin 8) (a : Fin 16) (e : Bool) : Nat :=
  pack [(3, 0), (1, 0), (1, e.toNat), (7, 0), (4, a.val), (3, d.val), (1, 0), (8, op), (4, g.val)]

/-- The layout of mset.rd. -/
def shV_gda2.dec (mk : Fin 16 → Fin 16 → Fin 8 → Instr) (w : Nat) : Except Nat Instr :=
  match unpack [3, 9, 3, 1, 4, 8, 4] w with
  | [r0, r1, a, r3, d, _, g] =>
    checked [(r1 != 0, 2), (r3 != 0, 2), (r0 != 1, 8)]
      (mk (fin 16 g) (fin 16 d) (fin 8 a))
  | _ => .error 1

def shV_gda2.enc (op : Nat) (g : Fin 16) (d : Fin 16) (a : Fin 8) : Nat :=
  pack [(3, 1), (9, 0), (3, a.val), (1, 0), (4, d.val), (8, op), (4, g.val)]

/-- The layout of vacc.rd, vacc.pk. -/
def shV_gdnbmfc.dec (mk : Fin 16 → Fin 16 → Fin 8 → Fin 16 → Fin 8 → Bool → Bool → Instr) (w : Nat) : Except Nat Instr :=
  match unpack [1, 2, 1, 1, 3, 4, 4, 4, 8, 4] w with
  | [c, r1, f, r3, m, b, n, d, _, g] =>
    checked [(r3 != 0, 2), (8 ≤ n, 2), (r1 != 0, 8)]
      (mk (fin 16 g) (fin 16 d) (fin 8 n) (fin 16 b) (fin 8 m) (bit f) (bit c))
  | _ => .error 1

def shV_gdnbmfc.enc (op : Nat) (g : Fin 16) (d : Fin 16) (n : Fin 8) (b : Fin 16) (m : Fin 8) (f : Bool) (c : Bool) : Nat :=
  pack [(1, c.toNat), (2, 0), (1, f.toNat), (1, 0), (3, m.val), (4, b.val), (4, n.val), (4, d.val), (8, op), (4, g.val)]

/-- The layout of vacc.wr. -/
def shV_gnabmefc.dec (mk : Fin 16 → Fin 8 → Fin 16 → Fin 16 → Fin 8 → Bool → Bool → Bool → Instr) (w : Nat) : Except Nat Instr :=
  match unpack [1, 2, 1, 1, 3, 4, 4, 4, 8, 4] w with
  | [c, r1, f, e, m, b, a, n, _, g] =>
    checked [(8 ≤ n, 2), (r1 != 0, 8)]
      (mk (fin 16 g) (fin 8 n) (fin 16 a) (fin 16 b) (fin 8 m) (bit e) (bit f) (bit c))
  | _ => .error 1

def shV_gnabmefc.enc (op : Nat) (g : Fin 16) (n : Fin 8) (a : Fin 16) (b : Fin 16) (m : Fin 8) (e : Bool) (f : Bool) (c : Bool) : Nat :=
  pack [(1, c.toNat), (2, 0), (1, f.toNat), (1, e.toNat), (3, m.val), (4, b.val), (4, a.val), (4, n.val), (8, op), (4, g.val)]

/-- The layout of vdot4. -/
def shV_gdabmeft6.dec (mk : Fin 16 → Fin 16 → Fin 16 → Fin 16 → Fin 8 → Bool → Bool → Dot4Ty → Instr) (w : Nat) : Except Nat Instr :=
  match unpack [3, 1, 1, 3, 4, 4, 4, 8, 4] w with
  | [t, f, e, m, b, a, d, _, g] =>
    checked [(7 ≤ t, 8)]
      (mk (fin 16 g) (fin 16 d) (fin 16 a) (fin 16 b) (fin 8 m) (bit e) (bit f) (Dot4Ty.ofCode t))
  | _ => .error 1

def shV_gdabmeft6.enc (op : Nat) (g : Fin 16) (d : Fin 16) (a : Fin 16) (b : Fin 16) (m : Fin 8) (e : Bool) (f : Bool) (t : Dot4Ty) : Nat :=
  pack [(3, t.code), (1, f.toNat), (1, e.toNat), (3, m.val), (4, b.val), (4, a.val), (4, d.val), (8, op), (4, g.val)]

/-- The layout of vlut. -/
def shV_gdabmeft7.dec (mk : Fin 16 → Fin 16 → Fin 16 → Fin 16 → Fin 8 → Bool → Bool → Bool → Instr) (w : Nat) : Except Nat Instr :=
  match unpack [1, 2, 1, 1, 3, 4, 4, 4, 8, 4] w with
  | [t, r1, f, e, m, b, a, d, _, g] =>
    checked [(r1 != 0, 8)]
      (mk (fin 16 g) (fin 16 d) (fin 16 a) (fin 16 b) (fin 8 m) (bit e) (bit f) (bit t))
  | _ => .error 1

def shV_gdabmeft7.enc (op : Nat) (g : Fin 16) (d : Fin 16) (a : Fin 16) (b : Fin 16) (m : Fin 8) (e : Bool) (f : Bool) (t : Bool) : Nat :=
  pack [(1, t.toNat), (2, 0), (1, f.toNat), (1, e.toNat), (3, m.val), (4, b.val), (4, a.val), (4, d.val), (8, op), (4, g.val)]

/-- The layout of mcall, mcall.b. -/
def shM_gk.dec (mk : Fin 16 → Fin 256 → Instr) (w : Nat) : Except Nat Instr :=
  match unpack [12, 8, 8, 4] w with
  | [r0, k, _, g] =>
    checked [(r0 != 0, 2)]
      (mk (fin 16 g) (fin 256 k))
  | _ => .error 1

def shM_gk.enc (op : Nat) (g : Fin 16) (k : Fin 256) : Nat :=
  pack [(12, 0), (8, k.val), (8, op), (4, g.val)]

/-- The layout of mwait, mabort. -/
def shM_g.dec (mk : Fin 16 → Instr) (w : Nat) : Except Nat Instr :=
  match unpack [20, 8, 4] w with
  | [r0, _, g] =>
    checked [(r0 != 0, 2)]
      (mk (fin 16 g))
  | _ => .error 1

def shM_g.enc (op : Nat) (g : Fin 16) : Nat :=
  pack [(20, 0), (8, op), (4, g.val)]

/-- The layout of mscale. -/
def shM_gfi.dec (mk : Fin 16 → Fin 4 → Fin 4 → Instr) (w : Nat) : Except Nat Instr :=
  match unpack [16, 2, 2, 8, 4] w with
  | [r0, i, f, _, g] =>
    checked [(r0 != 0, 2)]
      (mk (fin 16 g) (fin 4 f) (fin 4 i))
  | _ => .error 1

def shM_gfi.enc (op : Nat) (g : Fin 16) (f : Fin 4) (i : Fin 4) : Nat :=
  pack [(16, 0), (2, i.val), (2, f.val), (8, op), (4, g.val)]

/-- The layout of mdrain. -/
def shM_gi.dec (mk : Fin 16 → Fin 4 → Instr) (w : Nat) : Except Nat Instr :=
  match unpack [16, 2, 2, 8, 4] w with
  | [r0, i, r2, _, g] =>
    checked [(r0 != 0, 2), (r2 != 0, 2)]
      (mk (fin 16 g) (fin 4 i))
  | _ => .error 1

def shM_gi.enc (op : Nat) (g : Fin 16) (i : Fin 4) : Nat :=
  pack [(16, 0), (2, i.val), (2, 0), (8, op), (4, g.val)]

/-- The layout of mclr. -/
def shM_gif.dec (mk : Fin 16 → BitVec 4 → BitVec 4 → Instr) (w : Nat) : Except Nat Instr :=
  match unpack [12, 4, 4, 8, 4] w with
  | [r0, f, i, _, g] =>
    checked [(r0 != 0, 2)]
      (mk (fin 16 g) (BitVec.ofNat 4 i) (BitVec.ofNat 4 f))
  | _ => .error 1

def shM_gif.enc (op : Nat) (g : Fin 16) (i : BitVec 4) (f : BitVec 4) : Nat :=
  pack [(12, 0), (4, f.toNat), (4, i.toNat), (8, op), (4, g.val)]

/-- The layout of mld.ms. -/
def shM_gae.dec (mk : Fin 16 → Src → Bool → Instr) (w : Nat) : Except Nat Instr :=
  match unpack [14, 1, 5, 8, 4] w with
  | [r0, e, a, _, g] =>
    checked [(r0 != 0, 2)]
      (mk (fin 16 g) (Src.ofCode a) (bit e))
  | _ => .error 1

def shM_gae.enc (op : Nat) (g : Fin 16) (a : Src) (e : Bool) : Nat :=
  pack [(14, 0), (1, e.toNat), (5, a.code), (8, op), (4, g.val)]

/-- The layout of mst.ms. -/
def shM_gabef.dec (mk : Fin 16 → Src → Src → Bool → Bool → Instr) (w : Nat) : Except Nat Instr :=
  match unpack [8, 1, 1, 5, 5, 8, 4] w with
  | [r0, f, e, b, a, _, g] =>
    checked [(r0 != 0, 2)]
      (mk (fin 16 g) (Src.ofCode a) (Src.ofCode b) (bit e) (bit f))
  | _ => .error 1

def shM_gabef.enc (op : Nat) (g : Fin 16) (a : Src) (b : Src) (e : Bool) (f : Bool) : Nat :=
  pack [(8, 0), (1, f.toNat), (1, e.toNat), (5, b.code), (5, a.code), (8, op), (4, g.val)]

/-- The layout of mq.clr. -/
def shM_gabl.dec (mk : Fin 16 → Bool → Bool → Bool → Instr) (w : Nat) : Except Nat Instr :=
  match unpack [17, 1, 1, 1, 8, 4] w with
  | [r0, l, b, a, _, g] =>
    checked [(r0 != 0, 2)]
      (mk (fin 16 g) (bit a) (bit b) (bit l))
  | _ => .error 1

def shM_gabl.enc (op : Nat) (g : Fin 16) (a : Bool) (b : Bool) (l : Bool) : Nat :=
  pack [(17, 0), (1, l.toNat), (1, b.toNat), (1, a.toNat), (8, op), (4, g.val)]

/-- The layout of mq.st, mstat. -/
def shM_gd.dec (mk : Fin 16 → Dst → Instr) (w : Nat) : Except Nat Instr :=
  match unpack [15, 5, 8, 4] w with
  | [r0, d, _, g] =>
    checked [(r0 != 0, 2), (24 < d, 5)]
      (mk (fin 16 g) (Dst.ofCode d))
  | _ => .error 1

def shM_gd.enc (op : Nat) (g : Fin 16) (d : Dst) : Nat :=
  pack [(15, 0), (5, d.code), (8, op), (4, g.val)]

/-- The layout of mhalf. -/
def shM_gn.dec (mk : Fin 16 → Bool → Instr) (w : Nat) : Except Nat Instr :=
  match unpack [19, 1, 8, 4] w with
  | [r0, n, _, g] =>
    checked [(r0 != 0, 2)]
      (mk (fin 16 g) (bit n))
  | _ => .error 1

def shM_gn.enc (op : Nat) (g : Fin 16) (n : Bool) : Nat :=
  pack [(19, 0), (1, n.toNat), (8, op), (4, g.val)]

/-- The layout of mchk. -/
def shM_gdi.dec (mk : Fin 16 → Dst → Fin 4 → Instr) (w : Nat) : Except Nat Instr :=
  match unpack [13, 2, 5, 8, 4] w with
  | [r0, i, d, _, g] =>
    checked [(r0 != 0, 2), (24 < d, 5)]
      (mk (fin 16 g) (Dst.ofCode d) (fin 4 i))
  | _ => .error 1

def shM_gdi.enc (op : Nat) (g : Fin 16) (d : Dst) (i : Fin 4) : Nat :=
  pack [(13, 0), (2, i.val), (5, d.code), (8, op), (4, g.val)]

/-- The layout of mfix. -/
def shM_gfix.dec (mk : Fin 16 → Fin 4 → Fin 4 → BitVec 8 → Instr) (w : Nat) : Except Nat Instr :=
  match unpack [8, 8, 2, 2, 8, 4] w with
  | [r0, x, i, f, _, g] =>
    checked [(r0 != 0, 2)]
      (mk (fin 16 g) (fin 4 f) (fin 4 i) (BitVec.ofNat 8 x))
  | _ => .error 1

def shM_gfix.enc (op : Nat) (g : Fin 16) (f : Fin 4) (i : Fin 4) (x : BitVec 8) : Nat :=
  pack [(8, 0), (8, x.toNat), (2, i.val), (2, f.val), (8, op), (4, g.val)]

/-- The layout of mmov. -/
def shM_gds.dec (mk : Fin 16 → Fin 8 → Fin 8 → Instr) (w : Nat) : Except Nat Instr :=
  match unpack [14, 3, 3, 8, 4] w with
  | [r0, s, d, _, g] =>
    checked [(r0 != 0, 2)]
      (mk (fin 16 g) (fin 8 d) (fin 8 s))
  | _ => .error 1

def shM_gds.enc (op : Nat) (g : Fin 16) (d : Fin 8) (s : Fin 8) : Nat :=
  pack [(14, 0), (3, s.val), (3, d.val), (8, op), (4, g.val)]

/-- The layout of cpy.go, cpy.cvt. -/
def shC_gaec.dec (mk : Fin 16 → Src → Bool → Fin 4 → EngSyl) (w : Nat) : Except Nat EngSyl :=
  match unpack [2, 2, 1, 5, 5, 5, 8, 4] w with
  | [c, r1, e, r3, a, r5, _, g] =>
    checked [(r1 != 0, 2), (r3 != 0, 2), (r5 != 0, 2)]
      (mk (fin 16 g) (Src.ofCode a) (bit e) (fin 4 c))
  | _ => .error 1

def shC_gaec.enc (op : Nat) (g : Fin 16) (a : Src) (e : Bool) (c : Fin 4) : Nat :=
  pack [(2, c.val), (2, 0), (1, e.toNat), (5, 0), (5, a.code), (5, 0), (8, op), (4, g.val)]

/-- The layout of cpy.gq, cpy.fill. -/
def shC_gabefc.dec (mk : Fin 16 → Src → Src → Bool → Bool → Fin 4 → EngSyl) (w : Nat) : Except Nat EngSyl :=
  match unpack [2, 1, 1, 1, 5, 5, 5, 8, 4] w with
  | [c, r1, f, e, b, a, r6, _, g] =>
    checked [(r1 != 0, 2), (r6 != 0, 2)]
      (mk (fin 16 g) (Src.ofCode a) (Src.ofCode b) (bit e) (bit f) (fin 4 c))
  | _ => .error 1

def shC_gabefc.enc (op : Nat) (g : Fin 16) (a : Src) (b : Src) (e : Bool) (f : Bool) (c : Fin 4) : Nat :=
  pack [(2, c.val), (1, 0), (1, f.toNat), (1, e.toNat), (5, b.code), (5, a.code), (5, 0), (8, op), (4, g.val)]

/-- The layout of cpy.drn, cpy.cancel. -/
def shC_gc.dec (mk : Fin 16 → Fin 4 → EngSyl) (w : Nat) : Except Nat EngSyl :=
  match unpack [2, 18, 8, 4] w with
  | [c, r1, _, g] =>
    checked [(r1 != 0, 2)]
      (mk (fin 16 g) (fin 4 c))
  | _ => .error 1

def shC_gc.enc (op : Nat) (g : Fin 16) (c : Fin 4) : Nat :=
  pack [(2, c.val), (18, 0), (8, op), (4, g.val)]

/-- The layout of cpy.st. -/
def shC_gdc.dec (mk : Fin 16 → Dst → Fin 4 → EngSyl) (w : Nat) : Except Nat EngSyl :=
  match unpack [2, 13, 5, 8, 4] w with
  | [c, r1, d, _, g] =>
    checked [(r1 != 0, 2), (24 < d, 5)]
      (mk (fin 16 g) (Dst.ofCode d) (fin 4 c))
  | _ => .error 1

def shC_gdc.enc (op : Nat) (g : Fin 16) (d : Dst) (c : Fin 4) : Nat :=
  pack [(2, c.val), (13, 0), (5, d.code), (8, op), (4, g.val)]

/-- The layout of cpy.pb, cpy.inv. -/
def shC_gae.dec (mk : Fin 16 → Src → Bool → EngSyl) (w : Nat) : Except Nat EngSyl :=
  match unpack [4, 1, 5, 5, 5, 8, 4] w with
  | [r0, e, r2, a, r4, _, g] =>
    checked [(r0 != 0, 2), (r2 != 0, 2), (r4 != 0, 2)]
      (mk (fin 16 g) (Src.ofCode a) (bit e))
  | _ => .error 1

def shC_gae.enc (op : Nat) (g : Fin 16) (a : Src) (e : Bool) : Nat :=
  pack [(4, 0), (1, e.toNat), (5, 0), (5, a.code), (5, 0), (8, op), (4, g.val)]

/-- The layout of cpy.zero. -/
def shC_ghc.dec (mk : Fin 16 → Fin 16 → Fin 4 → EngSyl) (w : Nat) : Except Nat EngSyl :=
  match unpack [2, 14, 4, 8, 4] w with
  | [c, r1, h, _, g] =>
    checked [(r1 != 0, 2)]
      (mk (fin 16 g) (fin 16 h) (fin 4 c))
  | _ => .error 1

def shC_ghc.enc (op : Nat) (g : Fin 16) (h : Fin 16) (c : Fin 4) : Nat :=
  pack [(2, c.val), (14, 0), (4, h.val), (8, op), (4, g.val)]

/-- The layout of tmov, tmov.h. -/
def shC_gdsab.dec (mk : Fin 16 → Fin 16 → Fin 16 → Fin 8 → Fin 8 → EngSyl) (w : Nat) : Except Nat EngSyl :=
  match unpack [6, 3, 3, 4, 4, 8, 4] w with
  | [r0, b, a, s, d, _, g] =>
    checked [(r0 != 0, 2)]
      (mk (fin 16 g) (fin 16 d) (fin 16 s) (fin 8 a) (fin 8 b))
  | _ => .error 1

def shC_gdsab.enc (op : Nat) (g : Fin 16) (d : Fin 16) (s : Fin 16) (a : Fin 8) (b : Fin 8) : Nat :=
  pack [(6, 0), (3, b.val), (3, a.val), (4, s.val), (4, d.val), (8, op), (4, g.val)]

/-- The layout of rlay. -/
def shC_ghabef.dec (mk : Fin 16 → Fin 16 → Src → Src → Bool → Bool → EngSyl) (w : Nat) : Except Nat EngSyl :=
  match unpack [4, 1, 1, 5, 5, 4, 8, 4] w with
  | [r0, f, e, b, a, h, _, g] =>
    checked [(r0 != 0, 2)]
      (mk (fin 16 g) (fin 16 h) (Src.ofCode a) (Src.ofCode b) (bit e) (bit f))
  | _ => .error 1

def shC_ghabef.enc (op : Nat) (g : Fin 16) (h : Fin 16) (a : Src) (b : Src) (e : Bool) (f : Bool) : Nat :=
  pack [(4, 0), (1, f.toNat), (1, e.toNat), (5, b.code), (5, a.code), (4, h.val), (8, op), (4, g.val)]

/-- The layout of rlay.wt, rlay.st. -/
def shC_gh.dec (mk : Fin 16 → Fin 16 → EngSyl) (w : Nat) : Except Nat EngSyl :=
  match unpack [16, 4, 8, 4] w with
  | [r0, h, _, g] =>
    checked [(r0 != 0, 2)]
      (mk (fin 16 g) (fin 16 h))
  | _ => .error 1

def shC_gh.enc (op : Nat) (g : Fin 16) (h : Fin 16) : Nat :=
  pack [(16, 0), (4, h.val), (8, op), (4, g.val)]

/-- The layout of bc.drv, bc.lat. -/
def shC_gdae.dec (mk : Fin 16 → Dst → Src → Bool → EngSyl) (w : Nat) : Except Nat EngSyl :=
  match unpack [4, 1, 5, 5, 5, 8, 4] w with
  | [r0, e, r2, a, d, _, g] =>
    checked [(r0 != 0, 2), (r2 != 0, 2), (24 < d, 5)]
      (mk (fin 16 g) (Dst.ofCode d) (Src.ofCode a) (bit e))
  | _ => .error 1

def shC_gdae.enc (op : Nat) (g : Fin 16) (d : Dst) (a : Src) (e : Bool) : Nat :=
  pack [(4, 0), (1, e.toNat), (5, 0), (5, a.code), (5, d.code), (8, op), (4, g.val)]

/-- The layout of bc.sync, pf.g. -/
def shC_gabef.dec (mk : Fin 16 → Src → Src → Bool → Bool → EngSyl) (w : Nat) : Except Nat EngSyl :=
  match unpack [3, 1, 1, 5, 5, 5, 8, 4] w with
  | [r0, f, e, b, a, r5, _, g] =>
    checked [(r0 != 0, 2), (r5 != 0, 2)]
      (mk (fin 16 g) (Src.ofCode a) (Src.ofCode b) (bit e) (bit f))
  | _ => .error 1

def shC_gabef.enc (op : Nat) (g : Fin 16) (a : Src) (b : Src) (e : Bool) (f : Bool) : Nat :=
  pack [(3, 0), (1, f.toNat), (1, e.toNat), (5, b.code), (5, a.code), (5, 0), (8, op), (4, g.val)]

/-- The layout of buf.arm. -/
def shC_gckabef.dec (mk : Fin 16 → Fin 4 → Fin 4 → Src → Src → Bool → Bool → EngSyl) (w : Nat) : Except Nat EngSyl :=
  match unpack [3, 1, 1, 5, 5, 2, 2, 1, 8, 4] w with
  | [r0, f, e, b, a, k, c, r7, _, g] =>
    checked [(r0 != 0, 2), (r7 != 0, 2)]
      (mk (fin 16 g) (fin 4 c) (fin 4 k) (Src.ofCode a) (Src.ofCode b) (bit e) (bit f))
  | _ => .error 1

def shC_gckabef.enc (op : Nat) (g : Fin 16) (c : Fin 4) (k : Fin 4) (a : Src) (b : Src) (e : Bool) (f : Bool) : Nat :=
  pack [(3, 0), (1, f.toNat), (1, e.toNat), (5, b.code), (5, a.code), (2, k.val), (2, c.val), (1, 0), (8, op), (4, g.val)]

/-- The layout of buf.swp. -/
def shC_gk.dec (mk : Fin 16 → Fin 4 → EngSyl) (w : Nat) : Except Nat EngSyl :=
  match unpack [2, 18, 8, 4] w with
  | [k, r1, _, g] =>
    checked [(r1 != 0, 2)]
      (mk (fin 16 g) (fin 4 k))
  | _ => .error 1

def shC_gk.enc (op : Nat) (g : Fin 16) (k : Fin 4) : Nat :=
  pack [(2, k.val), (18, 0), (8, op), (4, g.val)]

/-- The layout of buf.st. -/
def shC_gdk.dec (mk : Fin 16 → Dst → Fin 4 → EngSyl) (w : Nat) : Except Nat EngSyl :=
  match unpack [2, 13, 5, 8, 4] w with
  | [k, r1, d, _, g] =>
    checked [(r1 != 0, 2), (24 < d, 5)]
      (mk (fin 16 g) (Dst.ofCode d) (fin 4 k))
  | _ => .error 1

def shC_gdk.enc (op : Nat) (g : Fin 16) (d : Dst) (k : Fin 4) : Nat :=
  pack [(2, k.val), (13, 0), (5, d.code), (8, op), (4, g.val)]

/-- The layout of fsend, coll.red, coll.ag, coll.rs …. -/
def shF_ghae.dec (mk : Fin 16 → Fin 16 → Src → Bool → EngSyl) (w : Nat) : Except Nat EngSyl :=
  match unpack [5, 1, 5, 5, 4, 8, 4] w with
  | [r0, e, r2, a, h, _, g] =>
    checked [(r0 != 0, 2), (r2 != 0, 2)]
      (mk (fin 16 g) (fin 16 h) (Src.ofCode a) (bit e))
  | _ => .error 1

def shF_ghae.enc (op : Nat) (g : Fin 16) (h : Fin 16) (a : Src) (e : Bool) : Nat :=
  pack [(5, 0), (1, e.toNat), (5, 0), (5, a.code), (4, h.val), (8, op), (4, g.val)]

/-- The layout of fsend.v. -/
def shF_gvae.dec (mk : Fin 16 → Fin 16 → Src → Bool → EngSyl) (w : Nat) : Except Nat EngSyl :=
  match unpack [5, 1, 5, 5, 4, 8, 4] w with
  | [r0, e, r2, a, v, _, g] =>
    checked [(r0 != 0, 2), (r2 != 0, 2)]
      (mk (fin 16 g) (fin 16 v) (Src.ofCode a) (bit e))
  | _ => .error 1

def shF_gvae.enc (op : Nat) (g : Fin 16) (v : Fin 16) (a : Src) (e : Bool) : Nat :=
  pack [(5, 0), (1, e.toNat), (5, 0), (5, a.code), (4, v.val), (8, op), (4, g.val)]

/-- The layout of fsend.m. -/
def shF_gabef.dec (mk : Fin 16 → Src → Fin 8 → Bool → Bool → EngSyl) (w : Nat) : Except Nat EngSyl :=
  match unpack [3, 1, 1, 5, 5, 5, 8, 4] w with
  | [r0, f, e, b, a, r5, _, g] =>
    checked [(r0 != 0, 2), (r5 != 0, 2), ((b % 2 == 1 || 14 < b), 0x39)]
      (mk (fin 16 g) (Src.ofCode a) (fin 8 (b / 2)) (bit e) (bit f))
  | _ => .error 1

def shF_gabef.enc (op : Nat) (g : Fin 16) (a : Src) (b : Fin 8) (e : Bool) (f : Bool) : Nat :=
  pack [(3, 0), (1, f.toNat), (1, e.toNat), (5, 2 * b.val), (5, a.code), (5, 0), (8, op), (4, g.val)]

/-- The layout of rpost, rpost.w. -/
def shF_ghabef.dec (mk : Fin 16 → Fin 16 → Fin 8 → Src → Bool → Bool → EngSyl) (w : Nat) : Except Nat EngSyl :=
  match unpack [4, 1, 1, 5, 5, 4, 8, 4] w with
  | [r0, f, e, b, a, h, _, g] =>
    checked [(r0 != 0, 2), ((a % 2 == 1 || 14 < a), 0x39)]
      (mk (fin 16 g) (fin 16 h) (fin 8 (a / 2)) (Src.ofCode b) (bit e) (bit f))
  | _ => .error 1

def shF_ghabef.enc (op : Nat) (g : Fin 16) (h : Fin 16) (a : Fin 8) (b : Src) (e : Bool) (f : Bool) : Nat :=
  pack [(4, 0), (1, f.toNat), (1, e.toNat), (5, b.code), (5, 2 * a.val), (4, h.val), (8, op), (4, g.val)]

/-- The layout of rcancel, rprobe, rwait, fpeer …. -/
def shF_gdae.dec (mk : Fin 16 → Dst → Src → Bool → EngSyl) (w : Nat) : Except Nat EngSyl :=
  match unpack [4, 1, 5, 5, 5, 8, 4] w with
  | [r0, e, r2, a, d, _, g] =>
    checked [(r0 != 0, 2), (r2 != 0, 2), (24 < d, 5)]
      (mk (fin 16 g) (Dst.ofCode d) (Src.ofCode a) (bit e))
  | _ => .error 1

def shF_gdae.enc (op : Nat) (g : Fin 16) (d : Dst) (a : Src) (e : Bool) : Nat :=
  pack [(4, 0), (1, e.toNat), (5, 0), (5, a.code), (5, d.code), (8, op), (4, g.val)]

/-- The layout of rlb.q. -/
def shF_gdae2.dec (mk : Fin 16 → Dst → Fin 8 → Bool → EngSyl) (w : Nat) : Except Nat EngSyl :=
  match unpack [4, 1, 5, 5, 5, 8, 4] w with
  | [r0, e, r2, a, d, _, g] =>
    checked [(r0 != 0, 2), (r2 != 0, 2), (24 < d, 5), ((a % 2 == 1 || 14 < a), 0x39)]
      (mk (fin 16 g) (Dst.ofCode d) (fin 8 (a / 2)) (bit e))
  | _ => .error 1

def shF_gdae2.enc (op : Nat) (g : Fin 16) (d : Dst) (a : Fin 8) (e : Bool) : Nat :=
  pack [(4, 0), (1, e.toNat), (5, 0), (5, 2 * a.val), (5, d.code), (8, op), (4, g.val)]

/-- The layout of fdrn, noise.clr. -/
def shF_g.dec (mk : Fin 16 → EngSyl) (w : Nat) : Except Nat EngSyl :=
  match unpack [20, 8, 4] w with
  | [r0, _, g] =>
    checked [(r0 != 0, 2)]
      (mk (fin 16 g))
  | _ => .error 1

def shF_g.enc (op : Nat) (g : Fin 16) : Nat :=
  pack [(20, 0), (8, op), (4, g.val)]

/-- The layout of coll.bar, fretune, fgrant. -/
def shF_gae.dec (mk : Fin 16 → Src → Bool → EngSyl) (w : Nat) : Except Nat EngSyl :=
  match unpack [4, 1, 5, 5, 5, 8, 4] w with
  | [r0, e, r2, a, r4, _, g] =>
    checked [(r0 != 0, 2), (r2 != 0, 2), (r4 != 0, 2)]
      (mk (fin 16 g) (Src.ofCode a) (bit e))
  | _ => .error 1

def shF_gae.enc (op : Nat) (g : Fin 16) (a : Src) (e : Bool) : Nat :=
  pack [(4, 0), (1, e.toNat), (5, 0), (5, a.code), (5, 0), (8, op), (4, g.val)]

/-- The layout of coll.st, fevt. -/
def shF_gd.dec (mk : Fin 16 → Dst → EngSyl) (w : Nat) : Except Nat EngSyl :=
  match unpack [15, 5, 8, 4] w with
  | [r0, d, _, g] =>
    checked [(r0 != 0, 2), (24 < d, 5)]
      (mk (fin 16 g) (Dst.ofCode d))
  | _ => .error 1

def shF_gd.enc (op : Nat) (g : Fin 16) (d : Dst) : Nat :=
  pack [(15, 0), (5, d.code), (8, op), (4, g.val)]

/-- The layout of coll.ring, frepair. -/
def shF_gabef2.dec (mk : Fin 16 → Src → Src → Bool → Bool → EngSyl) (w : Nat) : Except Nat EngSyl :=
  match unpack [3, 1, 1, 5, 5, 5, 8, 4] w with
  | [r0, f, e, b, a, r5, _, g] =>
    checked [(r0 != 0, 2), (r5 != 0, 2)]
      (mk (fin 16 g) (Src.ofCode a) (Src.ofCode b) (bit e) (bit f))
  | _ => .error 1

def shF_gabef2.enc (op : Nat) (g : Fin 16) (a : Src) (b : Src) (e : Bool) (f : Bool) : Nat :=
  pack [(3, 0), (1, f.toNat), (1, e.toNat), (5, b.code), (5, a.code), (5, 0), (8, op), (4, g.val)]

/-- The layout of noise.rd. -/
def shF_gdn.dec (mk : Fin 16 → Dst → Fin 4 → EngSyl) (w : Nat) : Except Nat EngSyl :=
  match unpack [2, 13, 5, 8, 4] w with
  | [n, r1, d, _, g] =>
    checked [(r1 != 0, 2), (24 < d, 5)]
      (mk (fin 16 g) (Dst.ofCode d) (fin 4 n))
  | _ => .error 1

def shF_gdn.enc (op : Nat) (g : Fin 16) (d : Dst) (n : Fin 4) : Nat :=
  pack [(2, n.val), (13, 0), (5, d.code), (8, op), (4, g.val)]

/-! ## The classes -/

/-- The checks of `Instr.wf` on a decoded syllable, as causes. -/
def refine (r : Except Nat Instr) : Except Nat Instr :=
  match r with
  | .error c => .error c
  | .ok i => if i.wf then .ok i else .error i.illFormedCause

/-- The B class of R220. -/
def rawB (w : Nat) : Except Nat Instr :=
  match w / 2 ^ 20 % 256 with
  | 0x00 => shB_gdk.dec .br w
  | 0x01 => shB_gdk.dec .brL w
  | 0x02 => shB_gse.dec .brx w
  | 0x03 => shB_gse.dec .brxL w
  | 0x04 => shB_g.dec .ret w
  | 0x05 => shB_gsen.dec .loopPin w
  | 0x06 => shB_g.dec .loopEnd w
  | 0x07 => shB_gdk.dec .loopBrk w
  | 0x08 => shB_gdk.dec .segAlt w
  | 0x09 => shB_ga.dec .mpush w
  | 0x0A => shB_ga.dec .mpop w
  | 0x0B => shB_gab.dec .mjoin w
  | 0x0C => shB_g.dec .endNode w
  | 0x0D => shB_g.dec .yield w
  | 0x0E => shB_gse.dec .parkT w
  | 0x0F => shB_gv.dec .waitEv w
  | 0x10 => shB_gv.dec .sigEv w
  | 0x11 => shB_gspn.dec .spawn w
  | 0x12 => shB_gn.dec .trap w
  | 0x13 => shB_g.dec .eret w
  | 0x14 => shB_gn.dec .brk w
  | 0x15 => shB_gse.dec .katArm w
  | 0x16 => shB_gse.dec .haltCtx w
  | 0x17 => shB_g.dec .illegal w
  | _ => .error 1

/-- Decodes a syllable of class B: an instruction, or the lowest cause it shows. -/
def decodeB (w : Nat) : Except Nat Instr := refine (rawB w)

/-- The S class of R220. -/
def rawS (nlit w : Nat) : Except Nat Instr :=
  match w / 2 ^ 20 % 256 with
  | 0x00 => shS_gdabef.dec .add w
  | 0x01 => shS_gdabef.dec .sub w
  | 0x02 => shS_gdabef.dec .mul w
  | 0x03 => shS_gdabef.dec .mulh w
  | 0x04 => shS_gdabef.dec .mulhu w
  | 0x05 => shS_gdabef.dec .div w
  | 0x06 => shS_gdabef.dec .divu w
  | 0x07 => shS_gdabef.dec .rem w
  | 0x08 => shS_gdabef.dec .remu w
  | 0x09 => shS_gdabef.dec .and w
  | 0x0A => shS_gdabef.dec .or w
  | 0x0B => shS_gdabef.dec .xor w
  | 0x0C => shS_gdabef.dec .andn w
  | 0x0D => shS_gdabef.dec .shl w
  | 0x0E => shS_gdabef.dec .shr w
  | 0x0F => shS_gdabef.dec .sra w
  | 0x10 => shS_gdabef.dec .rotl w
  | 0x11 => shS_gdabef.dec .min w
  | 0x12 => shS_gdabef.dec .max w
  | 0x13 => shS_gdabef.dec .minu w
  | 0x14 => shS_gdabef.dec .maxu w
  | 0x15 => shS_gdaei.dec nlit .addi w
  | 0x16 => shS_gdaei.dec nlit .andi w
  | 0x17 => shS_gdaei.dec nlit .ori w
  | 0x18 => shS_gdaei.dec nlit .xori w
  | 0x19 => shS_gdaei.dec nlit .shli w
  | 0x1A => shS_gdaei.dec nlit .shri w
  | 0x1B => shS_gdaei.dec nlit .srai w
  | 0x1C => shS_gdi.dec nlit .movi w
  | 0x1D => shS_gdaei.dec nlit .movhi w
  | 0x1E => shS_gpabef.dec .cmpEq w
  | 0x1F => shS_gpabef.dec .cmpNe w
  | 0x20 => shS_gpabef.dec .cmpLt w
  | 0x21 => shS_gpabef.dec .cmpGe w
  | 0x22 => shS_gpabef.dec .cmpLtu w
  | 0x23 => shS_gpabef.dec .cmpGeu w
  | 0x24 => shS_gpaei.dec nlit .cmpiEq w
  | 0x25 => shS_gpaei.dec nlit .cmpiLt w
  | 0x26 => shS_gpaei.dec nlit .cmpiLtu w
  | 0x27 => shS_gdae.dec .clz w
  | 0x28 => shS_gdae.dec .ctz w
  | 0x29 => shS_gdae.dec .popc w
  | 0x2A => shS_gdabefx.dec .bfx w
  | 0x2B => shS_gdabef.dec .bfi w
  | 0x2C => shS_gdaex.dec .sext w
  | 0x2D => shS_gdabefx2.dec .sel w
  | 0x2E => shS_gdabefx2.dec .lea w
  | 0x2F => shS_gdabefx2.dec .hcoord w
  | 0x30 => shS_gpabn.dec .pand w
  | 0x31 => shS_gpabn.dec .por w
  | 0x32 => shS_gpabn.dec .pxor w
  | 0x33 => shS_gaes.dec .mpar w
  | 0x34 => shS_gdk.dec .mova w
  | 0x35 => shS_ghaes.dec .hld w
  | 0x36 => shS_ghaes.dec .hst w
  | 0x37 => shS_ghabef.dec .hset w
  | 0x38 => shS_gdabefsx.dec .ldB w
  | 0x39 => shS_gdabefsx.dec .ldH w
  | 0x3A => shS_gdabefsx.dec .ldW w
  | 0x3B => shS_gdabefs.dec .ldD w
  | 0x3C => shS_gdasrec.dec .ldsB w
  | 0x3D => shS_gdasrec.dec .ldsH w
  | 0x3E => shS_gdasrec.dec .ldsW w
  | 0x3F => shS_gdasrec.dec .ldsD w
  | 0x40 => shS_gsabef.dec .stB w
  | 0x41 => shS_gsabef.dec .stH w
  | 0x42 => shS_gsabef.dec .stW w
  | 0x43 => shS_gsabef.dec .stD w
  | 0x44 => shS_gsrabefc.dec .stsB w
  | 0x45 => shS_gsrabefc.dec .stsH w
  | 0x46 => shS_gsrabefc.dec .stsW w
  | 0x47 => shS_gsrabefc.dec .stsD w
  | 0x48 => shS_gswoabefc.dec .amoAdd w
  | 0x49 => shS_gswoabefc.dec .amoAnd w
  | 0x4A => shS_gswoabefc.dec .amoOr w
  | 0x4B => shS_gswoabefc.dec .amoXor w
  | 0x4C => shS_gswoabefc.dec .amoMin w
  | 0x4D => shS_gswoabefc.dec .amoMax w
  | 0x4E => shS_gswoabefc.dec .amoMinu w
  | 0x4F => shS_gswoabefc.dec .amoMaxu w
  | 0x50 => shS_gswoabefc.dec .amoSwap w
  | 0x51 => shS_gswoabefc2.dec .amoCas w
  | 0x52 => shS_gabefs.dec .fxinit w
  | 0x53 => shS_gabefs.dec .fxaddF32 w
  | 0x54 => shS_gabefs.dec .fxaddH w
  | 0x55 => shS_gdaes.dec .fxrd w
  | 0x56 => shS_goc.dec .fence w
  | 0x57 => shS_g.dec .fenceSurv w
  | 0x58 => shS_gb.dec .mls w
  | 0x59 => shS_gb.dec .mlsArr w
  | 0x5A => shS_gb.dec .mlsWt w
  | 0x5B => shS_gdb.dec .mlsQ w
  | 0x5C => shS_gdn.dec .sysrd w
  | 0x5D => shS_gnb.dec .syswr w
  | 0x5E => shS_gd.dec .time w
  | 0x5F => shS_gd.dec .energy w
  | 0x60 => shS_gd.dec .cycle w
  | 0x61 => shS_gae.dec .tlbPf w
  | 0x62 => shS_gabef.dec .pgInv w
  | 0x63 => shS_gae.dec .pwrReq w
  | 0x64 => shS_g.dec .pwrRel w
  | 0x65 => shS_gdk2.dec .lvlIdx w
  | 0x66 => shS_gdk2.dec .lvlCnt w
  | 0x67 => shS_gdabefx3.dec .crc w
  | _ => .error 1

/-- Decodes a syllable of class S: an instruction, or the lowest cause it shows. -/
def decodeS (nlit w : Nat) : Except Nat Instr := refine (rawS nlit w)

/-- The V class of R220. -/
def rawV (w : Nat) : Except Nat Instr :=
  match w / 2 ^ 20 % 256 with
  | 0x00 => shV_gdabmeft.dec .vfadd w
  | 0x01 => shV_gdabmeft.dec .vfsub w
  | 0x02 => shV_gdabmeft.dec .vfmul w
  | 0x03 => shV_gdabmeft.dec .vfma w
  | 0x04 => shV_gdabmeft.dec .vfms w
  | 0x05 => shV_gdabmeft.dec .vfnma w
  | 0x06 => shV_gdabmeft.dec .vfmin w
  | 0x07 => shV_gdabmeft.dec .vfmax w
  | 0x08 => shV_gdamet.dec .vfabs w
  | 0x09 => shV_gdamet.dec .vfneg w
  | 0x0A => shV_gdabmeft.dec .vfcpys w
  | 0x0B => shV_gdamet.dec .vrcp w
  | 0x0C => shV_gdamet.dec .vrsq w
  | 0x0D => shV_gdamet.dec .vsqrt w
  | 0x0E => shV_gdamet.dec .vexp2 w
  | 0x0F => shV_gdamet.dec .vlog2 w
  | 0x10 => shV_gdamet.dec .vtanh w
  | 0x11 => shV_gdamet.dec .vsig w
  | 0x12 => shV_gdabmeft.dec .vdiv w
  | 0x13 => shV_gpabmeft.dec .vfcmpEq w
  | 0x14 => shV_gpabmeft.dec .vfcmpLt w
  | 0x15 => shV_gpabmeft.dec .vfcmpLe w
  | 0x16 => shV_gpabmeft.dec .vfcmpUn w
  | 0x17 => shV_gdabmeft2.dec .vadd w
  | 0x18 => shV_gdabmeft2.dec .vsub w
  | 0x19 => shV_gdabmeft2.dec .vmul w
  | 0x1A => shV_gdabmeft2.dec .vmulh w
  | 0x1B => shV_gdabmeft2.dec .vmin w
  | 0x1C => shV_gdabmeft2.dec .vmax w
  | 0x1D => shV_gdabmeft2.dec .vminu w
  | 0x1E => shV_gdabmeft2.dec .vmaxu w
  | 0x1F => shV_gdabmef.dec .vand w
  | 0x20 => shV_gdabmef.dec .vor w
  | 0x21 => shV_gdabmef.dec .vxor w
  | 0x22 => shV_gdabmeft2.dec .vshl w
  | 0x23 => shV_gdabmeft2.dec .vshr w
  | 0x24 => shV_gdabmeft2.dec .vsra w
  | 0x25 => shV_gdamet2.dec .vabs w
  | 0x26 => shV_gpabmeft2.dec .vcmpEq w
  | 0x27 => shV_gpabmeft2.dec .vcmpLt w
  | 0x28 => shV_gpabmeft2.dec .vcmpLtu w
  | 0x29 => shV_gdame.dec .vmov w
  | 0x2A => shV_gdamet3.dec .vsplat w
  | 0x2B => shV_gdabmeft3.dec .vins w
  | 0x2C => shV_gdabeft.dec .vext w
  | 0x2D => shV_gdabmef.dec .vsel w
  | 0x2E => shV_gdabmef.dec .vperm w
  | 0x2F => shV_gdabmef.dec .vrot w
  | 0x30 => shV_gdabseft.dec .vzip w
  | 0x31 => shV_gdabmef.dec .vidx w
  | 0x32 => shV_gdamet3.dec .vrsum w
  | 0x33 => shV_gdamet3.dec .vrmax w
  | 0x34 => shV_gdamet3.dec .vrmin w
  | 0x35 => shV_gdamet3.dec .vrmaxi w
  | 0x36 => shV_gdm.dec .vrpop w
  | 0x37 => shV_gdabmeft4.dec .vtopk w
  | 0x38 => shV_gdabmeft4.dec .vtopkI w
  | 0x39 => shV_gdamet4.dec .vsort w
  | 0x3A => shV_gdamet4.dec .vrank w
  | 0x3B => shV_gdabeft2.dec .vqnt w
  | 0x3C => shV_gdabjeft.dec .vdqnt w
  | 0x3D => shV_gdamet5.dec .vcvt w
  | 0x3E => shV_gdabmeft5.dec .vpack w
  | 0x3F => shV_gdahmet.dec .vunpk w
  | 0x40 => shV_game.dec .vsrnd w
  | 0x41 => shV_gdabmefs.dec .vld w
  | 0x42 => shV_gdabmefs.dec .vst w
  | 0x43 => shV_gdhbmfc.dec .vldT w
  | 0x44 => shV_gdhbmfc.dec .vstT w
  | 0x45 => shV_gdabmefks.dec .vgat w
  | 0x46 => shV_gdabmefks.dec .vsca w
  | 0x47 => shV_gdabmefs.dec .vldB w
  | 0x48 => shV_gdab.dec .mand w
  | 0x49 => shV_gdab.dec .mor w
  | 0x4A => shV_gdab.dec .mxor w
  | 0x4B => shV_gda.dec .mnot w
  | 0x4C => shV_gda.dec .mfirst w
  | 0x4D => if w % 8 = 1 then shV_gda2.dec .msetRd w else shV_gdae.dec .mset w
  | 0x4E => shV_gdnbmfc.dec .vaccRd w
  | 0x4F => shV_gdnbmfc.dec .vaccPk w
  | 0x50 => shV_gnabmefc.dec .vaccWr w
  | 0x51 => shV_gdabmeft3.dec .vclamp w
  | 0x52 => shV_gdabmeft6.dec .vdot4 w
  | 0x53 => shV_gdamet.dec .vfrnd w
  | 0x54 => shV_gdamet.dec .vfexp w
  | 0x55 => shV_gdabmeft.dec .vscl w
  | 0x56 => shV_gdamet4.dec .vcompress w
  | 0x57 => shV_gdamet4.dec .vexpand w
  | 0x58 => shV_gdamet3.dec .vscan w
  | 0x59 => shV_gdabmeft7.dec .vlut w
  | 0x5A => shV_gdamet2.dec .vclz w
  | 0x5B => shV_gdamet2.dec .vpopc w
  | 0x5C => shV_gdabmeft2.dec .vbfx w
  | 0x5D => shV_gdamet3.dec .vrev w
  | 0x5E => shV_gdamet2.dec .vhist w
  | 0x5F => shV_gdabmeft3.dec .vbcast w
  | _ => .error 1

/-- Decodes a syllable of class V: an instruction, or the lowest cause it shows. -/
def decodeV (w : Nat) : Except Nat Instr := refine (rawV w)

/-- The M class of R220. -/
def rawM (w : Nat) : Except Nat Instr :=
  match w / 2 ^ 20 % 256 with
  | 0x00 => shM_gk.dec .mcall w
  | 0x01 => shM_gk.dec .mcallB w
  | 0x02 => shM_g.dec .mwait w
  | 0x03 => shM_gfi.dec .mscale w
  | 0x04 => shM_gi.dec .mdrain w
  | 0x05 => shM_gif.dec .mclr w
  | 0x06 => shM_gae.dec .mldMs w
  | 0x07 => shM_gabef.dec .mstMs w
  | 0x08 => shM_gabl.dec .mqClr w
  | 0x09 => shM_gd.dec .mqSt w
  | 0x0A => shM_gn.dec .mhalf w
  | 0x0B => shM_gdi.dec .mchk w
  | 0x0C => shM_gfix.dec .mfix w
  | 0x0D => shM_gds.dec .mmov w
  | 0x0E => shM_gd.dec .mstat w
  | 0x0F => shM_g.dec .mabort w
  | _ => .error 1

/-- Decodes a syllable of class M: an instruction, or the lowest cause it shows. -/
def decodeM (w : Nat) : Except Nat Instr := refine (rawM w)

/-- The C class of R220. -/
def decodeC (w : Nat) : Except Nat EngSyl :=
  match w / 2 ^ 20 % 256 with
  | 0x00 => shC_gaec.dec .cpyGo w
  | 0x01 => shC_gabefc.dec .cpyGq w
  | 0x02 => shC_gc.dec .cpyDrn w
  | 0x03 => shC_gdc.dec .cpySt w
  | 0x04 => shC_gae.dec .cpyPb w
  | 0x05 => shC_gae.dec .cpyInv w
  | 0x06 => shC_ghc.dec .cpyZero w
  | 0x07 => shC_gabefc.dec .cpyFill w
  | 0x08 => shC_gaec.dec .cpyCvt w
  | 0x09 => shC_gc.dec .cpyCancel w
  | 0x0A => shC_gdsab.dec .tmov w
  | 0x0B => shC_gdsab.dec .tmovH w
  | 0x0C => shC_ghabef.dec .rlay w
  | 0x0D => shC_gh.dec .rlayWt w
  | 0x0E => shC_gh.dec .rlaySt w
  | 0x0F => shC_gdae.dec .bcDrv w
  | 0x10 => shC_gdae.dec .bcLat w
  | 0x11 => shC_gabef.dec .bcSync w
  | 0x12 => shC_gckabef.dec .bufArm w
  | 0x13 => shC_gk.dec .bufSwp w
  | 0x14 => shC_gdk.dec .bufSt w
  | 0x15 => shC_gabef.dec .pfG w
  | _ => .error 1

/-- The F class of R220. -/
def decodeF (w : Nat) : Except Nat EngSyl :=
  match w / 2 ^ 20 % 256 with
  | 0x00 => shF_ghae.dec .fsend w
  | 0x01 => shF_gvae.dec .fsendV w
  | 0x02 => shF_gabef.dec .fsendM w
  | 0x03 => shF_ghabef.dec .rpost w
  | 0x04 => shF_ghabef.dec .rpostW w
  | 0x05 => shF_gdae.dec .rcancel w
  | 0x06 => shF_gdae.dec .rprobe w
  | 0x07 => shF_gdae.dec .rwait w
  | 0x08 => shF_gdae2.dec .rlbQ w
  | 0x09 => shF_g.dec .fdrn w
  | 0x0A => shF_ghae.dec .collRed w
  | 0x0B => shF_ghae.dec .collAg w
  | 0x0C => shF_ghae.dec .collRs w
  | 0x0D => shF_ghae.dec .collA2a w
  | 0x0E => shF_gae.dec .collBar w
  | 0x0F => shF_gd.dec .collSt w
  | 0x10 => shF_gabef2.dec .collRing w
  | 0x11 => shF_gdn.dec .noiseRd w
  | 0x12 => shF_g.dec .noiseClr w
  | 0x13 => shF_gdae.dec .fpeer w
  | 0x14 => shF_gdae.dec .fslot w
  | 0x15 => shF_gdae.dec .fbays w
  | 0x16 => shF_gd.dec .fevt w
  | 0x17 => shF_gae.dec .fretune w
  | 0x18 => shF_gabef2.dec .frepair w
  | 0x19 => shF_gae.dec .fgrant w
  | _ => .error 1

/-! ## Microwords (R289 to R292) -/

/-- COND, NT and NF, with NF zero when COND is 0. -/
def MNext.dec (cond nt nf : Nat) : Option MNext :=
  match Cond.ofCode? cond with
  | some c => if c = .always ∧ nf ≠ 0 then none else some ⟨c, fin 4096 nt, fin 4096 nf⟩
  | none => none

/-- A micro-op whose ARG must be zero. -/
def microPlain (mk : MNext → Micro) (cond nt nf arg : Nat) : Option Micro :=
  if arg ≠ 0 then none else (MNext.dec cond nt nf).map mk

/-- MAC and MACB: flags in ARG[31:28]. -/
def microMac (mk : MNext → MacArg → Micro) (cond nt nf arg : Nat) : Option Micro :=
  if arg % 2 ^ 28 ≠ 0 then none else
    (MNext.dec cond nt nf).map fun n =>
      mk n ⟨bit (arg / 2 ^ 31), bit (arg / 2 ^ 30), bit (arg / 2 ^ 29), bit (arg / 2 ^ 28)⟩

/-- LDC: counter, source, and the immediate or the quarter of a parameter register. -/
def microLdc (cond nt nf arg : Nat) : Option Micro :=
  match unpack [2, 14, 3, 10, 1, 2] arg with
  | [h, imm, k, z, src, c] =>
    if bit src then
      if imm ≠ 0 ∨ z ≠ 0 then none
      else (MNext.dec cond nt nf).map fun n => .ldc n (fin 4 c) (.areg (fin 8 k) (fin 4 h))
    else
      if k ≠ 0 ∨ z ≠ 0 then none
      else (MNext.dec cond nt nf).map fun n => .ldc n (fin 4 c) (.imm (BitVec.ofNat 16 (h + 4 * imm)))
  | _ => none

/-- Decodes a microword; none is an invalid microword (R292, cause 0x35). -/
def decodeMicro (w : Nat) : Option Micro :=
  match unpack [32, 12, 12, 4, 4] w with
  | [arg, nf, nt, cond, uop] =>
    match uop with
    | 0 => microPlain .nop cond nt nf arg
    | 1 => microLdc cond nt nf arg
    | 2 => if arg % 2 ^ 30 ≠ 0 then none else
        (MNext.dec cond nt nf).map fun n => .decc n (fin 4 (arg / 2 ^ 30))
    | 3 => if cond ≠ 0 ∨ nf ≠ 0 ∨ arg % 2 ^ 16 ≠ 0 ∨ arg / 2 ^ 19 ≠ 0 then none
        else some (.jmp (fin 4096 nt) (fin 8 (arg / 2 ^ 16)))
    | 4 => if cond ≠ 0 ∨ arg % 2 ^ 16 / 2 ^ 6 ≠ 0 ∨ arg / 2 ^ 19 ≠ 0 then none
        else some (.jcnd (fin 4096 nt) (fin 4096 nf) (fin 8 (arg / 2 ^ 16)) (fin 64 arg))
    | 5 => microPlain .pulla cond nt nf arg
    | 6 => microPlain .pullb cond nt nf arg
    | 7 => microMac .mac cond nt nf arg
    | 8 => microMac .macb cond nt nf arg
    | 9 => microPlain .segcut cond nt nf arg
    | 10 => microPlain .ckacc cond nt nf arg
    | 11 => microPlain .ckcmp cond nt nf arg
    | 12 => if arg / 2 ^ 16 ≠ 0 then none else
        (MNext.dec cond nt nf).map fun n => .postp n (BitVec.ofNat 16 arg)
    | 13 => microPlain .halfp cond nt nf arg
    | 14 => if arg % 2 ^ 30 / 2 ^ 3 ≠ 0 ∨ arg % 8 = 0 ∨ 4 < arg % 8 then none else
        (MNext.dec cond nt nf).map fun n => .waitq n (bit (arg / 2 ^ 31)) (bit (arg / 2 ^ 30)) (fin 8 arg)
    | 15 => if cond ≠ 0 ∨ nt ≠ 0 ∨ nf ≠ 0 ∨ arg ≠ 0 then none else some .endRoutine
    | _ => none
  | _ => none

/-- The microword of a micro-op from its UOP, branch fields and ARG. -/
def packMicro (uop : Nat) (n : MNext) (arg : Nat) : Nat :=
  pack [(32, arg), (12, n.nf.val), (12, n.nt.val), (4, n.cond.code), (4, uop)]

def MacArg.arg (x : MacArg) : Nat := pack [(28, 0), (1, x.ac.toNat), (1, x.cnt.toNat), (1, x.keepB.toNat), (1, x.keepA.toNat)]

def LdcArg.arg (c : Fin 4) : LdcArg → Nat
  | .imm v => pack [(16, v.toNat), (14, 0), (2, c.val)]
  | .areg k h => pack [(2, h.val), (14, 0), (3, k.val), (10, 0), (1, 1), (2, c.val)]

/-! ## Encoding -/

/-- The word of a well-formed syllable or microword, from the same tables; an event has no word. -/
def encode : Instr → Nat
  | .br g d k => shB_gdk.enc 0x00 g d k
  | .brL g d k => shB_gdk.enc 0x01 g d k
  | .brx g s e => shB_gse.enc 0x02 g s e
  | .brxL g s e => shB_gse.enc 0x03 g s e
  | .ret g => shB_g.enc 0x04 g
  | .loopPin g s e n => shB_gsen.enc 0x05 g s e n
  | .loopEnd g => shB_g.enc 0x06 g
  | .loopBrk g d k => shB_gdk.enc 0x07 g d k
  | .segAlt g d k => shB_gdk.enc 0x08 g d k
  | .mpush g a => shB_ga.enc 0x09 g a
  | .mpop g a => shB_ga.enc 0x0A g a
  | .mjoin g a b => shB_gab.enc 0x0B g a b
  | .endNode g => shB_g.enc 0x0C g
  | .yield g => shB_g.enc 0x0D g
  | .parkT g s e => shB_gse.enc 0x0E g s e
  | .waitEv g v => shB_gv.enc 0x0F g v
  | .sigEv g v => shB_gv.enc 0x10 g v
  | .spawn g s p n => shB_gspn.enc 0x11 g s p n
  | .trap g n => shB_gn.enc 0x12 g n
  | .eret g => shB_g.enc 0x13 g
  | .brk g n => shB_gn.enc 0x14 g n
  | .katArm g s e => shB_gse.enc 0x15 g s e
  | .haltCtx g s e => shB_gse.enc 0x16 g s e
  | .illegal g => shB_g.enc 0x17 g
  | .add g d a b e f => shS_gdabef.enc 0x00 g d a b e f
  | .sub g d a b e f => shS_gdabef.enc 0x01 g d a b e f
  | .mul g d a b e f => shS_gdabef.enc 0x02 g d a b e f
  | .mulh g d a b e f => shS_gdabef.enc 0x03 g d a b e f
  | .mulhu g d a b e f => shS_gdabef.enc 0x04 g d a b e f
  | .div g d a b e f => shS_gdabef.enc 0x05 g d a b e f
  | .divu g d a b e f => shS_gdabef.enc 0x06 g d a b e f
  | .rem g d a b e f => shS_gdabef.enc 0x07 g d a b e f
  | .remu g d a b e f => shS_gdabef.enc 0x08 g d a b e f
  | .and g d a b e f => shS_gdabef.enc 0x09 g d a b e f
  | .or g d a b e f => shS_gdabef.enc 0x0A g d a b e f
  | .xor g d a b e f => shS_gdabef.enc 0x0B g d a b e f
  | .andn g d a b e f => shS_gdabef.enc 0x0C g d a b e f
  | .shl g d a b e f => shS_gdabef.enc 0x0D g d a b e f
  | .shr g d a b e f => shS_gdabef.enc 0x0E g d a b e f
  | .sra g d a b e f => shS_gdabef.enc 0x0F g d a b e f
  | .rotl g d a b e f => shS_gdabef.enc 0x10 g d a b e f
  | .min g d a b e f => shS_gdabef.enc 0x11 g d a b e f
  | .max g d a b e f => shS_gdabef.enc 0x12 g d a b e f
  | .minu g d a b e f => shS_gdabef.enc 0x13 g d a b e f
  | .maxu g d a b e f => shS_gdabef.enc 0x14 g d a b e f
  | .addi g d a e i => shS_gdaei.enc 0x15 g d a e i
  | .andi g d a e i => shS_gdaei.enc 0x16 g d a e i
  | .ori g d a e i => shS_gdaei.enc 0x17 g d a e i
  | .xori g d a e i => shS_gdaei.enc 0x18 g d a e i
  | .shli g d a e i => shS_gdaei.enc 0x19 g d a e i
  | .shri g d a e i => shS_gdaei.enc 0x1A g d a e i
  | .srai g d a e i => shS_gdaei.enc 0x1B g d a e i
  | .movi g d i => shS_gdi.enc 0x1C g d i
  | .movhi g d a e i => shS_gdaei.enc 0x1D g d a e i
  | .cmpEq g p a b e f => shS_gpabef.enc 0x1E g p a b e f
  | .cmpNe g p a b e f => shS_gpabef.enc 0x1F g p a b e f
  | .cmpLt g p a b e f => shS_gpabef.enc 0x20 g p a b e f
  | .cmpGe g p a b e f => shS_gpabef.enc 0x21 g p a b e f
  | .cmpLtu g p a b e f => shS_gpabef.enc 0x22 g p a b e f
  | .cmpGeu g p a b e f => shS_gpabef.enc 0x23 g p a b e f
  | .cmpiEq g p a e i => shS_gpaei.enc 0x24 g p a e i
  | .cmpiLt g p a e i => shS_gpaei.enc 0x25 g p a e i
  | .cmpiLtu g p a e i => shS_gpaei.enc 0x26 g p a e i
  | .clz g d a e => shS_gdae.enc 0x27 g d a e
  | .ctz g d a e => shS_gdae.enc 0x28 g d a e
  | .popc g d a e => shS_gdae.enc 0x29 g d a e
  | .bfx g d a b e f x => shS_gdabefx.enc 0x2A g d a b e f x
  | .bfi g d a b e f => shS_gdabef.enc 0x2B g d a b e f
  | .sext g d a e x => shS_gdaex.enc 0x2C g d a e x
  | .sel g d a b e f x => shS_gdabefx2.enc 0x2D g d a b e f x
  | .lea g d a b e f x => shS_gdabefx2.enc 0x2E g d a b e f x
  | .hcoord g d a b e f x => shS_gdabefx2.enc 0x2F g d a b e f x
  | .pand g p a b n => shS_gpabn.enc 0x30 g p a b n
  | .por g p a b n => shS_gpabn.enc 0x31 g p a b n
  | .pxor g p a b n => shS_gpabn.enc 0x32 g p a b n
  | .mpar g a e s => shS_gaes.enc 0x33 g a e s
  | .mova g d k => shS_gdk.enc 0x34 g d k
  | .hld g h a e s => shS_ghaes.enc 0x35 g h a e s
  | .hst g h a e s => shS_ghaes.enc 0x36 g h a e s
  | .hset g h a b e f => shS_ghabef.enc 0x37 g h a b e f
  | .ldB g d a b e f s x => shS_gdabefsx.enc 0x38 g d a b e f s x
  | .ldH g d a b e f s x => shS_gdabefsx.enc 0x39 g d a b e f s x
  | .ldW g d a b e f s x => shS_gdabefsx.enc 0x3A g d a b e f s x
  | .ldD g d a b e f s => shS_gdabefs.enc 0x3B g d a b e f s
  | .ldsB g d a s r e c => shS_gdasrec.enc 0x3C g d a s r e c
  | .ldsH g d a s r e c => shS_gdasrec.enc 0x3D g d a s r e c
  | .ldsW g d a s r e c => shS_gdasrec.enc 0x3E g d a s r e c
  | .ldsD g d a s r e c => shS_gdasrec.enc 0x3F g d a s r e c
  | .stB g s a b e f => shS_gsabef.enc 0x40 g s a b e f
  | .stH g s a b e f => shS_gsabef.enc 0x41 g s a b e f
  | .stW g s a b e f => shS_gsabef.enc 0x42 g s a b e f
  | .stD g s a b e f => shS_gsabef.enc 0x43 g s a b e f
  | .stsB g s r a b e f c => shS_gsrabefc.enc 0x44 g s r a b e f c
  | .stsH g s r a b e f c => shS_gsrabefc.enc 0x45 g s r a b e f c
  | .stsW g s r a b e f c => shS_gsrabefc.enc 0x46 g s r a b e f c
  | .stsD g s r a b e f c => shS_gsrabefc.enc 0x47 g s r a b e f c
  | .amoAdd g s w o a b e f c => shS_gswoabefc.enc 0x48 g s w o a b e f c
  | .amoAnd g s w o a b e f c => shS_gswoabefc.enc 0x49 g s w o a b e f c
  | .amoOr g s w o a b e f c => shS_gswoabefc.enc 0x4A g s w o a b e f c
  | .amoXor g s w o a b e f c => shS_gswoabefc.enc 0x4B g s w o a b e f c
  | .amoMin g s w o a b e f c => shS_gswoabefc.enc 0x4C g s w o a b e f c
  | .amoMax g s w o a b e f c => shS_gswoabefc.enc 0x4D g s w o a b e f c
  | .amoMinu g s w o a b e f c => shS_gswoabefc.enc 0x4E g s w o a b e f c
  | .amoMaxu g s w o a b e f c => shS_gswoabefc.enc 0x4F g s w o a b e f c
  | .amoSwap g s w o a b e f c => shS_gswoabefc.enc 0x50 g s w o a b e f c
  | .amoCas g s w o a b e f c => shS_gswoabefc2.enc 0x51 g s w o a b e f c
  | .fxinit g a b e f s => shS_gabefs.enc 0x52 g a b e f s
  | .fxaddF32 g a b e f s => shS_gabefs.enc 0x53 g a b e f s
  | .fxaddH g a b e f s => shS_gabefs.enc 0x54 g a b e f s
  | .fxrd g d a e s => shS_gdaes.enc 0x55 g d a e s
  | .fence g o c => shS_goc.enc 0x56 g o c
  | .fenceSurv g => shS_g.enc 0x57 g
  | .mls g b => shS_gb.enc 0x58 g b
  | .mlsArr g b => shS_gb.enc 0x59 g b
  | .mlsWt g b => shS_gb.enc 0x5A g b
  | .mlsQ g d b => shS_gdb.enc 0x5B g d b
  | .sysrd g d n => shS_gdn.enc 0x5C g d n
  | .syswr g n b => shS_gnb.enc 0x5D g n b
  | .time g d => shS_gd.enc 0x5E g d
  | .energy g d => shS_gd.enc 0x5F g d
  | .cycle g d => shS_gd.enc 0x60 g d
  | .tlbPf g a e => shS_gae.enc 0x61 g a e
  | .pgInv g a b e f => shS_gabef.enc 0x62 g a b e f
  | .pwrReq g a e => shS_gae.enc 0x63 g a e
  | .pwrRel g => shS_g.enc 0x64 g
  | .lvlIdx g d k => shS_gdk2.enc 0x65 g d k
  | .lvlCnt g d k => shS_gdk2.enc 0x66 g d k
  | .crc g d a b e f x => shS_gdabefx3.enc 0x67 g d a b e f x
  | .vfadd g d a b m e f t => shV_gdabmeft.enc 0x00 g d a b m e f t
  | .vfsub g d a b m e f t => shV_gdabmeft.enc 0x01 g d a b m e f t
  | .vfmul g d a b m e f t => shV_gdabmeft.enc 0x02 g d a b m e f t
  | .vfma g d a b m e f t => shV_gdabmeft.enc 0x03 g d a b m e f t
  | .vfms g d a b m e f t => shV_gdabmeft.enc 0x04 g d a b m e f t
  | .vfnma g d a b m e f t => shV_gdabmeft.enc 0x05 g d a b m e f t
  | .vfmin g d a b m e f t => shV_gdabmeft.enc 0x06 g d a b m e f t
  | .vfmax g d a b m e f t => shV_gdabmeft.enc 0x07 g d a b m e f t
  | .vfabs g d a m e t => shV_gdamet.enc 0x08 g d a m e t
  | .vfneg g d a m e t => shV_gdamet.enc 0x09 g d a m e t
  | .vfcpys g d a b m e f t => shV_gdabmeft.enc 0x0A g d a b m e f t
  | .vrcp g d a m e t => shV_gdamet.enc 0x0B g d a m e t
  | .vrsq g d a m e t => shV_gdamet.enc 0x0C g d a m e t
  | .vsqrt g d a m e t => shV_gdamet.enc 0x0D g d a m e t
  | .vexp2 g d a m e t => shV_gdamet.enc 0x0E g d a m e t
  | .vlog2 g d a m e t => shV_gdamet.enc 0x0F g d a m e t
  | .vtanh g d a m e t => shV_gdamet.enc 0x10 g d a m e t
  | .vsig g d a m e t => shV_gdamet.enc 0x11 g d a m e t
  | .vdiv g d a b m e f t => shV_gdabmeft.enc 0x12 g d a b m e f t
  | .vfcmpEq g p a b m e f t => shV_gpabmeft.enc 0x13 g p a b m e f t
  | .vfcmpLt g p a b m e f t => shV_gpabmeft.enc 0x14 g p a b m e f t
  | .vfcmpLe g p a b m e f t => shV_gpabmeft.enc 0x15 g p a b m e f t
  | .vfcmpUn g p a b m e f t => shV_gpabmeft.enc 0x16 g p a b m e f t
  | .vadd g d a b m e f t => shV_gdabmeft2.enc 0x17 g d a b m e f t
  | .vsub g d a b m e f t => shV_gdabmeft2.enc 0x18 g d a b m e f t
  | .vmul g d a b m e f t => shV_gdabmeft2.enc 0x19 g d a b m e f t
  | .vmulh g d a b m e f t => shV_gdabmeft2.enc 0x1A g d a b m e f t
  | .vmin g d a b m e f t => shV_gdabmeft2.enc 0x1B g d a b m e f t
  | .vmax g d a b m e f t => shV_gdabmeft2.enc 0x1C g d a b m e f t
  | .vminu g d a b m e f t => shV_gdabmeft2.enc 0x1D g d a b m e f t
  | .vmaxu g d a b m e f t => shV_gdabmeft2.enc 0x1E g d a b m e f t
  | .vand g d a b m e f => shV_gdabmef.enc 0x1F g d a b m e f
  | .vor g d a b m e f => shV_gdabmef.enc 0x20 g d a b m e f
  | .vxor g d a b m e f => shV_gdabmef.enc 0x21 g d a b m e f
  | .vshl g d a b m e f t => shV_gdabmeft2.enc 0x22 g d a b m e f t
  | .vshr g d a b m e f t => shV_gdabmeft2.enc 0x23 g d a b m e f t
  | .vsra g d a b m e f t => shV_gdabmeft2.enc 0x24 g d a b m e f t
  | .vabs g d a m e t => shV_gdamet2.enc 0x25 g d a m e t
  | .vcmpEq g p a b m e f t => shV_gpabmeft2.enc 0x26 g p a b m e f t
  | .vcmpLt g p a b m e f t => shV_gpabmeft2.enc 0x27 g p a b m e f t
  | .vcmpLtu g p a b m e f t => shV_gpabmeft2.enc 0x28 g p a b m e f t
  | .vmov g d a m e => shV_gdame.enc 0x29 g d a m e
  | .vsplat g d a m e t => shV_gdamet3.enc 0x2A g d a m e t
  | .vins g d a b m e f t => shV_gdabmeft3.enc 0x2B g d a b m e f t
  | .vext g d a b e f t => shV_gdabeft.enc 0x2C g d a b e f t
  | .vsel g d a b m e f => shV_gdabmef.enc 0x2D g d a b m e f
  | .vperm g d a b m e f => shV_gdabmef.enc 0x2E g d a b m e f
  | .vrot g d a b m e f => shV_gdabmef.enc 0x2F g d a b m e f
  | .vzip g d a b s e f t => shV_gdabseft.enc 0x30 g d a b s e f t
  | .vidx g d a b m e f => shV_gdabmef.enc 0x31 g d a b m e f
  | .vrsum g d a m e t => shV_gdamet3.enc 0x32 g d a m e t
  | .vrmax g d a m e t => shV_gdamet3.enc 0x33 g d a m e t
  | .vrmin g d a m e t => shV_gdamet3.enc 0x34 g d a m e t
  | .vrmaxi g d a m e t => shV_gdamet3.enc 0x35 g d a m e t
  | .vrpop g d m => shV_gdm.enc 0x36 g d m
  | .vtopk g d a b m e f t => shV_gdabmeft4.enc 0x37 g d a b m e f t
  | .vtopkI g d a b m e f t => shV_gdabmeft4.enc 0x38 g d a b m e f t
  | .vsort g d a m e t => shV_gdamet4.enc 0x39 g d a m e t
  | .vrank g d a m e t => shV_gdamet4.enc 0x3A g d a m e t
  | .vqnt g d a b e f t => shV_gdabeft2.enc 0x3B g d a b e f t
  | .vdqnt g d a b j e f t => shV_gdabjeft.enc 0x3C g d a b j e f t
  | .vcvt g d a m e t => shV_gdamet5.enc 0x3D g d a m e t
  | .vpack g d a b m e f t => shV_gdabmeft5.enc 0x3E g d a b m e f t
  | .vunpk g d a h m e t => shV_gdahmet.enc 0x3F g d a h m e t
  | .vsrnd g a m e => shV_game.enc 0x40 g a m e
  | .vld g d a b m e f s => shV_gdabmefs.enc 0x41 g d a b m e f s
  | .vst g d a b m e f s => shV_gdabmefs.enc 0x42 g d a b m e f s
  | .vldT g d h b m f c => shV_gdhbmfc.enc 0x43 g d h b m f c
  | .vstT g d h b m f c => shV_gdhbmfc.enc 0x44 g d h b m f c
  | .vgat g d a b m e f k s => shV_gdabmefks.enc 0x45 g d a b m e f k s
  | .vsca g d a b m e f k s => shV_gdabmefks.enc 0x46 g d a b m e f k s
  | .vldB g d a b m e f s => shV_gdabmefs.enc 0x47 g d a b m e f s
  | .mand g d a b => shV_gdab.enc 0x48 g d a b
  | .mor g d a b => shV_gdab.enc 0x49 g d a b
  | .mxor g d a b => shV_gdab.enc 0x4A g d a b
  | .mnot g d a => shV_gda.enc 0x4B g d a
  | .mfirst g d a => shV_gda.enc 0x4C g d a
  | .mset g d a e => shV_gdae.enc 0x4D g d a e
  | .msetRd g d a => shV_gda2.enc 0x4D g d a
  | .vaccRd g d n b m f c => shV_gdnbmfc.enc 0x4E g d n b m f c
  | .vaccPk g d n b m f c => shV_gdnbmfc.enc 0x4F g d n b m f c
  | .vaccWr g n a b m e f c => shV_gnabmefc.enc 0x50 g n a b m e f c
  | .vclamp g d a b m e f t => shV_gdabmeft3.enc 0x51 g d a b m e f t
  | .vdot4 g d a b m e f t => shV_gdabmeft6.enc 0x52 g d a b m e f t
  | .vfrnd g d a m e t => shV_gdamet.enc 0x53 g d a m e t
  | .vfexp g d a m e t => shV_gdamet.enc 0x54 g d a m e t
  | .vscl g d a b m e f t => shV_gdabmeft.enc 0x55 g d a b m e f t
  | .vcompress g d a m e t => shV_gdamet4.enc 0x56 g d a m e t
  | .vexpand g d a m e t => shV_gdamet4.enc 0x57 g d a m e t
  | .vscan g d a m e t => shV_gdamet3.enc 0x58 g d a m e t
  | .vlut g d a b m e f t => shV_gdabmeft7.enc 0x59 g d a b m e f t
  | .vclz g d a m e t => shV_gdamet2.enc 0x5A g d a m e t
  | .vpopc g d a m e t => shV_gdamet2.enc 0x5B g d a m e t
  | .vbfx g d a b m e f t => shV_gdabmeft2.enc 0x5C g d a b m e f t
  | .vrev g d a m e t => shV_gdamet3.enc 0x5D g d a m e t
  | .vhist g d a m e t => shV_gdamet2.enc 0x5E g d a m e t
  | .vbcast g d a b m e f t => shV_gdabmeft3.enc 0x5F g d a b m e f t
  | .mcall g k => shM_gk.enc 0x00 g k
  | .mcallB g k => shM_gk.enc 0x01 g k
  | .mwait g => shM_g.enc 0x02 g
  | .mscale g f i => shM_gfi.enc 0x03 g f i
  | .mdrain g i => shM_gi.enc 0x04 g i
  | .mclr g i f => shM_gif.enc 0x05 g i f
  | .mldMs g a e => shM_gae.enc 0x06 g a e
  | .mstMs g a b e f => shM_gabef.enc 0x07 g a b e f
  | .mqClr g a b l => shM_gabl.enc 0x08 g a b l
  | .mqSt g d => shM_gd.enc 0x09 g d
  | .mhalf g n => shM_gn.enc 0x0A g n
  | .mchk g d i => shM_gdi.enc 0x0B g d i
  | .mfix g f i x => shM_gfix.enc 0x0C g f i x
  | .mmov g d s => shM_gds.enc 0x0D g d s
  | .mstat g d => shM_gd.enc 0x0E g d
  | .mabort g => shM_g.enc 0x0F g
  | .nop n => packMicro 0 n 0
  | .ldc n c v => packMicro 1 n (v.arg c)
  | .decc n c => packMicro 2 n (pack [(30, 0), (2, c.val)])
  | .jmp nt k => packMicro 3 ⟨.always, nt, 0⟩ (pack [(16, 0), (3, k.val)])
  | .jcnd nt nf k b => packMicro 4 ⟨.always, nt, nf⟩ (pack [(6, b.val), (10, 0), (3, k.val)])
  | .pulla n => packMicro 5 n 0
  | .pullb n => packMicro 6 n 0
  | .mac n x => packMicro 7 n x.arg
  | .macb n x => packMicro 8 n x.arg
  | .segcut n => packMicro 9 n 0
  | .ckacc n => packMicro 10 n 0
  | .ckcmp n => packMicro 11 n 0
  | .postp n tag => packMicro 12 n tag.toNat
  | .halfp n => packMicro 13 n 0
  | .waitq n a b k => packMicro 14 n (pack [(3, k.val), (27, 0), (1, b.toNat), (1, a.toNat)])
  | .endRoutine => packMicro 15 ⟨.always, 0, 0⟩ 0
  | .cpyGo g a e c => shC_gaec.enc 0x00 g a e c
  | .cpyGq g a b e f c => shC_gabefc.enc 0x01 g a b e f c
  | .cpyDrn g c => shC_gc.enc 0x02 g c
  | .cpySt g d c => shC_gdc.enc 0x03 g d c
  | .cpyPb g a e => shC_gae.enc 0x04 g a e
  | .cpyInv g a e => shC_gae.enc 0x05 g a e
  | .cpyZero g h c => shC_ghc.enc 0x06 g h c
  | .cpyFill g a b e f c => shC_gabefc.enc 0x07 g a b e f c
  | .cpyCvt g a e c => shC_gaec.enc 0x08 g a e c
  | .cpyCancel g c => shC_gc.enc 0x09 g c
  | .tmov g d s a b => shC_gdsab.enc 0x0A g d s a b
  | .tmovH g d s a b => shC_gdsab.enc 0x0B g d s a b
  | .rlay g h a b e f => shC_ghabef.enc 0x0C g h a b e f
  | .rlayWt g h => shC_gh.enc 0x0D g h
  | .rlaySt g h => shC_gh.enc 0x0E g h
  | .bcDrv g d a e => shC_gdae.enc 0x0F g d a e
  | .bcLat g d a e => shC_gdae.enc 0x10 g d a e
  | .bcSync g a b e f => shC_gabef.enc 0x11 g a b e f
  | .bufArm g c k a b e f => shC_gckabef.enc 0x12 g c k a b e f
  | .bufSwp g k => shC_gk.enc 0x13 g k
  | .bufSt g d k => shC_gdk.enc 0x14 g d k
  | .pfG g a b e f => shC_gabef.enc 0x15 g a b e f
  | .fsend g h a e => shF_ghae.enc 0x00 g h a e
  | .fsendV g v a e => shF_gvae.enc 0x01 g v a e
  | .fsendM g a b e f => shF_gabef.enc 0x02 g a b e f
  | .rpost g h a b e f => shF_ghabef.enc 0x03 g h a b e f
  | .rpostW g h a b e f => shF_ghabef.enc 0x04 g h a b e f
  | .rcancel g d a e => shF_gdae.enc 0x05 g d a e
  | .rprobe g d a e => shF_gdae.enc 0x06 g d a e
  | .rwait g d a e => shF_gdae.enc 0x07 g d a e
  | .rlbQ g d a e => shF_gdae2.enc 0x08 g d a e
  | .fdrn g => shF_g.enc 0x09 g
  | .collRed g h a e => shF_ghae.enc 0x0A g h a e
  | .collAg g h a e => shF_ghae.enc 0x0B g h a e
  | .collRs g h a e => shF_ghae.enc 0x0C g h a e
  | .collA2a g h a e => shF_ghae.enc 0x0D g h a e
  | .collBar g a e => shF_gae.enc 0x0E g a e
  | .collSt g d => shF_gd.enc 0x0F g d
  | .collRing g a b e f => shF_gabef2.enc 0x10 g a b e f
  | .noiseRd g d n => shF_gdn.enc 0x11 g d n
  | .noiseClr g => shF_g.enc 0x12 g
  | .fpeer g d a e => shF_gdae.enc 0x13 g d a e
  | .fslot g d a e => shF_gdae.enc 0x14 g d a e
  | .fbays g d a e => shF_gdae.enc 0x15 g d a e
  | .fevt g d => shF_gd.enc 0x16 g d
  | .fretune g a e => shF_gae.enc 0x17 g a e
  | .frepair g a b e f => shF_gabef2.enc 0x18 g a b e f
  | .fgrant g a e => shF_gae.enc 0x19 g a e
  | .resultLand _ _ => 0
  | .blockCleared _ => 0
  | .contextSwitch _ => 0
  | .quantum _ => 0
  | .stopSpacing _ => 0
  | .fetchRefill _ => 0
  | .parkTExpiry _ => 0
  | .syncRoundRelease _ _ => 0
  | .katInject _ _ _ => 0
  | .kickGo => 0
  | .poolPlace => 0
  | .priorityAging => 0
  | .dieDispatch _ => 0
  | .lineAck _ _ => 0
  | .walkComplete _ => 0
  | .remoteAccessArrival _ => 0
  | .remoteReply _ _ => 0
  | .remoteRefusal _ _ _ => 0
  | .poisonConsumed _ _ _ _ => 0
  | .patrolScrub _ => 0
  | .deltaArrival _ => 0
  | .parityAckArrival _ => 0
  | .relayoutTile _ _ => 0
  | .copyExecute _ _ _ => 0
  | .copyComplete _ _ => 0
  | .routineStart _ => 0
  | .scalePerform _ => 0
  | .mdrainPerform _ => 0
  | .mclrPerform _ => 0
  | .mmovPerform _ => 0
  | .vaccRdPerform _ => 0
  | .rotorSlotBoundary => 0
  | .periodBoundary => 0
  | .controlFlitArrival _ _ _ => 0
  | .dataFlitArrival _ _ _ => 0
  | .messageHeaderArrival _ => 0
  | .relayedHeaderArrival _ _ _ _ _ => 0
  | .landingComplete _ => 0
  | .sendComplete _ _ => 0
  | .collectiveExecute _ _ _ => 0
  | .lineDrift _ _ _ => 0
  | .reserveSubstitution => 0
  | .linkTraining _ _ _ => 0
  | .retrainTimeout _ _ => 0
  | .keeperMarkLoss => 0
  | .fabricDrained => 0
  | .tollBoundary => 0
  | .mailboxWrite _ _ => 0
  | .permitsWrite _ _ => 0
  | .framemapSync => 0
  | .framemapSyncDone => 0
  | .protctlWrite _ => 0
  | .rebuildAll _ => 0
  | .rebuildFrame _ => 0
  | .rebuildParity _ => 0
  | .rebuildDone => 0
  | .devnumWrite _ => 0
  | .fabricEnable _ => 0
  | .fabricDrain => 0
  | .profileSelect _ _ => 0
  | .preemptSave => 0
  | .preemptRestore => 0
  | .saveRoutineTimeout => 0
  | .contextSaved _ => 0
  | .fatalStore _ _ => 0
  | .powerOn _ => 0
  | .powerLoss => 0
  | .selftestRetest _ => 0
  | .pcieLinkTraining _ => 0
  | .fruRead _ _ => 0
  | .vacateGo => 0
  | .vacateBudgetTimeout => 0
  | .attestGo => 0
  | .attestDone => 0
  | .keyLoad => 0
  | .keyErase => 0
  | .registerWrite _ _ _ => 0
  | .softError _ => 0
  | .hostBarAccess _ => 0
  | .vacateCopyDone => 0

/-- How many bits the word of an instruction has: 64 for a microword, 32 for a syllable, none for an event. -/
def encodeBits (i : Instr) : Nat :=
  match i.cls with
  | .micro => 64
  | .event => 0
  | _ => 32

/-! ## The host's view of the opcode table -/

/-- How many of the bits of a word the encoding of an opcode fixes, by class: the slot of the class, then one number for each
opcode from 0 on (the masks of the opcode table). -/
def fixedBits : List (Fin 8 × List Nat) :=
  [(0, [8, 8, 22, 22, 28, 15, 28, 8, 8, 25, 25, 22, 28, 28, 22, 22, 22, 8, 20, 28, 20, 22, 22, 28]),
   (2, [11, 11, 11, 11, 11, 11, 11, 11, 11, 11, 11, 11, 11, 11, 11, 11, 11, 11, 11, 11, 11, 8, 8, 8, 8, 8, 8, 8, 14, 8,
     13, 13, 13, 13, 13, 13, 10, 10, 10, 17, 17, 17, 10, 11, 15, 8, 8, 8, 14, 14, 14, 20, 20, 16, 16, 12, 8, 8, 8, 8,
     11, 11, 11, 11, 14, 14, 14, 14, 10, 10, 10, 10, 8, 8, 8, 8, 8, 8, 8, 8, 8, 8, 14, 14, 14, 15, 23, 28, 24, 24, 24,
     19, 13, 13, 23, 23, 23, 22, 16, 22, 28, 20, 20, 9]),
   (4, [8, 8, 8, 8, 8, 8, 8, 8, 13, 13, 8, 13, 13, 13, 13, 13, 13, 13, 8, 10, 10, 10, 10, 8, 8, 8, 8, 8, 8, 8, 8, 11, 11,
     11, 8, 8, 8, 13, 10, 10, 10, 16, 13, 8, 11, 11, 11, 11, 8, 11, 13, 13, 13, 13, 21, 8, 8, 13, 13, 11, 8, 13, 8, 9,
     20, 9, 9, 11, 11, 8, 8, 9, 19, 19, 19, 22, 22, 20, 11, 11, 10, 8, 8, 13, 13, 8, 13, 13, 13, 10, 13, 13, 8, 13, 13,
     8]),
   (5, [20, 20, 28, 24, 26, 20, 22, 16, 25, 23, 27, 21, 16, 22, 23, 28]),
   (6, [20, 14, 26, 21, 22, 22, 22, 14, 20, 26, 14, 14, 12, 24, 24, 17, 17, 16, 12, 26, 21, 16]),
   (7, [18, 18, 16, 12, 12, 17, 17, 17, 17, 28, 18, 18, 18, 18, 22, 23, 16, 21, 28, 17, 17, 17, 23, 22, 16, 22])]

/-- The decoder of the class of a slot takes the word. -/
def slotTakes (slot : Fin 8) (w : Nat) : Bool :=
  match slot with
  | 0 => (decodeB w).toBool
  | 2 => (decodeS 2 w).toBool
  | 4 => (decodeV w).toBool
  | 5 => (decodeM w).toBool
  | 6 => (decodeC w).toBool
  | _ => (decodeF w).toBool

/-- A slot for a 32-bit word that stands alone. The six classes share their words (R201: the slot decides the class), so such a word
names no class: of those whose decoder takes it, the one whose encoding fixes most of its bits. -/
def slotOfWord (w : Nat) : Fin 8 :=
  (fixedBits.foldl (fun (best : Fin 8 × Nat) (c : Fin 8 × List Nat) =>
    let n := (c.2[w / 2 ^ 20 % 256]?).getD 0
    if best.2 < n && slotTakes c.1 w then (c.1, n) else best) (0, 0)).1

/-- The instruction of a 32-bit word that stands alone. -/
noncomputable def decodeAny (w : Nat) : Option Instr :=
  (match slotOfWord w with
   | 0 => decodeB w
   | 2 => decodeS 2 w
   | 4 => decodeV w
   | 5 => decodeM w
   | 6 => (decodeC w).map EngSyl.toInstr
   | _ => (decodeF w).map EngSyl.toInstr).toOption

/-- The instruction in a word whose bits are numbered as the opcode table numbers them: 32 bits for a syllable, 64 for a
microword. -/
noncomputable def decodeTableWord (nbits w : Nat) : Option Instr :=
  if nbits ≤ 32 then decodeAny (w % 2 ^ 32) else if nbits ≤ 64 then (decodeMicro (w % 2 ^ 64)).map Micro.toInstr else none

end Sys2Proof
end

