-- ==== Sys2Proof/Machine/State.lean ====
section
/-! DEFINITION. The state of one device, the reasons a step can stop, and the state after reset. Everything is plain data. A
context, core, cluster or die that has not been touched since reset is not listed: its entry reads as the reset entry. -/

namespace Sys2Proof.Machine

/-! ## Faults and refusals -/

/-- Why the machine stops for good. -/
inductive Fault where
  /-- `step` in power state OFF (R396): nothing runs until power-on. Safe: the spec gives no further step. -/
  | poweredOff
  deriving DecidableEq, Repr

/-- Why an instruction has no meaning. -/
inductive Refusal where
  /-- An arm of `exec` without a meaning. Safe: nothing can be proved of a step that was not taken. -/
  | notModelled (mnemonic : String)
  deriving DecidableEq, Repr

/-! ## Registers of a context -/

/-- A fault as trap entry takes it (R409): code, EADDR, EINFO. -/
structure Trap where
  code : BitVec 8
  eaddr : Word
  einfo : Word
  deriving DecidableEq, Repr

/-- A handle register (R76): the 64-byte descriptor and its home DADDR. -/
structure Handle where
  desc : Line
  daddr : BitVec 56
  deriving DecidableEq, Repr

/-- A pinned loop (R212, R225): the segment, the first and last pinned bundle, and whether a trap suspended it (R409). -/
structure Pin where
  seg : Word
  first : Nat
  last : Nat
  suspended : Bool
  deriving DecidableEq, Repr

/-- The registers a checkpoint holds (R63, R190, R391): what a rollback restores. `noise`: LOCAL, GROUP, REDUCED, COUNT (R352). -/
structure Regs where
  s : Vector Word 16
  qr : Vector Word 16
  qp : BitVec 4
  p : BitVec 16
  m : Vector Word 8
  v : Vector VReg 16
  vinvalid : BitVec 16
  h : Vector Handle 16
  a : Vector Word 8
  rstack : List Word
  mstack : List Word
  pc : Word
  lcount : Word
  pin : Option Pin
  fpmode : Word
  issuectl : Word
  spillptr : Word
  lfsr : VReg
  noise : Vector Word 4
  deriving DecidableEq, Repr

/-- A register as the target of a write. `qr i` is the physical queue entry QR[i] (R192). -/
inductive Reg where
  | s (i : Fin 16) | qr (i : Fin 16) | a (i : Fin 8) | v (i : Fin 16) | p (i : Fin 16) | m (i : Fin 8) | h (i : Fin 16)
  | sys (n : SysReg) | lfsr | flags
  deriving DecidableEq, Repr

/-- The value of a write in flight. `flags` are FPMODE flag bits to set and format warnings to count (R175, R185). -/
inductive Val where
  | word (x : Word) | vec (x : VReg) | handle (x : Handle) | flags (bits : BitVec 10) (warnings : Nat)
  deriving DecidableEq, Repr

/-- A write in flight: `land` is the cycle a fixed-latency result lands at (R196), or none for a long-latency result (R194).
`ready` says that a long-latency value has been bound, `due` the cycle from which the model lands it (assumption 18); `tag`
names the operation that brings the value. -/
structure Flight where
  reg : Reg
  val : Val
  land : Option Nat
  due : Nat
  ready : Bool
  tag : Nat
  deriving DecidableEq, Repr

/-! ## Instruction buffer -/

/-- A stored bundle in the buffer (R210): its header and words, or the fault found while fetching it. -/
inductive BufLine where
  | bundle (hdr : Word32) (words : List Word32)
  | bad (t : Trap)
  deriving DecidableEq, Repr

/-- A segment in a buffer half (R209, R211). -/
structure Segment where
  addr : Word
  next : Word
  alt : Word
  lines : List BufLine
  deriving DecidableEq, Repr

/-! ## Memory state of a context -/

/-- A deferred line (R56): pod address, byte mask, data, the KEY and PROT of its leaf, and whether it is sealed. `id` numbers the
context's lines; `bad` says that it has been read from a poisoned journal entry. -/
structure DLine where
  pod : Nat
  mask : BitVec 64
  data : Line
  key : Nat
  prot : Bool
  isSealed : Bool
  id : Nat
  bad : Bool
  deriving DecidableEq, Repr

/-- A block of a copy endpoint (R318). -/
inductive EndPt where
  | addr (space : Space) (ea : Word) | handle (r : Fin 16) (h : Handle) | queueA | queueB | none
  deriving DecidableEq, Repr

/-- A loop level of a copy (R320). -/
structure LoopLevel where
  count : Nat
  sdim : Nat
  ddim : Nat
  sstep : Int
  dstep : Int
  deriving DecidableEq, Repr

/-- A captured parameter block (R317, R319). -/
structure CopyBlock where
  src : EndPt
  dst : EndPt
  cvt : Nat
  esize : Nat
  run : Nat
  srdim : Nat
  drdim : Nat
  sbase : List Nat
  dbase : List Nat
  loops : List LoopLevel
  deriving DecidableEq, Repr

/-- What a copy does with the elements it moves (R325). -/
inductive CopyKind where
  | go | cvt | fill (v : Word) | zero (h : Handle) | queue (b : CopyBlock)
  deriving DecidableEq, Repr

/-- A copy on a channel (R323, R324). `pos` counts the runs that are done and `sub` the items of a queue copy's k-step that are
placed; `seen` lists the blocks whose correction has been counted (R185). `outward`: it has written outside the own unit store.
`finished` while its writes are done and it awaits its join; `cancelled` while it goes on to the end of its run (R328). -/
structure Copy where
  id : Nat
  ctx : Nat
  system : Bool
  kind : CopyKind
  block : CopyBlock
  rm : BitVec 2
  sat8 : Bool
  pos : Nat
  sub : Nat
  seen : List Nat
  finished : Bool
  outward : Bool
  fault : Option Trap
  flags : BitVec 10
  warnings : Nat
  cancelled : Bool
  deriving DecidableEq, Repr

/-- A buffer pair (R63, R336). Extent 0 is a, extent 1 is b. `hist` lists the copies that this context has issued on the channel since
the last arm or swap, newest first, and `fill` is the recorded fill copy (R337). -/
structure BufPair where
  armed : Bool
  space : Space
  len : Nat
  ea0 : Nat
  ea1 : Nat
  bFront : Bool
  ch : Fin 4
  swaps : Nat
  hist : List Copy
  fill : Option Copy
  deriving DecidableEq, Repr

/-- The checkpoint of the last commit (R63, R412) and what R413 and R414 ask of the time since. -/
structure Checkpoint where
  regs : Regs
  outbound : Bool
  committed : Bool
  rolls : Nat
  since : Nat
  deriving DecidableEq, Repr

/-- The barrier state of a participant (R121). `waiting` is the code address of an `mls` that has arrived and whose wait has not returned. -/
structure BarrierPart where
  next : Nat
  pend : Bool
  waiting : Option Word
  deriving DecidableEq, Repr

/-! ## Instances -/

/-- An instance of a node (R152, R164): the node, its linear index and level indices, the parameter block, the node it counts under
(R167) and the spawn it came from, its priority now, since when (ns) and in which order it has been eligible (0: not yet), how often
it was restarted (R414), the effects that forbid a restart (R413), and the context kept for it as a member of a gang (R163). -/
structure Inst where
  node : Nat
  u : Nat
  levels : List Nat
  pblock : Word
  root : Nat
  spawned : Bool
  spawnId : Nat
  prio : Nat
  since : Nat
  seq : Nat
  restarts : Nat
  arrived : Bool
  didSpawn : Bool
  sent : Bool
  bound : Option Nat
  deriving DecidableEq, Repr

/-- The states of a context (R165). -/
inductive Status where
  | free | ready | running | blocked | parked | saved
  deriving DecidableEq, Repr

/-- What a blocked or parked context waits for. `bundle`: the condition of its bundle, tried again when the block clears;
`time`: the time base (R227); `round`: a sync round (R334); `remote`: replies (R119); `acks`: acknowledgements of its writes (R84); `walk`: a translation walk for a virtual
address, to write or to read, at system privilege whatever its own or not (R22, R216); `saved`: another context's save (R227). -/
inductive Wait where
  | none | bundle | time (t : Nat) | round (id : Nat) | remote | acks | walk (va : Word) (wr sys : Bool) | saved (c : Nat)
  deriving DecidableEq, Repr

/-- The bundle being issued: its header and literal words, QP as it stood before, its issue cycle, the slot of the syllable, the
link (R224) and what the B syllables decided. `checked` says that the checks of R207 have been made for the whole bundle; while it
is false each syllable makes its own. `slots` are the slots that take effect; `committed`: a syllable of it has committed a buffer
phase; `arrived`: one has made an arrival, so that what it waits for comes after; `returned`: an `eret` has taken effect (R215);
`point`: it is a block point. -/
structure Issue where
  stop : Bool
  nlit : Nat
  lits : List Word32
  qp : BitVec 4
  cycle : Nat
  split : List Nat
  slot : Fin 8
  link : Option Word
  jump : Option Word
  ended : Bool
  trapAfter : Option Trap
  checked : Bool
  slots : List (Fin 8)
  committed : Bool
  arrived : Bool
  returned : Bool
  point : Bool
  deriving DecidableEq, Repr

/-- A bundle that has issued and not ended: its code address, the slots whose syllables are still to be done, in order, the registers that
these read, as they stood when it issued (R363), and its record. -/
structure Part where
  pc : Word
  todo : List (Fin 8)
  src : Regs
  issue : Issue
  deriving DecidableEq, Repr

/-- What is kept for the bundle at a code address whose join has raised a fault: its join mark, whether its sync round is complete, and, if it
had issued, what is left of it (R117). -/
structure Mark where
  pc : Word
  joinMark : Nat
  synced : Bool
  part : Option Part
  deriving DecidableEq, Repr

/-- A tile move whose writes are done and await their acknowledgements (R330). -/
structure Move where
  id : Nat
  fault : Option Trap
  outward : Bool
  deriving DecidableEq, Repr

/-- A hardware context (R2, R190). `fetched` holds lines a peer sent for a bundle that blocks until they are here (R239);
`part` is a bundle that has issued and waits for the answers to its accesses or, after an arrival, for other contexts; `vector` the code of a
fault whose vector has not been reached yet (R409); `lastLand` the latest cycle at which one of its fixed-latency writes lands (R358). `joinMark` numbers the copies that a `cpy.drn` or `buf.swp` waits for (R115); `synced`: the sync round it waited for is
complete (R334). `parityGen` numbers its instances, so that what settles for one that has retired reaches no other (R141);
`walkFault` is the fault a walk found, to be raised when its bundle comes to issue (R165). `retained`: its vector bank is in retention
(R195); `recorded`: its save has written a record (R418). -/
structure Ctx where
  regs : Regs
  energy : Word
  dsbjournal : Word
  estat : Word
  epc : Word
  ecode : Word
  eaddr : Word
  einfo : Word
  trapbase : Word
  inflight : List Flight
  fresh : List Flight
  lastLand : Nat
  half0 : Option Segment
  half1 : Option Segment
  half : Bool
  stopCount : Nat
  lastIssue : Nat
  issued : Nat
  exempt : Bool
  dsb : List DLine
  journal : List Nat
  journalPos : Nat
  filter : BitVec 4096
  awaiting : List DLine
  lineId : Nat
  pairs : Vector BufPair 4
  ckpt : Option Checkpoint
  barriers : Vector BarrierPart 16
  parity : Nat
  parityGen : Nat
  nohold : Option (Fin 64)
  nopar : Option (Fin 64)
  boostReq : Nat
  status : Status
  wait : Wait
  resumeAt : Nat
  inst : Option Inst
  pending : List Trap
  held : List Trap
  stopReq : Option Nat
  preSave : Status
  recorded : Bool
  ringPhase : BitVec 16
  ringPend : BitVec 16
  fetched : List (Nat × Line)
  part : Option Part
  marks : List Mark
  vector : Option (BitVec 8)
  joinMark : Nat
  moves : List Move
  synced : Bool
  walkFault : Option (Word × Trap)
  retained : Bool
  deriving DecidableEq, Repr

/-! ## The matrix engine (R282) -/

/-- The states of an integer plane (R283). -/
inductive PlaneState where
  | idle | acc | isSealed | bad
  deriving DecidableEq, Repr

/-- A seal (R283): the routine's number in issue order, SEQ, first k-step, length. -/
structure Seal where
  op : Nat
  seq : Nat
  kstart : Nat
  len : Nat
  deriving DecidableEq, Repr

/-- An integer plane (R282, R283). `owner` is the routine that opened it last and `ctx` that routine's context (18432: no context); `granule` holds the
elements as they stood after the last whole 16-element granule of K (R280). `fixed` is the number of blocks, among those its scale
record comes from, that R183 corrected. -/
structure IPlane where
  e : Vector VReg 64
  crow : VReg
  ccol : VReg
  scaleA : Vector (BitVec 24) 64
  scaleB : Vector (BitVec 24) 64
  fixed : Nat
  state : PlaneState
  sat : Bool
  chk : Bool
  owner : Nat
  ctx : Nat
  sealRec : Option Seal
  granule : Vector VReg 64
  deriving DecidableEq, Repr

/-- An item of an operand queue (R286): a k-step, with the space and address of the first poisoned unit it came from if any (R49), or
a marker with the scales of a segment and the number of blocks they come from that R183 corrected (R185). -/
inductive QItem where
  | data (x : Vector (BitVec 8) 64) (poison : Option (Space × Word))
  | mark (s : Vector (BitVec 24) 64) (fixed : Nat)
  deriving DecidableEq, Repr

/-- What a matrix operation does (R300). Ordered with them are pending results: of a `vacc.rd` (R280), of an `mchk` (R305) and of an
`mq.st` (R309); the operation's number is the tag of its results. -/
inductive MKind where
  | routine (k : Nat) (batched : Bool)
  | scale (f i : Fin 4)
  | fix (f i : Fin 4) (e : BitVec 8)
  | drain (i : Fin 4)
  | clr (ia fa : BitVec 4)
  | mov (d s : Fin 8)
  | accRd (n : Fin 8) (index : Fin 64) (col : Bool) (mask : Word)
  | chk (i : Fin 4)
  | logRd
  deriving DecidableEq, Repr

/-- A matrix operation in issue order: its context, where it was issued, the captured parameter registers, the rounding of the
context, and, once it is complete, its recorded fault and flags. -/
structure MOp where
  id : Nat
  ctx : Nat
  pc : Word
  kind : MKind
  params : Vector Word 8
  rm : BitVec 2
  complete : Bool
  fault : Option Trap
  flags : BitVec 10
  warnings : Nat
  deriving DecidableEq, Repr

/-- The running routine (R282, R285, R293). `ck` holds the sums of the last CKACC. -/
structure Routine where
  op : Nat
  ctx : Nat
  k : Nat
  batched : Bool
  params : Vector Word 8
  c : Vector (BitVec 16) 4
  addr : Nat
  plane : Option (Fin 4)
  kcount : Nat
  kstart : Nat
  seq : Nat
  ckmis : Bool
  rowSum : VReg
  colSum : VReg
  deriving DecidableEq, Repr

structure Matrix where
  store : List (Nat × Word)
  table : List (Nat × Nat)
  ia : Vector IPlane 4
  fa : Vector (Vector VReg 64) 4
  aq : List QItem
  bq : List QItem
  aStage : List QItem
  bStage : List QItem
  routine : Option Routine
  ops : List MOp
  log : List Word
  logovf : Bool
  gov : Bool
  sw : Bool
  mxerr : Word
  deriving DecidableEq, Repr

/-! ## Cores, clusters, dies -/

/-- A leaf entry in a TLB with the page number and level it was found under (R26). -/
structure TlbEntry where
  vpn : Nat
  lvl : Nat
  leaf : Word
  deriving DecidableEq, Repr

/-- A core (R190): `idle` while it has no context to run and none is READY (R358); `used` is the first cycle of its last bundle and the
instances used in each of that bundle's cycles (R364). -/
structure Core where
  cycle : Nat
  tick : Nat
  running : Option (Fin 4)
  lastRun : Fin 4
  ch : Vector (List Copy) 4
  pbCache : List (Nat × List Byte)
  mx : Matrix
  slotmap : Word
  katctl : Word
  katsig : Word
  katLast : List (Nat × Nat)
  used : Nat × List (List Nat)
  tlb : List TlbEntry
  sample : Word
  rem : Nat
  idle : Bool
  readyAt : Nat
  engineTurn : Bool
  deriving DecidableEq, Repr

/-- A sync round being gathered (R334). -/
structure SyncRound where
  id : Nat
  n : Nat
  arrived : List Nat
  deriving DecidableEq, Repr

/-- A drive or a latch of the broadcast bus (R333, R335): its cluster cycle, its core, its context, the registers its result goes to,
the bytes it drives with the places among them that are poisoned, if it drives, and its own unit-store offset. -/
structure BusOp where
  cycle : Nat
  core : Nat
  ctx : Nat
  regs : List Reg
  out : Option (List Byte × List Nat)
  addr : Word
  deriving DecidableEq, Repr

/-- A cluster. Its clock (R251) stood at `base` cycles at time `since`; its cycles are `past` units long before and as long as its
level says after; `stopped`: R402 has stopped it; `gated`: the power state has (R396). `bus` holds what the broadcast bus has carried in
the cycles in which bundles still issue. -/
structure Cluster where
  events : List (Nat × BitVec 16)
  waiters : List (Nat × Nat)
  permits : Word
  permitsPend : Option Word
  boostlvl : Word
  energy : Word
  rounds : List SyncRound
  bus : List BusOp
  base : Nat
  since : Nat
  past : Nat
  gated : Bool
  stopped : Bool
  issued : Bool
  deriving DecidableEq, Repr

/-- A miss that waits in the translation hub (R27): the context that accesses, the address, and whether the context has parked for it; if
not, an engine, a fetch or a prefetch of the context has missed. -/
structure Miss where
  ctx : Nat
  va : Word
  parked : Bool
  deriving DecidableEq, Repr

/-- A die: its TLB, its dispatch queue (R357), its error registers (R51), BALANCE (R404), the intervals in a row above 10 % with
ballast enabled, the row of R402 it is in (0 below TB, 1 TB, 2 TH, 3 TC), and whether ballast is enabled at the next boundary. `walks`
and `misses` are the translation hub (R27): the walks in progress as (page, context), the misses that wait in order of arrival, and the
core, of the die's 192, that was served last. -/
structure Die where
  tlb : List TlbEntry
  walks : List (Nat × Nat)
  misses : List Miss
  hubLast : Nat
  queue : List Inst
  memecc : Word
  memeccaddr : Word
  balance : Word
  overCount : Nat
  thermal : Nat
  balPend : Bool
  engineNext : Nat
  deriving DecidableEq, Repr

/-! ## Device engines -/

/-- The state of a relayout entry (R83). -/
inductive RlyState where
  | active | complete | failed
  deriving DecidableEq, Repr

/-- A relayout entry (R83): the issuing die, context and instance, the handle as it stood, and the progress. `conv`: the elements of tile
P are written and their acknowledgements awaited; `outward`: it has written outside the issuing core's unit store; `raised` lists the
bundles, as (context, address), that have raised the recorded fault (R88). -/
structure Relayout where
  slot : Nat
  handle : Handle
  ntag : BitVec 8
  shadow : Word
  done : Word
  nt : Nat
  p : Nat
  die : Nat
  ctx : Nat
  system : Bool
  order : Nat
  state : RlyState
  fault : Option Trap
  conv : Bool
  outward : Bool
  raised : List (Nat × Word)
  deriving DecidableEq, Repr

/-- A node of the graph of the replay in progress, as the pool read and checked it (R148 to R156). -/
structure NodeEntry where
  entry : Word
  pbOff : Nat
  spawn : Bool
  prio : Nat
  sClass : Bool
  grain : Nat
  opers : List (Nat × Nat × Nat × Nat × Nat × Nat)
  barriers : List (Nat × Nat)
  count : Nat
  gang : Nat
  deriving DecidableEq, Repr

structure EdgeEntry where
  stage : Bool
  depth : Nat
  src : Nat
  dst : Nat
  deriving DecidableEq, Repr

structure LevelEntry where
  domain : Nat
  scope : Nat
  fanout : Nat
  deriving DecidableEq, Repr

structure Graph where
  base : Word
  param : Nat
  handles : Nat
  rank : Nat
  levels : List LevelEntry
  nodes : List NodeEntry
  edges : List EdgeEntry
  hdescs : List Line
  tag : Word
  deriving DecidableEq, Repr

/-- A barrier instance (R121): the node, the barrier, the domain instance it belongs to, and its counts. -/
structure Barrier where
  node : Nat
  b : Nat
  domain : Nat
  phase : Bool
  arr0 : Nat
  arr1 : Nat
  n : Nat
  deriving DecidableEq, Repr

/-- Step 9 of R159 in progress: the graph, the operation that writes the patches, those still to be written, whether a peer has refused
one. -/
structure Patching where
  graph : Graph
  op : Nat
  left : List (Nat × List Byte)
  refused : Bool
  deriving DecidableEq, Repr

/-- The cores of a range, from `lo` to below `hi`, whose contexts of a class are reserved for an instance of a priority (R163). -/
structure Reserve where
  lo : Nat
  hi : Nat
  sClass : Bool
  prio : Nat
  deriving DecidableEq, Repr

/-- The ready pool of die 0 (R157 to R169). `waiting` holds the expanded instances that are not on a die queue; `retired` the
(node, u) that have retired; `live` counts, for each node, its spawned instances that are not complete; `spawnQ` lists the places
taken in the spawn queue as (spawn, node, instances still to go to a die queue); `reserve` is what the contexts that free are
kept for, the oldest gang at the highest priority (R163). `dead` are the cores that were DEAD when the replay was bound to physical units
(R152). `stopped` while a device save holds (R419); `vacated` while the pool state is that of a source whose rank this device takes over
(R393). -/
structure Pool where
  graph : Option Graph
  patching : Option Patching
  expanded : List Nat
  waiting : List Inst
  retired : List (Nat × Nat)
  live : List (Nat × Nat)
  spawnQ : List (Nat × Nat × Nat)
  spawnSeq : Nat
  seq : Nat
  reserve : Option Reserve
  dead : List Nat
  barriers : List Barrier
  stopped : Bool
  vacated : Bool
  deriving DecidableEq, Repr

/-! ## A vacate (R426) -/

/-- What a source gives its spare (R92, R121, R169, R426): its memory as key slot 0 reads it, line by line, with the poisoned units; the
relayout table; its saved contexts, the state of the pool, the queues of the dies, KICKSTAT and the core records; and the next number of an
operation. -/
structure PodCopy where
  lines : List (Nat × Line)
  poison : List Nat
  relayouts : List Relayout
  ctxs : List (Nat × Ctx)
  pool : Pool
  queues : List (Nat × List Inst)
  kickstat : Word
  coreRecs : List (Nat × Matrix)
  nextId : Nat
  deriving DecidableEq, Repr

/-- A part that a device takes in a vacate (R393, R426): GO at the source; at the spare, what the source copies; at a member, the changes that
the source sends, with its own number, the spare's and the period at which they apply. -/
inductive VacatePart where
  | go
  | copied (c : PodCopy)
  | rekey (src spare : Fin 64) (period : Nat)
  deriving DecidableEq, Repr

/-- What a send carries (R339). -/
inductive SendKind where
  | tensor | vector | memory
  deriving DecidableEq, Repr

/-- A send or a collective of a context, joined by `fdrn` (R339, R348). -/
inductive FKind where
  | send (peer : Fin 64) (tag : BitVec 32) (kind : SendKind)
  | coll (ring : Fin 16) (kind : Nat) (op : Nat) (noise : Bool) (tag : BitVec 32) (r : Fin 16) (h : Handle) (elems : List Word)
      (poison : List Nat) (failed : Bool)
  | bar (ring : Fin 16) (tag : BitVec 32)
  deriving DecidableEq, Repr

/-- `met` holds what the members have contributed once they have met (R348); `pos` counts the elements of the result that are written. -/
structure FOp where
  id : Nat
  ctx : Nat
  system : Bool
  kind : FKind
  rm : BitVec 2
  sat8 : Bool
  complete : Bool
  outward : Bool
  fault : Option Trap
  flags : BitVec 10
  met : Option (List CollPeer)
  pos : Nat
  deriving DecidableEq, Repr

/-- A posted receive (R342 to R345): its entry and generation, whose it is, the captured handle and its register, the match and mask words, the
enabled counter, and the landing once a message matched. `order` numbers the posts; `pos` counts the elements that the landing has written. -/
structure Posted where
  entry : Nat
  gen : Nat
  ctx : Nat
  system : Bool
  reg : Fin 16
  handle : Handle
  matchWord : Word
  maskWord : Word
  counter : Option (Fin 64)
  msg : Option MsgArrival
  fromLayby : Bool
  landed : Bool
  order : Nat
  fault : Option Trap
  pos : Nat
  outward : Bool
  deriving DecidableEq, Repr

structure Ring where
  members : List (Fin 64)
  pinned : Bool
  deriving DecidableEq, Repr

/-- A packet for a peer, as the transfer engine holds it (R376): its data flits with their kinds, the send it belongs to, where this
device forwards it as a relay the plane on which it came (R383), and whether it begins with its header: the rest of a packet that was on a
link does not. -/
structure Packet where
  dest : Fin 64
  flits : List (BitVec 4 × BitVec 128)
  op : Option Nat
  relay : Option Nat
  whole : Bool
  deriving DecidableEq, Repr

/-- A flit on a link: its kind and data, the packet it is of, whether it is the first of that packet here, whether it is its header, and
whether the link is the first leg of a detour (R383). Kind 0x8 is a header that a detour has added to the rest of a packet. -/
structure LinkFlit where
  kind : BitVec 4
  data : BitVec 128
  dest : Fin 64
  op : Option Nat
  relay : Option Nat
  first : Bool
  head : Bool
  detour : Bool
  deriving DecidableEq, Repr

/-- A data flit that has been sent (R378): its sequence and the lane that sent it. -/
structure TxFlit where
  seq : BitVec 12
  lane : Nat
  flit : LinkFlit
  deriving DecidableEq, Repr

/-- A message in the lay-by (R341): the message without its bytes, how many they are, and the extents of memory that hold them. -/
structure Laid where
  msg : MsgArrival
  len : Nat
  ext : List (Nat × Nat)
  deriving DecidableEq, Repr

/-- Changes that a vacated source has sent this member (R393, R426): source, spare, and the period at which they apply. -/
structure Rekey where
  src : Fin 64
  spare : Fin 64
  period : Nat
  deriving DecidableEq, Repr

/-- One end of a link (R376 to R380): the plane and peer; the rate (00 none, 01 200, 10 100, 11 50 Gb/s); whether it has been declared
failed, and since when it retrains; the rates that this end and the peer request, and which device is recorded as the initiator; SENT and
the latest FREED of the peer; FREED and the sequence numbers of what comes in; the flits that wait, and those sent and not acknowledged;
the bays in use, and the class of the last flit that took one; a relayed header kept in a bay and not accepted (R383); how often in a row such a header of this end's has come back;
whether flits have been taken back whose acceptance the next control flit tells. -/
structure Link where
  plane : Nat
  peer : Fin 64
  rate : BitVec 2
  failed : Bool
  pause : Option Nat
  want : BitVec 2
  asked : BitVec 2
  initiator : Option (Fin 64)
  sent : BitVec 32
  peerFreed : BitVec 32
  freed : BitVec 32
  nextSeq : BitVec 12
  expected : BitVec 12
  queue : List LinkFlit
  replay : List TxFlit
  bays : List (BitVec 4 × BitVec 128)
  cls : Nat
  held : Option (BitVec 4 × BitVec 128)
  stalls : Nat
  resync : Bool
  deriving DecidableEq, Repr

/-- Flits that have come for another device and that no entry lets through any more (R383): the plane and peer that brought them, their
origin and target. -/
structure RelayHeld where
  plane : Nat
  peer : Fin 64
  origin : Fin 64
  target : Fin 64
  flits : List (BitVec 4 × BitVec 128)
  deriving DecidableEq, Repr

/-- A change of one slot-table entry that waits for its period (R371, R382, R384). -/
structure SlotChange where
  plane : Nat
  lane : Nat
  slot : Nat
  entry : BitVec 16
  period : Nat
  deriving DecidableEq, Repr

/-- The fabric of the device (R366 to R389). `origin` is the slot of the time base, and PERIODNO, at which the profile in force began (R385).
`table` lists the slot-table entries that differ from the profile; `granted` the
reserve-line grants and `withheld` the revoked band-0 grants, as (line, engine, lane) (R367); `circuitRing` the ring that asks for
circuits and `circuits` the shifts of lanes 0 and 1 in force (R375); `barPhase` the phase of `coll.bar` for each ring (R351). `flitted`
counts the messages of the outbox that the transfer engine has cut into flits; `passes` the flits of a peer and class whose bytes have
been taken before they came, so that they leave their bays at once (R379); `msgNums` and `msgNext` number the messages that each context
has sent to a peer and the ones to come from each peer's context, `early` those that came before their predecessors (R384); `vacateIn` the
parts of a vacate that have come and wait for their events (R426); `heldBack` the events that would start fabric work while the device
drains (R389). -/
structure Fabric where
  fabctl : Word
  podmask : Word
  podmaskNext : Word
  periodno : Word
  slot : Nat
  origin : Nat × Nat
  fevtstat : Word
  log : List Word
  linestat : List (Nat × Word)
  relaytab : List (Nat × Word)
  profile : Nat
  profilePend : Option Nat
  table : List (Nat × BitVec 16)
  changes : List SlotChange
  granted : List (Nat × Nat × Nat)
  withheld : List (Nat × Nat × Nat)
  windows : BitVec 2
  windowPend : List (Nat × Bool)
  muteTimes : List (Nat × Nat)
  links : List Link
  txq : List Packet
  flitted : Nat
  passes : List (Nat × Nat)
  relayHeld : List RelayHeld
  lastMark : Nat
  muted : Bool
  circuitRing : Option (Fin 16)
  circuits : Option (BitVec 6 × BitVec 6)
  barPhase : BitVec 16
  rxctl : Word
  posted : List Posted
  layby : List Laid
  withheldMsgs : List MsgArrival
  msgNums : List (Nat × Nat)
  msgNext : List (Nat × Nat)
  early : List MsgArrival
  rekeys : List Rekey
  vacateIn : List VacatePart
  heldBack : List Event
  postGen : List (Nat × Nat)
  counters : List (Nat × BitVec 32)
  fops : List FOp
  rings : List (Nat × Ring)
  deriving DecidableEq, Repr

/-- A remote access of this device that awaits its reply (R119). `place` says which byte of the reply goes to which byte of the
flights with the tag `flight` (0: none); `sext` is the width in bits that the finished value is sign-extended from (0: none);
`keep` that the line is kept for a bundle that blocks for it, and `dest` the registers that bundle is to load, which a refusal leaves
zero (R40); `dline` the drained line it carries (R59); `eng` the engine operation whose write it is. `va` and `info` are EADDR and
EINFO of a refusal (R444). -/
structure RemotePend where
  id : Nat
  ctx : Nat
  dev : Fin 64
  line : Nat
  mask : BitVec 64
  flight : Nat
  place : List (Nat × Nat)
  sext : Nat
  keep : Bool
  write : Bool
  dest : List Reg
  dline : Option Nat
  eng : Option Nat
  prot : Bool
  va : Word
  info : Word
  deriving DecidableEq, Repr

/-- A message that has left the device: the observable output. -/
inductive OutMsg where
  | request (dev : Fin 64) (r : RemoteReq)
  | reply (dev : Fin 64) (id : Nat) (data : Line) (poison : BitVec 64)
  | refusal (dev : Fin 64) (id : Nat) (cause : BitVec 8)
  | delta (dev : Fin 64) (d : Delta)
  | parityAck (dev : Fin 64) (a : ParityAck)
  | message (dev : Fin 64) (op : Nat) (ctx num : Nat) (tag : BitVec 32) (payload : List Byte) (poison : List Nat)
  | collective (dev : Fin 64) (ring : Fin 16) (part : CollPeer)
  | flit (plane : Nat) (peer : Fin 64) (f : Flit)
  | msix (vector : Nat)
  | hostData (bytes : List Byte)
  | busData (bytes : List Byte)
  | rekey (dev : Fin 64) (spare : Fin 64) (period : Nat)
  | podCopy (spare : Fin 64) (c : PodCopy)
  deriving DecidableEq, Repr

/-- A delta that this home has sent and that is not yet acknowledged: its holder and sequence number, and its writer. -/
structure Unacked where
  holder : Nat
  seq : BitVec 16
  writer : Nat
  ctx : Nat
  op : Option Nat
  gen : Nat
  deriving DecidableEq, Repr

/-- A joined engine operation with acknowledgements to come: the context that joined it, its instance, and how many. -/
structure JoinedOp where
  id : Nat
  ctx : Nat
  gen : Nat
  count : Nat
  deriving DecidableEq, Repr

/-- The parity path of a home and holder (R135 to R145). `opCounts` lists the parity counts of unjoined engine operations (R136);
`lateAcks` the deltas of other homes, with their holders, that were settled as NOHOLD and whose acknowledgements may still come (R143). -/
structure Protect where
  stripemap : Word
  stripeWritten : Bool
  protregion : Word
  protctl : Word
  proterr : Word
  rebuild : Word
  sendSeq : List (Nat × BitVec 16)
  recvSeq : List (Nat × BitVec 16)
  heldDeltas : List Delta
  unacked : List Unacked
  opCounts : List (Nat × Nat)
  joinedOps : List JoinedOp
  lateAcks : List (Nat × Nat × BitVec 16)
  deriving DecidableEq, Repr

/-- Power, current and boost (R395 to R404). `pwrctlPend`, `thermctlPend` and `pwrstatClr` hold the mailbox writes that wait for the next
toll boundary: the new values, and the bits of PWRSTAT to clear. -/
structure Power where
  pwrctl : Word
  pwrstat : Word
  thermctl : Word
  pwrctlPend : Option Word
  thermctlPend : Option Word
  pwrstatClr : Word
  underCount : Nat
  deriving DecidableEq, Repr

/-- Host, bring-up and management (R416 to R429). `health` is the health word of the FRU (R425), `rekeyAt` the period at which the
changes of a vacate apply (R426), `signatures` the fuse counter of R427; these outlive a loss of power. -/
structure Manage where
  intstat : Word
  intctl : Word
  trapdev : Word
  rbstat : Word
  preempt : Word
  savebase : Word
  saveStart : Nat
  devnum : BitVec 6
  bootstat : Word
  vacate : Word
  vacateStart : Nat
  attest : Word
  signatures : Nat
  keyctl : Word
  keybuf : BitVec 512
  keys : List (Nat × BitVec 512)
  powerOns : Nat
  health : Word
  vacates : Nat
  rekeyAt : Word
  latchPermit : Bool
  pcieGen : Nat
  deriving DecidableEq, Repr

/-- Memory (R12, R48, R49): the stored bytes, ciphertext in HBM, in rising order of local address with no zero byte listed; the
poisoned units by first address, the units with an error that a read will correct, and those with an error it will not; `flips` lists
the bits that errors have changed, as (unit, bit). -/
structure Memory where
  cells : List Host.Cell
  poison : List Nat
  soft : List Nat
  hard : List Nat
  flips : List (Nat × Nat)
  deriving DecidableEq, Repr

/-- Device registers of address translation, remote accesses and graphs (R23, R33, R39, R43, R157 to R160). `kickGos` holds the fields
of KICK as they stood after each write of GO that the pool has not taken up, `kickPend` those of the GO that waits for RUN (R397). What the
memories of peers answer to the pool's reads is an input, `kickView`. -/
structure DevRegs where
  ptroot : Word
  rsettab : List (Nat × Word)
  framemap : Word
  frameCache : List (Nat × Nat)
  rflbase : Word
  rflhead : Word
  rfltail : Word
  rflctl : Word
  kick : List Word
  kickstat : Word
  kickdone : Word
  kickPend : Option (List Word)
  kickGos : List (List Word)
  kickView : PeerView
  ctxarea : Word
  deriving DecidableEq, Repr

/-! ## How a syllable ends -/

/-- How the last syllable, micro-op or event ended. `trap t`: it took the fault t; `block`: its context waits and the syllable is
tried again; `walk`: its context waits for a translation walk and the bundle is issued again; `stall`: the micro-op or engine waits;
`hub d va`: an engine or a fetch has missed the TLBs for an address and the hub of die d has no walk for it yet. -/
inductive End where
  | done | block | walk | stall | hub (d : Nat) (va : Word) | trap (t : Trap) | consumed (t : Trap)
  deriving DecidableEq, Repr

/-! ## The device -/

/-- One Opten. `cx` is context `cid` and `core` its core, `cid / 4`; the other contexts and cores are in `ctxs` and `cores`. `kept` lists
the translations that unfinished engine operations have used (R31), `coreRecs` the core records of the last save of SCOPE device (R418). `tick` counts the time that passes, in 1/378 ns; the time base is it
and `steer`, by which the rotor keeper's marks have moved the base, and `owed` is by how much it has yet to be held back (R385). -/
structure State where
  cid : Nat
  cx : Ctx
  core : Core
  ctxs : List (Nat × Ctx)
  cores : List (Nat × Core)
  clusters : List (Nat × Cluster)
  dies : List (Nat × Die)
  mem : Memory
  regs : DevRegs
  prot : Protect
  fab : Fabric
  pool : Pool
  pwr : Power
  mgmt : Manage
  relayouts : List Relayout
  coreRecs : List (Nat × Matrix)
  kept : List (Nat × TlbEntry)
  remotes : List RemotePend
  outbox : List OutMsg
  tick : Nat
  steer : Int
  owed : Nat
  nextId : Nat
  issue : Issue
  agenda : List Event
  evt : End
  freeCount : Nat
  deriving DecidableEq, Repr

/-! ## Reset -/

/-- A handle register at reset (R76). -/
def Handle.reset : Handle := ⟨0, 0⟩

/-- The registers as dispatch leaves them before the values of R164 are written (R190, R192): zero, full and valid; FPMODE and
ISSUECTL at their reset values (R175, R198), the lane states at 1 (R177). -/
def Regs.reset : Regs where
  s := Vector.replicate 16 0
  qr := Vector.replicate 16 0
  qp := 0
  p := 1
  m := Vector.replicate 8 0
  v := Vector.replicate 16 (Vector.replicate 64 0)
  vinvalid := 0
  h := Vector.replicate 16 Handle.reset
  a := Vector.replicate 8 0
  rstack := []
  mstack := []
  pc := 0
  lcount := 0
  pin := none
  fpmode := 0
  issuectl := 0
  spillptr := 0
  lfsr := Vector.replicate 64 1
  noise := Vector.replicate 4 0

def BufPair.reset : BufPair := ⟨false, .u, 0, 0, 0, false, 0, 0, [], none⟩

/-- A context at reset (R165): FREE. -/
def Ctx.reset : Ctx where
  regs := Regs.reset
  energy := 0
  dsbjournal := 0
  estat := 0
  epc := 0
  ecode := 0
  eaddr := 0
  einfo := 0
  trapbase := 0
  inflight := []
  fresh := []
  lastLand := 0
  half0 := none
  half1 := none
  half := false
  stopCount := 0
  lastIssue := 0
  issued := 0
  exempt := false
  dsb := []
  journal := []
  journalPos := 0
  filter := 0
  awaiting := []
  lineId := 0
  pairs := Vector.replicate 4 BufPair.reset
  ckpt := none
  barriers := Vector.replicate 16 ⟨0, false, none⟩
  parity := 0
  parityGen := 0
  nohold := none
  nopar := none
  boostReq := 0
  status := .free
  wait := .none
  resumeAt := 0
  inst := none
  pending := []
  held := []
  stopReq := none
  preSave := .free
  recorded := false
  ringPhase := 0
  ringPend := 0
  fetched := []
  part := none
  marks := []
  vector := none
  joinMark := 0
  moves := []
  synced := false
  walkFault := none
  retained := false

/-- An integer plane at reset (R283): IDLE. -/
def IPlane.reset : IPlane where
  e := Vector.replicate 64 (Vector.replicate 64 0)
  crow := Vector.replicate 64 0
  ccol := Vector.replicate 64 0
  scaleA := Vector.replicate 64 0
  scaleB := Vector.replicate 64 0
  fixed := 0
  state := .idle
  sat := false
  chk := false
  owner := 0
  ctx := 18432
  sealRec := none
  granule := Vector.replicate 64 (Vector.replicate 64 0)

/-- The matrix engine at reset (R282): every table entry V = 0, planes IDLE. -/
def Matrix.reset : Matrix where
  store := []
  table := []
  ia := Vector.replicate 4 IPlane.reset
  fa := Vector.replicate 4 (Vector.replicate 64 (Vector.replicate 64 0))
  aq := []
  bq := []
  aStage := []
  bStage := []
  routine := none
  ops := []
  log := []
  logovf := false
  gov := false
  sw := false
  mxerr := 0

/-- The map of a core that has every instance (R360): LG3 to LG0 = 3, 2, 1, 0; every instance passed; SA and SB on ALU 0 and 1;
both branch units. The spec says "boot" for these fields; the value is assumption 3. -/
def Core.fullMap : Word := 0x0000688FF1C00000

/-- A core at reset. -/
def Core.reset : Core where
  cycle := 0
  tick := 0
  running := none
  lastRun := 3
  ch := Vector.replicate 4 []
  pbCache := []
  mx := Matrix.reset
  slotmap := Core.fullMap
  katctl := 0x0000000000FF0000
  katsig := 0
  katLast := []
  used := (0, [])
  tlb := []
  sample := 0
  rem := 0
  idle := true
  readyAt := 0
  engineTurn := false

/-- A cluster at reset (R228, R399): counters clear, CAP and COUNT 64, level 0. -/
def Cluster.reset : Cluster where
  events := []
  waiters := []
  permits := 0x4040
  permitsPend := none
  boostlvl := 0
  energy := 0
  rounds := []
  bus := []
  base := 0
  since := 0
  past := 360
  gated := false
  stopped := false
  issued := false

/-- A die at reset (R51, R404). -/
def Die.reset : Die where
  tlb := []
  walks := []
  misses := []
  hubLast := 191
  queue := []
  memecc := 0
  memeccaddr := 0
  balance := 0
  overCount := 0
  thermal := 0
  balPend := false
  engineNext := 0

/-- The fabric at reset (R372): PLEN 8, RELAYMAX 8, the default rotor profile, dark. -/
def Fabric.reset : Fabric where
  fabctl := 0x0000000800000080
  podmask := 0
  podmaskNext := 0
  periodno := 0
  slot := 0
  origin := (0, 0)
  fevtstat := 0
  log := []
  linestat := []
  relaytab := []
  profile := 0
  profilePend := none
  table := []
  changes := []
  granted := []
  withheld := []
  windows := 0
  windowPend := []
  muteTimes := []
  links := []
  txq := []
  flitted := 0
  passes := []
  relayHeld := []
  lastMark := 0
  muted := false
  circuitRing := none
  circuits := none
  barPhase := 0
  rxctl := 0
  posted := []
  layby := []
  withheldMsgs := []
  msgNums := []
  msgNext := []
  early := []
  rekeys := []
  vacateIn := []
  heldBack := []
  postGen := []
  counters := []
  fops := []
  rings := []

def Pool.reset : Pool where
  graph := none
  patching := none
  expanded := []
  waiting := []
  retired := []
  live := []
  spawnQ := []
  spawnSeq := 0
  seq := 0
  reserve := none
  dead := []
  barriers := []
  stopped := false
  vacated := false

/-- The parity path at reset: STRIPEMAP for DEVNUM 0 is members 0 to 7 (R128). -/
def Protect.reset : Protect where
  stripemap := 0x00001C61440C2040
  stripeWritten := false
  protregion := 0
  protctl := 0
  proterr := 0
  rebuild := 0
  sendSeq := []
  recvSeq := []
  heldDeltas := []
  unacked := []
  opCounts := []
  joinedOps := []
  lateAcks := []

/-- Power at reset (R395): LIMIT 9,600, LVLMAX 2, DIECAP2 1, TARGET RUN, VKEEP and BANKOFF 1; TB 85, TH 95, TC 105. -/
def Power.reset : Power where
  pwrctl := 0x960240C000000000
  pwrstat := 0
  thermctl := 0x555F69
  pwrctlPend := none
  thermctlPend := none
  pwrstatClr := 0
  underCount := 0

/-- Management at reset: the self-test has not run (R422, R423), LIMIT 3 (R414), key slots erased (R37). -/
def Manage.reset : Manage where
  intstat := 0
  intctl := 0
  trapdev := 0
  rbstat := 3
  preempt := 0
  savebase := 0
  saveStart := 0
  devnum := 0
  bootstat := 0
  vacate := 0
  vacateStart := 0
  attest := 0
  signatures := 0
  keyctl := 0
  keybuf := 0
  keys := []
  powerOns := 0
  health := 0
  vacates := 0
  rekeyAt := 0
  latchPermit := false
  pcieGen := 0

def DevRegs.reset : DevRegs where
  ptroot := 0
  rsettab := []
  framemap := 0
  frameCache := []
  rflbase := 0
  rflhead := 0
  rfltail := 0
  rflctl := 0
  kick := [0, 0, 0, 0, 0, 0, 0]
  kickstat := 0
  kickdone := 0
  kickPend := none
  kickGos := []
  kickView := PeerView.none
  ctxarea := 0

def Issue.reset : Issue where
  stop := true
  nlit := 0
  lits := []
  qp := 0
  cycle := 0
  split := []
  slot := 0
  link := none
  jump := none
  ended := false
  trapAfter := none
  checked := false
  slots := []
  committed := false
  arrived := false
  returned := false
  point := false

/-- The machine right after reset: every register at its reset value, memory with nothing listed, every context FREE, the
self-test of R422 about to run. -/
def State.reset : State where
  cid := 0
  cx := Ctx.reset
  core := Core.reset
  ctxs := []
  cores := []
  clusters := []
  dies := []
  mem := ⟨[], [], [], [], []⟩
  regs := DevRegs.reset
  prot := Protect.reset
  fab := Fabric.reset
  pool := Pool.reset
  pwr := Power.reset
  mgmt := Manage.reset
  relayouts := []
  coreRecs := []
  kept := []
  remotes := []
  outbox := []
  tick := 0
  steer := 0
  owed := 0
  nextId := 1
  issue := Issue.reset
  agenda := []
  evt := .done
  freeCount := 0

end Sys2Proof.Machine
end

