-- ==== Sys2Proof/Machine/Bits.lean ====
section
/-! DEFINITION. Bit fields, byte order and sparse tables. Bytes are little-endian (R3, R148): byte i of a value is its bits
[8i+7:8i]. -/

namespace Sys2Proof.Machine

/-! ## Bit fields -/

/-- Bits [lo+len-1:lo] of a word as a number. -/
def field (w : Word) (lo len : Nat) : Nat := w.toNat / 2 ^ lo % 2 ^ len

/-- The word with ones at bits [lo+len-1:lo]. -/
def ones (lo len : Nat) : Word := BitVec.ofNat 64 ((2 ^ len - 1) * 2 ^ lo)

/-- The word with bits [lo+len-1:lo] replaced by the low bits of v. -/
def setField (w : Word) (lo len v : Nat) : Word :=
  (w &&& ~~~ ones lo len) ||| BitVec.ofNat 64 (v % 2 ^ len * 2 ^ lo)

/-- A one-bit field. -/
def flag (w : Word) (lo : Nat) : Bool := w.getLsbD lo

def setFlag (w : Word) (lo : Nat) (b : Bool) : Word := setField w lo 1 b.toNat

/-- A word built from (lowest bit, width, value) fields. -/
def fieldsWord (fs : List (Nat × Nat × Nat)) : Word :=
  fs.foldl (fun w f => setField w f.1 f.2.1 f.2.2) 0

/-- A number as a 64-bit word. -/
def word (n : Nat) : Word := BitVec.ofNat 64 n

/-- The low `len` bits of a number as a two's-complement value. -/
def signed (len v : Nat) : Int :=
  let u := v % 2 ^ len
  if u < 2 ^ (len - 1) then (u : Int) else (u : Int) - 2 ^ len

/-- A sum that stops at the largest value of a field. -/
def satAdd (len v k : Nat) : Nat := Nat.min (v + k) (2 ^ len - 1)

/-! ## Bytes -/

/-- The n bytes of a number, lowest first. -/
def bytesOf : Nat → Nat → List Byte
  | 0, _ => []
  | n + 1, v => BitVec.ofNat 8 v :: bytesOf n (v / 256)

/-- The number whose bytes, lowest first, are given. -/
def ofBytes : List Byte → Nat
  | [] => 0
  | b :: bs => b.toNat + 256 * ofBytes bs

/-- Byte i of a line. -/
def lineByte (l : Line) (i : Nat) : Byte := BitVec.ofNat 8 (l.toNat / 2 ^ (8 * i))

/-- The bit mask of a byte mask: eight ones for each byte named. -/
def spread (n : Nat) (mask : BitVec 64) : Nat :=
  (List.range n).foldl (fun acc i => if mask.getLsbD i then acc + 255 * 2 ^ (8 * i) else acc) 0

/-- A line with the bytes named in the mask taken from the second line. -/
def mergeLine (old new : Line) (mask : BitVec 64) : Line :=
  let m : Line := BitVec.ofNat 512 (spread 64 mask)
  (old &&& ~~~ m) ||| (new &&& m)

/-- The byte mask of n bytes from byte i on. -/
def byteMask (i n : Nat) : BitVec 64 := BitVec.ofNat 64 ((2 ^ n - 1) * 2 ^ i)

/-- A line that holds a number from byte i on. -/
def lineAt (i v : Nat) : Line := BitVec.ofNat 512 (v * 2 ^ (8 * i))

/-- The line that holds an address. -/
def lineOf (a : Nat) : Nat := a / 64 * 64

/-! ## Sparse tables: a list of key and value -/

/-- The value at a key, or the default. -/
def look {κ α : Type} [DecidableEq κ] (d : α) (k : κ) : List (κ × α) → α
  | [] => d
  | (k', v) :: l => if k' = k then v else look d k l

/-- The table with a value at a key. -/
def put {κ α : Type} [DecidableEq κ] (k : κ) (v : α) : List (κ × α) → List (κ × α)
  | [] => [(k, v)]
  | (k', v') :: l => if k' = k then (k, v) :: l else (k', v') :: put k v l

/-- Inserts a number into a strictly rising list. -/
def insertNat (n : Nat) : List Nat → List Nat
  | [] => [n]
  | m :: l => if n < m then n :: m :: l else if n = m then m :: l else m :: insertNat n l

/-- Replaces the first entry that satisfies a test. -/
def updateFirst {α : Type} (p : α → Bool) (f : α → α) : List α → List α
  | [] => []
  | x :: l => if p x then f x :: l else x :: updateFirst p f l

/-- Element i of a vector, or the default. -/
def at_ {α : Type} {n : Nat} (v : Vector α n) (i : Nat) (d : α) : α := v.toArray.getD i d

/-- A vector from a function of the index. -/
def gen (n : Nat) {α : Type} (f : Nat → α) : Vector α n := Vector.ofFn fun i => f i.val

/-- The exclusive or of a list of numbers' bits. -/
def xorAll : List Nat → Nat
  | [] => 0
  | x :: l => x ^^^ xorAll l

end Sys2Proof.Machine
end

