-- ==== Sys2Proof/Machine/Flags.lean ====
section
/-! DEFINITION. Floating-point formats, rounding and the flags of FPMODE (R170 to R185): every result is the exact mathematical
result, rounded once. Values are exact: a sign, a natural significand and a power of two. Quotients and roots carry a sticky mark
for what lies below the significand; the transcendental functions are bracketed by fixed-point bounds of rising precision until
both ends round alike. -/

namespace Sys2Proof.Machine

/-! ## Flags (R175): the bits of FPMODE they are -/

abbrev FFlags := BitVec 10

def fNV : FFlags := 0x20
def fDZ : FFlags := 0x40
def fOF : FFlags := 0x80
def fUF : FFlags := 0x100
def fNX : FFlags := 0x200

/-- How results round (R175): RM and SAT8. -/
structure Rounding where
  rm : BitVec 2
  sat8 : Bool
  deriving DecidableEq, Repr

/-- Round to nearest, ties to even. -/
def Rounding.rne : Rounding := ⟨0, false⟩

def roundingOf (fpmode : Word) : Rounding := ⟨fpmode.setWidth 2, flag fpmode 3⟩

/-! ## Formats (R171, R172) -/

/-- A format: exponent and fraction widths, and whether its all-ones exponent is E4M3's. -/
structure Fmt where
  eb : Nat
  mb : Nat
  e4 : Bool
  deriving DecidableEq, Repr

def Fmt.f32 : Fmt := ⟨8, 23, false⟩
def Fmt.f64 : Fmt := ⟨11, 52, false⟩
def Fmt.f16 : Fmt := ⟨5, 10, false⟩
def Fmt.bf16 : Fmt := ⟨8, 7, false⟩
def Fmt.e4m3 : Fmt := ⟨4, 3, true⟩
def Fmt.e5m2 : Fmt := ⟨5, 2, false⟩

def Fmt.bias (f : Fmt) : Nat := 2 ^ (f.eb - 1) - 1
def Fmt.width (f : Fmt) : Nat := f.eb + f.mb + 1
def Fmt.signBit (f : Fmt) : Nat := 2 ^ (f.eb + f.mb)

/-- The code of +∞ in a format that has one. -/
def Fmt.infCode (f : Fmt) : Nat := (2 ^ f.eb - 1) * 2 ^ f.mb

/-- The code of the largest finite value. -/
def Fmt.maxCode (f : Fmt) : Nat := if f.e4 then 0x7E else f.infCode - 1

/-- The canonical NaN. -/
def Fmt.nanCode (f : Fmt) : Nat := if f.e4 then 0x7F else f.infCode + 2 ^ (f.mb - 1)

/-- Results of the format are never infinite (R176). -/
def Fmt.saturates (f : Fmt) (r : Rounding) : Bool := f.e4 || (f == Fmt.e5m2 && r.sat8)

/-- The exponent of the smallest normal value. -/
def Fmt.emin (f : Fmt) : Int := 1 - (f.bias : Int)

/-- An exact value: NaN, an infinity, or (−1)^neg · m · 2^e. -/
inductive Fp where
  | nan | inf (neg : Bool) | fin (neg : Bool) (m : Nat) (e : Int)
  deriving DecidableEq, Repr

/-- The value of a code. -/
def Fmt.decode (f : Fmt) (code : Nat) : Fp :=
  let neg := code / f.signBit % 2 == 1
  let mag := code % f.signBit
  let e := mag / 2 ^ f.mb
  let m := mag % 2 ^ f.mb
  if f.e4 then
    if mag = 0x7F then .nan
    else if e = 0 then .fin neg m (f.emin - f.mb) else .fin neg (m + 2 ^ f.mb) ((e : Int) - f.bias - f.mb)
  else if e = 2 ^ f.eb - 1 then (if m = 0 then .inf neg else .nan)
  else if e = 0 then .fin neg m (f.emin - f.mb)
  else .fin neg (m + 2 ^ f.mb) ((e : Int) - f.bias - f.mb)

def Fmt.sign (f : Fmt) (neg : Bool) : Nat := if neg then f.signBit else 0

/-- The result ±∞ of an operation (R176). -/
def Fmt.deliverInf (f : Fmt) (r : Rounding) (neg : Bool) : Nat × FFlags :=
  if f.saturates r then (f.sign neg + f.maxCode, fOF) else (f.sign neg + f.infCode, 0)

/-! ## Rounding (R176) -/

/-- Whether a magnitude whose integer part is n is rounded up, where the part below is compared with a half: 0 none, 1 less, 2
equal, 3 more. -/
def roundUp (rm : BitVec 2) (neg : Bool) (n below : Nat) : Bool :=
  match rm with
  | 0 => below == 3 || (below == 2 && n % 2 == 1)
  | 1 => false
  | 2 => !neg && below != 0
  | _ => neg && below != 0

/-- Cuts (m + δ)·2^(-k), where 0 < δ < 1 when sticky: the integer part and how what is cut compares with a half. -/
def cut (m : Nat) (sticky : Bool) (k : Int) : Nat × Nat :=
  match k with
  | .ofNat 0 => (m, if sticky then 1 else 0)
  | .ofNat (k + 1) =>
    let r := m % 2 ^ (k + 1)
    let half := 2 ^ k
    (m / 2 ^ (k + 1), if r = 0 then (if sticky then 1 else 0)
                      else if r < half then 1
                      else if r = half then (if sticky then 3 else 2)
                      else 3)
  | .negSucc k => (m * 2 ^ (k + 1), if sticky then 1 else 0)

/-- The exponent of the leading bit. -/
def topExp (m : Nat) (e : Int) : Int := (Nat.log2 m : Int) + e

/-- Tiny after rounding: below the smallest normal value when rounded with an unbounded exponent. -/
def Fmt.tiny (f : Fmt) (rm : BitVec 2) (neg : Bool) (m : Nat) (e : Int) (sticky : Bool) : Bool :=
  let t := topExp m e
  if t ≥ f.emin then false
  else if t < f.emin - 1 then true
  else
    let c := cut m sticky (t - f.mb - e)
    let n := if roundUp rm neg c.1 c.2 then c.1 + 1 else c.1
    n < 2 ^ (f.mb + 1)

/-- Rounds (−1)^neg · (m + δ)·2^e to a format: the code and the flags OF, UF, NX. -/
def Fmt.round (f : Fmt) (r : Rounding) (neg : Bool) (m : Nat) (e : Int) (sticky : Bool) : Nat × FFlags :=
  if m = 0 ∧ ¬ sticky then (f.sign neg, 0)
  else
    let q := (if topExp m e < f.emin then f.emin else topExp m e) - f.mb
    let c := cut m sticky (q - e)
    let n := if roundUp r.rm neg c.1 c.2 then c.1 + 1 else c.1
    let nx : FFlags := if c.2 = 0 then 0 else fNX
    let uf : FFlags := if c.2 != 0 && f.tiny r.rm neg m e sticky then fUF else 0
    if n < 2 ^ f.mb then (f.sign neg + n, nx ||| uf)
    else
      let code := (q + f.mb + f.bias - 1).toNat * 2 ^ f.mb + n
      if code ≤ f.maxCode then (f.sign neg + code, nx ||| uf)
      else
        let toInf := match r.rm with
          | 0 => true
          | 1 => false
          | 2 => !neg
          | _ => neg
        ((if toInf then (f.deliverInf r neg).1 else f.sign neg + f.maxCode), fOF ||| fNX)

/-- Rounds an exact value. -/
def Fmt.encode (f : Fmt) (r : Rounding) : Fp → Nat × FFlags
  | .nan => (f.nanCode, 0)
  | .inf neg => f.deliverInf r neg
  | .fin neg m e => f.round r neg m e false

/-! ## Stochastic rounding (R177) -/

/-- One Galois step of a lane's state. -/
def lfsrStep (l : Word32) : Word32 := if l.getLsbD 0 then (l >>> 1) ^^^ 0x80200003 else l >>> 1

/-- The 32 steps of one use. -/
def lfsrUse (l : Word32) : Word32 := (List.range 32).foldl (fun l _ => lfsrStep l) l

/-- Rounds the integer part n of a magnitude stochastically, where the part below it is the fraction num / 2^k. -/
def srPick (n num k : Nat) (l : Word32) : Nat := if l.toNat < num * 2 ^ 32 / 2 ^ k then n + 1 else n

/-- Stochastic rounding of an exact value; the lane's state advances when the value is not representable. DESIGN CHOICE: R177 gives
tininess after rounding for RM alone; here a result is tiny when the delivered code is below the smallest normal (assumption 90). -/
def Fmt.encodeSr (f : Fmt) (r : Rounding) (x : Fp) (l : Word32) : Nat × FFlags × Word32 :=
  match x with
  | .nan => (f.nanCode, 0, l)
  | .inf neg => let d := f.deliverInf r neg; (d.1, d.2, l)
  | .fin neg m e =>
    if m = 0 then (f.sign neg, 0, l)
    else
      let q := (if topExp m e < f.emin then f.emin else topExp m e) - f.mb
      let c := cut m false (q - e)
      if c.2 = 0 ∧ (c.1 < 2 ^ f.mb ∨ (q + f.mb + f.bias - 1).toNat * 2 ^ f.mb + c.1 ≤ f.maxCode) then
        (f.sign neg + (if c.1 < 2 ^ f.mb then c.1 else (q + f.mb + f.bias - 1).toNat * 2 ^ f.mb + c.1), 0, l)
      else
        let l := lfsrUse l
        let k := (q - e).toNat
        let n := srPick c.1 (m % 2 ^ k) k l
        let code := fun n => if n < 2 ^ f.mb then n else (q + f.mb + f.bias - 1).toNat * 2 ^ f.mb + n
        let y := if code n ≤ f.maxCode then code n else Nat.min (code c.1) f.maxCode
        (f.sign neg + y, fNX ||| (if y < 2 ^ f.mb then fUF else 0), l)

/-! ## Exact operations -/

/-- A value as an integer times 2^e, for an e no greater than its own. -/
def scaled (neg : Bool) (m : Nat) (e e0 : Int) : Int :=
  let v : Int := (m * 2 ^ (e - e0).toNat : Nat)
  if neg then -v else v

/-- The exact sum of finite values; a zero sum takes the sign that R176 gives. -/
def addFin (r : Rounding) (n1 : Bool) (m1 : Nat) (e1 : Int) (n2 : Bool) (m2 : Nat) (e2 : Int) : Fp :=
  let e := if e1 ≤ e2 then e1 else e2
  let v := scaled n1 m1 e1 e + scaled n2 m2 e2 e
  if v = 0 then .fin (if m1 = 0 ∧ m2 = 0 ∧ n1 = n2 then n1 else r.rm == 3) 0 e
  else .fin (v < 0) v.natAbs e

/-- The exact sum, with NV for ∞ − ∞ (R179). -/
def Fp.add (r : Rounding) : Fp → Fp → Fp × FFlags
  | .nan, _ => (.nan, 0)
  | _, .nan => (.nan, 0)
  | .inf a, .inf b => if a = b then (.inf a, 0) else (.nan, fNV)
  | .inf a, .fin _ _ _ => (.inf a, 0)
  | .fin _ _ _, .inf b => (.inf b, 0)
  | .fin n1 m1 e1, .fin n2 m2 e2 => (addFin r n1 m1 e1 n2 m2 e2, 0)

def Fp.neg : Fp → Fp
  | .nan => .nan
  | .inf a => .inf (!a)
  | .fin n m e => .fin (!n) m e

/-- The exact product, with NV for 0 · ∞. -/
def Fp.mul : Fp → Fp → Fp × FFlags
  | .nan, _ => (.nan, 0)
  | _, .nan => (.nan, 0)
  | .inf a, .inf b => (.inf (a != b), 0)
  | .inf a, .fin n m _ => if m = 0 then (.nan, fNV) else (.inf (a != n), 0)
  | .fin n m _, .inf b => if m = 0 then (.nan, fNV) else (.inf (b != n), 0)
  | .fin n1 m1 e1, .fin n2 m2 e2 => (.fin (n1 != n2) (m1 * m2) (e1 + e2), 0)

def Fp.isNan : Fp → Bool
  | .nan => true
  | _ => false

def Fp.isNeg : Fp → Bool
  | .nan => false
  | .inf n => n
  | .fin n _ _ => n

/-- The order of values that are not NaN; −0 equals +0. -/
def Fp.lt : Fp → Fp → Bool
  | .nan, _ => false
  | _, .nan => false
  | .inf a, .inf b => a && !b
  | .inf a, .fin _ _ _ => a
  | .fin _ _ _, .inf b => !b
  | .fin n1 m1 e1, .fin n2 m2 e2 =>
    let e := if e1 ≤ e2 then e1 else e2
    scaled n1 m1 e1 e < scaled n2 m2 e2 e

def Fp.eq (a b : Fp) : Bool := !a.isNan && !b.isNan && !a.lt b && !b.lt a

/-- The key order of R269: NaN greatest, then by value, +0 above −0. -/
def Fmt.orderKey (f : Fmt) (code : Nat) : Int :=
  if (f.decode code).isNan then 2 ^ 64
  else if code < f.signBit then (code : Int) else -((code - f.signBit : Nat) : Int) - 1

/-- A value as an integer by rounding (R178): none when it is NaN or infinite; the flag says it was not an integer. -/
def Fp.toInt (r : Rounding) : Fp → Option (Int × Bool)
  | .fin neg m e =>
    let c := cut m false (-e)
    let n : Int := ((if roundUp r.rm neg c.1 c.2 then c.1 + 1 else c.1) : Nat)
    some (if neg then -n else n, c.2 != 0)
  | _ => none

/-- The conversion to an integer of w bits (R178): the code and the flags. -/
def Fp.toIntCode (r : Rounding) (w : Nat) (sgn : Bool) (x : Fp) : Nat × FFlags :=
  let lo : Int := if sgn then -(2 ^ (w - 1) : Nat) else 0
  let hi : Int := if sgn then (2 ^ (w - 1) : Nat) - 1 else (2 ^ w : Nat) - 1
  let code := fun (i : Int) => (i % (2 ^ w : Nat)).toNat
  match x with
  | .nan => (0, fNV)
  | .inf n => (code (if n then lo else hi), fNV)
  | .fin _ _ _ =>
    match x.toInt r with
    | none => (0, fNV)
    | some (i, nx) => if i < lo then (code lo, fNV) else if hi < i then (code hi, fNV) else (code i, if nx then fNX else 0)

/-- An integer as an exact value. -/
def Fp.ofInt (i : Int) : Fp := .fin (i < 0) i.natAbs 0

/-! ## Quotients and roots (R263) -/

/-- The quotient of magnitudes with a sticky mark and enough bits for any format. -/
def divMag (m1 : Nat) (e1 : Int) (m2 : Nat) (e2 : Int) : Nat × Int × Bool :=
  let k := 64 + Nat.log2 m2
  (m1 * 2 ^ k / m2, e1 - e2 - k, m1 * 2 ^ k % m2 != 0)

/-- Bits k-1 … 0 of the integer square root of n, given the bits above. -/
def sqrtBits (n : Nat) : Nat → Nat → Nat
  | 0, r => r
  | k + 1, r => sqrtBits n k (if (r + 2 ^ k) * (r + 2 ^ k) ≤ n then r + 2 ^ k else r)

/-- The integer square root. -/
def natSqrt (n : Nat) : Nat := sqrtBits n (Nat.log2 n / 2 + 1) 0

/-- The square root of a magnitude. -/
def sqrtMag (m : Nat) (e : Int) : Nat × Int × Bool :=
  let odd := e % 2 != 0
  let m := (if odd then 2 * m else m) * 2 ^ 128
  let e := (if odd then e - 1 else e) - 128
  let r := natSqrt m
  (r, e / 2, r * r != m)

/-- The reciprocal square root of a magnitude: ⌊√(2^2k / m)⌋. -/
def rsqMag (m : Nat) (e : Int) : Nat × Int × Bool :=
  let odd := e % 2 != 0
  let m := if odd then 2 * m else m
  let e := if odd then e - 1 else e
  let k := 64 + Nat.log2 m
  let r := natSqrt (2 ^ (2 * k) / m)
  (r, -(e / 2) - k, r * r * m != 2 ^ (2 * k))

def Fmt.rounded (f : Fmt) (r : Rounding) (neg : Bool) (x : Nat × Int × Bool) : Nat × FFlags := f.round r neg x.1 x.2.1 x.2.2

/-- `vdiv` on values (R263). -/
def Fmt.div (f : Fmt) (r : Rounding) : Fp → Fp → Nat × FFlags
  | .nan, _ => (f.nanCode, 0)
  | _, .nan => (f.nanCode, 0)
  | .inf _, .inf _ => (f.nanCode, fNV)
  | .inf a, .fin n _ _ => f.deliverInf r (a != n)
  | .fin n _ _, .inf b => (f.sign (n != b), 0)
  | .fin n1 m1 e1, .fin n2 m2 e2 =>
    if m2 = 0 then
      if m1 = 0 then (f.nanCode, fNV) else let d := f.deliverInf r (n1 != n2); (d.1, d.2 ||| fDZ)
    else if m1 = 0 then (f.sign (n1 != n2), 0)
    else f.rounded r (n1 != n2) (divMag m1 e1 m2 e2)

def Fmt.rcp (f : Fmt) (r : Rounding) (x : Fp) : Nat × FFlags := f.div r (.fin false 1 0) x

def Fmt.sqrt (f : Fmt) (r : Rounding) : Fp → Nat × FFlags
  | .nan => (f.nanCode, 0)
  | .inf neg => if neg then (f.nanCode, fNV) else f.deliverInf r false
  | .fin neg m e =>
    if m = 0 then (f.sign neg, 0) else if neg then (f.nanCode, fNV) else f.rounded r false (sqrtMag m e)

def Fmt.rsq (f : Fmt) (r : Rounding) : Fp → Nat × FFlags
  | .nan => (f.nanCode, 0)
  | .inf neg => if neg then (f.nanCode, fNV) else (0, 0)
  | .fin neg m e =>
    if m = 0 then let d := f.deliverInf r neg; (d.1, d.2 ||| fDZ)
    else if neg then (f.nanCode, fNV)
    else f.rounded r false (rsqMag m e)

/-! ## Transcendental functions (R263): bounds in fixed point with n fraction bits -/

/-- ⌊ln 2 · 2^n⌋ less at most 2n units: Σ 1/(k·2^k). -/
def ln2Fix (n : Nat) : Nat := (List.range n).foldl (fun acc k => acc + 2 ^ n / ((k + 1) * 2 ^ (k + 1))) 0

/-- Σ of the Taylor terms of e^y for a fixed-point y below 1, each cut down: `k` terms left, `i` the next index, `t` the term. -/
def expTerms (n y : Nat) : Nat → Nat → Nat → Nat
  | 0, _, _ => 0
  | k + 1, i, t => t + expTerms n y k (i + 1) (t * y / 2 ^ n / (i + 1))

/-- What the bounds allow for all that is cut away: more units than the terms can lose. -/
def slack (n : Nat) : Nat := 2 ^ 16 * n

/-- A bound from below, in fixed point, of 2^t for 0 ≤ t < 1; the value lies less than `slack n` units above it. -/
def exp2Frac (n t : Nat) : Nat := expTerms n (t * ln2Fix n / 2 ^ n) n 0 (2 ^ n)

/-- Terms Σ w^(2i+1)/(2i+1) of the inverse hyperbolic tangent. -/
def atanhTerms (n w2 : Nat) : Nat → Nat → Nat → Nat
  | 0, _, _ => 0
  | k + 1, i, t => t / (2 * i + 1) + atanhTerms n w2 k (i + 1) (t * w2 / 2 ^ n)

/-- A bound from below of log2 z for 1 ≤ z < 2, z = m / 2^b. -/
def log2Frac (n m b : Nat) : Nat :=
  let w := (m - 2 ^ b) * 2 ^ n / (m + 2 ^ b)
  2 * atanhTerms n (w * w / 2 ^ n) n 0 w * 2 ^ n / (ln2Fix n + 2 * n)

/-- A fixed-point bound from below, in n fraction bits, of a positive value, less than 2·slack units from it; `e` is the power of
two it is scaled by. -/
structure Bound where
  lo : Nat
  e : Int

/-- The rounded value between the bounds once both ends round alike; precision doubles until they do. -/
def settleBound (f : Fmt) (r : Rounding) (neg : Bool) (b : Nat → Bound) : List Nat → Nat × FFlags
  | [] => (0, 0)
  | n :: ns =>
    let x := b n
    let lo := f.round r neg x.lo x.e true
    let hi := f.round r neg (x.lo + 2 * slack n) x.e true
    if (lo == hi && x.lo != 0) || ns.isEmpty then lo else settleBound f r neg b ns

/-- The precisions tried. -/
def precisions : List Nat := [128, 256, 512, 1024]

/-- 2^t for a rational t = m·2^e: the integer part and the fraction in n bits. -/
def splitExp (neg : Bool) (m : Nat) (e : Int) (n : Nat) : Int × Nat :=
  let v := scaled neg m (e + n) 0
  let v := if e + n < 0 then (if neg then -((m : Int) / 2 ^ (-(e + n)).toNat) - 1 else (m : Int) / 2 ^ (-(e + n)).toNat) else v
  (v / 2 ^ n, (v % 2 ^ n).toNat)

/-- `vexp2`. -/
def Fmt.exp2 (f : Fmt) (r : Rounding) : Fp → Nat × FFlags
  | .nan => (f.nanCode, 0)
  | .inf neg => if neg then (0, 0) else f.deliverInf r false
  | .fin neg m e =>
    if m = 0 then f.round r false 1 0 false
    else if topExp m e ≥ 10 then (if neg then f.round r false 1 (-1000) true else f.round r false 1 1000 true)
    else
      let s := splitExp neg m e 256
      if s.2 = 0 ∧ e ≥ -256 then f.round r false 1 s.1 false
      else settleBound f r false (fun n => let s := splitExp neg m e n; ⟨exp2Frac n s.2 - slack n, s.1 - n⟩) precisions

/-- `vlog2`. -/
def Fmt.log2 (f : Fmt) (r : Rounding) : Fp → Nat × FFlags
  | .nan => (f.nanCode, 0)
  | .inf neg => if neg then (f.nanCode, fNV) else f.deliverInf r false
  | .fin neg m e =>
    if m = 0 then let d := f.deliverInf r true; (d.1, d.2 ||| fDZ)
    else if neg then (f.nanCode, fNV)
    else
      let b := Nat.log2 m
      let t := topExp m e
      if m = 2 ^ b then f.encode r (Fp.ofInt t)
      else if t ≥ 0 then
        settleBound f r false (fun n => ⟨t.toNat * 2 ^ n + log2Frac n m b - slack n, -n⟩) precisions
      else
        settleBound f r true (fun n => ⟨t.natAbs * 2 ^ n - log2Frac n m b - slack n, -n⟩) precisions

/-- e^(−m·2^e) in fixed point of n bits, within `slack n` units. -/
def expNeg (m : Nat) (e : Int) (n : Nat) : Nat :=
  let t := m * 2 ^ (e + 2 * n).toNat / (ln2Fix n)
  exp2Frac n (2 ^ n - 1 - t % 2 ^ n) / 2 ^ (t / 2 ^ n + 1)

/-- `vtanh`. -/
def Fmt.tanh (f : Fmt) (r : Rounding) : Fp → Nat × FFlags
  | .nan => (f.nanCode, 0)
  | .inf neg => f.round r neg 1 0 false
  | .fin neg m e =>
    if m = 0 then (f.sign neg, 0)
    else if topExp m e ≥ 7 then f.round r neg (2 ^ 100 - 1) (-100) true
    else
      settleBound f r neg (fun n =>
        let u := expNeg m (e + 1) n
        ⟨(2 ^ n - u) * 2 ^ n / (2 ^ n + u) - slack n, -n⟩) precisions

/-- `vsig`. -/
def Fmt.sig (f : Fmt) (r : Rounding) : Fp → Nat × FFlags
  | .nan => (f.nanCode, 0)
  | .inf neg => if neg then (0, 0) else f.round r false 1 0 false
  | .fin neg m e =>
    if m = 0 then f.round r false 1 (-1) false
    else if topExp m e ≥ 8 then
      (if neg then f.round r false 1 (-300) true else f.round r false (2 ^ 100 - 1) (-100) true)
    else
      settleBound f r false (fun n =>
        let u := expNeg m e n
        ⟨(if neg then u else 2 ^ n) * 2 ^ n / (2 ^ n + u) - slack n, -n⟩) precisions

/-! ## Packed elements of a lane (R174) -/

/-- Element k of width w. -/
def laneElem (w k : Nat) (x : Word32) : Nat := x.toNat / 2 ^ (w * k) % 2 ^ w

/-- A lane from its elements, lowest first. -/
def laneOf (w : Nat) : List Nat → Nat
  | [] => 0
  | v :: vs => v % 2 ^ w + 2 ^ w * laneOf w vs

/-- An element as a signed number. -/
def elemSigned (w v : Nat) : Int := signed w v

def FTy.fmt : FTy → Fmt
  | .f32 => Fmt.f32
  | .bf16 => Fmt.bf16
  | .f16 => Fmt.f16
  | .e4m3 => Fmt.e4m3
  | .e5m2 => Fmt.e5m2

def FTy.width (t : FTy) : Nat := (FTy.fmt t).width

def ITy.width : ITy → Nat
  | .i32 => 32
  | .i16 => 16
  | .i8 => 8
  | .u8 => 8

/-- The u8×4 code makes an operation that is signed by name unsigned (R265). -/
def ITy.isSigned : ITy → Bool
  | .u8 => false
  | _ => true

def XTy.width : XTy → Nat
  | .f32 => 32
  | .bf16 => 16
  | .f16 => 16
  | .e4m3 => 8
  | .i32 => 32
  | .i16 => 16
  | .i8 => 8
  | .u8 => 8

def XTy.fmt : XTy → Option Fmt
  | .f32 => some Fmt.f32
  | .bf16 => some Fmt.bf16
  | .f16 => some Fmt.f16
  | .e4m3 => some Fmt.e4m3
  | _ => none

def XTy.isSigned : XTy → Bool
  | .u8 => false
  | _ => true

end Sys2Proof.Machine
end

