-- ==== Sys2Proof/Machine/Mem.lean ====
section
/-! DEFINITION. The memory of the device: its map (R12), the stored bytes, inline encryption (R36) and poison (R48, R49). An
address here is a local address. A byte nothing has written is stored as zero (assumption 1). -/

namespace Sys2Proof.Machine

/-! ## The local map (R12) -/

/-- What a local address names. Offsets count from the start of the store. -/
inductive Region where
  | hbm | die (d off : Nat) | cluster (n off : Nat) | unit (g off : Nat) | sys | hole
  deriving DecidableEq, Repr

/-- The core numbers 0-83 of a cluster are M-cores, 84-95 S-cores (R2). -/
def isMCore (g : Nat) : Bool := g % 96 < 84

/-- The size of a unit store (R12). -/
def unitSize (g : Nat) : Nat := if isMCore g then 2 ^ 21 else 2 ^ 22

/-- First byte of the system-register range. -/
def sysBase : Nat := 0x3F000000000

/-- The region of a local address (R12, R443). -/
def regionOf (a : Nat) : Region :=
  if a < 2 ^ 40 then .hbm
  else if a < 2 * 2 ^ 40 then
    let d := (a - 2 ^ 40) / 2 ^ 32
    let off := (a - 2 ^ 40) % 2 ^ 32
    if d < 24 ∧ off < 2 ^ 30 then .die d off else .hole
  else if a < 3 * 2 ^ 40 then
    let n := (a - 2 * 2 ^ 40) / 2 ^ 30
    let off := (a - 2 * 2 ^ 40) % 2 ^ 30
    if n < 48 ∧ off < 192 * 2 ^ 20 then .cluster n off else .hole
  else if a < sysBase then
    let g := (a - 3 * 2 ^ 40) / 2 ^ 23
    let off := (a - 3 * 2 ^ 40) % 2 ^ 23
    if g < 4608 ∧ off < unitSize g then .unit g off else .hole
  else if a < 2 ^ 42 then .sys
  else .hole

/-- The windows of R12. -/
def dieStore (d : Nat) : Nat := 2 ^ 40 + d * 2 ^ 32
def clusterStore (n : Nat) : Nat := 2 * 2 ^ 40 + n * 2 ^ 30
def unitStore (g : Nat) : Nat := 3 * 2 ^ 40 + g * 2 ^ 23

/-- The HBM stack of a local address (R52). -/
def stackOf (a : Nat) : Nat := (a / 2 ^ 12 % 16) ^^^ (a / 2 ^ 16 % 16)

/-- The die an HBM stack sits on (R52): the edge dies in ascending order. -/
def dieOfStack (s : Nat) : Nat :=
  if s ≤ 6 then s else if s = 7 then 11 else if s = 8 then 12 else if s = 9 then 17 else s + 8

/-- The die at which errors of an address are counted (R51). -/
def errorDie (a : Nat) : Nat :=
  match regionOf a with
  | .hbm => dieOfStack (stackOf a)
  | .die d _ => d
  | .cluster n _ => n / 2
  | .unit g _ => g / 192
  | _ => 0

/-! ## Stored bytes -/

namespace Cells

/-- What a listed address holds; an unlisted one holds zero. -/
def get (a : Nat) : List Host.Cell → Byte
  | [] => 0
  | (k, v) :: l => if k = a then v else if a < k then 0 else get a l

/-- Writes a byte and keeps the canonical form: addresses strictly rising, no zero byte listed. -/
def set (a : Nat) (b : Byte) : List Host.Cell → List Host.Cell
  | [] => if b = 0 then [] else [(a, b)]
  | (k, v) :: l =>
    if a < k then (if b = 0 then (k, v) :: l else (a, b) :: (k, v) :: l)
    else if k = a then (if b = 0 then l else (a, b) :: l)
    else (k, v) :: set a b l

/-- Writes bytes from an address on. -/
def setAll : Nat → List Byte → List Host.Cell → List Host.Cell
  | _, [], l => l
  | a, b :: bs, l => setAll (a + 1) bs (set a b l)

end Cells

/-- The canonical form: addresses strictly rising and no zero byte listed. -/
def Cells.wf : List Host.Cell → Bool
  | [] => true
  | [(_, v)] => v != 0
  | (k, v) :: (k', v') :: l => v != 0 && k < k' && Cells.wf ((k', v') :: l)

/-- Memory is in canonical form. -/
def Memory.wf (m : Memory) : Bool := Cells.wf m.cells

/-- The 64 stored bytes of a line. -/
def Memory.stored (m : Memory) (line : Nat) : Line :=
  BitVec.ofNat 512 (ofBytes ((List.range 64).map fun i => Cells.get (line + i) m.cells))

/-- Writes the stored bytes of a line that a mask names. -/
def Memory.setStored (m : Memory) (line : Nat) (mask : BitVec 64) (new : Line) : Memory :=
  { m with cells := (List.range 64).foldl (fun cs i =>
             if mask.getLsbD i then Cells.set (line + i) (lineByte new i) cs else cs) m.cells }

/-! ## Encryption (R36, R37) -/

/-- The material in a key slot; slot 0 holds the boot key. None is an unloaded slot. -/
def State.key (s : State) (k : Nat) : Option (BitVec 512) :=
  match s.mgmt.keys.find? (·.1 == k) with
  | some e => some e.2
  | none => none

/-- The XTS data unit of an address is its line, the tweak its address divided by 64. Only HBM is encrypted. An unloaded slot
passes the stored bytes: no access reaches it, since the checks of R37 come first. -/
def State.decrypt (s : State) (k line : Nat) (x : Line) : Line :=
  if line < 2 ^ 40 then
    match s.key k with
    | some m => (Config.cipher m (line / 64)).symm x
    | none => x
  else x

def State.encrypt (s : State) (k line : Nat) (x : Line) : Line :=
  if line < 2 ^ 40 then
    match s.key k with
    | some m => Config.cipher m (line / 64) x
    | none => x
  else x

/-- The plain bytes of a line through a key slot. -/
def State.readLine (s : State) (k line : Nat) : Line := s.decrypt k line (s.mem.stored line)

/-- The bytes of a line after a write of the masked bytes through a key slot: in HBM the whole data unit is stored again. -/
def State.writtenLine (s : State) (k line : Nat) (mask : BitVec 64) (new : Line) : Line :=
  s.encrypt k line (mergeLine (s.readLine k line) new mask)

/-- The byte mask that a write stores: the whole line in HBM, the masked bytes elsewhere. -/
def storedMask (line : Nat) (mask : BitVec 64) : BitVec 64 :=
  if line < 2 ^ 40 then (if mask = 0 then 0 else BitVec.allOnes 64) else mask

/-! ## Poison (R48, R49) -/

/-- The bytes of a unit of error correction: an HBM line, or a 64-bit scratchpad word. -/
def eccUnit (a : Nat) : Nat := if a < 2 ^ 40 then 64 else 8

/-- The first address of the unit that holds an address. -/
def unitOf (a : Nat) : Nat := a / eccUnit a * eccUnit a

/-- The bytes of a line that its poisoned units cover. -/
def State.poisonMask (s : State) (line : Nat) : BitVec 64 :=
  BitVec.ofNat 64 ((List.range 64).foldl
    (fun acc i => if s.mem.poison.contains (unitOf (line + i)) then acc + 2 ^ i else acc) 0)

/-- The mask of the whole unit that a byte of a line lies in. -/
def unitMask (line i : Nat) : BitVec 64 :=
  if line < 2 ^ 40 then BitVec.allOnes 64 else byteMask (i / 8 * 8) 8

/-- A unit stays poisoned until a write covers all of its bytes (R49). -/
def clearedPoison (line : Nat) (mask : BitVec 64) (ps : List Nat) : List Nat :=
  ps.filter fun u => !(u / 64 * 64 == line && (unitMask line (u % 64) &&& ~~~ mask == 0))

/-- Marks the units of the masked bytes of a line poisoned. -/
def markPoison (line : Nat) (mask : BitVec 64) (ps : List Nat) : List Nat :=
  (List.range 64).foldl (fun ps i => if mask.getLsbD i then insertNat (unitOf (line + i)) ps else ps) ps

end Sys2Proof.Machine
end

