-- ==== Sys2Proof/Machine/Ops.lean ====
section
/-! DEFINITION. The named operations every instruction is written with: which context, core, cluster and die; registers, the
result queue and writes in flight; blocking; interrupts and events; taking a fault (R409) and what can come of it (R411, R413);
returning from one (R230). -/

namespace Sys2Proof.Machine

/-! ## Contexts, cores, clusters, dies -/

/-- Context c (CTXID 4·g + k, R160). -/
def State.ctx (s : State) (c : Nat) : Ctx := if c = s.cid then s.cx else look Ctx.reset c s.ctxs

def State.setCtx (s : State) (c : Nat) (x : Ctx) : State :=
  if c = s.cid then { s with cx := x } else { s with ctxs := put c x s.ctxs }

def State.modCtx (s : State) (c : Nat) (f : Ctx → Ctx) : State := s.setCtx c (f (s.ctx c))

/-- The global core number of the current context. -/
def State.gcore (s : State) : Nat := s.cid / 4

/-- Core g of the device. -/
def State.coreAt (s : State) (g : Nat) : Core := if g = s.gcore then s.core else look Core.reset g s.cores

def State.setCore (s : State) (g : Nat) (x : Core) : State :=
  if g = s.gcore then { s with core := x } else { s with cores := put g x s.cores }

def State.modCore (s : State) (g : Nat) (f : Core → Core) : State := s.setCore g (f (s.coreAt g))

/-- The cores that are DEAD (R360). -/
def State.deadCores (s : State) : List Nat := (List.range 4608).filter fun g => flag (s.coreAt g).slotmap 0

/-- Makes context c the current one: the one left is put back into the tables. -/
def State.focus (s : State) (c : Nat) : State :=
  if c = s.cid then s
  else
    let ctxs := put s.cid s.cx s.ctxs
    let cores := put s.gcore s.core s.cores
    { s with cid := c, cx := look Ctx.reset c ctxs, core := look Core.reset (c / 4) cores, ctxs := ctxs, cores := cores }

/-- Runs an operation on context c and comes back. -/
def State.inCtx (s : State) (c : Nat) (f : State → State) : State := (f (s.focus c)).focus s.cid

/-- The contexts that the state lists. -/
def State.knownCtxs (s : State) : List Nat := s.ctxs.foldl (fun l (e : Nat × Ctx) => insertNat e.1 l) [s.cid]

def State.clusterAt (s : State) (n : Nat) : Cluster := look Cluster.reset n s.clusters

def State.modCluster (s : State) (n : Nat) (f : Cluster → Cluster) : State :=
  { s with clusters := put n (f (s.clusterAt n)) s.clusters }

def State.dieAt (s : State) (d : Nat) : Die := look Die.reset d s.dies

def State.modDie (s : State) (d : Nat) (f : Die → Die) : State := { s with dies := put d (f (s.dieAt d)) s.dies }

/-- The cluster and die of a context. -/
def clusterOf (c : Nat) : Nat := c / 384
def dieOf (c : Nat) : Nat := c / 768

def State.modMx (s : State) (g : Nat) (f : Matrix → Matrix) : State := s.modCore g fun k => { k with mx := f k.mx }

/-- The current context's privilege (R250). -/
def State.system (s : State) : Bool := flag s.cx.estat 0

/-- The pod number of the device (R423). -/
def State.device (s : State) : Nat := s.mgmt.devnum.toNat

def State.modRegs (s : State) (f : Regs → Regs) : State := { s with cx := { s.cx with regs := f s.cx.regs } }

/-- The device time base (R251, R385). The model counts time in units of 1/378 ns, in which a cycle is 360, 315 or 280 units. -/
def State.base (s : State) : Nat := (s.tick + s.steer).toNat

/-- Device time base in ns (R251). -/
def State.now (s : State) : Nat := s.base / 378

/-- Queues an event to happen. -/
def State.enqueue (s : State) (e : Event) : State := { s with agenda := s.agenda ++ [e] }

def State.enqueueAll (s : State) (es : List Event) : State := { s with agenda := s.agenda ++ es }

def State.send (s : State) (m : OutMsg) : State := { s with outbox := s.outbox ++ [m] }

/-- A fresh number for an operation. -/
def State.fresh (s : State) : Nat × State := (s.nextId, { s with nextId := s.nextId + 1 })

/-- The next free value of the machine (assumption 9). -/
def State.freeValue (s : State) : Word × State := (Config.freeWord s.freeCount, { s with freeCount := s.freeCount + 1 })

/-! ## Events of a cluster (R228) -/

/-- A context waits on no counter any more. -/
def State.dropWaits (s : State) (c : Nat) : State :=
  let n := clusterOf c
  if (s.clusterAt n).waiters.any (·.2 == c) then s.modCluster n fun k => { k with waiters := k.waiters.filter (·.2 != c) } else s

/-- Increments event counter e of cluster n; a counter at 65,535 stays. The first waiter is tried again. -/
def State.signal (s : State) (n e : Nat) : State :=
  let cl := s.clusterAt n
  let v := look 0 e cl.events
  let s := s.modCluster n fun k => { k with events := put e (if v = 65535 then v else v + 1) k.events }
  match cl.waiters.find? (·.1 == e) with
  | some w => s.enqueue (.blockCleared w.2)
  | none => s

/-- VACATE's STATE is neither IDLE nor ERROR. -/
def State.vacating (s : State) : Bool := field s.mgmt.vacate 60 3 != 0 && field s.mgmt.vacate 60 3 != 7

/-! ## Bays (R379) -/

/-- Which part of the device takes the flits of a kind out of their bays: the receive engine the message flits, the home the remote
accesses and the deltas, the sender the replies and the acknowledgements. -/
def flitClass (k : BitVec 4) : Nat :=
  match k.toNat with
  | 4 => 1
  | 5 => 2
  | 6 => 3
  | 7 => 4
  | _ => 0

/-- The class of a flit after one of class `prev`: a poisoned one is of the packet before it (R49, R376). -/
def classAfter (prev : Nat) (k : BitVec 4) : Nat := if k = 0xE then prev else flitClass k

/-- Takes up to n flits of a class out of bays: how many it lacks, and what stays. -/
def dropClass (cls prev : Nat) : Nat → List (BitVec 4 × BitVec 128) → Nat × List (BitVec 4 × BitVec 128)
  | n, [] => (n, [])
  | 0, l => (0, l)
  | n + 1, b :: l =>
    if classAfter prev b.1 = cls then dropClass cls cls n l
    else
      let (k, r) := dropClass cls (classAfter prev b.1) (n + 1) l
      (k, b :: r)

/-- Data flits of a remote access: one that carries operands or bytes has a line of them (assumption 95). -/
def requestFlits : RemoteKind → Nat
  | .load => 0
  | .rebuild => 0
  | .fx .rd _ => 0
  | _ => 4

/-- The number of a plane, peer and class among `passes`; plane 32 is any. -/
def passKey (plane : Nat) (peer : Fin 64) (cls : Nat) : Nat := (plane * 64 + peer.val) * 8 + cls

/-- Takes up to n flits of a class out of the bays of links, which are freed: how many it lacks, and the links. -/
def takeBays (p : Link → Bool) (cls n : Nat) (links : List Link) : Nat × List Link :=
  links.foldl (fun acc (x : Link) =>
    if p x then
      let (k, bays) := dropClass cls 0 acc.1 x.bays
      (k, acc.2 ++ [{ x with bays := bays, freed := x.freed + BitVec.ofNat 32 (acc.1 - k) }])
    else (acc.1, acc.2 ++ [x])) (n, [])

/-- Flits that are still to come over a link, or from a peer, leave their bays when they come. -/
def Fabric.pass (f : Fabric) (links : List Link) (key k : Nat) : Fabric :=
  { f with links := links, passes := if k = 0 then f.passes else put key (look 0 key f.passes + k) f.passes }

/-- The bytes of n flits of a class from a device are landed, laid by, applied or handed on: their bays are freed, on the device's own
links and then on those of relays. -/
def State.freeFlits (s : State) (peer : Fin 64) (cls n : Nat) : State :=
  if s.fab.links.isEmpty then s
  else
    let (k, links) := takeBays (·.peer == peer) cls n s.fab.links
    let (k, links) := takeBays (·.peer != peer) cls k links
    { s with fab := s.fab.pass links (passKey 32 peer cls) k }

/-- The bays of n flits of a message are freed, on the link that has brought them. -/
def State.freeMessage (s : State) (plane : Nat) (peer : Fin 64) (n : Nat) : State :=
  if s.fab.links.isEmpty then s
  else
    let (k, links) := takeBays (fun x => x.plane == plane && x.peer == peer) 0 n s.fab.links
    { s with fab := s.fab.pass links (passKey plane peer 0) k }

/-! ## Interrupts (R416, R417) -/

/-- Sets INTSTAT bit k. When it goes from 0 to 1 the service counter and the host vector are driven. -/
def State.interrupt (s : State) (k : Nat) : State :=
  if flag s.mgmt.intstat k then s
  else
    let s := { s with mgmt := { s.mgmt with intstat := setFlag s.mgmt.intstat k true } }
    let s := if flag s.mgmt.intctl (32 + k) then s.signal (field s.mgmt.intctl 16 6) 63 else s
    if flag s.mgmt.intctl k then s.send (.msix k) else s

/-! ## Time -/

/-- The length of a cycle at the cluster's frequency level (R398), in 1/378 ns. -/
def Cluster.unit (k : Cluster) : Nat :=
  match field k.boostlvl 6 2 with
  | 0 => 360
  | 1 => 315
  | _ => 280

/-- The count of the cluster's clock at time t: it stops while the clock stops (R251). -/
def Cluster.cycleAt (k : Cluster) (t : Nat) : Nat := k.base + (if k.stopped || k.gated then 0 else (t - k.since) / k.unit)

/-- The time at which a cycle begins. -/
def Cluster.tickOf (k : Cluster) (c : Nat) : Nat :=
  if c < k.base then k.since - (k.base - c) * k.past else k.since + (c - k.base) * k.unit

/-- The clock changes its pace at time t. -/
def Cluster.rebase (k : Cluster) (t : Nat) : Cluster :=
  { k with base := k.cycleAt t, since := Nat.max t k.since, past := k.unit }

/-- The time at which cycle c of the cluster of core g begins. -/
def State.tickOf (s : State) (g c : Nat) : Nat := (s.clusterAt (g / 96)).tickOf c

/-- The multiples of n ns that the time base passes on its way from b to the present. -/
def State.passed (s : State) (b n : Nat) : Nat := s.base / (n * 378) - b / (n * 378)

/-- The time base has moved on from b: the toll boundaries (R398) and rotor slots (R2) on the way come due. -/
def State.movedFrom (s : State) (b : Nat) : State :=
  let slots := if flag s.fab.fabctl 0 then s.passed b 128 else 0
  s.enqueueAll (List.replicate (s.passed b 4000) .tollBoundary ++ List.replicate slots .rotorSlotBoundary)

/-- Raises the device's time to t. The time base goes on with it, but for what it has to be held back (R385). -/
def State.reachTime (s : State) (t : Nat) : State :=
  if t ≤ s.tick then s
  else
    let pay := Nat.min s.owed (t - s.tick)
    { s with tick := t, steer := s.steer - (pay : Int), owed := s.owed - pay }.movedFrom s.base

/-- The time at which the time base reaches b. -/
def State.whenBase (s : State) (b : Nat) : Nat := s.tick + (b - s.base) + s.owed

/-- What cluster n draws until now is a free value, added to CLENERGY (R405, assumption 17). -/
def State.drawEnergy (s : State) (n : Nat) : State :=
  let d := (Config.energyDrawn s.freeCount).setWidth 64
  { s.modCluster n (fun k => { k with energy := k.energy + d }) with freeCount := s.freeCount + 1 }

/-- Lets k cycles of the current core pass. -/
def State.passCycles (s : State) (k : Nat) : State :=
  let t := Nat.max s.core.tick (s.tickOf s.gcore (s.core.cycle + k))
  let s := { s with core := { s.core with cycle := s.core.cycle + k, tick := t } }
  (s.reachTime t).drawEnergy (clusterOf s.cid)

/-! ## Energy accounting (R406) -/

/-- What core k has to charge for its RUNNING context up to now: CLENERGY − SAMPLE + REM. -/
def State.accrued (s : State) (g : Nat) : Nat :=
  ((s.clusterAt (g / 96)).energy - (s.coreAt g).sample).toNat + (s.coreAt g).rem

/-- Context c stops being RUNNING: it is charged its share of the energy, and the next context of the core issues two cycles after its last
fixed-latency write has landed (R358). -/
def State.stopRunning (s : State) (c : Nat) : State :=
  let g := c / 4
  if (s.coreAt g).running = some (Fin.ofNat 4 c) then
    let d := s.accrued g
    let e := (s.clusterAt (g / 96)).energy
    let x := s.ctx c
    let landed := (x.inflight ++ x.fresh).foldl (fun m f => Nat.max m (f.land.getD 0)) x.lastLand
    let idle := (List.range 4).all fun k => (s.ctx (4 * g + k)).status != .ready
    let s := s.modCtx c fun x => { x with energy := x.energy + BitVec.ofNat 64 (d / 96) }
    s.modCore g fun k => { k with
      rem := d % 96, sample := e, running := none, lastRun := Fin.ofNat 4 c, readyAt := Nat.max k.cycle landed + 2, idle := idle }
  else s

/-! ## Registers (R190 to R193) -/

def State.readS (s : State) (i : Fin 16) : Word := s.cx.regs.s[i]

/-- `qk` reads QR[(QP − 1 − k) mod 16] with QP as it stood before the bundle (R192). -/
def State.qIndex (s : State) (k : Nat) : Fin 16 := Fin.ofNat 16 (s.issue.qp.toNat + 31 - k)

def State.readQ (s : State) (k : Fin 16) : Word := s.cx.regs.qr[s.qIndex k.val]

def State.readSrc (s : State) : Src → Word
  | .s i => s.readS i
  | .q k => s.readQ k

/-- p0 reads 1 and p1 reads 0 (R190). -/
def State.readP (s : State) (i : Fin 16) : Bool :=
  if i = 0 then true else if i = 1 then false else s.cx.regs.p.getLsbD i.val

/-- m0 reads all ones and m1 reads zero (R190). -/
def State.readM (s : State) (i : Fin 8) : Word := if i = 0 then BitVec.allOnes 64 else if i = 1 then 0 else s.cx.regs.m[i]

def State.readV (s : State) (i : Fin 16) : VReg := s.cx.regs.v[i]

def State.readH (s : State) (i : Fin 16) : Handle := s.cx.regs.h[i]

def State.readA (s : State) (i : Fin 8) : Word := s.cx.regs.a[i]

/-! ## What the power governor imposes (R402 to R404) -/

/-- STEP of PWRSTAT (R403). -/
def State.throttle (s : State) : Nat := field s.pwr.pwrstat 47 3

/-- GMASK of core g (R360): V and C masked by STEP, V on the heavier layer of a series pair out of balance. -/
def State.gmask (s : State) (g : Nat) : Nat :=
  let b := (s.dieAt (g / 192)).balance
  let v := 3 ≤ s.throttle || (flag b 6 && g / 96 % 2 != field b 5 1)
  8 * v.toNat + 2 * (4 ≤ s.throttle : Bool).toNat

/-- GOV of core g (R298): a die at TH or hotter, or STEP 5. -/
def State.govAt (s : State) (g : Nat) : Bool := isMCore g && (2 ≤ (s.dieAt (g / 192)).thermal || s.throttle == 5)

/-! ## System registers that are context state (R249) -/

/-- Sets FPMODE flags and counts format warnings, both sticky (R175, R185). -/
def raiseFlags (fpmode : Word) (bits : BitVec 10) (warnings : Nat) : Word :=
  setField (fpmode ||| bits.setWidth 64 &&& 0x3E0#64) 16 16 (satAdd 16 (field fpmode 16 16) warnings)

/-- The new value of FPMODE (R175): FMTW, SAT8, SR and RM are written, the flags are cleared by ones. -/
def writeFpmode (old v : Word) : Word :=
  fieldsWord [(16, 16, field v 16 16), (5, 5, field (old &&& ~~~ v) 5 5), (0, 4, field v 0 4)]

/-- The new value of SLOTMAP (R360): a write with DEAD = 1 is stored; one with DEAD = 0 is ignored when its map is not one of
surviving instances. -/
def slotmapLegal (v : Word) : Bool :=
  let lg := (List.range 4).map fun k => field v (36 + 3 * k) 3
  let run := lg.takeWhile (· != 7)
  let rest := lg.dropWhile (· != 7)
  let lgok := run.all fun x => x < 5 && flag v (31 + x)
  let aluok := fun u => u < 3 && flag v (28 + u)
  !run.isEmpty && run.Nodup && rest.all (· == 7) && lgok && aluok (field v 26 2) && aluok (field v 24 2)
    && field v 22 2 != 0

/-- GMASK is read-only and follows the governor; the other fields are taken whole or not at all. -/
def writeSlotmap (old v : Word) : Word :=
  let new := v &&& (ones 22 26 ||| 1)
  if flag v 0 || slotmapLegal v then new else old

/-- PERMITS (R399): ignored whole when CAP > 64 or COUNT > CAP. -/
def permitsLegal (v : Word) : Bool := field v 8 7 ≤ 64 && field v 0 7 ≤ field v 8 7

/-- Lands a write to a system register of the current context or core. -/
def State.writeSys (s : State) (n : SysReg) (v : Word) : State :=
  match n with
  | .fpmode => s.modRegs fun r => { r with fpmode := writeFpmode r.fpmode v }
  | .issuectl => s.modRegs fun r => { r with
      issuectl := (v &&& 1) ||| (r.issuectl &&& 2 &&& ~~~ v) }
  | .energy => { s with cx := { s.cx with energy := v } }
  | .spillptr => s.modRegs fun r => { r with spillptr := setField r.spillptr 12 44 (field v 12 44) }
  | .dsbjournal => { s with cx := { s.cx with
      dsbjournal := setField (setFlag s.cx.dsbjournal 0 (flag v 0)) 22 20 (field v 22 20) } }
  | .estat => { s with cx := { s.cx with estat := setFlag s.cx.estat 1 (flag v 1) } }
  | .epc => { s with cx := { s.cx with epc := v } }
  | .ecode => { s with cx := { s.cx with ecode := v &&& 0xFF } }
  | .eaddr => { s with cx := { s.cx with eaddr := v } }
  | .einfo => { s with cx := { s.cx with einfo := v } }
  | .trapbase => { s with cx := { s.cx with trapbase := v &&& ones 14 42 } }
  | .permits =>
    if permitsLegal v then s.modCluster (clusterOf s.cid) fun k => { k with permitsPend := some (v &&& 0x7F7F) } else s
  | .slotmap => { s with core := { s.core with slotmap := writeSlotmap s.core.slotmap v } }
  | .katsig => { s with core := { s.core with katsig := if flag v 63 then setFlag s.core.katsig 63 false else s.core.katsig } }
  | .ctxid | .loopcnt | .boostlvl => s

/-- What `sysrd` reads (R249). -/
def State.readSys (s : State) : SysReg → Word
  | .ctxid => word s.cid
  | .fpmode => s.cx.regs.fpmode
  | .issuectl => s.cx.regs.issuectl
  | .energy => s.cx.energy
  | .loopcnt => s.cx.regs.lcount
  | .spillptr => s.cx.regs.spillptr
  | .dsbjournal => s.cx.dsbjournal
  | .estat => s.cx.estat
  | .epc => s.cx.epc
  | .ecode => s.cx.ecode
  | .eaddr => s.cx.eaddr
  | .einfo => s.cx.einfo
  | .trapbase => s.cx.trapbase
  | .permits => (s.clusterAt (clusterOf s.cid)).permits
  | .boostlvl => (s.clusterAt (clusterOf s.cid)).boostlvl
  | .slotmap => setField s.core.slotmap 8 8 (s.gmask s.gcore)
  | .katsig => s.core.katsig

/-! ## Writes in flight (R194, R196, R197) -/

/-- The value of a write as a word, a vector, a handle. -/
def Val.toWord : Val → Word
  | .word x => x
  | _ => 0

def Val.toVec : Val → VReg
  | .vec x => x
  | _ => Vector.replicate 64 0

/-- One write lands. Writes to p0, p1, m0 and m1 are discarded (R191); a write to an invalid vector register clears its mark
(R195). A rounding state is never zero (R177), so a zero lane stands for a lane that `vsrnd` leaves alone. -/
def State.landOne (s : State) (f : Flight) : State :=
  match f.reg with
  | .s i => s.modRegs fun r => { r with s := r.s.set i f.val.toWord }
  | .qr i => s.modRegs fun r => { r with qr := r.qr.set i f.val.toWord }
  | .a i => s.modRegs fun r => { r with a := r.a.set i f.val.toWord }
  | .v i => s.modRegs fun r => { r with v := r.v.set i f.val.toVec, vinvalid := r.vinvalid &&& ~~~ (1#16 <<< i.val) }
  | .p i =>
    if i.val < 2 then s
    else s.modRegs fun r => { r with
      p := (r.p &&& ~~~ (1#16 <<< i.val)) ||| (if f.val.toWord = 0 then 0 else 1#16 <<< i.val) }
  | .m i => if i.val < 2 then s else s.modRegs fun r => { r with m := r.m.set i f.val.toWord }
  | .h i =>
    match f.val with
    | .handle x => s.modRegs fun r => { r with h := r.h.set i x }
    | _ => s
  | .sys n => s.writeSys n f.val.toWord
  | .lfsr => s.modRegs fun r => { r with
      lfsr := gen 64 fun l => if at_ f.val.toVec l 0 = 0 then at_ r.lfsr l 0 else at_ f.val.toVec l 0 }
  | .flags =>
    match f.val with
    | .flags b w => s.modRegs fun r => { r with fpmode := raiseFlags r.fpmode b w }
    | _ => s

/-- Places a fixed-latency write after every one that lands no later: the order of landing, later issue last (R197). -/
def insertFlight (f : Flight) (c : Nat) : List (Nat × Flight) → List (Nat × Flight)
  | [] => [(c, f)]
  | (c', f') :: l => if c' ≤ c then (c', f') :: insertFlight f c l else (c, f) :: (c', f') :: l

/-- The fixed-latency writes that land at or before cycle c, in order of landing. -/
def landing (c : Nat) (fs : List Flight) : List Flight :=
  (fs.foldl (fun acc f =>
    match f.land with
    | some d => if d ≤ c then insertFlight f d acc else acc
    | none => acc) []).map (·.2)

def Flight.pendingAt (c : Nat) (f : Flight) : Bool :=
  match f.land with
  | some d => c < d
  | none => true

/-- The latest landing cycle in a list of writes. -/
def lastLanding (fs : List Flight) : Nat :=
  fs.foldl (fun m f => match f.land with | some d => Nat.max m d | none => m) 0

/-- Lands every fixed-latency write due at or before cycle c. -/
def State.settle (s : State) (c : Nat) : State :=
  let due := landing c s.cx.inflight
  let s := due.foldl State.landOne s
  { s with cx := { s.cx with inflight := s.cx.inflight.filter (·.pendingAt c), lastLand := Nat.max s.cx.lastLand (lastLanding due) } }

/-- Lands every fixed-latency write of the context, as a block point, a switch and a trap entry do (R197, R214). -/
def State.landAll (s : State) : State :=
  let s := { s with cx := { s.cx with inflight := s.cx.inflight ++ s.cx.fresh, fresh := [] } }
  s.settle (lastLanding s.cx.inflight)

/-- The latency of a result (R196): a class with its cycles, or long-latency. -/
inductive Lat where
  | fixed (n : Nat) | long
  deriving DecidableEq, Repr

abbrev Lat.s1 : Lat := .fixed 1
abbrev Lat.s3 : Lat := .fixed 3
abbrev Lat.v2 : Lat := .fixed 2
abbrev Lat.v4 : Lat := .fixed 4
abbrev Lat.v8 : Lat := .fixed 8

/-- How long the model takes to land a long-latency result once its value is bound, in cycles (assumption 18). -/
def longDelay : Nat := 8

/-- The cycle the slot's sub-bundle issues at (R363). -/
def State.slotCycle (s : State) : Nat := s.issue.cycle + s.issue.split.getD s.issue.slot.val 0

/-- Puts a write in flight. -/
def State.write (s : State) (lat : Lat) (r : Reg) (v : Val) : State :=
  let f : Flight :=
    match lat with
    | .fixed n => ⟨r, v, some (s.slotCycle + n), 0, true, 0⟩
    | .long => ⟨r, v, none, s.slotCycle + longDelay, true, 8 * s.slotCycle + s.issue.slot.val⟩
  { s with cx := { s.cx with fresh := s.cx.fresh ++ [f] } }

/-- Puts a long-latency write in flight whose value an operation will bring (R194). -/
def State.await (s : State) (tag : Nat) (r : Reg) (v : Val) : State :=
  { s with cx := { s.cx with fresh := s.cx.fresh ++ [⟨r, v, none, 0, false, tag⟩] } }

/-- The queue entry the next push writes, and the pointer after it (R192). -/
def State.pushSlot (s : State) : Reg × State :=
  (.qr (Fin.ofNat 16 s.cx.regs.qp.toNat), s.modRegs fun r => { r with qp := r.qp + 1 })

/-- The named register of a destination, if any (R193). -/
def Dst.reg : Dst → Option Reg
  | .s i => some (.s i)
  | .a i => some (.a i)
  | .queue => none

/-- Writes a 64-bit scalar result: the named register, if any, and one queue entry (R192, R193). -/
def State.push (s : State) (lat : Lat) (d : Dst) (x : Word) : State :=
  let s := match Dst.reg d with
    | some r => s.write lat r (.word x)
    | none => s
  let (q, s) := s.pushSlot
  s.write lat q (.word x)

/-- The same with a value still to come. -/
def State.pushAwait (s : State) (tag : Nat) (d : Dst) (x : Word) : State :=
  let s := match Dst.reg d with
    | some r => s.await tag r (.word x)
    | none => s
  let (q, s) := s.pushSlot
  s.await tag q (.word x)

/-- Writes a predicate pair: the result and its complement (R191). -/
def State.writePair (s : State) (k : Fin 8) (b : Bool) : State :=
  let s := s.write .s1 (.p (Fin.ofNat 16 (2 * k.val))) (.word (word b.toNat))
  s.write .s1 (.p (Fin.ofNat 16 (2 * k.val + 1))) (.word (word (!b).toNat))

/-- Writes a mask pair (R191). -/
def State.writeMaskPair (s : State) (lat : Lat) (k : Fin 4) (x : Word) : State :=
  let s := s.write lat (.m (Fin.ofNat 8 (2 * k.val))) (.word x)
  s.write lat (.m (Fin.ofNat 8 (2 * k.val + 1))) (.word (~~~ x))

/-- A register is empty while a long-latency result for it has not landed (R194). -/
def Ctx.empty (x : Ctx) (r : Reg) : Bool := x.inflight.any fun f => f.land.isNone && f.reg == r

/-- A fixed-latency write of the register has not landed by cycle c (R197). -/
def Ctx.stale (x : Ctx) (r : Reg) (c : Nat) : Bool :=
  x.inflight.any fun f => f.reg == r && (match f.land with | some d => c < d | none => false)

/-- Ends the bundle's writes: they join those in flight. -/
def State.mergeFresh (s : State) : State :=
  { s with cx := { s.cx with inflight := s.cx.inflight ++ s.cx.fresh, fresh := [] } }

/-! ## Blocking (R165, R194) -/

/-- Lands the fixed-latency writes of earlier bundles. -/
def State.landOld (s : State) : State := s.settle (lastLanding s.cx.inflight)

/-- The context waits; a block point, so its fixed-latency writes land. The syllable is tried again when the wait is over. -/
def State.blockOn (s : State) (w : Wait) : State :=
  let s := s.landOld
  { s with cx := { s.cx with status := .blocked, wait := w, exempt := false }, evt := .block }

def State.blockBundle (s : State) : State := s.blockOn .bundle

/-- The context parks (R22, R119). -/
def State.parkOn (s : State) (w : Wait) : State :=
  let s := s.landOld
  { s with cx := { s.cx with status := .parked, wait := w, exempt := false } }

/-- A blocked or parked context becomes READY (R165). -/
def State.makeReady (s : State) (c : Nat) : State :=
  s.modCtx c fun x =>
    if x.status = .blocked ∨ x.status = .parked then { x with status := .ready, wait := .none } else x

/-! ## The matrix engine's part of an abort (R312) -/

/-- The context number of no context. -/
def noCtx : Nat := 18432

/-- An integer plane cleared to IDLE. -/
def IPlane.cleared (_ : IPlane) : IPlane := IPlane.reset

/-- Clears the planes for which a test holds. -/
def Matrix.clearPlanes (m : Matrix) (p : IPlane → Bool) : Matrix :=
  { m with ia := m.ia.map fun (x : IPlane) => if p x then x.cleared else x }

/-- Stops the routine of context c and removes every routine the context has queued: planes of the context that are ACC or BAD
return to IDLE, SEALED ones stay (R283, R312). -/
def Matrix.abort (m : Matrix) (c : Nat) : Matrix :=
  let runs := match m.routine with
    | some r => r.ctx == c
    | none => false
  let m := if runs then { m with routine := none, aq := [], bq := [], aStage := [], bStage := [] } else m
  let m := m.clearPlanes fun x => x.ctx == c && (x.state == .acc || x.state == .bad)
  { m with ops := m.ops.filter fun o =>
             match o.kind with
             | .routine _ _ => !(o.ctx == c && !o.complete)
             | _ => true }

/-- An abort that a rollback makes: it clears every plane that the aborted routine opened, or a routine the context has called since
`since`, sealed and drained ones too (R312, R413). -/
def Matrix.abortAndClear (m : Matrix) (c since : Nat) : Matrix :=
  let run := (m.routine.filter fun r => r.ctx == c).map (·.op)
  (m.abort c).clearPlanes fun x => x.ctx == c && (since ≤ x.owner || run == some x.owner)

/-- The operations of a context that has ended: complete ones are gone, the others and its planes belong to no context. -/
def Matrix.orphan (m : Matrix) (c : Nat) : Matrix :=
  { m with ia := m.ia.map fun (p : IPlane) => if p.ctx = c then { p with ctx := noCtx } else p,
           ops := (m.ops.filter fun o => !(o.ctx == c && o.complete)).map fun (o : MOp) =>
             if o.ctx = c then { o with ctx := noCtx } else o }

/-! ## Cancelling copies (R328) -/

/-- A cancel reaches a copy: one of context c, numbered from `since` on, that is still queued or running. -/
def Copy.cancels (c since : Nat) (y : Copy) : Bool := y.ctx == c && since ≤ y.id && !y.finished && !y.cancelled

/-- Cancels the copies of context c numbered from `since` on; the recorded faults go with them. One that stands part-way through a run ends
it first, unless `cut` says that the queues have been emptied of what it has placed: then it ends there (DESIGN CHOICE, assumption 114). -/
def cancelCopies (c since : Nat) (cut : Bool) (l : List Copy) : List Copy :=
  l.filterMap fun y =>
    if !y.cancels c since then some y
    else if y.sub = 0 || cut then none
    else some { y with cancelled := true, fault := none }

/-- A cancelled copy is never a fill copy. -/
def BufPair.forget (ids : List Nat) (p : BufPair) : BufPair := { p with hist := p.hist.filter fun y => !ids.contains y.id }

/-- The queues and stages of the matrix engine are empty, and no routine pulls from them. -/
def Matrix.drainedQueues (m : Matrix) : Bool :=
  m.routine.isNone && m.aq.isEmpty && m.bq.isEmpty && m.aStage.isEmpty && m.bStage.isEmpty

def State.cancelAll (s : State) (c since : Nat) : State :=
  let gone := ((s.coreAt (c / 4)).ch.toList.flatten.filter (·.cancels c since)).map (·.id)
  let s := { s.modCore (c / 4) (fun k => { k with ch := k.ch.map (cancelCopies c since k.mx.drainedQueues) }) with
             kept := s.kept.filter fun e => !gone.contains e.1 }
  s.modCtx c fun x => { x with pairs := x.pairs.map (BufPair.forget gone) }

/-! ## Receives (R342, R345) -/

/-- Frees posted entries: their tickets are no longer good. -/
def Fabric.freePosts (f : Fabric) (p : Posted → Bool) : Fabric :=
  let gone := f.posted.filter p
  { f with posted := f.posted.filter fun x => !p x,
           postGen := gone.foldl (fun l x => put x.entry ((x.gen + 1) % 2 ^ 20) l) f.postGen }

/-- The sends, collectives and receives of a context that has ended: what has not begun or is complete goes, the others run to
completion and belong to no context. -/
def Fabric.orphan (f : Fabric) (c : Nat) : Fabric :=
  let f := f.freePosts fun x => x.ctx == c && (x.msg.isNone || x.landed)
  { f with
    posted := f.posted.map fun (x : Posted) => if x.ctx = c then { x with ctx := noCtx } else x,
    fops := (f.fops.filter fun o => !(o.ctx == c && o.complete)).map fun (o : FOp) =>
              if o.ctx = c then { o with ctx := noCtx } else o }

/-! ## Fatal faults (R411) -/

/-- Ends a context without its instance completing: deferred lines discarded, copies cancelled, routines aborted; FREE. A save that
it was a target of may be complete by that (R419). -/
def State.endContext (s : State) (c : Nat) : State :=
  let s := if (s.ctx c).stopReq.isSome then s.enqueue (.contextSaved c) else s
  let s := s.modMx (c / 4) fun m => (m.abort c).orphan c
  let s := s.cancelAll c 0
  let s := (s.stopRunning c).dropWaits c
  let s := { s with relayouts := s.relayouts.map fun (r : Relayout) => if r.ctx = c then { r with ctx := noCtx } else r,
                    remotes := (s.remotes.filter fun (r : RemotePend) => r.ctx != c || r.eng.isSome).map fun (r : RemotePend) =>
                      if r.ctx = c then { r with ctx := noCtx } else r,
                    fab := s.fab.orphan c }
  s.modCtx c fun x => { x with
    status := .free, wait := .none, inst := none, dsb := [], journal := [], filter := 0, awaiting := [],
    dsbjournal := setField x.dsbjournal 42 16 0, inflight := [], fresh := [], ckpt := none, pending := [], held := [],
    boostReq := 0, stopReq := none, exempt := false, joinMark := 0, moves := [], synced := false, part := none, marks := [],
    parity := 0, parityGen := x.parityGen + 1 }

/-- The contexts that hold an instance. -/
def State.instanceCtxs (s : State) : List Nat :=
  (if s.cx.inst.isSome then [s.cid] else []) ++
    (s.ctxs.filter fun e => e.1 != s.cid && e.2.inst.isSome).map (·.1)

/-- The replay ends with ERROR 0x0D (R161): nothing more is dispatched and its remaining instances end. -/
def State.failReplay (s : State) (node code : Nat) : State :=
  let ks := fieldsWord [(56, 8, 0x0D), (48, 8, code), (32, 16, node), (5, 1, field s.regs.kickstat 5 1),
    (4, 1, field s.regs.kickstat 4 1), (0, 4, 5)]
  let tag := (s.pool.graph.map (·.tag)).getD s.regs.kickdone
  let s := { s with regs := { s.regs with kickstat := ks, kickdone := tag } }
  let s := s.instanceCtxs.foldl State.endContext s
  let s := { s with pool := { Pool.reset with stopped := s.pool.stopped } }
  let s := { s with dies := s.dies.map fun d => (d.1, { d.2 with queue := [] }) }
  if flag ks 4 then s.interrupt 0 else s

/-- A fatal fault in the current context (R411). -/
def State.fatal (s : State) (code : BitVec 8) : State :=
  match s.cx.inst with
  | some i =>
    if field s.regs.kickstat 0 4 = 3 then s.failReplay i.node code.toNat
    else (s.endContext s.cid).interrupt 8
  | none => (s.endContext s.cid).interrupt 8

/-! ## Taking a fault (R409) -/

/-- The vector base: TRAPBASE, or TRAPDEV when it is zero. -/
def State.vectorBase (s : State) : Word :=
  if s.cx.trapbase = 0 then s.mgmt.trapdev else s.cx.trapbase

/-- What the bundle at a code address has begun is kept for its reissue (R117). -/
def Ctx.keepMarks (x : Ctx) (pc : Word) : Ctx :=
  let part := x.part.filter (·.pc == pc)
  if x.joinMark = 0 ∧ x.synced = false ∧ part = none then x
  else { x with marks := ⟨pc, x.joinMark, x.synced, part⟩ :: x.marks.filter (·.pc != pc), joinMark := 0, synced := false, part := none }

/-- The reissued bundle goes on with what it had begun. -/
def Ctx.findMarks (x : Ctx) (pc : Word) : Ctx :=
  match x.marks.find? (·.pc == pc) with
  | some m => { x with joinMark := m.joinMark, synced := m.synced, part := m.part, marks := x.marks.filter (·.pc != pc) }
  | none => x

/-- Trap entry: what is in flight lands, the saved registers are written, the privilege is raised, control goes to the vector. With
no vector base the fault is fatal. The context waits on no event counter while the handler runs (R228). -/
def State.take (s : State) (t : Trap) (epc : Word) : State :=
  let s := s.landAll.dropWaits s.cid
  let b := s.vectorBase
  let x := { s.cx.keepMarks epc with
    epc := epc, ecode := t.code.setWidth 64, eaddr := t.eaddr, einfo := t.einfo,
    estat := (if flag s.cx.estat 0 then 3 else 1), stopCount := 0, vector := some t.code, walkFault := none }
  let s := { s with cx := x, evt := .trap t }
  if b = 0 then s.fatal t.code
  else s.modRegs fun r => { r with
    pc := b + 64 * t.code.setWidth 64, pin := r.pin.map fun p => { p with suspended := true } }

/-- A fault of the current bundle: EPC is the bundle. -/
def State.trap (s : State) (t : Trap) : State := s.take t s.cx.regs.pc

/-! ## Bundle faults (R207) -/

/-- EINFO of a bundle fault: register field, slot, header mark, cause (R207). -/
def bundleInfo (reg : Nat) (slot : Nat) (hdr : Bool) (cause : Nat) : Word :=
  fieldsWord [(16, 8, reg), (11, 3, slot), (10, 1, hdr.toNat), (0, 8, cause)]

/-- A fault whose EADDR is the bundle's code address and whose EINFO is that of R207. -/
def State.bundleTrap (s : State) (code : BitVec 8) (reg cause : Nat) : Trap :=
  ⟨code, s.cx.regs.pc, bundleInfo reg s.issue.slot.val false cause⟩

/-- The illegal-syllable fault with a cause. -/
def State.illegal (s : State) (cause : Nat) : Trap := s.bundleTrap 0x01 0 cause

/-- The privilege fault. -/
def State.privilegeTrap (s : State) : Trap := s.bundleTrap 0x02 0 0

/-- EINFO of R24. -/
def accessInfo (space : Space) (dev rset sz : Nat) (eng fetch wr : Bool) (level cause : Nat) : Word :=
  fieldsWord [(30, 2, space.code), (24, 6, dev), (16, 8, rset), (14, 2, sz), (13, 1, eng.toNat), (12, 1, fetch.toNat),
    (11, 1, wr.toNat), (8, 3, level), (0, 8, cause)]

/-- The handle fault (R93). -/
def handleTrap (daddr : BitVec 56) (hreg dim : Nat) (eng wr : Bool) (cause : Nat) : Trap :=
  ⟨0x10, daddr.setWidth 64, fieldsWord [(20, 4, hreg), (17, 3, dim), (13, 1, eng.toNat), (11, 1, wr.toNat), (0, 8, cause)]⟩

/-- EINFO of 0x0E and 0x0F (R415). -/
def rollbackInfo (space : Nat) (plane slot : Nat) : Word :=
  fieldsWord [(30, 2, space), (16, 4, plane), (11, 3, slot)]

/-! ## Return (R230, R409) -/

/-- The segment of a code address. -/
def segOf (pc : Word) : Word := pc &&& ~~~ 0x3F#64

/-- The bundle index of a code address. -/
def indexOf (pc : Word) : Nat := field pc 0 6

/-- A code address lies in a pinned range. -/
def Pin.holds (p : Pin) (pc : Word) : Bool := segOf pc == p.seg && p.first ≤ indexOf pc && indexOf pc ≤ p.last

/-- No `mls` waits but at a code address. -/
def Ctx.keepWaits (x : Ctx) (at_ : Word → Bool) : Ctx :=
  { x with barriers := x.barriers.map fun (b : BarrierPart) => { b with waiting := b.waiting.filter at_ } }

/-- The last return, to user privilege, leaves behind what any bundle but the one it goes to has begun. -/
def Ctx.abandon (x : Ctx) (pc : Word) : Ctx :=
  { x.keepWaits (· == pc) with marks := x.marks.filter (·.pc == pc), part := x.part.filter (·.pc == pc) }

/-- `eret`: privilege := PPRIV, the stop-spacing count restarts, a suspended pin resumes when EPC lies in its range and ends
otherwise. Control goes to EPC. -/
def State.returnFrom (s : State) : State :=
  let epc := s.cx.epc
  let x := { s.cx with estat := (if flag s.cx.estat 1 then 3 else 0), stopCount := 0 }
  let x := if flag s.cx.estat 1 then x else x.abandon epc
  let s := { s with cx := x, issue := { s.issue with jump := some epc, returned := true } }
  match s.cx.regs.pin with
  | some p =>
    if p.suspended then
      if p.holds epc then s.modRegs fun r => { r with pin := some { p with suspended := false } }
      else s.modRegs fun r => { r with pin := none, lcount := 0 }
    else s
  | none => s

/-- The syllable has made an arrival: what it waits for from here on does not keep its bundle from issuing (R363). -/
def State.arrives (s : State) : State := { s with issue := { s.issue with arrived := true } }

/-! ## The journal (R58) -/

/-- Local address of entry i of the journal ring. -/
def State.journalAt (s : State) (i : Nat) : Nat := field s.cx.dsbjournal 22 20 * 2 ^ 22 + i % 32768 * 128

/-- The ring position of the oldest line in the journal; the next one to be written is `journalPos`. -/
def State.journalFirst (s : State) : Nat := s.cx.journalPos + 32768 - s.cx.journal.length

/-- A unit of an entry is poisoned. -/
def State.entryBad (s : State) (a : Nat) : Bool := s.mem.poison.contains (unitOf a) || s.mem.poison.contains (unitOf (a + 64))

/-- The line that the memory holds at ring position i, under a line number. -/
def State.journalEntry (s : State) (i id : Nat) : DLine :=
  let a := s.journalAt i
  let w : Word := (s.readLine 0 (lineOf a)).setWidth 64
  let mask : BitVec 64 := (s.readLine 0 (lineOf a)).extractLsb' 64 64
  { pod := field w 6 42 * 64, mask := mask, data := mergeLine 0 (s.readLine 0 (lineOf (a + 64))) mask, key := field w 48 11,
    prot := flag w 59, isSealed := flag w 60, id := id, bad := s.entryBad a }

/-- The journal's lines from the oldest on, each with its ring position. -/
def State.journalLines (s : State) : List (Nat × DLine) :=
  s.cx.journal.zipIdx.map fun x => (s.journalFirst + x.2, s.journalEntry (s.journalFirst + x.2) x.1)

/-- COUNT follows the journal; the filter clears at 0. -/
def Ctx.withJournal (x : Ctx) (j : List Nat) : Ctx :=
  { x with journal := j, dsbjournal := setField x.dsbjournal 42 16 j.length,
           filter := if j.isEmpty then 0 else x.filter }

/-! ## Checkpoints (R63, R64, R412) -/

/-- Every result whose value is known lands. -/
def State.landKnown (s : State) : State :=
  let known := s.cx.inflight.filter fun f => f.land.isNone && f.ready
  let s := { s with cx := { s.cx with inflight := s.cx.inflight.filter fun f => !(f.land.isNone && f.ready) } }
  (known.foldl State.landOne s).landAll

/-- Commits the buffer phase: the partition's lines are sealed, the registers checkpointed; `resume` is the bundle after the committing one.
The results of the bundle itself enter the checkpoint when it is done. -/
def State.commit (s : State) (resume : Word) : State :=
  let s := { s with cx := { s.cx with dsb := s.cx.dsb.map fun (l : DLine) => { l with isSealed := true } } }
  let c : Checkpoint := ⟨{ s.cx.regs with pc := resume }, false, true, 0, s.nextId⟩
  let inst := s.cx.inst.map fun i => { i with restarts := 0 }
  { s with cx := { s.cx with ckpt := some c, inst := inst }, issue := { s.issue with committed := true } }

/-- The checkpoint of a bundle that committed takes the bundle's results. -/
def State.closeCommit (s : State) (resume : Word) : State :=
  if s.issue.committed then
    { s with cx := { s.cx with ckpt := s.cx.ckpt.map fun c => { c with regs := { s.landKnown.cx.regs with pc := resume } } } }
  else s

/-- Records an outbound effect (R64). -/
def State.markOutbound (s : State) : State :=
  { s with cx := { s.cx with ckpt := s.cx.ckpt.map fun c => { c with outbound := true } } }

/-- Records an outbound effect of context c. -/
def State.markOutboundOf (s : State) (c : Nat) : State :=
  s.modCtx c fun x => { x with ckpt := x.ckpt.map fun k => { k with outbound := true } }

/-! ## Rollback and restart (R65, R413, R414) -/

/-- LIMIT of RBSTAT. -/
def State.rollLimit (s : State) : Nat := field s.mgmt.rbstat 0 4

/-- Reissues the recorded fill copy of every armed pair (R65). -/
def State.refill (s : State) : State :=
  s.cx.pairs.toList.foldl (fun s p =>
    match p.armed, p.fill with
    | true, some f =>
      let (id, s) := s.fresh
      let f := { f with id := id, pos := 0, sub := 0, seen := [], finished := false, outward := false, fault := none,
                        flags := 0, warnings := 0 }
      { s with core := { s.core with ch := s.core.ch.set p.ch (s.core.ch[p.ch] ++ [f]) } }
    | _, _ => s) s

/-- Rolls the buffer phase of the current context back to its checkpoint (R65). -/
def State.rollBack (s : State) (c : Checkpoint) : State :=
  let s := s.modMx s.gcore (·.abortAndClear s.cid c.since)
  let s := s.cancelAll s.cid c.since
  let journal := ((s.journalLines.map (·.2)).filter (·.isSealed)).map (·.id)
  let x := { (s.cx.withJournal journal).keepWaits fun _ => false with
    dsb := s.cx.dsb.filter (·.isSealed),
    journalPos := (s.cx.journalPos + 32768 - (s.cx.journal.length - journal.length)) % 32768,
    inflight := [], fresh := [], regs := c.regs, stopCount := 0, part := none, marks := [], joinMark := 0, moves := [], synced := false }
  { s with cx := x }.refill

/-- Returns the instance of the current context to the pool (R413): it restarts from its entry. -/
def State.restart (s : State) (i : Inst) : State :=
  let s := s.modMx s.gcore (·.abortAndClear s.cid 0)
  let s := s.endContext s.cid
  let prio := match s.pool.graph with
    | some g => (g.nodes[i.node]?.map (·.prio)).getD i.prio
    | none => i.prio
  let i := { i with restarts := i.restarts + 1, bound := none, prio := prio, since := s.now }
  let rb := setField s.mgmt.rbstat 32 16 (satAdd 16 (field s.mgmt.rbstat 32 16) 1)
  let s := { s with pool := { s.pool with waiting := i :: s.pool.waiting }, mgmt := { s.mgmt with rbstat := rb } }
  (s.interrupt 8).enqueue .poolPlace

/-- Fault 0x0E or 0x0F in the current context (R413): roll back and take it, restart the instance, or end fatally. -/
def State.consume (s : State) (t : Trap) : State :=
  let s := { s with evt := .consumed t }
  let rolled := match s.cx.ckpt with
    | some c => if c.committed && !c.outbound then some c else none
    | none => none
  match rolled with
  | some c =>
    if s.rollLimit ≤ c.rolls then (s.fatal t.code).interrupt 8
    else
      let rb := setField s.mgmt.rbstat 48 16 (satAdd 16 (field s.mgmt.rbstat 48 16) 1)
      let s := { s with mgmt := { s.mgmt with rbstat := rb } }
      let s := s.rollBack c
      let s := { s with cx := { s.cx with ckpt := some { c with rolls := c.rolls + 1 } } }
      { s.take t c.regs.pc with evt := .consumed t }
  | none =>
    match s.cx.inst with
    | some i =>
      if i.arrived || i.didSpawn || i.sent then s.fatal t.code
      else if s.rollLimit ≤ i.restarts then (s.fatal t.code).interrupt 8
      else { s.restart i with evt := .consumed t }
    | none => s.fatal t.code

end Sys2Proof.Machine
end

