-- ==== Sys2Proof/Machine/Translate.lean ====
section
/-! DEFINITION. Translation of virtual addresses (R17 to R28): the page-table tree, the leaf checks, the TLBs; and the scratchpad
qualifiers (R14, R16). -/

namespace Sys2Proof.Machine

/-! ## Detection of errors in memory (R48 to R51) -/

/-- Counts a corrected error of a unit at its die (R51). -/
def State.countCorrected (s : State) (u : Nat) : State :=
  s.modDie (errorDie u) fun d =>
    if u < 2 ^ 40 then { d with memecc := setField d.memecc 32 16 (satAdd 16 (field d.memecc 32 16) 1) }
    else { d with memecc := setField d.memecc 16 16 (satAdd 16 (field d.memecc 16 16) 1) }

/-- Counts an uncorrectable error of a unit at its die, keeps the first address and raises the memory-error interrupt when UE
increments (R51). -/
def State.countUncorrectable (s : State) (u : Nat) : State :=
  let d := s.dieAt (errorDie u)
  let s := s.modDie (errorDie u) fun d => { d with
    memecc := setField d.memecc 48 16 (satAdd 16 (field d.memecc 48 16) 1),
    memeccaddr := if flag d.memeccaddr 63 then d.memeccaddr else fieldsWord [(63, 1, 1), (0, 42, u)] }
  if flag d.memecc 0 && field d.memecc 48 16 != 0xFFFF then s.interrupt 2 else s

/-- A unit is read: an error in it is found, and corrected or poisoned (R48, R49). -/
def State.detect (s : State) (u : Nat) : State :=
  if s.mem.soft.contains u then
    ({ s with mem := { s.mem with soft := s.mem.soft.filter (· != u), flips := s.mem.flips.filter (·.1 != u) } }).countCorrected u
  else if s.mem.hard.contains u then
    ({ s with mem := { s.mem with hard := s.mem.hard.filter (· != u), flips := s.mem.flips.filter (·.1 != u),
                                  poison := insertNat u s.mem.poison } }).countUncorrectable u
  else s

/-- The units of the masked bytes of a line that hold an error not yet found. -/
def State.faulty (s : State) (line : Nat) (mask : BitVec 64) : List Nat :=
  (s.mem.soft ++ s.mem.hard).filter fun u => u / 64 * 64 == line && (unitMask line (u % 64) &&& mask != 0)

/-- The masked bytes of a line are read. -/
def State.touch (s : State) (line : Nat) (mask : BitVec 64) : State := (s.faulty line mask).foldl State.detect s

/-! ## Who accesses -/

/-- An access is made by a context (its CTXID and privilege), or by an engine operation of that context. -/
structure Who where
  ctx : Nat
  system : Bool
  eng : Option Nat
  deriving DecidableEq, Repr

/-- The current context. -/
def State.who (s : State) : Who := ⟨s.cid, s.system, none⟩

/-- Kinds of access (R21). -/
inductive Kind where
  | read | write | fetch
  deriving DecidableEq, Repr

/-- Where an address leads: the home, the local address there, KEY and PROT of the leaf, and EINFO of R24 without its cause. -/
structure Place where
  dev : Nat
  loc : Nat
  key : Nat
  prot : Bool
  info : Word
  deriving DecidableEq, Repr

/-- Why there is no place: a fault, or no TLB holds the page and a walk must run. -/
inductive XErr where
  | fault (t : Trap) | miss (va : Word)
  deriving DecidableEq, Repr

/-- The fault at an address with the EINFO of R24 and a cause. -/
def accessTrap (code : BitVec 8) (ea info : Word) (cause : Nat) : Trap := ⟨code, ea, setField info 0 8 cause⟩

/-- EINFO of a `.g` access before any entry is read. -/
def gInfo (w : Who) (k : Kind) (level : Nat) : Word :=
  accessInfo .g 0 0 0 w.eng.isSome (k == .fetch) (k == .write) level 0

/-! ## The leaf (R19, R21) -/

/-- The offset width of a page found at a level. -/
def pageShift (lvl : Nat) : Nat := if lvl = 0 then 16 else if lvl = 1 then 21 else 30

/-- The size code a leaf of the level must have. -/
def leafSize (lvl : Nat) : Option Nat := if lvl ≤ 2 then some lvl else none

/-- EINFO with the fields of a leaf. -/
def leafInfo (w : Who) (k : Kind) (lvl : Nat) (e : Word) : Word :=
  accessInfo .g (field e 39 6) (if flag e 60 then field e 5 8 else 0) (field e 61 2) w.eng.isSome (k == .fetch) (k == .write) lvl 0

/-- RSETTAB[i] (R33). -/
def State.rset (s : State) (i : Nat) : Word := look 0 i s.regs.rsettab

/-- The checks of `leaf` in the order written: the code and cause of the first that fails. -/
def State.leafFault (s : State) (e : Word) (lvl : Nat) (k : Kind) (system : Bool) : Option (BitVec 8 × Nat) :=
  let base := field e 13 26 * 2 ^ 16
  let set := s.rset (field e 5 8)
  let home := if flag e 60 && flag set s.device then s.device else field e 39 6
  if leafSize lvl ≠ some (field e 61 2) then some (0x11, 0x11)
  else if field e 0 5 ≠ 0 then some (0x11, 0x10)
  else if field e 61 2 = 1 ∧ field e 13 5 ≠ 0 then some (0x11, 0x12)
  else if field e 61 2 = 2 ∧ field e 13 14 ≠ 0 then some (0x11, 0x12)
  else if flag e 60 && flag e 59 then some (0x11, 0x14)
  else if flag e 59 && field e 45 11 == 0 then some (0x11, 0x17)
  else if flag e 60 && (set == 0 || !flag set (field e 39 6)) then some (0x11, 0x15)
  else if base ≥ sysBase ∧ base < 2 ^ 42 ∧ ¬ flag e 56 then some (0x11, 0x16)
  else if flag e 56 && !system then some (0x07, 0x04)
  else if k == .fetch && !flag e 57 then some (0x07, 0x03)
  else if k == .write && flag e 60 then (if flag e 58 then some (0x09, 0x30) else some (0x08, 0x20))
  else if k == .write && !flag e 58 then some (0x08, 0x20)
  else if home = s.device ∧ (regionOf base = .hole ∨ regionOf (base + 2 ^ pageShift lvl - 1) = .hole) then some (0x07, 0x05)
  else none

/-- The leaf applied to an address. -/
def State.leaf (s : State) (w : Who) (e : Word) (lvl : Nat) (va : Word) (k : Kind) : Except Trap Place :=
  let info := leafInfo w k lvl e
  match s.leafFault e lvl k w.system with
  | some (code, cause) => .error (accessTrap code va info cause)
  | none =>
    let home := if flag e 60 && flag (s.rset (field e 5 8)) s.device then s.device else field e 39 6
    .ok ⟨home, field e 13 26 * 2 ^ 16 + field va 0 (pageShift lvl), field e 45 11, flag e 59, info⟩

/-! ## TLBs (R26, R28) -/

/-- An entry covers a virtual address. -/
def TlbEntry.covers (t : TlbEntry) (va : Nat) : Bool := va / 2 ^ pageShift t.lvl == t.vpn

/-- The core TLB, then the die TLB. -/
def State.tlbFind (s : State) (c : Nat) (va : Nat) : Option TlbEntry :=
  match (s.coreAt (c / 4)).tlb.find? (·.covers va) with
  | some t => some t
  | none => (s.dieAt (dieOf c)).tlb.find? (·.covers va)

/-- A TLB takes an entry; when it is full the oldest leaves (assumption 19). -/
def tlbAdd (cap : Nat) (t : TlbEntry) (l : List TlbEntry) : List TlbEntry :=
  let l := l.filter fun u => !(u.vpn == t.vpn && u.lvl == t.lvl)
  (if cap ≤ l.length then l.drop 1 else l) ++ [t]

def State.tlbFill (s : State) (c : Nat) (t : TlbEntry) : State :=
  let s := s.modCore (c / 4) fun k => { k with tlb := tlbAdd 64 t k.tlb }
  s.modDie (dieOf c) fun d => { d with tlb := tlbAdd 16384 t d.tlb }

/-! ## The walk (R21) -/

/-- A table entry, read through key 0. -/
def State.tableWord (s : State) (a : Nat) : Word := BitVec.ofNat 64 ((s.readLine 0 (lineOf a)).toNat / 2 ^ (8 * (a % 64)))

/-- A table lies in the device's own HBM or a die store of the device: the tree is one for all contexts (R9, R18). -/
def tableOk (t : Nat) : Bool :=
  match regionOf t with
  | .hbm => true
  | .die _ _ => true
  | _ => false

/-- The levels of the tree: number, lowest index bit, index width (R17). -/
def walkLevels : List (Nat × Nat × Nat) := [(4, 48, 8), (3, 39, 9), (2, 30, 9), (1, 21, 9), (0, 16, 5)]

/-- The fault of a walk that meets poison (R49). -/
def walkPoison (a : Nat) : Trap := ⟨0x0F, word (unitOf a), 0⟩

/-- Walks down from table t; answers the leaf and its level. -/
def walkFrom (w : Who) (va : Word) (k : Kind) : List (Nat × Nat × Nat) → Nat → State → Except Trap (Word × Nat) × State
  | [], _, s => (.error (accessTrap 0x11 va (gInfo w k 0) 0x11), s)
  | (lvl, lo, len) :: ls, t, s =>
    let a := t + 8 * field va lo len
    let s := s.touch (lineOf a) (byteMask (a % 64) 8)
    let e := s.tableWord a
    if s.mem.poison.contains (unitOf a) then (.error (walkPoison a), s)
    else if !flag e 63 then (.error (accessTrap 0x07 va (gInfo w k lvl) 0x01), s)
    else if field e 61 2 = 3 then
      if lvl = 0 then (.error (accessTrap 0x11 va (gInfo w k lvl) 0x11), s)
      else if field e 42 19 ≠ 0 ∨ field e 0 8 ≠ 0 then (.error (accessTrap 0x11 va (gInfo w k lvl) 0x10), s)
      else
        let t := field e 8 34 * 256
        if !tableOk t then (.error (accessTrap 0x11 va (gInfo w k lvl) 0x13), s)
        else walkFrom w va k ls t s
    else (.ok (e, lvl), s)

/-- The fault is of access kind alone, so that the leaf is cached all the same (R26). -/
def kindFault (t : Trap) : Bool := t.code == 0x08 || t.code == 0x09 || (t.code == 0x07 && field t.einfo 0 8 == 0x03)

/-- A walk: it fills the TLBs, and answers the place or the fault. -/
def State.walk (s : State) (w : Who) (va : Word) (k : Kind) : Except Trap Place × State :=
  match walkFrom w va k walkLevels (field s.regs.ptroot 8 34 * 256) s with
  | (.error t, s) => (.error t, s)
  | (.ok (e, lvl), s) =>
    let r := s.leaf w e lvl va k
    let fill := match r with
      | .ok _ => true
      | .error t => kindFault t
    (r, if fill then s.tlbFill w.ctx ⟨va.toNat / 2 ^ pageShift lvl, lvl, e⟩ else s)

/-- The identity map while translation is disabled (R21). A hole faults as a page in one (R25). No leaf names a key slot or a PROT flag
here, and the spec does not say which apply: the model takes KEY 0 and PROT 0 (DESIGN CHOICE, assumption 76). -/
def State.identity (s : State) (w : Who) (va : Word) (k : Kind) : Except Trap Place :=
  let info := gInfo w k 7
  if !w.system then .error (accessTrap 0x07 va info 0x08)
  else if field va 42 22 ≠ 0 then .error (accessTrap 0x07 va info 0x02)
  else if regionOf va.toNat = .hole then .error (accessTrap 0x07 va info 0x05)
  else .ok ⟨s.device, va.toNat, 0, false, setField info 24 6 0⟩

/-- Translation from the TLBs. -/
def State.translate (s : State) (w : Who) (va : Word) (k : Kind) : Except XErr Place :=
  if !flag s.regs.ptroot 0 then
    match s.identity w va k with
    | .ok p => .ok p
    | .error t => .error (.fault t)
  else if field va 56 8 ≠ 0 then .error (.fault (accessTrap 0x07 va (gInfo w k 7) 0x02))
  else
    match s.tlbFind w.ctx va.toNat with
    | some t =>
      match s.leaf w t.leaf t.lvl va k with
      | .ok p => .ok p
      | .error t => .error (.fault t)
    | none => .error (.miss va)

/-- The translation that an engine operation has already used for an address: it keeps it until it finishes (R31). -/
def State.keptEntry (s : State) (w : Who) (va : Word) : Option TlbEntry :=
  if flag s.regs.ptroot 0 then
    match w.eng with
    | some o => (s.kept.find? fun e => e.1 == o && e.2.covers va.toNat).map (·.2)
    | none => none
  else none

/-- An engine operation keeps the entry that it has just been translated through; the pool's reads, number 0, keep none. -/
def State.keepEntry (s : State) (w : Who) (va : Word) : State :=
  match w.eng, s.tlbFind w.ctx va.toNat with
  | some o, some t => if o = 0 then s else { s with kept := s.kept ++ [(o, t)] }
  | _, _ => s

/-- A finished operation keeps nothing. -/
def State.dropKept (s : State) (o : Nat) : State := { s with kept := s.kept.filter (·.1 != o) }

/-! ## The translation hub of a die (R27) -/

/-- The page of a miss, for which walks are shared: the least page size. -/
def missPage (va : Word) : Nat := va.toNat / 2 ^ 16

/-- Misses that wait in the queue of context c's core. -/
def Die.coreMisses (d : Die) (c : Nat) : Nat := (d.misses.filter fun m => m.ctx / 4 == c / 4).length

/-- A miss enters its core's queue, which holds up to 32; one that finds it full, or waits there already, does not. -/
def Die.addMiss (d : Die) (m : Miss) : Die :=
  if 32 ≤ d.coreMisses m.ctx || d.misses.any fun x => x.ctx == m.ctx && x.parked == m.parked && missPage x.va == missPage m.va then d
  else { d with misses := d.misses ++ [m] }

/-- The hub of a die can walk for a page at once: fewer than 96 walks run, none of them for the page. -/
def Die.hubOpen (d : Die) (pg : Nat) : Bool := d.walks.length < 96 && !d.walks.any (·.1 == pg)

/-- An engine, a fetch or a prefetch misses while the hub cannot walk for it: it shares the walk of its page or waits in its core's queue. -/
def State.hubWait (s : State) (w : Who) (va : Word) : State :=
  let d := dieOf w.ctx
  let s := if (s.dieAt d).walks.any (·.1 == missPage va) then s else s.modDie d fun k => k.addMiss ⟨w.ctx, va, false⟩
  { s with evt := .hub d va }

/-- Translation for an engine or a fetch. Its walk is made within its run when the hub has room for it, and takes its place there for that
run alone; when the hub has none, the run that this is part of does not take effect (DESIGN CHOICE, assumption 112). -/
def State.translateNow (s : State) (w : Who) (va : Word) (k : Kind) : Except Trap Place × State :=
  match s.keptEntry w va with
  | some t => (s.leaf w t.leaf t.lvl va k, s)
  | none =>
    match s.translate w va k with
    | .ok p => (.ok p, s.keepEntry w va)
    | .error (.fault t) => (.error t, s)
    | .error (.miss _) =>
      let r := s.walk w va k
      if !(s.dieAt (dieOf w.ctx)).hubOpen (missPage va) then (r.1, s.hubWait w va)
      else
        match r with
        | (.ok p, s) => (.ok p, s.keepEntry w va)
        | (.error t, s) => (.error t, s)

/-- The hub had no walk for an address that this step has missed. -/
def End.isHub : End → Bool
  | .hub _ _ => true
  | _ => false

/-- A run of an engine does not take effect: the engine waits; a miss that the run has put into the hub's queue stays there. -/
def State.notYet (s t : State) : State :=
  match t.evt with
  | .hub d _ =>
    let q := (t.dieAt d).misses
    if q = (s.dieAt d).misses then { s with evt := .stall }
    else { s.modDie d fun k => { k with misses := q } with evt := .done }
  | _ => { s with evt := .stall }

/-- A context has parked for an address that the TLBs do not hold: it shares a walk for its page that is in progress, starts one while fewer
than 96 run, or waits in the queue of its core, or for room there. -/
def State.startMiss (s : State) (c : Nat) (va : Word) : State :=
  let d := s.dieAt (dieOf c)
  let pg := missPage va
  if d.walks.any (·.1 == pg) then s
  else if d.walks.length < 96 then
    (s.modDie (dieOf c) fun d => { d with walks := d.walks ++ [(pg, c)] }).enqueue (.walkComplete c)
  else s.modDie (dieOf c) fun d => d.addMiss ⟨c, va, true⟩

/-- The oldest waiting miss of the next core, in the round of the die's cores after the one served last. -/
def Die.nextMiss (d : Die) : Option Miss :=
  (List.range 192).findSome? fun i => d.misses.find? fun m => m.ctx / 4 % 192 == (d.hubLast + 1 + i) % 192

/-- Contexts of a core that have parked for a walk that nobody makes and that do not wait for one: they found the queue full. -/
def State.unheard (s : State) (g : Nat) : List (Nat × Word) :=
  let d := s.dieAt (g / 192)
  (List.range 4).filterMap fun i =>
    let c := 4 * g + i
    match (s.ctx c).status, (s.ctx c).wait with
    | .parked, .walk va _ _ =>
      if d.walks.any (·.1 == missPage va) || d.misses.any (fun m => m.ctx == c && m.parked) then none else some (c, va)
    | _, _ => none

/-- The hub takes waiting misses until a walk begins: of a parked context by a walk of its own, of others by filling the TLBs. A place that
this frees in a core's queue goes to a context that found it full. -/
def State.takeMisses (d : Nat) : Nat → State → State
  | 0, s => s
  | n + 1, s =>
    match (s.dieAt d).nextMiss with
    | none => s
    | some m =>
      let g := m.ctx / 4
      let s := s.modDie d fun k => { k with misses := k.misses.erase m, hubLast := g % 192 }
      let s := (s.unheard g).foldl (fun s x => s.modDie d fun k => k.addMiss ⟨x.1, x.2, true⟩) s
      if m.parked && (s.ctx m.ctx).status == .parked then s.startMiss m.ctx m.va
      else State.takeMisses d n (if m.parked then s else (s.walk ⟨m.ctx, true, none⟩ m.va .read).2)

def State.takeMiss (s : State) (d : Nat) : State := State.takeMisses d (s.dieAt d).misses.length s

/-- The contexts that share the walk of a page with context c. -/
def State.sharers (s : State) (c pg : Nat) : List Nat :=
  s.knownCtxs.filter fun x => x != c && dieOf x == dieOf c && !((s.dieAt (dieOf c)).misses.any fun m => m.ctx == x && m.parked) &&
    (s.ctx x).status == .parked && (match (s.ctx x).wait with
      | .walk va _ _ => missPage va == pg
      | _ => false)

/-- A walk has ended: those who shared it go on when the TLB holds their page and miss again when it does not; the hub takes the next
waiting miss. -/
def State.endWalk (s : State) (c : Nat) (va : Word) : State :=
  let s := s.modDie (dieOf c) fun d => { d with walks := d.walks.filter (·.1 != missPage va) }
  let s := (s.sharers c (missPage va)).foldl (fun s x =>
    match (s.ctx x).wait with
    | .walk a _ _ => if (s.tlbFind x a.toNat).isSome then s.makeReady x else s.startMiss x a
    | _ => s) s
  s.takeMiss (dieOf c)

/-! ## Scratchpad qualifiers (R14, R16) -/

/-- The local address of a qualified access of n bytes by a context, or none where R14 or R16 faults. -/
def scratch (c : Nat) (space : Space) (ea : Word) (n : Nat) : Option Nat :=
  let g := c / 4
  let a := ea.toNat
  match space with
  | .u => if a + n ≤ unitSize g then some (unitStore g + a) else none
  | .d => if a + n ≤ 2 ^ 30 then some (dieStore (dieOf c) + a) else none
  | .c =>
    let i := a / 2 ^ 28
    let off := a % 2 ^ 28
    let n0 := clusterOf c
    if i = 127 then (if off + n ≤ 192 * 2 ^ 20 then some (clusterStore n0 + off) else none)
    else if i < 96 then (if off + n ≤ unitSize i then some (unitStore (96 * n0 + i) + off) else none)
    else none
  | .g => none

/-- EINFO of a qualified access. -/
def scratchInfo (w : Who) (space : Space) (k : Kind) : Word :=
  accessInfo space 0 0 0 w.eng.isSome (k == .fetch) (k == .write) 7 0

end Sys2Proof.Machine
end

