-- ==== Sys2Proof/Machine/Parity.lean ====
section
/-! DEFINITION. The parity path of a home and a writer (R128 to R139, R143): which frames are protected, deltas, counts, sticky
bits and acknowledgements. -/

namespace Sys2Proof.Machine

/-! ## The protected region (R129 to R133) -/

/-- The device of member m of the stripe (R128). -/
def State.member (s : State) (m : Nat) : Nat := field s.prot.stripemap (6 * m) 6

/-- This device's own member index. -/
def State.selfMember (s : State) : Nat := field s.prot.stripemap 48 3

def State.protEnabled (s : State) : Bool := flag s.prot.protctl 0

/-- Member m is recorded as lost (R131). -/
def State.lost (s : State) (m : Nat) : Bool := flag s.prot.protctl (8 + m)

/-- The frame lies in the protected region. -/
def State.inRegion (s : State) (f : Nat) : Bool :=
  field s.prot.protregion 0 26 ≤ f && f < field s.prot.protregion 0 26 + field s.prot.protregion 32 26

/-- The member that holds the parity of frame f (R130). -/
def parityHolder (f : Nat) : Nat := f % 8

/-- Frame f of this device holds data of the region. -/
def State.dataFrame (s : State) (f : Nat) : Bool := s.inRegion f && parityHolder f != s.selfMember

/-- The row of R133 that applies to a write of an HBM address: the causes of the local fault and of the remote refusal. -/
def State.protRow (s : State) (a : Nat) (prot : Bool) : Option (Nat × Nat) :=
  let f := a / 2 ^ 16
  if a ≥ 2 ^ 40 then none
  else if prot && !s.protEnabled then some (0x24, 0x4E)
  else if prot && !s.dataFrame f then some (0x22, 0x4A)
  else if !prot && s.protEnabled && s.inRegion f then some (0x23, 0x4B)
  else none

/-- Who writes at a home: the device, the context with its instance or the engine operation, and whether the access is a strong one. -/
structure Writer where
  dev : Nat
  ctx : Nat
  op : Option Nat
  gen : Nat
  strong : Bool
  deriving DecidableEq, Repr

/-! ## Counts and sticky bits (R136, R137) -/

/-- The instance that context c runs, by number; no context has instance 0 of its own. -/
def State.parityGen (s : State) (c : Nat) : Nat := if c < noCtx then (s.ctx c).parityGen else 0

/-- A context still runs the instance with a number. -/
def State.runsGen (s : State) (c gen : Nat) : Bool := c < noCtx && (s.ctx c).parityGen == gen

/-- The parity count of a context, or of its unjoined engine operation, rises. -/
def State.parityUp (s : State) (c : Nat) (op : Option Nat) : State :=
  match op with
  | some o => { s with prot := { s.prot with opCounts := put o (look 0 o s.prot.opCounts + 1) s.prot.opCounts } }
  | none => s.modCtx c fun x => { x with parity := x.parity + 1 }

/-- A join passes the operation's count to the joining context (R136). -/
def State.joinParity (s : State) (c o : Nat) : State :=
  let k := look 0 o s.prot.opCounts
  if k = 0 then s
  else
    let p := { s.prot with opCounts := s.prot.opCounts.filter (·.1 != o),
                           joinedOps := s.prot.joinedOps ++ [⟨o, c, s.parityGen c, k⟩] }
    ({ s with prot := p }).modCtx c fun x => { x with parity := x.parity + k }

/-- Sets a sticky bit and records the device when the bit was clear. -/
def State.setSticky (s : State) (c : Nat) (k : AckKind) (dev : Nat) : State :=
  match k with
  | .applied => s
  | .noHold => s.modCtx c fun x => { x with nohold := x.nohold.or (some (Fin.ofNat 64 dev)) }
  | .noPar => s.modCtx c fun x => { x with nopar := x.nopar.or (some (Fin.ofNat 64 dev)) }

/-- Records an error of the parity path (R138, R139); the interrupt follows when VALID becomes 1. -/
def State.protError (s : State) (cause peer line : Nat) : State :=
  if flag s.prot.proterr 63 then s
  else
    let e := fieldsWord [(63, 1, 1), (48, 8, cause), (42, 6, peer), (0, 42, line)]
    let s := { s with prot := { s.prot with proterr := e } }
    if flag s.prot.protctl 1 then s.interrupt 3 else s

/-- The count of the instance falls and its sticky bit is set; one that has retired observes nothing (R141). -/
def State.settleCtx (s : State) (c gen : Nat) (k : AckKind) (dev : Nat) : State :=
  if s.runsGen c gen then (s.modCtx c fun x => { x with parity := x.parity - 1 }).setSticky c k dev else s

/-- A write that is counted settles: against its operation until the join, then against the joining context (R136). -/
def State.settleCounted (s : State) (c gen : Nat) (op : Option Nat) (k : AckKind) (dev : Nat) : State :=
  match op with
  | none => s.settleCtx c gen k dev
  | some o =>
    let n := look 0 o s.prot.opCounts
    if 0 < n then
      let l := s.prot.opCounts.filter (·.1 != o)
      let s := { s with prot := { s.prot with opCounts := if n = 1 then l else put o (n - 1) s.prot.opCounts } }
      if s.runsGen c gen then s.setSticky c k dev else s
    else
      match s.prot.joinedOps.find? (·.id == o) with
      | some j =>
        let less := fun (x : JoinedOp) => if x.id = o then { x with count := x.count - 1 } else x
        let l := (s.prot.joinedOps.map less).filter (·.count != 0)
        ({ s with prot := { s.prot with joinedOps := l } }).settleCtx j.ctx j.gen k dev
      | none => s

/-- A protected write settles without a delta: in the writer's sticky bits, here or on the writer's device. What tells that device names no
delta: its home is the device of the case. -/
def State.settleWrite (s : State) (w : Writer) (k : AckKind) (dev : Nat) : State :=
  if w.dev = s.device then (if s.runsGen w.ctx w.gen then s.setSticky w.ctx k dev else s)
  else s.send (.parityAck (Fin.ofNat 64 w.dev)
    ⟨Fin.ofNat 64 w.dev, w.ctx, w.op, w.gen, Fin.ofNat 64 dev, 0, Fin.ofNat 64 dev, k⟩)

/-- The delta of one write of a line (R132, R134, R138). The rule gives its cases no order: of a poisoned old line whose holder is lost the
model takes the poisoned line first (DESIGN CHOICE, assumption 82). -/
def State.delta (s : State) (w : Writer) (line : Nat) (xor : Line) (poisoned : Bool) : State :=
  let h := parityHolder (line / 2 ^ 16)
  let dev := s.member h
  if poisoned then (s.protError 0x01 dev line).settleWrite w .noPar s.device
  else if s.lost h then s.settleWrite w .noHold dev
  else
    let seq := look 0 dev s.prot.sendSeq
    let s := { s with prot := { s.prot with
               sendSeq := put dev (seq + 1) s.prot.sendSeq,
               unacked := s.prot.unacked ++ [(⟨dev, seq, w.dev, w.ctx, w.op, w.gen⟩ : Unacked)] } }
    let s := s.send (.delta (Fin.ofNat 64 dev) ⟨Fin.ofNat 64 s.device, Fin.ofNat 64 w.dev, w.ctx, w.op, w.gen, line, seq, xor⟩)
    if w.dev = s.device then s.parityUp w.ctx w.op else s

/-- An acknowledgement (R136, R138): the home of its delta counts the delta no longer, the writer's device settles the write. One of a delta
that was settled as NOHOLD before comes late and changes nothing (R143). How a home learns of the acknowledgement of another device's
write is not stated: the event comes to it too (assumption 83). -/
def State.parityAcked (s : State) (a : ParityAck) : State :=
  let settled := fun (s : State) => if a.writer.val = s.device then s.settleCounted a.ctx a.gen a.op a.kind a.dev.val else s
  let mine := fun (u : Unacked) => u.holder == a.dev.val && u.seq == a.seq
  let late := (a.home.val, a.dev.val, a.seq)
  if a.home.val = s.device then
    if s.prot.unacked.any mine then settled { s with prot := { s.prot with unacked := s.prot.unacked.filter (!mine ·) } }
    else if a.kind = .noHold then settled s
    else s
  else if a.kind = .noHold && a.dev != a.home then
    settled { s with prot := { s.prot with lateAcks := s.prot.lateAcks ++ [late] } }
  else if s.prot.lateAcks.contains late then { s with prot := { s.prot with lateAcks := s.prot.lateAcks.erase late } }
  else settled s

/-- The message is a delta for a device. -/
def OutMsg.isDelta (dev : Nat) : OutMsg → Bool
  | .delta d _ => d.val == dev
  | _ => false

/-- The packet is an own delta, or the rest of one, for a device. -/
def Packet.isDelta (dev : Nat) (p : Packet) : Bool := p.dest.val == dev && p.relay.isNone && p.flits.any (·.1 == 0x6)

/-- The flit is of an own delta for a device. -/
def LinkFlit.isDelta (dev : Nat) (f : LinkFlit) : Bool := f.dest.val == dev && f.relay.isNone && f.kind == 0x6

/-- Takes the deltas for a device out of the flits that wait on a link, each with the header that a detour has added. -/
def dropDeltas (dev : Nat) : List LinkFlit → List LinkFlit
  | [] => []
  | f :: l =>
    if f.isDelta dev || (f.kind == 0x8 && (l.head?.any (·.isDelta dev))) then dropDeltas dev l else f :: dropDeltas dev l

/-- No delta is sent to a device any more (R143): those that wait are taken out of the send queues. What has been sent of one stays in the
replay buffer of its link, which numbers it (DESIGN CHOICE, assumption 111). -/
def State.dropDeltas (s : State) (dev : Nat) : State :=
  let n := s.fab.flitted
  { s with
    outbox := s.outbox.take n ++ (s.outbox.drop n).filter (!·.isDelta dev),
    fab := { s.fab with
      txq := s.fab.txq.filter (!·.isDelta dev),
      links := s.fab.links.map fun (x : Link) => { x with queue := Sys2Proof.Machine.dropDeltas dev x.queue } } }

/-- Every delta that awaits device dev settles as NOHOLD, here or on its writer's device (R143). -/
def State.settleLost (s : State) (dev : Nat) : State :=
  let gone := s.prot.unacked.filter (·.holder == dev)
  let s := { s.dropDeltas dev with prot := { s.prot with
             unacked := s.prot.unacked.filter (·.holder != dev), heldDeltas := s.prot.heldDeltas.filter (·.home.val != dev) } }
  gone.foldl (fun s u =>
    if u.writer = s.device then s.settleCounted u.ctx u.gen u.op .noHold dev
    else s.send (.parityAck (Fin.ofNat 64 u.writer)
      ⟨Fin.ofNat 64 u.writer, u.ctx, u.op, u.gen, Fin.ofNat 64 s.device, u.seq, Fin.ofNat 64 dev, .noHold⟩)) s

/-- A write of PROTCTL (R131, R143): members newly lost are settled. -/
def State.writeProtctl (s : State) (v : Word) : State :=
  let old := s.prot.protctl
  let s := { s with prot := { s.prot with protctl := v &&& 0xFF03 } }
  (List.range 8).foldl (fun s m => if flag v (8 + m) && !flag old (8 + m) then s.settleLost (s.member m) else s) s

/-- An own delta is still queued to send (R139). -/
def State.deltaQueued (s : State) : Bool :=
  (List.range 64).any fun dev =>
    ((s.outbox.drop s.fab.flitted).any (·.isDelta dev)) || s.fab.txq.any (·.isDelta dev) ||
      s.fab.links.any fun (x : Link) => x.queue.any (·.isDelta dev)

/-- PROTSTAT (R139). -/
def State.protstat (s : State) : Word :=
  let outs := s.prot.unacked.length
  let held := s.prot.heldDeltas.length
  fieldsWord [(32, 16, Nat.min outs 0xFFFF), (16, 16, Nat.min held 0xFFFF),
    (0, 1, (outs != 0 || held != 0 || s.deltaQueued).toNat)]

end Sys2Proof.Machine
end

