-- ==== Sys2Proof/Machine/Rotor.lean ====
section
/-! DEFINITION. The optics as tables (R366 to R375): slot tables, grants, the state of lines, which positions carry light, to whom the
receive lanes listen, and the fabric event log (R355). -/

namespace Sys2Proof.Machine

/-! ## The fabric event log (R355, R372) -/

/-- Logs a fabric event; a full log drops it and sets OVF. -/
def State.logFabric (s : State) (code peer plane lane line : Nat) : State :=
  let r := fieldsWord [(56, 8, code), (50, 6, peer), (45, 5, plane), (42, 3, lane), (35, 7, line), (0, 35, s.now)]
  let s :=
    if 256 ≤ s.fab.log.length then { s with fab := { s.fab with fevtstat := setFlag s.fab.fevtstat 63 true } }
    else { s with fab := { s.fab with log := s.fab.log ++ [r] } }
  if flag s.fab.fevtstat 62 then s.interrupt 5 else s

/-! ## Slot tables (R370 to R375) -/

/-- The number of an entry among the stored ones. -/
def entryKey (plane slot lane : Nat) : Nat := (plane * 16 + slot) * 8 + lane

/-- An entry of a mode and shift. -/
def slotEntry (mode shift : Nat) : BitVec 16 := BitVec.ofNat 16 (mode * 2 ^ 14 + shift % 64 * 2 ^ 8)

/-- What the profile puts into a position. -/
def Fabric.profileEntry (f : Fabric) (plane slot lane : Nat) : BitVec 16 :=
  if f.profile = 0 then
    let w := (8 * slot + lane + plane) % 64
    slotEntry (if w = 0 then 3 else 1) w
  else if lane < 2 then
    match f.circuits with
    | some c => slotEntry 2 (if lane = 0 then c.1 else c.2).toNat
    | none => slotEntry 3 0
  else
    let n := 6 * slot + (lane - 2)
    if n ≤ 62 then slotEntry 1 (n + 1) else slotEntry 3 0

/-- The entry of a position. -/
def Fabric.entry (f : Fabric) (plane slot lane : Nat) : BitVec 16 :=
  look (f.profileEntry plane slot lane) (entryKey plane slot lane) f.table

/-- The period of the profile in force, in rotor slots. -/
def Fabric.plen (f : Fabric) : Nat := field f.fabctl 32 8

def entryMode (e : BitVec 16) : Nat := e.toNat / 2 ^ 14
def entryShift (e : BitVec 16) : Nat := e.toNat / 2 ^ 8 % 64
def entryReserve (e : BitVec 16) : Bool := e.getLsbD 7
def entryDetour (e : BitVec 16) : Bool := e.getLsbD 6
def entryRelay (e : BitVec 16) : Nat := e.toNat % 64

/-- The entry is one for transmission. -/
def entrySends (e : BitVec 16) : Bool := entryMode e == 1 || entryMode e == 2

/-- The peer that a shift reaches (R368). -/
def State.shiftPeer (s : State) (w : Nat) : Nat := (s.device + w) % 64

/-- A position is idle: its peer is no live member, its shift stands on a lower lane of the plane in the slot, or it is a rotor position of
a circuit's shift (R369, R370, R374). -/
def State.idlePosition (s : State) (plane slot lane : Nat) : Bool :=
  let e := s.fab.entry plane slot lane
  let w := entryShift e
  let same := fun l => let x := s.fab.entry plane slot l; entrySends x && entryShift x == w
  let circuit := match s.fab.circuits with
    | some c => s.fab.profile == 1 && (c.1.toNat == w || c.2.toNat == w)
    | none => false
  !entrySends e || w == 0 || !flag s.fab.podmask (s.shiftPeer w) || (List.range lane).any same || (entryMode e == 1 && circuit)

/-! ## Lines and grants (R366, R367) -/

/-- The number of a line's register: comb A, B or Z. -/
def lineKey (comb w : Nat) : Nat := comb * 64 + w

/-- STATE of a line: 0 LIT, 1 MUTED, 2 RETUNE, 3 FAULT. -/
def Fabric.lineState (f : Fabric) (comb w : Nat) : Nat := field (look 0 (lineKey comb w) f.linestat) 62 2

def State.setLine (s : State) (comb w : Nat) (state : Nat) : State :=
  let k := lineKey comb w
  { s with fab := { s.fab with linestat := put k (setField (look 0 k s.fab.linestat) 62 2 state) s.fab.linestat } }

/-- Lanes that hold a reserve line. -/
def Fabric.holders (f : Fabric) (line : Nat) : List (Nat × Nat) :=
  (f.granted.filter fun g => g.1 == line).map fun g => g.2

/-- The comb that feeds an engine. -/
def combOf (plane : Nat) : Nat := plane / 16

/-- A lane of an engine has a position of a shift on the reserve line. -/
def Fabric.replaced (f : Fabric) (plane lane w : Nat) : Bool :=
  let reserve := fun e => entrySends e && entryShift e == w && entryReserve e
  ((List.range f.plen).any fun t => reserve (f.entry plane t lane)) ||
    f.changes.any fun c => c.plane == plane && c.lane == lane && reserve c.entry

/-- A line's register with its NRES (R372). -/
def State.lineStat (s : State) (k : Nat) : Word :=
  let w := k % 64
  let n :=
    if 128 ≤ k then (s.fab.holders (64 + w)).length
    else ((s.fab.holders (64 + w)).filter fun g => combOf g.1 == k / 64 && s.fab.replaced g.1 g.2 w).length
  setField (look 0 k s.fab.linestat) 0 3 n

/-- The lasers can be lit: EN is 1, and the device is neither in HOLD (R422) nor in RETENTION or OFF (R396). -/
def State.lasersOn (s : State) : Bool :=
  flag s.fab.fabctl 0 && field s.mgmt.bootstat 62 2 != 1 && field s.pwr.pwrstat 45 2 < 2

/-- The lane is lit in a position: on the reserve line under a grant, or on its comb's line (R366, R367). A direct position alone
carries flits to its peer (R370). -/
def State.litPosition (s : State) (plane slot lane : Nat) : Bool :=
  let e := s.fab.entry plane slot lane
  let w := entryShift e
  let lit :=
    if entryReserve e then s.fab.granted.contains (64 + w, plane, lane) && s.fab.lineState 2 w == 0
    else s.fab.lineState (combOf plane) w == 0 && !s.fab.withheld.contains (w, plane, lane)
  s.lasersOn && !s.fab.muted && lit && !entryDetour e && !s.idlePosition plane slot lane

/-- The device to which a receive lane listens in a slot: the lanes mirror the profile, and lane 0 hears the circuit of the member before,
lane 1 that of the member after (R369, R370, R375). -/
def State.listens (s : State) (plane slot lane : Nat) : Option Nat :=
  let e := s.fab.profileEntry plane slot lane
  match entryMode e with
  | 1 => some ((s.device + 64 - entryShift e) % 64)
  | 2 => s.fab.circuits.map fun c => s.shiftPeer (if lane = 0 then c.2 else c.1).toNat
  | _ => none

/-- Some receive lane of a plane listens to a peer in the current slot. -/
def State.hears (s : State) (plane : Nat) (peer : Fin 64) : Bool :=
  (List.range 8).any fun l => s.listens plane s.fab.slot l == some peer.val

/-- The positions of a slot: plane and lane, in order. -/
def slotPositions : List (Nat × Nat) := (List.range 32).flatMap fun k => (List.range 8).map fun l => (k, l)

/-- The lanes of an engine with a position of a shift that is not detoured, in order. -/
def Fabric.lanesOf (f : Fabric) (plane w : Nat) : List Nat :=
  (List.range 8).filter fun l =>
    (List.range f.plen).any fun t => let e := f.entry plane t l; entrySends e && entryShift e == w && !entryDetour e

/-- Some position of a plane reaches a peer directly. -/
def State.litPlane (s : State) (plane peer : Nat) : Bool :=
  (List.range s.fab.plen).any fun t => (List.range 8).any fun l =>
    s.litPosition plane t l && s.shiftPeer (entryShift (s.fab.entry plane t l)) == peer

end Sys2Proof.Machine
end

