-- ==== Sys2Proof/Machine/Mmio.lean ====
section
/-! DEFINITION. The system registers (R443 and the register maps of the chapters): what a read gives and what a write does, with
the access codes of R5. A register is eight bytes; a write that covers only some of them leaves the other bytes of its RW fields
as they were, and clears or triggers nothing in them (assumption 20). A write that starts an engine puts that engine's event on
the agenda. -/

namespace Sys2Proof.Machine

/-! ## Interrupt conditions that hold on (R416) -/

/-- Entries of the remote-fault log not yet consumed (R42). -/
def State.logFill (s : State) : Nat := (field s.regs.rfltail 0 32 + 2 ^ 32 - field s.regs.rflhead 0 32) % 2 ^ 32

/-- A condition that holds sets its bit at once, so also right after the bit was cleared. -/
def State.recheck (s : State) : State :=
  let s := if flag s.regs.rflctl 0 && Nat.max (field s.regs.rflctl 16 16) 1 ≤ s.logFill then s.interrupt 1 else s
  let s := if flag s.prot.proterr 63 && flag s.prot.protctl 1 then s.interrupt 3 else s
  let s := if (flag s.pwr.pwrstat 42 || flag s.pwr.pwrstat 41) && flag s.pwr.pwrctl 0 then s.interrupt 4 else s
  if flag s.fab.fevtstat 62 && !s.fab.log.isEmpty then s.interrupt 5 else s

/-! ## Writes with effects of their own -/

/-- STRIPEMAP of a device number (R128). -/
def stripeFor (d : Nat) : Word :=
  fieldsWord ((48, 3, d % 8) :: (List.range 8).map fun m => (6 * m, 6, d / 8 * 8 + m))

/-- A write of DEVNUM (R423). -/
def State.writeDevnum (s : State) (d : Nat) : State :=
  if flag s.fab.fabctl 0 then s
  else
    let s := { s with mgmt := { s.mgmt with devnum := BitVec.ofNat 6 d } }
    if s.prot.stripeWritten then s else { s with prot := { s.prot with stripemap := stripeFor (d % 64) } }

/-- A write of PWRCTL in range (R395). -/
def pwrctlLegal (v : Word) : Bool :=
  4000 ≤ field v 50 14 && field v 50 14 ≤ 12000 && field v 48 2 != 3 && field v 46 2 != 3

/-- A write of THERMCTL in range. -/
def thermctlLegal (v : Word) : Bool := field v 16 8 ≤ field v 8 8 && field v 8 8 ≤ field v 0 8

/-- A mailbox write (R395): applied at the next toll boundary, or ignored with REJ. -/
def State.mailbox (s : State) (therm : Bool) (v : Word) : State :=
  let rej := { s with pwr := { s.pwr with pwrstat := setFlag s.pwr.pwrstat 43 true } }
  if therm then
    if thermctlLegal v then { s with pwr := { s.pwr with thermctlPend := some (v &&& 0xFFFFFF) } } else rej
  else if pwrctlLegal v then
    { s with pwr := { s.pwr with pwrctlPend := some (v &&& (ones 46 18 ||| ones 38 4 ||| 1)) } }
  else rej

/-- A write of a cluster's PERMITS (R399). -/
def State.writePermits (s : State) (n : Nat) (v : Word) : State :=
  if permitsLegal v then s.modCluster n fun k => { k with permitsPend := some (v &&& 0x7F7F) } else s

/-- A write of FRAMEMAP's SYNC (R39): it reads 1 until the drop is done. -/
def State.startSync (s : State) : State :=
  ({ s with regs := { s.regs with framemap := setFlag s.regs.framemap 1 true } }).enqueue .framemapSync

/-- A write of KEYCTL (R429): LOAD installs KEYBUF into SLOT, ERASE clears it; slot 0 stays. -/
def State.keyLoad (s : State) : State :=
  let k := field s.mgmt.keyctl 0 11
  if k = 0 then s
  else { s with mgmt := { s.mgmt with
           keys := (k, s.mgmt.keybuf) :: s.mgmt.keys.filter (·.1 != k), keybuf := 0 } }

def State.keyErase (s : State) : State :=
  let k := field s.mgmt.keyctl 0 11
  if k = 0 then s else { s with mgmt := { s.mgmt with keys := s.mgmt.keys.filter (·.1 != k) } }

/-- A store to FATAL (R411): the fault is fatal in the storing context. -/
def State.fatalBy (s : State) (c : Nat) (v : Word) : State := s.inCtx c fun s => s.fatal (v.setWidth 8)

/-! ## Storing into a register -/

/-- The offset of an M-core's MXERR (R284). -/
def mxerrAt (a : Nat) : Bool := 0x20000 ≤ a && a < 0x20000 + 8 * 4608 && isMCore ((a - 0x20000) / 8)

/-- The bits of the bytes that a write covers. -/
def byteBits (bmask : BitVec 8) : Word := BitVec.ofNat 64 (spread 8 (bmask.setWidth 64))

/-- RW bits take the written value, W1C bits are cleared by ones; other bits stay. -/
def regStore (old v bits rw w1c : Word) : Word :=
  ((old &&& ~~~ (bits &&& rw)) ||| (v &&& bits &&& rw)) &&& ~~~ (v &&& bits &&& w1c)

/-- What a write does beyond the bits it stores in PREEMPT, VACATE, ATTEST and REBUILD. -/
def State.startEngines (s : State) (a : Nat) (v : Word) : State :=
  match a with
  | 0x1630 => if flag s.mgmt.preempt 0 then s else
      let s := { s with mgmt := { s.mgmt with preempt := (v &&& ones 38 24 &&& ~~~ ones 53 1) ||| (s.mgmt.preempt &&& 2) } }
      if field v 60 2 = 3 then s
      else if field v 62 2 = 1 then s.enqueue .preemptSave
      else if field v 62 2 = 2 then s.enqueue .preemptRestore
      else s
  | 0x1780 =>
    let busy := field s.mgmt.vacate 60 3 != 0 && field s.mgmt.vacate 60 3 != 7
    let s := { s with mgmt := { s.mgmt with vacate := setField s.mgmt.vacate 0 6 (field v 0 6) } }
    if flag v 63 && !busy then ({ s with fab := { s.fab with vacateIn := s.fab.vacateIn ++ [VacatePart.go] } }).enqueue .vacateGo else s
  | 0x17C0 =>
    let busy := flag s.mgmt.attest 62
    let s := { s with mgmt := { s.mgmt with attest := setField s.mgmt.attest 0 42 (field v 0 42) } }
    if flag v 63 && !busy then s.enqueue .attestGo else s
  | _ =>
    if flag s.prot.rebuild 63 then s
    else
      let r := (v &&& (ones 60 2 ||| ones 26 26)) ||| (s.prot.rebuild &&& (ones 62 1 ||| ones 0 26))
      let s := { s with prot := { s.prot with rebuild := r } }
      if !flag v 63 then s
      else match field v 60 2 with
        | 0 => s.enqueue (.rebuildAll PeerView.none)
        | 1 => s.enqueue (.rebuildFrame PeerView.none)
        | 2 => s.enqueue (.rebuildParity PeerView.none)
        | _ => s

/-- A write of FABCTL (R372): EN and DRAIN change at once, and what follows from them and from PROFILE is done by their events. What waited
for a drain to end happens then (R389). -/
def State.writeFabctl (s : State) (v bits : Word) : State :=
  let old := s.fab.fabctl
  let new := regStore old v bits (ones 58 6 ||| ones 4 4) 0
  let s := { s with fab := { s.fab with fabctl := new } }
  let s := if bits &&& 0xFFFFFF00 = 0 then s else
    { s with fab := { s.fab with fabctl := regStore s.fab.fabctl v bits (ones 8 24) 0 } }
  let s := if bits &&& ones 48 2 = 0 then s
    else s.enqueue (.profileSelect (BitVec.ofNat 2 (field v 48 2)) (BitVec.ofNat 24 (field s.fab.fabctl 8 24)))
  if bits &&& 1 = 0 then s
  else
    let set := fun (b : Nat) (x : Bool) (s : State) => { s with fab := { s.fab with fabctl := setFlag s.fab.fabctl b x } }
    let s := if flag v 0 = flag old 0 then s else (set 0 (flag v 0) s).enqueue (.fabricEnable (flag v 0))
    if flag v 2 then (if flag old 2 then s else (set 2 true s).enqueue .fabricDrain)
    else ({ s with fab := { s.fab with fabctl := setField s.fab.fabctl 2 2 0, heldBack := [] } }).enqueueAll s.fab.heldBack

/-- The registers that only system contexts may write: RSETTAB (R33), PTROOT (R23), PROTCTL, PROTREGION, STRIPEMAP, REBUILD (R128 to R131,
R145), MXERR (R284), RXCTL (R341), RBSTAT (R414). A write by the host is ignored. -/
def systemOnly (a : Nat) : Bool :=
  (0x2000 ≤ a && a < 0x2800) || mxerrAt a || ([0x1000, 0x1200, 0x1208, 0x1210, 0x1228, 0x1300, 0x1620] : List Nat).contains a

/-- Writes the bytes of `bmask` of the register at address a (an offset from the start of the range) on behalf of a context, or
of the host. `strong` says that the store is a strong one. -/
def State.regWrite (s : State) (c : Option Nat) (strong : Bool) (a : Nat) (bmask : BitVec 8) (v : Word) : State :=
  let bits := byteBits bmask
  let all := bmask = 0xFF
  if c.isNone && systemOnly a then s
  else if a = 0x100 then (if bits &&& 0x3F = 0 then s else s.writeDevnum (field v 0 6))
  else if a = 0x108 then
    if flag (v &&& bits) 61 && field s.mgmt.bootstat 62 2 == 1 then
      { s with freeCount := s.freeCount + 1 }.enqueue (.selftestRetest (Config.selfTest s.freeCount))
    else s
  else if 0x800 ≤ a ∧ a < 0x838 then
    let i := (a - 0x800) / 8
    let rw := if i = 2 then ones 0 48 else if i ≥ 4 then 0 else ones 0 64
    { s with regs := { s.regs with kick := s.regs.kick.set i (regStore (s.regs.kick.getD i 0) v bits rw 0) } }
  else if a = 0x838 then 
    if all ∧ v = 1 then ({ s with regs := { s.regs with kickGos := s.regs.kickGos ++ [s.regs.kick] } }).enqueue .kickGo
    else s
  else if a = 0x840 then
    { s with regs := { s.regs with kickstat := regStore s.regs.kickstat v bits (ones 4 1) (ones 5 1) } }
  else if a = 0x850 then
    if field s.regs.kickstat 0 4 = 3 then s
    else { s with regs := { s.regs with ctxarea := regStore s.regs.ctxarea v bits (ones 22 20 ||| 1) 0 } }
  else if a = 0x1000 then { s with regs := { s.regs with ptroot := regStore s.regs.ptroot v bits (ones 8 34 ||| 1) 0 } }
  else if a = 0x1010 then { s with regs := { s.regs with rflbase := regStore s.regs.rflbase v bits (ones 19 23 ||| 1) 0 } }
  else if a = 0x1018 then
    ({ s with regs := { s.regs with rflhead := regStore s.regs.rflhead v bits (ones 0 32) 0 } }).recheck
  else if a = 0x1028 then
    ({ s with regs := { s.regs with rflctl := regStore s.regs.rflctl v bits (ones 16 16 ||| 1) 4 } }).recheck
  else if a = 0x1030 then
    let s := { s with regs := { s.regs with framemap := regStore s.regs.framemap v bits (ones 24 18 ||| 1) 0 } }
    if flag (v &&& bits) 1 then s.startSync else s
  else if 0x1040 ≤ a ∧ a < 0x11C0 then
    let d := (a - 0x1040) / 16
    if a % 16 = 0 then s.modDie d fun k => { k with memecc := regStore k.memecc v bits (ones 16 48 ||| 1) 0 }
    else s.modDie d fun k => { k with memeccaddr := regStore k.memeccaddr v bits 0 (ones 63 1) }
  else if a = 0x1200 then s.writeProtctl (regStore s.prot.protctl v bits 0xFF03 0)
  else if a = 0x1208 then
    if s.protEnabled then s
    else { s with prot := { s.prot with protregion := regStore s.prot.protregion v bits (ones 32 26 ||| ones 0 26) 0 } }
  else if a = 0x1210 then
    { s with prot := { s.prot with stripemap := regStore s.prot.stripemap v bits (ones 0 51) 0, stripeWritten := true } }
  else if a = 0x1220 then
    ({ s with prot := { s.prot with proterr := regStore s.prot.proterr v bits 0 (ones 63 1) } }).recheck
  else if a = 0x1228 then s.startEngines a (v &&& bits ||| (s.prot.rebuild &&& ~~~ bits &&& ones 26 36))
  else if a = 0x1300 then 
    { s with fab := { s.fab with rxctl := regStore s.fab.rxctl v bits (ones 26 16 ||| 1) 0 } }.enqueueAll
      ((s.fab.withheldMsgs.take 1).map .messageHeaderArrival)
  else if a = 0x1400 then s.writeFabctl v bits
  else if a = 0x1408 then
    let s := { s with fab := { s.fab with podmaskNext := regStore s.fab.podmaskNext v bits (ones 0 64) 0 } }
    if flag s.fab.fabctl 0 then s else s.enqueue .periodBoundary
  else if a = 0x1418 then
    ({ s with fab := { s.fab with fevtstat := regStore s.fab.fevtstat v bits (ones 62 1) (ones 63 1) } }).recheck
  else if 0x1E00 ≤ a ∧ a < 0x1E80 then
    let i := (a - 0x1E00) / 8
    let new := regStore (look 0 i s.fab.relaytab) v bits (ones 63 1 ||| ones 50 6 ||| ones 44 6 ||| ones 0 32) 0
    if flag (v &&& bits) 63 && field s.fab.fabctl 4 4 ≤ i then s
    else { s with fab := { s.fab with relaytab := put i new s.fab.relaytab } }
  else if a = 0x1500 then s.mailbox false (regStore (s.pwr.pwrctlPend.getD s.pwr.pwrctl) v bits (ones 0 64) 0)
  else if a = 0x1508 then
    { s with pwr := { s.pwr with pwrstatClr := s.pwr.pwrstatClr ||| (v &&& bits &&& ones 41 3) } }
  else if a = 0x1510 then s.mailbox true (regStore (s.pwr.thermctlPend.getD s.pwr.thermctl) v bits (ones 0 24) 0)
  else if a = 0x1600 then
    ({ s with mgmt := { s.mgmt with intstat := regStore s.mgmt.intstat v bits 0 (ones 0 9) } }).recheck
  else if a = 0x1608 then
    { s with mgmt := { s.mgmt with intctl := regStore s.mgmt.intctl v bits (ones 32 9 ||| ones 16 6 ||| ones 0 9) 0 } }
  else if a = 0x1610 then { s with mgmt := { s.mgmt with trapdev := regStore s.mgmt.trapdev v bits (ones 14 42) 0 } }
  else if a = 0x1618 then
    match c with
    | some c => if strong && all then s.enqueue (.fatalStore c v) else s
    | none => s
  else if a = 0x1620 then
    { s with mgmt := { s.mgmt with rbstat := regStore s.mgmt.rbstat v bits (ones 32 32 ||| ones 0 4) 0 } }
  else if a = 0x1630 then s.startEngines a (v &&& bits ||| (s.mgmt.preempt &&& ~~~ bits &&& ones 38 24))
  else if a = 0x1638 then { s with mgmt := { s.mgmt with savebase := regStore s.mgmt.savebase v bits (ones 32 10 ||| 1) 0 } }
  else if a = 0x1700 then
    let s := { s with mgmt := { s.mgmt with keyctl := regStore s.mgmt.keyctl v bits (ones 0 11) 0 } }
    let s := if flag (v &&& bits) 63 then s.keyLoad else s
    if flag (v &&& bits) 62 then s.keyErase else s
  else if 0x1740 ≤ a ∧ a < 0x1780 then
    let i := a - 0x1740
    { s with mgmt := { s.mgmt with
      keybuf := mergeLine s.mgmt.keybuf (lineAt i v.toNat) (bmask.setWidth 64 <<< i) } }
  else if a = 0x1780 then s.startEngines a (v &&& bits ||| (s.mgmt.vacate &&& ~~~ bits &&& 0x3F))
  else if a = 0x17C0 then s.startEngines a (v &&& bits ||| (s.mgmt.attest &&& ~~~ bits &&& ones 0 42))
  else if 0x2000 ≤ a ∧ a < 0x2800 then
    let i := (a - 0x2000) / 8
    { s with regs := { s.regs with rsettab := put i (regStore (s.rset i) v bits (ones 0 64) 0) s.regs.rsettab } }
  else if 0x2800 ≤ a ∧ a < 0x2B00 ∧ a % 16 = 0 then
    let n := (a - 0x2800) / 16
    let k := s.clusterAt n
    s.writePermits n (regStore (k.permitsPend.getD k.permits) v bits (ones 0 64) 0)
  else if mxerrAt a then s.modMx ((a - 0x20000) / 8) fun m => { m with mxerr := regStore m.mxerr v bits (ones 16 48) 0 }
  else s

/-! ## Reading -/

/-- What a read of the register at an offset gives; an address that names no register gives zero (R443). -/
def State.regRead (s : State) (a : Nat) : Word :=
  if a = 0x100 then fieldsWord [(32, 32, 0x4B4A624A), (8, 8, Config.stepping.toNat), (0, 6, s.device)]
  else if a = 0x108 then s.mgmt.bootstat
  else if 0x800 ≤ a ∧ a < 0x838 then s.regs.kick.getD ((a - 0x800) / 8) 0
  else if a = 0x840 then s.regs.kickstat
  else if a = 0x848 then s.regs.kickdone
  else if a = 0x850 then s.regs.ctxarea
  else if a = 0x1000 then s.regs.ptroot
  else if a = 0x1010 then s.regs.rflbase
  else if a = 0x1018 then s.regs.rflhead
  else if a = 0x1020 then s.regs.rfltail
  else if a = 0x1028 then setFlag s.regs.rflctl 1 (4096 ≤ s.logFill)
  else if a = 0x1030 then s.regs.framemap
  else if 0x1040 ≤ a ∧ a < 0x11C0 then
    let d := s.dieAt ((a - 0x1040) / 16)
    if a % 16 = 0 then d.memecc else d.memeccaddr
  else if a = 0x1200 then s.prot.protctl
  else if a = 0x1208 then s.prot.protregion
  else if a = 0x1210 then s.prot.stripemap
  else if a = 0x1218 then s.protstat
  else if a = 0x1220 then s.prot.proterr
  else if a = 0x1228 then s.prot.rebuild
  else if a = 0x1300 then setField s.fab.rxctl 8 9 (Nat.min s.fab.layby.length 256)
  else if a = 0x1400 then s.fab.fabctl
  else if a = 0x1408 then s.fab.podmaskNext
  else if a = 0x1410 then s.fab.periodno
  else if a = 0x1418 then setField s.fab.fevtstat 0 9 s.fab.log.length
  else if a = 0x1500 then s.pwr.pwrctl
  else if a = 0x1508 then s.pwr.pwrstat
  else if a = 0x1510 then s.pwr.thermctl
  else if a = 0x1600 then s.mgmt.intstat
  else if a = 0x1608 then s.mgmt.intctl
  else if a = 0x1610 then s.mgmt.trapdev
  else if a = 0x1620 then s.mgmt.rbstat
  else if a = 0x1630 then s.mgmt.preempt
  else if a = 0x1638 then s.mgmt.savebase
  else if a = 0x1700 then s.mgmt.keyctl
  else if a = 0x1780 then s.mgmt.vacate
  else if a = 0x17C0 then s.mgmt.attest
  else if 0x1800 ≤ a ∧ a < 0x1E00 then
    s.lineStat ((a - 0x1800) / 8)
  else if 0x1E00 ≤ a ∧ a < 0x1E80 then look 0 ((a - 0x1E00) / 8) s.fab.relaytab
  else if 0x2000 ≤ a ∧ a < 0x2800 then s.rset ((a - 0x2000) / 8)
  else if 0x2800 ≤ a ∧ a < 0x2B00 then
    let k := s.clusterAt ((a - 0x2800) / 16)
    if a % 16 = 0 then k.permits else k.boostlvl
  else if 0x2C00 ≤ a ∧ a < 0x2D80 then (s.clusterAt ((a - 0x2C00) / 8)).energy
  else if 0x2E00 ≤ a ∧ a < 0x2EC0 then (s.dieAt ((a - 0x2E00) / 8)).balance
  else if mxerrAt a then (s.coreAt ((a - 0x20000) / 8)).mx.mxerr
  else 0

/-- The 64 bytes of a line of the system-register range. -/
def State.regLine (s : State) (line : Nat) : Line :=
  BitVec.ofNat 512 ((List.range 8).foldr (fun i acc => (s.regRead (line - sysBase + 8 * i)).toNat + 2 ^ 64 * acc) 0)

/-- Writes the masked bytes of a line of the system-register range, lowest register first. -/
def State.regWriteLine (s : State) (c : Option Nat) (strong : Bool) (line : Nat) (mask : BitVec 64) (data : Line) : State :=
  (List.range 8).foldl (fun s i =>
    let bm : BitVec 8 := (mask >>> (8 * i)).setWidth 8
    if bm = 0 then s
    else s.regWrite c strong (line - sysBase + 8 * i) bm ((data >>> (64 * i)).setWidth 64)) s

end Sys2Proof.Machine
end

