-- ==== Sys2Proof/Machine/Access.lean ====
section
/-! DEFINITION. Accesses to memory: where the bytes of an access lie, loads, the deferred store buffer and the journal (R55 to
R61), writes performed at a home, remote accesses (R40, R119), draining and publishing (R59, R102, R108), and the reads and
writes of engines. -/

namespace Sys2Proof.Machine

/-! ## Faults of an access -/

/-- Raises what stopped an access: a fault, uncorrectable data, or a wait for a translation walk (R22). -/
def State.raise (s : State) (t : Trap) : State := if t.code = 0x0E ∨ t.code = 0x0F then s.consume t else s.trap t

/-- A fault as the current syllable raises it: uncorrectable data name its slot (R415). -/
def State.slotFault (s : State) (t : Trap) : Trap :=
  if t.code = 0x0E ∨ t.code = 0x0F then { t with einfo := setField t.einfo 11 3 s.issue.slot.val } else t

def State.stopAccess (s : State) (k : Kind) (e : XErr) : State :=
  match e with
  | .fault t => s.raise (s.slotFault t)
  | .miss va =>
    match s.cx.walkFault with
    | some (a, t) => if a = va then s.raise (s.slotFault t) else { s.parkOn (.walk va (k == .write) false) with evt := .walk }
    | none => { s.parkOn (.walk va (k == .write) false) with evt := .walk }

/-- Uncorrectable data at an address (R415). -/
def State.eccTrap (s : State) (space : Space) (ea : Word) : Trap := ⟨0x0F, ea, rollbackInfo space.code 0 s.issue.slot.val⟩

/-! ## Where the bytes lie -/

/-- The part of an access that lies in one line: its first byte's index in the access, its length, its effective address and its
place. -/
structure Piece where
  pos : Nat
  len : Nat
  ea : Word
  space : Space
  at_ : Place
  deriving DecidableEq, Repr

def Piece.line (p : Piece) : Nat := lineOf p.at_.loc
def Piece.off (p : Piece) : Nat := p.at_.loc % 64
def Piece.mask (p : Piece) : BitVec 64 := byteMask p.off p.len
/-- The pod address of the line (R10). -/
def Piece.pod (p : Piece) : Nat := p.at_.dev * 2 ^ 42 + p.line
/-- A write of the piece is a protected write (R132): its home is HBM and its leaf has PROT = 1. -/
def Piece.counted (p : Piece) : Bool := p.at_.prot && p.line < 2 ^ 40
/-- A drained line is a protected write. -/
def DLine.counted (l : DLine) : Bool := l.prot && l.pod % 2 ^ 42 < 2 ^ 40

/-- Cuts n bytes from address a at the lines: (first byte, length). -/
def lineParts (a n : Nat) : List (Nat × Nat) :=
  (List.range ((a % 64 + n + 63) / 64)).filterMap fun i =>
    let lo := 64 * i - a % 64
    let hi := Nat.min (64 * (i + 1) - a % 64) n
    if lo < hi then some (lo, hi - lo) else none

/-- The checks at the own device once an address is translated: the key slot (R37), and the region for a write (R133). -/
def State.placeFault (s : State) (p : Place) (k : Kind) (ea : Word) : Option Trap :=
  if p.dev ≠ s.device ∨ p.loc ≥ 2 ^ 40 then none
  else if (s.key p.key).isNone then some (accessTrap 0x07 ea p.info 0x06)
  else if k == .write then
    match s.protRow p.loc p.prot with
    | some (cause, _) => some (accessTrap 0x08 ea p.info cause)
    | none => none
  else none

/-- The pieces of a `.g` access, in address order; the first that fails decides. -/
def State.locate (s : State) (w : Who) (ea : Word) (k : Kind) : List (Nat × Nat) → Except XErr (List Piece)
  | [] => .ok []
  | (pos, len) :: ps =>
    let a := ea + word pos
    match s.translate w a k with
    | .error e => .error e
    | .ok p =>
      match s.placeFault p k a with
      | some t => .error (.fault t)
      | none =>
        match s.locate w ea k ps with
        | .error e => .error e
        | .ok l => .ok (⟨pos, len, a, .g, p⟩ :: l)

/-- The pieces of an access of n bytes. -/
def State.resolve (s : State) (w : Who) (space : Space) (ea : Word) (n : Nat) (k : Kind) : Except XErr (List Piece) :=
  match space with
  | .g => s.locate w ea k (lineParts ea.toNat n)
  | _ =>
    let info := scratchInfo w space k
    match scratch w.ctx space ea n with
    | none => .error (.fault (accessTrap 0x07 ea info 0x07))
    | some a => .ok ((lineParts a n).map fun p => ⟨p.1, p.2, ea + word p.1, space, ⟨s.device, a + p.1, 0, false, info⟩⟩)

/-! ## Reading -/

/-- The plain bytes of a local line, the system registers included. -/
def State.plainLine (s : State) (key line : Nat) : Line := if line ≥ sysBase then s.regLine line else s.readLine key line

def lineBytes (l : Line) (off len : Nat) : List Byte := (List.range len).map fun i => lineByte l (off + i)

/-- The journal's lines of a range, with their ring positions: none where the filter says so (R58). -/
def State.journalOf (s : State) (pod : Nat) : List (Nat × DLine) :=
  if s.cx.filter.getLsbD (pod / 64 % 4096) then s.journalLines.filter (·.2.pod == pod) else []

/-- What the context's own journal and partition hold of a line, newest byte last to win (R57). -/
def State.deferred (s : State) (pod : Nat) : BitVec 64 × Line :=
  ((s.journalOf pod).map (·.2) ++ s.cx.dsb).foldl (fun acc l =>
    if l.pod = pod then (acc.1 ||| l.mask, mergeLine acc.2 l.data l.mask) else acc) (0, 0)

/-- The memory of journal entries is read: errors in it are found. -/
def State.touchJournal (s : State) (l : List (Nat × DLine)) : State :=
  l.foldl (fun s x =>
    let a := s.journalAt x.1
    (s.touch (lineOf a) (BitVec.allOnes 64)).touch (lineOf (a + 64)) (BitVec.allOnes 64)) s

/-- The first poisoned line of memory that an ordinary load of these bytes reads on the journal path: the data are consumed (R49). Its
address is the entry's own, a local one (DESIGN CHOICE, assumption 103). -/
def State.journalPoison (s : State) (pod : Nat) (mask : BitVec 64) : Option Word :=
  ((s.journalOf pod).find? fun x => x.2.bad && (x.2.mask &&& mask) != 0).map fun x =>
    let a := s.journalAt x.1
    word (if s.mem.poison.contains (unitOf a) then unitOf a else unitOf (a + 64))

/-- What reading pieces gives: the bytes in order, the address of the first poisoned unit, and what must come from peers. -/
structure Loaded where
  bytes : List Byte
  poison : Option Word
  ask : List (Piece × BitVec 64)

/-- The address, in the access's own form, of the first poisoned unit among the masked bytes. -/
def State.poisonAt (s : State) (p : Piece) (mask : BitVec 64) : Option Word :=
  let bad := s.poisonMask p.line &&& mask
  match (List.range 64).find? fun i => bad.getLsbD i with
  | some i => some (p.ea - word p.off + word (unitOf (p.line + i) - p.line))
  | none => none

/-- Reads one piece: deferred bytes when the read is ordinary (R57), the rest at the home. -/
def State.loadPiece (s : State) (ord : Bool) (p : Piece) : Loaded × State :=
  let s := if ord then s.touchJournal (s.journalOf p.pod) else s
  let d := if ord then s.deferred p.pod else (0, 0)
  let bad := if ord then s.journalPoison p.pod p.mask else none
  let home := p.mask &&& ~~~ d.1
  if p.at_.dev = s.device then
    let s := s.touch p.line home
    (⟨lineBytes (mergeLine (s.plainLine p.at_.key p.line) d.2 d.1) p.off p.len, bad.or (s.poisonAt p home), []⟩, s)
  else
    (⟨lineBytes (mergeLine 0 d.2 d.1) p.off p.len, bad, if home = 0 then [] else [(p, home)]⟩, s)

def State.loadPieces (s : State) (ord : Bool) : List Piece → Loaded × State
  | [] => (⟨[], none, []⟩, s)
  | p :: ps =>
    let (a, s) := s.loadPiece ord p
    let (b, s) := s.loadPieces ord ps
    (⟨a.bytes ++ b.bytes, a.poison.or b.poison, a.ask ++ b.ask⟩, s)

/-! ## Remote accesses (R40, R119) -/

/-- New fabric work may not start while the device drains (R389). -/
def State.draining (s : State) : Bool := flag s.fab.fabctl 2

/-- A peer can be reached: the lasers are lit and it is a live member of the pod. The own device needs no fabric. -/
def State.reachable (s : State) (p : Nat) : Bool := p == s.device || (flag s.fab.fabctl 0 && flag s.fab.podmask p)

/-- A request leaves for a peer; one for a peer that cannot be reached comes back refused (R40). -/
def State.sendRequest (s : State) (dev : Fin 64) (r : RemoteReq) : State :=
  if s.reachable dev.val then s.send (.request dev r) else s.enqueue (.remoteRefusal r.id dev 0x46)

/-- EINFO of a refusal (R444): SPACE, ENG and WR of the access, LEVEL 7. -/
def refusalInfo (wr eng pod : Bool) : Word :=
  setFlag (accessInfo .g 0 0 0 eng false wr 7 0) 32 pod

/-- EINFO of a refused instruction fetch. -/
def fetchRefusal : Word := accessInfo .g 0 0 0 false true false 7 0

/-- The lowest byte of a mask. -/
def lowestByte (mask : BitVec 64) : Nat := ((List.range 64).find? fun i => mask.getLsbD i).getD 0

/-- The context's own write to some of these bytes of a peer's line is not acknowledged yet: an access to the same bytes follows it
(R103). -/
def State.unackedAt (s : State) (pod : Nat) (mask : BitVec 64) : Bool :=
  s.remotes.any fun r => r.ctx == s.cid && r.eng.isNone && r.write && r.dev.val * 2 ^ 42 + r.line == pod && (r.mask &&& mask) != 0

/-- Reads of these parts at peers wait: the device drains (R389), or an own write to the same bytes is on its way (R103). -/
def State.askWaits (s : State) (l : List (Piece × BitVec 64)) : Bool :=
  s.draining || l.any fun a => s.unackedAt a.1.pod a.2

/-- Sends a remote access for one line. EADDR of its refusal is the first byte that it accesses (R24). -/
def State.ask (s : State) (c : Nat) (kind : RemoteKind) (p : Piece) (mask : BitVec 64) (data : Line) (flight : Nat)
    (place : List (Nat × Nat)) (sext : Nat) (keep : Bool) : State :=
  let (id, s) := s.fresh
  let dev := Fin.ofNat 64 p.at_.dev
  let wr := match kind with
    | .load => false
    | .fx .rd _ => false
    | _ => true
  let park := match kind with
    | .store => false
    | .fx op _ => op == FxOp.rd
    | _ => true
  let r : RemotePend := ⟨id, c, dev, p.line, mask, flight, place, sext, keep, !park, [], none, none,
    wr && p.counted, p.ea + word (lowestByte mask - p.off), refusalInfo wr false false⟩
  let s := { s with remotes := s.remotes ++ [r] }
  s.sendRequest dev ⟨id, Fin.ofNat 64 s.device, c, none, kind, p.line, p.off, mask, data, 0, p.at_.key, p.at_.prot, s.parityGen c⟩

/-- The bytes of a piece that come from the peer, as (byte of the line, byte of the value). -/
def Piece.places (p : Piece) (mask : BitVec 64) (base : Nat) : List (Nat × Nat) :=
  (List.range p.len).filterMap fun i => if mask.getLsbD (p.off + i) then some (p.off + i, base + p.pos + i) else none

/-- A value of n bytes, sign-extended when asked. -/
def extendBytes (bs : List Byte) (n : Nat) (sgn : Bool) : Word :=
  if sgn then BitVec.ofInt 64 (signed (8 * n) (ofBytes bs)) else word (ofBytes bs)

/-- A scalar load of n bytes into a destination (R241, R243): long-latency; the remote part arrives with the replies. -/
def State.loadTo (s : State) (ord : Bool) (space : Space) (ea : Word) (n : Nat) (sgn : Bool) (d : Dst) : State :=
  match s.resolve s.who space ea n .read with
  | .error e => s.stopAccess .read e
  | .ok ps =>
    let (l, s) := s.loadPieces ord ps
    match l.poison with
    | some a => s.consume (s.eccTrap space a)
    | none =>
      if l.ask.isEmpty then s.push .long d (extendBytes l.bytes n sgn)
      else if s.askWaits l.ask then s.blockBundle
      else
        let (tag, s) := s.fresh
        let s := s.pushAwait tag d (word (ofBytes l.bytes))
        l.ask.foldl (fun s a => s.ask s.cid .load a.1 a.2 0 tag (a.1.places a.2 0) (if sgn then 8 * n else 0) false) s

/-! ## Writes at a home -/

/-- The current context as a writer. -/
def State.writer (s : State) (strong : Bool) : Writer := ⟨s.device, s.cid, none, s.cx.parityGen, strong⟩

/-- An engine as a writer. -/
def State.engWriter (s : State) (w : Who) : Writer := ⟨s.device, w.ctx, w.eng, s.parityGen w.ctx, false⟩

/-- Units whose bytes the mask covers wholly. -/
def covered (line : Nat) (mask : BitVec 64) (u : Nat) : Bool :=
  u / 64 * 64 == line && (unitMask line (u % 64) &&& ~~~ mask == 0)

/-- A write of the masked bytes of one local line is performed at its home (R47, R53); `pois` names bytes that arrive poisoned. A
write to a protected page reads the old line and forms one delta (R132, R134). -/
def State.perform (s : State) (w : Writer) (line key : Nat) (prot : Bool) (mask : BitVec 64) (data : Line) (pois : BitVec 64) :
    State :=
  if line ≥ sysBase then s.regWriteLine (if w.dev = s.device then some w.ctx else none) w.strong line mask data
  else
    let s := if prot && line < 2 ^ 40 then s.touch line mask else s
    let m := s.mem
    let s := { s with mem := { m with soft := m.soft.filter (fun u => !covered line mask u),
                                      hard := m.hard.filter (fun u => !covered line mask u),
                                      flips := m.flips.filter (fun e => !covered line mask e.1) } }
    let s := s.touch line mask
    let old := s.mem.stored line
    let bad := line < 2 ^ 40 ∧ s.mem.poison.contains line = true
    let new := s.writtenLine key line mask data
    let mem := s.mem.setStored line (storedMask line mask) new
    let s := { s with mem := { mem with poison := markPoison line pois (clearedPoison line mask mem.poison) } }
    if prot && line < 2 ^ 40 then s.delta w line (old ^^^ new) (decide bad) else s

/-- The place is the issuing core's own unit store. -/
def State.ownUnit (s : State) (p : Place) : Bool :=
  p.dev == s.device &&
    match regionOf p.loc with
    | .unit g _ => g == s.gcore
    | _ => false

/-! ## The journal (R58) -/

/-- Stores bytes of the device's own at a local address with key 0. Such a write has no agent that could take a fault: where the rows
of R133 refuse it, it is not performed (assumption 80). -/
def State.putBytes (s : State) (a : Nat) (bs : List Byte) : State :=
  (lineParts a bs.length).foldl (fun s p =>
    let off := (a + p.1) % 64
    if (s.protRow (a + p.1) false).isSome then s
    else s.perform (s.writer false) (lineOf (a + p.1)) 0 false (byteMask off p.2)
      (lineAt off (ofBytes ((bs.drop p.1).take p.2))) 0) s

/-- A journal entry. -/
def DLine.entry (l : DLine) : List Byte :=
  bytesOf 8 (l.pod + 2 ^ 48 * l.key + 2 ^ 59 * l.prot.toNat + 2 ^ 60 * l.isSealed.toNat) ++ bytesOf 8 l.mask.toNat ++
    List.replicate 48 0 ++ bytesOf 64 (mergeLine 0 l.data l.mask).toNat

/-- The lines of the journal are sealed (R63). -/
def State.sealJournal (s : State) : State :=
  s.journalLines.foldl (fun s x => s.putBytes (s.journalAt x.1) ({ x.2 with isSealed := true }.entry.take 8)) s

/-- The buffer phase is committed in the course of a bundle: its lines are sealed (R63). -/
def State.commitHere (s : State) : State := (s.commit ((s.issue.jump.or s.issue.link).getD s.cx.regs.pc)).sealJournal

/-- The journal keeps these lines, whose memory follows: a line that moves takes its poison along. -/
def State.keepLines (s : State) (l : List DLine) : State :=
  let s := { s with cx := s.cx.withJournal (l.map (·.id)) }
  l.zipIdx.foldl (fun s x =>
    let i := s.journalFirst + x.2
    let a := s.journalAt i
    if s.journalEntry i x.1.id = x.1 then s
    else
      let s := s.putBytes a x.1.entry
      if x.1.bad then { s with mem := { s.mem with poison := insertNat (unitOf a) (insertNat (unitOf (a + 64)) s.mem.poison) } } else s) s

/-- The stack-spill fault of a full journal (R60). -/
def State.spillTrap (s : State) (cause : Nat) : Trap := s.bundleTrap 0x0B 0 cause

/-- The fault of a journal entry whose own write the protected region refuses (R133). No leaf has translated that write. DESIGN CHOICE:
EADDR is the entry's local address, LEVEL is 7, DEV the own device, and PODA is 0 (assumption 103). -/
def State.journalTrap (s : State) : Trap :=
  accessTrap 0x08 (word (s.journalAt s.cx.journalPos)) (setField (accessInfo .g 0 0 0 false false true 7 0) 24 6 s.device) 0x23

/-- The oldest line of the partition goes to the journal, or faults: the journal is full or not in use (R60), or the entry lies in the
protected region (R133). -/
def State.spillLine (s : State) : Except Trap State :=
  match s.cx.dsb with
  | [] => .ok s
  | l :: ls =>
    if !flag s.cx.dsbjournal 0 || s.cx.journal.length ≥ 32768 then .error (s.spillTrap 0x50)
    else if (s.protRow (s.journalAt s.cx.journalPos) false).isSome then .error s.journalTrap
    else
      let a := s.journalAt s.cx.journalPos
      let x := { s.cx.withJournal (s.cx.journal ++ [l.id]) with dsb := ls }
      let x := { x with filter := x.filter ||| (1#4096 <<< (l.pod / 64 % 4096)), journalPos := (x.journalPos + 1) % 32768 }
      .ok (({ s with cx := x }).putBytes a l.entry)

/-! ## The deferred store buffer (R55, R56) -/

/-- Replaces the last line for which a test holds. -/
def updateLast (p : DLine → Bool) (f : DLine → DLine) (l : List DLine) : List DLine := (updateFirst p f l.reverse).reverse

/-- The newest line of a range is open with the KEY and PROT of the store, so that the store merges into it. -/
def Ctx.mergeable (x : Ctx) (pod key : Nat) (prot : Bool) : Bool :=
  match (x.dsb.reverse.find? fun l => l.pod == pod) with
  | some l => !l.isSealed && l.key == key && l.prot == prot
  | none => false

/-- Defers the bytes of one piece, or the fault of a journal entry that is needed and cannot be had. -/
def State.deferPiece (s : State) (p : Piece) (mask : BitVec 64) (data : Line) : Except Trap State :=
  if s.cx.mergeable p.pod p.at_.key p.at_.prot then
    let upd := updateLast (·.pod == p.pod) fun l => { l with mask := l.mask ||| mask, data := mergeLine l.data data mask }
    .ok { s with cx := { s.cx with dsb := upd s.cx.dsb } }
  else
    let s' := if s.cx.dsb.length ≥ 128 then s.spillLine else .ok s
    match s' with
    | .error t => .error t
    | .ok s =>
      let l : DLine := ⟨p.pod, mask, data, p.at_.key, p.at_.prot, false, s.cx.lineId, false⟩
      .ok { s with cx := { s.cx with dsb := s.cx.dsb ++ [l], lineId := s.cx.lineId + 1 } }

/-- The data of an access's bytes placed in the line of a piece. -/
def Piece.data (p : Piece) (bs : List Byte) : Line := lineAt p.off (ofBytes ((bs.drop p.pos).take p.len))

/-- Defers the bytes of an access. -/
def State.deferAll (s : State) (bs : List Byte) : List Piece → Except Trap State
  | [] => .ok s
  | p :: ps =>
    match s.deferPiece p p.mask (p.data bs) with
    | .error t => .error t
    | .ok s => s.deferAll bs ps

/-- Performs an access's bytes at local homes. -/
def State.performPieces (s : State) (w : Writer) (bs : List Byte) (ps : List Piece) : State :=
  ps.foldl (fun s p => s.perform w p.line p.at_.key p.at_.prot p.mask (p.data bs) 0) s

/-- An ordinary store (R55): `.u` at once, the others deferred. -/
def State.storeOrd (s : State) (space : Space) (ea : Word) (bs : List Byte) : State :=
  match s.resolve s.who space ea bs.length .write with
  | .error e => s.stopAccess .write e
  | .ok ps =>
    if space = .u then s.performPieces (s.writer false) bs ps
    else
      match s.deferAll bs ps with
      | .ok u => u
      | .error t => s.trap t

/-! ## Draining and publishing (R59, R102, R108) -/

/-- Fault 0x0A becomes pending in a context (R40). -/
def State.pendRemote (s : State) (c : Nat) (ea info : Word) (dev : Nat) (cause : Nat) : State :=
  s.modCtx c fun x => { x with pending := x.pending ++ [⟨0x0A, ea, setField (setField info 24 6 dev) 0 8 cause⟩] }

/-- The bytes of a line that are sent poisoned: all of them when its journal entry was. R49 names no such reader (DESIGN CHOICE, assumption
103). -/
def DLine.pois (l : DLine) : BitVec 64 := if l.bad then l.mask else 0

/-- A drained line at a local home: refused under R445, or performed. -/
def State.drainLocal (s : State) (l : DLine) : State :=
  let line := l.pod % 2 ^ 42
  let ea := word (l.pod + lowestByte l.mask)
  let refuse := fun cause => s.pendRemote s.cid ea (refusalInfo true false true) s.device cause
  if line < 2 ^ 40 ∧ (s.key l.key).isNone then refuse 0x48
  else
    match s.protRow line l.prot with
    | some (_, cause) => refuse cause
    | none => s.perform (s.writer false) line l.key l.prot l.mask l.data l.pois

/-- A drained line sent to a peer; it awaits its acknowledgement. -/
def State.drainRemote (s : State) (l : DLine) : State :=
  let (id, s) := s.fresh
  let dev := Fin.ofNat 64 (l.pod / 2 ^ 42)
  let line := l.pod % 2 ^ 42
  let r : RemotePend := ⟨id, s.cid, dev, line, l.mask, 0, [], 0, false, true, [], some l.id, none, l.counted, word (l.pod + lowestByte l.mask),
    refusalInfo true false true⟩
  let s := { s with remotes := s.remotes ++ [r], cx := { s.cx with awaiting := s.cx.awaiting ++ [l] } }
  let s := if l.counted then s.parityUp s.cid none else s
  s.sendRequest dev ⟨id, Fin.ofNat 64 s.device, s.cid, none, .store, line, 0, l.mask, l.data, l.pois, l.key, l.prot, s.cx.parityGen⟩

/-- The line waits for an earlier write of the context that shares a byte with it (R59, R103), for the device to have drained (R389), or for
a full parity count to fall (R136). -/
def State.mustWait (s : State) (l : DLine) : Bool :=
  (l.counted && 65535 ≤ s.cx.parity) || (s.draining && (l.counted || l.pod / 2 ^ 42 != s.device)) || s.unackedAt l.pod l.mask

/-- Sends lines in order; those that must wait, and all after them, are kept. -/
def State.drainLines (s : State) : List DLine → List DLine × State
  | [] => ([], s)
  | l :: ls =>
    if l.mask = 0 then s.drainLines ls
    else if s.mustWait l then (l :: ls, s)
    else if l.pod / 2 ^ 42 = s.device then (s.drainLocal l).drainLines ls
    else (s.drainRemote l).drainLines ls

/-- Drains the context's journal and partition, or their lines with PROT = 1 alone (R140). DESIGN CHOICE: a line that has been sent to a peer
leaves them at once, before it is acknowledged (assumption 105). -/
def State.drain (s : State) (protOnly : Bool) : State :=
  let sel := fun (l : DLine) => !protOnly || l.prot
  let s := s.touchJournal s.journalLines
  let js := s.journalLines.map (·.2)
  let ds := s.cx.dsb
  let (rest, s) := s.drainLines (js.filter sel ++ ds.filter sel)
  let left := fun (l : DLine) => !sel l || rest.any (·.id == l.id)
  { s with cx := { s.cx with dsb := ds.filter left } }.keepLines (js.filter left)

/-- Nothing of the context waits for an answer: drained lines, strong writes, atomics, cell updates, reads (R103, R108). -/
def State.acked (s : State) : Bool :=
  s.cx.awaiting.isEmpty && !s.remotes.any fun r => r.ctx == s.cid && r.eng.isNone

/-- Publishes the context's ordinary stores (R102). -/
def State.publish (s : State) : State := s.drain false

/-- Every line is sent and everything is acknowledged. -/
def State.published (s : State) : Bool := s.cx.dsb.isEmpty && s.cx.journal.isEmpty && s.acked

/-- Steps 1 and 2 of a release (R108); `after` is performed once they are done, and till then the context blocks. A release is an
outbound effect (R64). -/
def State.release (s : State) (after : State → State) : State :=
  let s := s.publish
  if s.published then after s.markOutbound else s.blockBundle

/-! ## Strong accesses -/

/-- A strong write, atomic or cell update removes the context's own deferred bytes of the same place (R61). Its bytes lie side by side. -/
def State.punch (s : State) (pod : Nat) (mask : BitVec 64) : State :=
  let cut := fun (l : DLine) => if l.pod = pod then { l with mask := l.mask &&& ~~~ mask } else l
  let s := { s with cx := { s.cx with dsb := s.cx.dsb.map cut } }
  ((s.journalOf pod).filter fun x => (x.2.mask &&& mask) != 0).foldl (fun s x =>
    let a := s.journalAt x.1
    let n := ((List.range 64).filter fun i => mask.getLsbD i).length
    (s.putBytes (a + 8) (bytesOf 8 (x.2.mask &&& ~~~ mask).toNat)).putBytes (a + 64 + lowestByte mask) (List.replicate n 0)) s

/-- A strong store's bytes, at home or sent to a peer. They lie in one line. -/
def State.strongWrite (s : State) (p : Piece) (mask : BitVec 64) (data : Line) : State :=
  let s := s.punch p.pod mask
  let s := if s.ownUnit p.at_ then s else s.markOutbound
  if p.at_.dev = s.device then s.perform (s.writer true) p.line p.at_.key p.at_.prot mask data 0
  else
    let s := if p.counted then s.parityUp s.cid none else s
    s.ask s.cid .store p mask data 0 [] 0 false

/-- Writes of these pieces wait: protected ones that would raise the context's count past 65,535 (R136); those that would start fabric work
while the device drains (R389); and those to bytes to which an own write is on its way (R103). -/
def State.writeWaits (s : State) (ps : List Piece) : Bool :=
  let k := (ps.filter Piece.counted).length
  (k != 0 && 65535 < s.cx.parity + k) || ps.any fun p =>
    ((p.at_.dev != s.device || p.counted) && s.draining) || s.unackedAt p.pod p.mask

/-- Strong writes to pieces are made, or wait. A release before them is done by then, and may have raised the count. -/
def State.unlessWaits (s : State) (ps : List Piece) (write : State → State) : State :=
  if s.writeWaits ps then s.blockBundle else write s

/-- The strong store of aligned bytes (R243). -/
def State.storeStrong (s : State) (space : Space) (ea : Word) (bs : List Byte) (rel : Bool) : State :=
  match s.resolve s.who space ea bs.length .write with
  | .error e => s.stopAccess .write e
  | .ok ps =>
    let write := fun (s : State) => s.unlessWaits ps fun s => ps.foldl (fun s p => s.strongWrite p p.mask (p.data bs)) s
    if rel then s.release write else write s

/-! ## Reads and writes of engines (R96, R49) -/

/-- What an engine reads: the bytes, each with its poison. -/
abbrev EngBytes := List (Byte × Bool)

/-- A byte at a peer: what the view names, else a free value (assumption 10). -/
def State.peerByte (s : State) (v : PeerView) (pod : Nat) : Byte × Bool :=
  ((match v.bytes.find? (·.1 == pod) with
    | some b => b.2
    | none => Config.peerByte s.freeCount pod), v.poison.contains pod)

/-- A peer refuses a line, or cannot be reached (R40). -/
def State.refusedBy (s : State) (v : PeerView) (pod : Nat) : Option (BitVec 8) :=
  if s.reachable (pod / 2 ^ 42) then (v.refused.find? (·.1 == pod)).map (·.2) else some 0x46

/-- The fault that an engine records when a peer refuses it (R444). -/
def engRefusal (p : Piece) (wr : Bool) (cause : BitVec 8) : Trap :=
  ⟨0x0A, p.ea, setField (setField (refusalInfo wr true false) 24 6 p.at_.dev) 0 8 cause.toNat⟩

/-- A read of an engine leaves for a peer, whose answer is in the engine's view; the flits of the reply leave their bays as they come. -/
def State.engAsk (s : State) (dev : Fin 64) (r : RemoteReq) : State :=
  let (id, t) := s.fresh
  (t.send (.request dev { r with id := id })).freeFlits dev 2 5

/-- Reads one piece for an engine. A request for a peer's part, with its KEY, leaves the device; the view holds the answer. -/
def State.engPiece (s : State) (w : Who) (v : PeerView) (p : Piece) : Except Trap EngBytes × State :=
  if p.at_.dev = s.device then
    let s := s.touch p.line p.mask
    let l := s.plainLine p.at_.key p.line
    let bad := s.poisonMask p.line
    (.ok ((List.range p.len).map fun i => (lineByte l (p.off + i), bad.getLsbD (p.off + i))), s)
  else
    match s.refusedBy v p.pod with
    | some c => (.error (engRefusal p false c), s)
    | none =>
      let req : RemoteReq := ⟨0, Fin.ofNat 64 s.device, w.ctx, w.eng, .load, p.line, 0, p.mask, 0, 0, p.at_.key, p.at_.prot, s.parityGen w.ctx⟩
      (.ok ((List.range p.len).map fun i => s.peerByte v (p.pod + p.off + i)),
        { s.engAsk (Fin.ofNat 64 p.at_.dev) req with freeCount := s.freeCount + 1 })

/-- The place of each line part of a `.g` access of an engine, walking where no TLB holds the page. -/
def State.engLocate (s : State) (w : Who) (ea : Word) (k : Kind) : List (Nat × Nat) → Except Trap (List Piece) × State
  | [] => (.ok [], s)
  | (pos, len) :: ps =>
    let a := ea + word pos
    match s.translateNow w a k with
    | (.error t, s) => (.error t, s)
    | (.ok p, s) =>
      match s.placeFault p k a with
      | some t => (.error t, s)
      | none =>
        match s.engLocate w ea k ps with
        | (.error t, s) => (.error t, s)
        | (.ok l, s) => (.ok (⟨pos, len, a, .g, p⟩ :: l), s)

/-- The pieces of an engine's access. -/
def State.engResolve (s : State) (w : Who) (space : Space) (ea : Word) (n : Nat) (k : Kind) : Except Trap (List Piece) × State :=
  match space with
  | .g => s.engLocate w ea k (lineParts ea.toNat n)
  | _ =>
    match s.resolve w space ea n k with
    | .ok ps => (.ok ps, s)
    | .error (.fault t) => (.error t, s)
    | .error (.miss _) => (.ok [], s)

def State.engPieces (s : State) (w : Who) (v : PeerView) : List Piece → Except Trap EngBytes × State
  | [] => (.ok [], s)
  | p :: ps =>
    match s.engPiece w v p with
    | (.error t, s) => (.error t, s)
    | (.ok a, s) =>
      match s.engPieces w v ps with
      | (.error t, s) => (.error t, s)
      | (.ok b, s) => (.ok (a ++ b), s)

/-- An engine reads n bytes. -/
def State.engRead (s : State) (w : Who) (v : PeerView) (space : Space) (ea : Word) (n : Nat) : Except Trap EngBytes × State :=
  match s.engResolve w space ea n .read with
  | (.error t, s) => (.error t, s)
  | (.ok ps, s) => s.engPieces w v ps

/-- The poison mask of an engine's bytes in the line of a piece. -/
def Piece.poison (p : Piece) (bs : EngBytes) : BitVec 64 :=
  BitVec.ofNat 64 ((List.range p.len).foldl (fun acc i => if (bs.getD (p.pos + i) (0, false)).2 then acc + 2 ^ (p.off + i) else acc) 0)

/-- Writes one piece for an engine; a peer's part leaves as a remote access with its KEY and PROT and awaits its acknowledgement. -/
def State.engWritePiece (s : State) (w : Who) (bs : EngBytes) (p : Piece) : State :=
  let data := p.data (bs.map (·.1))
  if p.at_.dev = s.device then
    s.perform (s.engWriter w) p.line p.at_.key p.at_.prot p.mask data (p.poison bs)
  else
    let (id, s) := s.fresh
    let dev := Fin.ofNat 64 p.at_.dev
    let r : RemotePend := ⟨id, w.ctx, dev, p.line, p.mask, 0, [], 0, false, true, [], none, w.eng, p.counted, p.ea,
      refusalInfo true true false⟩
    let s := { s with remotes := s.remotes ++ [r] }
    let s := if p.counted then s.parityUp w.ctx w.eng else s
    s.sendRequest dev ⟨id, Fin.ofNat 64 s.device, w.ctx, w.eng, .store, p.line, 0, p.mask, data, p.poison bs, p.at_.key, p.at_.prot, s.parityGen w.ctx⟩

def State.engWritePieces (s : State) (w : Who) (bs : EngBytes) (ps : List Piece) : State :=
  ps.foldl (fun s p => s.engWritePiece w bs p) s

/-- An engine's write of these pieces waits: its operation's parity count would pass 65,535 (R136), or the device drains and the write
would start fabric work (R389). -/
def State.engMustWait (s : State) (w : Who) (ps : List Piece) : Bool :=
  let k := (ps.filter Piece.counted).length
  (k != 0 && 65535 < look 0 (w.eng.getD 0) s.prot.opCounts + k) ||
    (s.draining && ps.any fun p => p.counted || p.at_.dev != s.device)

/-- An engine writes bytes. -/
def State.engWrite (s : State) (w : Who) (space : Space) (ea : Word) (bs : EngBytes) : Except Trap Unit × State :=
  match s.engResolve w space ea bs.length .write with
  | (.error t, s) => (.error t, s)
  | (.ok ps, s) => (.ok (), s.engWritePieces w bs ps)

/-- Writes of an engine operation at peers are still to be acknowledged. -/
def State.engAwaits (s : State) (o : Nat) : Bool := s.remotes.any fun (r : RemotePend) => r.eng == some o

/-- The bytes of n bytes at a local address through key 0, for the engines that use local addresses. -/
def State.localBytes (s : State) (a n : Nat) : List Byte :=
  ((lineParts a n).map fun p => lineBytes (s.plainLine 0 (lineOf (a + p.1))) ((a + p.1) % 64) p.2).flatten

/-- Some byte of n bytes at a local address is poisoned. -/
def State.localPoison (s : State) (a n : Nat) : Bool :=
  (lineParts a n).any fun p => (s.poisonMask (lineOf (a + p.1)) &&& byteMask ((a + p.1) % 64) p.2) != 0

end Sys2Proof.Machine
end

