-- ==== Sys2Proof/Machine/Operands.lean ====
section
/-! DEFINITION. What a syllable reads and writes, and the checks before issue (R191 to R207): one table gives, for each
instruction, its guard, sources, destinations, pushes, engine, privilege and the causes that the state decides; one function makes
the checks for any number of syllables; `State.syl` is how every syllable runs. -/

namespace Sys2Proof.Machine

/-! ## The table's columns -/

/-- A source register, the value of its field (REG of R207), and whether an empty one traps (R194). -/
structure Use where
  reg : Reg
  code : Nat
  trap : Bool
  deriving DecidableEq, Repr

/-- The engine an instruction needs (R220). -/
inductive Engine where
  | any | mOnly | sOnly
  deriving DecidableEq, Repr

/-- A push or pop of the return stack or the mask stack (R216). -/
inductive StackOp where
  | none | pushR | popR | pushM | popM
  deriving DecidableEq, Repr

/-- What the checks before issue need of a syllable: its guard, sources, named destinations, number of pushes, engine, whether it
is privileged in this form, the lowest illegal-syllable cause that the state decides without a source value (R207 step 2), its
stack operation, and whether it transfers control or ends the instance (R206). -/
structure Info where
  guard : Fin 16
  uses : List Use
  dsts : List Reg
  pushes : Nat
  engine : Engine := .any
  priv : Bool := false
  cause : Option Nat := none
  stack : StackOp := .none
  ends : Bool := false
  deriving DecidableEq, Repr

/-! ## Fields as registers -/

/-- A scalar source (R193): `qk` is the queue entry it reads. -/
def State.srcUse (s : State) (x : Src) (t : Bool) : Use :=
  match x with
  | .s i => ⟨.s i, i.val, t⟩
  | .q k => ⟨.qr (s.qIndex k.val), 16 + k.val, t⟩

def vUse (i : Fin 16) (t : Bool) : Use := ⟨.v i, i.val, t⟩
def sUse (i : Fin 16) (t : Bool) : Use := ⟨.s i, i.val, t⟩
def mUse (i : Fin 8) : Use := ⟨.m i, i.val, false⟩
def pUse (i : Fin 16) : Use := ⟨.p i, i.val, false⟩
def aUse (i : Fin 8) : Use := ⟨.a i, 17 + i.val, false⟩
def mReg (i : Fin 8) : Reg := .m i

/-- p(2k), and s(2k) and s(2k+1). -/
def evenP (k : Fin 8) : Fin 16 := Fin.ofNat 16 (2 * k.val)
def oddP (k : Fin 8) : Fin 16 := Fin.ofNat 16 (2 * k.val + 1)

/-- A pair of scalars named by an even number. -/
def pairUses (k : Fin 8) (t : Bool) : List Use := [sUse (evenP k) t, sUse (oddP k) t]

/-- A scalar pair of a V syllable: the second register only blocks (R259). -/
def vPairUses (k : Fin 8) (t : Bool) : List Use := [sUse (evenP k) t, sUse (oddP k) false]

def pPair (k : Fin 8) : List Reg := [.p (evenP k), .p (oddP k)]
def mPair (k : Fin 4) : List Reg := [.m (Fin.ofNat 8 (2 * k.val)), .m (Fin.ofNat 8 (2 * k.val + 1))]

def aUses : List Use := (List.finRange 8).map aUse
def aRegs : List Reg := (List.finRange 8).map .a

/-- The registers a scalar destination names. -/
def Dst.regs (d : Dst) : List Reg := (Dst.reg d).toList

/-- A scalar destination that is also read (`bfi`). -/
def Dst.uses : Dst → List Use
  | .s i => [sUse i false]
  | .a i => [aUse i]
  | .queue => []

/-- A vector destination whose inactive lanes are kept is read, unless the mask field is m0 (R259). -/
def mergeUse (d : Fin 16) (m : Fin 8) : List Use := if m = 0 then [] else [vUse d false]

/-- The quarter forms of `vpack` (R272). -/
def quarter (t : Fin 8) : Bool := t == 2 || t == 3

/-- The register count of a `vqnt` piece (R273). -/
def groupCount (c : Word) : Nat := if field c 4 2 = 0 then 1 else if field c 4 2 = 1 then 2 else 4

/-- The registers a `vqnt` reads. -/
def State.groupUses (s : State) (a b : Fin 16) (t : Bool) : List Use :=
  (List.range (groupCount (s.readS b))).filterMap fun i =>
    if h : a.val + i < 16 then some (vUse ⟨a.val + i, h⟩ (t && i == 0)) else none

/-! ## Immediates (R202) -/

/-- An immediate or the literal word it selects, sign-extended. -/
def State.imm (s : State) (i : BitVec 9) : Word :=
  if i = 0x100 then (s.issue.lits.getD 0 0).signExtend 64
  else if i = 0x101 then (s.issue.lits.getD 1 0).signExtend 64
  else i.signExtend 64

/-- A selector at or above NLIT: cause 0x04. -/
def State.litCause (s : State) (i : BitVec 9) : Option Nat :=
  if (i = 0x100 ∧ s.issue.nlit < 1) ∨ (i = 0x101 ∧ s.issue.nlit < 2) then some 0x04 else none

/-- A shift immediate outside 0-63: cause 0x24 (R234). -/
def State.shiftCause (s : State) (i : BitVec 9) : Option Nat :=
  (s.litCause i).or (if (s.imm i).toNat < 64 then none else some 0x24)

/-! ## Causes that the state decides -/

/-- The segment that executes. -/
def State.curSeg (s : State) : Option Segment := if s.cx.half then s.cx.half1 else s.cx.half0

/-- NBM1 of the segment that executes. -/
def State.nbm1 (s : State) : Nat := (s.curSeg.map fun g => g.lines.length - 1).getD 0

/-- No link: the last bundle of a segment whose NEXT is 0 (R224). -/
def State.linkCause (s : State) : Option Nat := if s.issue.link.isNone then some 0x27 else none

/-- A pin is active. -/
def State.pinned (s : State) : Bool :=
  match s.cx.regs.pin with
  | some p => !p.suspended
  | none => false

/-- The range of `loop.pin` (R225). -/
def State.pinCause (s : State) (n : Nat) : Option Nat :=
  if n = 0 ∨ 64 < n ∨ s.nbm1 < indexOf s.cx.regs.pc + n then some 0x0E else none

/-- The node of the context's instance. -/
def State.nodeOf (s : State) : Option NodeEntry :=
  match s.cx.inst, s.pool.graph with
  | some i, some g => g.nodes[i.node]?
  | _, _ => none

/-- Barrier b is not declared by the node (R120). -/
def State.barrierCause (s : State) (b : Fin 16) : Option Nat :=
  match s.nodeOf with
  | some n => if n.barriers.any (·.1 == b.val) then none else some 0x0A
  | none => some 0x0A

/-- A milestone arrival outside a stop-flagged bundle (R214). -/
def State.stopCause (s : State) : Option Nat := if s.issue.stop then none else some 0x02

/-- A replay is RUNNING. -/
def State.replaying (s : State) : Bool := field s.regs.kickstat 0 4 == 3

/-- The node that `spawn` names (R229). -/
def State.spawnCause (s : State) (n : Nat) : Option Nat :=
  if s.replaying then
    match s.pool.graph with
    | some g => if (g.nodes[n]?.map (·.spawn)).getD false then none else some 0x22
    | none => some 0x22
  else none

/-- Table entry k of the matrix engine is not valid (R301). A core without the engine has no table (R220). -/
def State.routineCause (s : State) (k : Nat) : Option Nat :=
  if !isMCore s.gcore || s.core.mx.table.any (·.1 == k) then none else some 0x31

/-- Plane codes of different kinds (R306). -/
def planeCause (d s : Fin 8) : Option Nat := if d.val / 4 = s.val / 4 then none else some 0x37

/-- A pair that is not armed (R337). -/
def State.armedCause (s : State) (k : Fin 4) : Option Nat := if (s.cx.pairs[k]).armed then none else some 0x3A

/-- Registers a user context may not read, and those it may write (R249). -/
def SysReg.hidden : SysReg → Bool
  | .estat | .epc | .ecode | .eaddr | .einfo | .trapbase => true
  | _ => false

def SysReg.userWritable : SysReg → Bool
  | .fpmode | .issuectl => true
  | _ => false

/-! ## The table -/

/-- `loop.end` branches back. -/
def State.loops (s : State) : Bool := 1 < s.cx.regs.lcount.toNat

/-- A micro-op or an event: no checks. -/
def Info.none : Info := { guard := 0, uses := [], dsts := [], pushes := 0 }

/-- Of the C and F syllables. -/
def EngSyl.info (s : State) : EngSyl → Info
  | .cpyGo g a e _ => { guard := g, uses := [s.srcUse a e], dsts := [], pushes := 0 }
  | .cpyGq g a b e f _ => { guard := g, uses := [s.srcUse a e, s.srcUse b f], dsts := [], pushes := 0 }
  | .cpyDrn g _ => { guard := g, uses := [], dsts := [], pushes := 0 }
  | .cpySt g d _ => { guard := g, uses := [], dsts := Dst.regs d, pushes := 1 }
  | .cpyPb g a e => { guard := g, uses := [s.srcUse a e], dsts := [], pushes := 0 }
  | .cpyInv g a e => { guard := g, uses := [s.srcUse a e], dsts := [], pushes := 0 }
  | .cpyZero g _ _ => { guard := g, uses := [], dsts := [], pushes := 0 }
  | .cpyFill g a b e f _ => { guard := g, uses := [s.srcUse a e, s.srcUse b f], dsts := [], pushes := 0 }
  | .cpyCvt g a e _ => { guard := g, uses := [s.srcUse a e], dsts := [], pushes := 0 }
  | .cpyCancel g _ => { guard := g, uses := [], dsts := [], pushes := 0 }
  | .tmov g _ _ a b => { guard := g, uses := pairUses a false ++ pairUses b false, dsts := [], pushes := 0 }
  | .tmovH g _ _ a b => { guard := g, uses := pairUses a false ++ pairUses b false, dsts := [], pushes := 0 }
  | .rlay g _ a b e f => { guard := g, uses := [s.srcUse a e, s.srcUse b f], dsts := [], pushes := 0 }
  | .rlayWt g _ => { guard := g, uses := [], dsts := [], pushes := 0 }
  | .rlaySt g _ => { guard := g, uses := [], dsts := [], pushes := 1 }
  | .bcDrv g d a e => { guard := g, uses := [s.srcUse a e], dsts := Dst.regs d, pushes := 1 }
  | .bcLat g d a e => { guard := g, uses := [s.srcUse a e], dsts := Dst.regs d, pushes := 1 }
  | .bcSync g a b e f => { guard := g, uses := [s.srcUse a e, s.srcUse b f], dsts := [], pushes := 0 }
  | .bufArm g _ _ a b e f => { guard := g, uses := [s.srcUse a e, s.srcUse b f], dsts := [], pushes := 0 }
  | .bufSwp g k => { guard := g, uses := [], dsts := [], pushes := 0, cause := s.stopCause.or (s.armedCause k) }
  | .bufSt g d _ => { guard := g, uses := [], dsts := Dst.regs d, pushes := 1 }
  | .pfG g a b e f => { guard := g, uses := [s.srcUse a e, s.srcUse b f], dsts := [], pushes := 0 }
  | .fsend g _ a e => { guard := g, uses := [s.srcUse a e], dsts := [], pushes := 0 }
  | .fsendV g v a e => { guard := g, uses := [s.srcUse a e, vUse v false], dsts := [], pushes := 0 }
  | .fsendM g a b e f => { guard := g, uses := [s.srcUse a e] ++ pairUses b f, dsts := [], pushes := 0 }
  | .rpost g _ a b e f => { guard := g, uses := [s.srcUse b f] ++ pairUses a e, dsts := [], pushes := 1, engine := .sOnly }
  | .rpostW g _ a b e f => { guard := g, uses := [s.srcUse b f] ++ pairUses a e, dsts := [], pushes := 1, engine := .sOnly }
  | .rcancel g d a e => { guard := g, uses := [s.srcUse a e], dsts := Dst.regs d, pushes := 1, engine := .sOnly }
  | .rprobe g d a e => { guard := g, uses := [s.srcUse a e], dsts := Dst.regs d, pushes := 1, engine := .sOnly }
  | .rwait g d a e => { guard := g, uses := [s.srcUse a e], dsts := Dst.regs d, pushes := 1, engine := .sOnly }
  | .rlbQ g d a e => { guard := g, uses := pairUses a e, dsts := Dst.regs d, pushes := 1, engine := .sOnly }
  | .fdrn g => { guard := g, uses := [], dsts := [], pushes := 0 }
  | .collRed g _ a e => { guard := g, uses := [s.srcUse a e], dsts := [], pushes := 0 }
  | .collAg g _ a e => { guard := g, uses := [s.srcUse a e], dsts := [], pushes := 0 }
  | .collRs g _ a e => { guard := g, uses := [s.srcUse a e], dsts := [], pushes := 0 }
  | .collA2a g _ a e => { guard := g, uses := [s.srcUse a e], dsts := [], pushes := 0 }
  | .collBar g a e => { guard := g, uses := [s.srcUse a e], dsts := [], pushes := 0, cause := s.stopCause }
  | .collSt g d => { guard := g, uses := [], dsts := Dst.regs d, pushes := 1 }
  | .collRing g a b e f => { guard := g, uses := [s.srcUse a e, s.srcUse b f], dsts := [], pushes := 0, priv := true }
  | .noiseRd g d _ => { guard := g, uses := [], dsts := Dst.regs d, pushes := 1 }
  | .noiseClr g => { guard := g, uses := [], dsts := [], pushes := 0 }
  | .fpeer g d a e => { guard := g, uses := [s.srcUse a e], dsts := Dst.regs d, pushes := 1 }
  | .fslot g d a e => { guard := g, uses := [s.srcUse a e], dsts := Dst.regs d, pushes := 1 }
  | .fbays g d a e => { guard := g, uses := [s.srcUse a e], dsts := Dst.regs d, pushes := 1 }
  | .fevt g d => { guard := g, uses := [], dsts := Dst.regs d, pushes := 1, priv := true }
  | .fretune g a e => { guard := g, uses := [s.srcUse a e], dsts := [], pushes := 0, priv := true }
  | .frepair g a b e f => { guard := g, uses := [s.srcUse a e, s.srcUse b f], dsts := [], pushes := 0, priv := true }
  | .fgrant g a e => { guard := g, uses := [s.srcUse a e], dsts := [], pushes := 0, priv := true }

/-- Of every syllable. Micro-ops and events have no syllable's checks. -/
def Instr.info (s : State) : Instr → Info
  | .br g _ _ => { guard := g, uses := [], dsts := [], pushes := 0, ends := true }
  | .brL g _ _ => { guard := g, uses := [], dsts := [], pushes := 0, cause := s.linkCause, stack := .pushR, ends := true }
  | .brx g x0 e => { guard := g, uses := [s.srcUse x0 e], dsts := [], pushes := 0, ends := true }
  | .brxL g x0 e => { guard := g, uses := [s.srcUse x0 e], dsts := [], pushes := 0, cause := s.linkCause, stack := .pushR, ends := true }
  | .ret g => { guard := g, uses := [], dsts := [], pushes := 0, stack := .popR, ends := true }
  | .loopPin g x0 e n => { guard := g, uses := [s.srcUse x0 e], dsts := [], pushes := 0, cause := s.pinCause n.val, ends := s.readSrc x0 == 0 }
  | .loopEnd g => { guard := g, uses := [], dsts := [], pushes := 0, ends := s.loops }
  | .loopBrk g _ _ => { guard := g, uses := [], dsts := [], pushes := 0, ends := true }
  | .segAlt g _ _ => { guard := g, uses := [], dsts := [], pushes := 0 }
  | .mpush g a => { guard := g, uses := [mUse a], dsts := [], pushes := 0, stack := .pushM }
  | .mpop g a => { guard := g, uses := [], dsts := [mReg a], pushes := 0, stack := .popM }
  | .mjoin g a b => { guard := g, uses := [mUse b], dsts := [mReg a], pushes := 0, stack := .popM }
  | .endNode g => { guard := g, uses := [], dsts := [], pushes := 0, ends := true }
  | .yield g => { guard := g, uses := [], dsts := [], pushes := 0 }
  | .parkT g x0 e => { guard := g, uses := [s.srcUse x0 e], dsts := [], pushes := 0 }
  | .waitEv g _ => { guard := g, uses := [], dsts := [], pushes := 0 }
  | .sigEv g _ => { guard := g, uses := [], dsts := [], pushes := 0 }
  | .spawn g x0 p n => { guard := g, uses := [s.srcUse x0 false], dsts := pPair p, pushes := 0, cause := s.spawnCause n.val }
  | .trap g _ => { guard := g, uses := [], dsts := [], pushes := 0, cause := s.linkCause, ends := true }
  | .eret g => { guard := g, uses := [], dsts := [], pushes := 0, priv := true, ends := true }
  | .brk g _ => { guard := g, uses := [], dsts := [], pushes := 0 }
  | .katArm g x0 e => { guard := g, uses := [s.srcUse x0 e], dsts := [], pushes := 0, priv := true }
  | .haltCtx g x0 e => { guard := g, uses := [s.srcUse x0 e], dsts := [], pushes := 0, priv := true, ends := true }
  | .illegal g => { guard := g, uses := [], dsts := [], pushes := 0, cause := some 0x0D }
  | .add g d a b e f => { guard := g, uses := [s.srcUse a e, s.srcUse b f], dsts := Dst.regs d, pushes := 1 }
  | .sub g d a b e f => { guard := g, uses := [s.srcUse a e, s.srcUse b f], dsts := Dst.regs d, pushes := 1 }
  | .mul g d a b e f => { guard := g, uses := [s.srcUse a e, s.srcUse b f], dsts := Dst.regs d, pushes := 1 }
  | .mulh g d a b e f => { guard := g, uses := [s.srcUse a e, s.srcUse b f], dsts := Dst.regs d, pushes := 1 }
  | .mulhu g d a b e f => { guard := g, uses := [s.srcUse a e, s.srcUse b f], dsts := Dst.regs d, pushes := 1 }
  | .div g d a b e f => { guard := g, uses := [s.srcUse a e, s.srcUse b f], dsts := Dst.regs d, pushes := 1 }
  | .divu g d a b e f => { guard := g, uses := [s.srcUse a e, s.srcUse b f], dsts := Dst.regs d, pushes := 1 }
  | .rem g d a b e f => { guard := g, uses := [s.srcUse a e, s.srcUse b f], dsts := Dst.regs d, pushes := 1 }
  | .remu g d a b e f => { guard := g, uses := [s.srcUse a e, s.srcUse b f], dsts := Dst.regs d, pushes := 1 }
  | .and g d a b e f => { guard := g, uses := [s.srcUse a e, s.srcUse b f], dsts := Dst.regs d, pushes := 1 }
  | .or g d a b e f => { guard := g, uses := [s.srcUse a e, s.srcUse b f], dsts := Dst.regs d, pushes := 1 }
  | .xor g d a b e f => { guard := g, uses := [s.srcUse a e, s.srcUse b f], dsts := Dst.regs d, pushes := 1 }
  | .andn g d a b e f => { guard := g, uses := [s.srcUse a e, s.srcUse b f], dsts := Dst.regs d, pushes := 1 }
  | .shl g d a b e f => { guard := g, uses := [s.srcUse a e, s.srcUse b f], dsts := Dst.regs d, pushes := 1 }
  | .shr g d a b e f => { guard := g, uses := [s.srcUse a e, s.srcUse b f], dsts := Dst.regs d, pushes := 1 }
  | .sra g d a b e f => { guard := g, uses := [s.srcUse a e, s.srcUse b f], dsts := Dst.regs d, pushes := 1 }
  | .rotl g d a b e f => { guard := g, uses := [s.srcUse a e, s.srcUse b f], dsts := Dst.regs d, pushes := 1 }
  | .min g d a b e f => { guard := g, uses := [s.srcUse a e, s.srcUse b f], dsts := Dst.regs d, pushes := 1 }
  | .max g d a b e f => { guard := g, uses := [s.srcUse a e, s.srcUse b f], dsts := Dst.regs d, pushes := 1 }
  | .minu g d a b e f => { guard := g, uses := [s.srcUse a e, s.srcUse b f], dsts := Dst.regs d, pushes := 1 }
  | .maxu g d a b e f => { guard := g, uses := [s.srcUse a e, s.srcUse b f], dsts := Dst.regs d, pushes := 1 }
  | .addi g d a e i => { guard := g, uses := [s.srcUse a e], dsts := Dst.regs d, pushes := 1, cause := s.litCause i }
  | .andi g d a e i => { guard := g, uses := [s.srcUse a e], dsts := Dst.regs d, pushes := 1, cause := s.litCause i }
  | .ori g d a e i => { guard := g, uses := [s.srcUse a e], dsts := Dst.regs d, pushes := 1, cause := s.litCause i }
  | .xori g d a e i => { guard := g, uses := [s.srcUse a e], dsts := Dst.regs d, pushes := 1, cause := s.litCause i }
  | .shli g d a e i => { guard := g, uses := [s.srcUse a e], dsts := Dst.regs d, pushes := 1, cause := s.shiftCause i }
  | .shri g d a e i => { guard := g, uses := [s.srcUse a e], dsts := Dst.regs d, pushes := 1, cause := s.shiftCause i }
  | .srai g d a e i => { guard := g, uses := [s.srcUse a e], dsts := Dst.regs d, pushes := 1, cause := s.shiftCause i }
  | .movi g d i => { guard := g, uses := [], dsts := Dst.regs d, pushes := 1, cause := s.litCause i }
  | .movhi g d a e i => { guard := g, uses := [s.srcUse a e], dsts := Dst.regs d, pushes := 1, cause := s.litCause i }
  | .cmpEq g p a b e f => { guard := g, uses := [s.srcUse a e, s.srcUse b f], dsts := pPair p, pushes := 0 }
  | .cmpNe g p a b e f => { guard := g, uses := [s.srcUse a e, s.srcUse b f], dsts := pPair p, pushes := 0 }
  | .cmpLt g p a b e f => { guard := g, uses := [s.srcUse a e, s.srcUse b f], dsts := pPair p, pushes := 0 }
  | .cmpGe g p a b e f => { guard := g, uses := [s.srcUse a e, s.srcUse b f], dsts := pPair p, pushes := 0 }
  | .cmpLtu g p a b e f => { guard := g, uses := [s.srcUse a e, s.srcUse b f], dsts := pPair p, pushes := 0 }
  | .cmpGeu g p a b e f => { guard := g, uses := [s.srcUse a e, s.srcUse b f], dsts := pPair p, pushes := 0 }
  | .cmpiEq g p a e i => { guard := g, uses := [s.srcUse a e], dsts := pPair p, pushes := 0, cause := s.litCause i }
  | .cmpiLt g p a e i => { guard := g, uses := [s.srcUse a e], dsts := pPair p, pushes := 0, cause := s.litCause i }
  | .cmpiLtu g p a e i => { guard := g, uses := [s.srcUse a e], dsts := pPair p, pushes := 0, cause := s.litCause i }
  | .clz g d a e => { guard := g, uses := [s.srcUse a e], dsts := Dst.regs d, pushes := 1 }
  | .ctz g d a e => { guard := g, uses := [s.srcUse a e], dsts := Dst.regs d, pushes := 1 }
  | .popc g d a e => { guard := g, uses := [s.srcUse a e], dsts := Dst.regs d, pushes := 1 }
  | .bfx g d a b e f _ => { guard := g, uses := [s.srcUse a e, s.srcUse b f], dsts := Dst.regs d, pushes := 1 }
  | .bfi g d a b e f => { guard := g, uses := [s.srcUse a e, s.srcUse b f] ++ Dst.uses d, dsts := Dst.regs d, pushes := 1 }
  | .sext g d a e _ => { guard := g, uses := [s.srcUse a e], dsts := Dst.regs d, pushes := 1 }
  | .sel g d a b e f x => { guard := g, uses := [s.srcUse a e, s.srcUse b f, pUse (evenP x)], dsts := Dst.regs d, pushes := 1 }
  | .lea g d a b e f _ => { guard := g, uses := [s.srcUse a e, s.srcUse b f], dsts := Dst.regs d, pushes := 1 }
  | .hcoord g d a b e f _ => { guard := g, uses := [s.srcUse a e, s.srcUse b f], dsts := Dst.regs d, pushes := 1 }
  | .pand g p a b _ => { guard := g, uses := [pUse a, pUse b], dsts := pPair p, pushes := 0 }
  | .por g p a b _ => { guard := g, uses := [pUse a, pUse b], dsts := pPair p, pushes := 0 }
  | .pxor g p a b _ => { guard := g, uses := [pUse a, pUse b], dsts := pPair p, pushes := 0 }
  | .mpar g a e _ => { guard := g, uses := [s.srcUse a e], dsts := aRegs, pushes := 0 }
  | .mova g d k => { guard := g, uses := [aUse k], dsts := Dst.regs d, pushes := 1 }
  | .hld g _ a e _ => { guard := g, uses := [s.srcUse a e], dsts := [], pushes := 0 }
  | .hst g _ a e _ => { guard := g, uses := [s.srcUse a e], dsts := [], pushes := 0 }
  | .hset g _ a b e f => { guard := g, uses := [s.srcUse a e, s.srcUse b f], dsts := [], pushes := 0 }
  | .ldB g d a b e f _ _ => { guard := g, uses := [s.srcUse a e, s.srcUse b f], dsts := Dst.regs d, pushes := 1 }
  | .ldH g d a b e f _ _ => { guard := g, uses := [s.srcUse a e, s.srcUse b f], dsts := Dst.regs d, pushes := 1 }
  | .ldW g d a b e f _ _ => { guard := g, uses := [s.srcUse a e, s.srcUse b f], dsts := Dst.regs d, pushes := 1 }
  | .ldD g d a b e f _ => { guard := g, uses := [s.srcUse a e, s.srcUse b f], dsts := Dst.regs d, pushes := 1 }
  | .ldsB g d a _ _ e _ => { guard := g, uses := [s.srcUse a e], dsts := Dst.regs d, pushes := 1 }
  | .ldsH g d a _ _ e _ => { guard := g, uses := [s.srcUse a e], dsts := Dst.regs d, pushes := 1 }
  | .ldsW g d a _ _ e _ => { guard := g, uses := [s.srcUse a e], dsts := Dst.regs d, pushes := 1 }
  | .ldsD g d a _ _ e _ => { guard := g, uses := [s.srcUse a e], dsts := Dst.regs d, pushes := 1 }
  | .stB g _ a b e f => { guard := g, uses := [s.srcUse a e, s.srcUse b f], dsts := [], pushes := 0 }
  | .stH g _ a b e f => { guard := g, uses := [s.srcUse a e, s.srcUse b f], dsts := [], pushes := 0 }
  | .stW g _ a b e f => { guard := g, uses := [s.srcUse a e, s.srcUse b f], dsts := [], pushes := 0 }
  | .stD g _ a b e f => { guard := g, uses := [s.srcUse a e, s.srcUse b f], dsts := [], pushes := 0 }
  | .stsB g _ _ a b e f _ => { guard := g, uses := [s.srcUse a e, s.srcUse b f], dsts := [], pushes := 0 }
  | .stsH g _ _ a b e f _ => { guard := g, uses := [s.srcUse a e, s.srcUse b f], dsts := [], pushes := 0 }
  | .stsW g _ _ a b e f _ => { guard := g, uses := [s.srcUse a e, s.srcUse b f], dsts := [], pushes := 0 }
  | .stsD g _ _ a b e f _ => { guard := g, uses := [s.srcUse a e, s.srcUse b f], dsts := [], pushes := 0 }
  | .amoAdd g _ _ _ a b e f _ => { guard := g, uses := [s.srcUse a e, s.srcUse b f], dsts := [], pushes := 1 }
  | .amoAnd g _ _ _ a b e f _ => { guard := g, uses := [s.srcUse a e, s.srcUse b f], dsts := [], pushes := 1 }
  | .amoOr g _ _ _ a b e f _ => { guard := g, uses := [s.srcUse a e, s.srcUse b f], dsts := [], pushes := 1 }
  | .amoXor g _ _ _ a b e f _ => { guard := g, uses := [s.srcUse a e, s.srcUse b f], dsts := [], pushes := 1 }
  | .amoMin g _ _ _ a b e f _ => { guard := g, uses := [s.srcUse a e, s.srcUse b f], dsts := [], pushes := 1 }
  | .amoMax g _ _ _ a b e f _ => { guard := g, uses := [s.srcUse a e, s.srcUse b f], dsts := [], pushes := 1 }
  | .amoMinu g _ _ _ a b e f _ => { guard := g, uses := [s.srcUse a e, s.srcUse b f], dsts := [], pushes := 1 }
  | .amoMaxu g _ _ _ a b e f _ => { guard := g, uses := [s.srcUse a e, s.srcUse b f], dsts := [], pushes := 1 }
  | .amoSwap g _ _ _ a b e f _ => { guard := g, uses := [s.srcUse a e, s.srcUse b f], dsts := [], pushes := 1 }
  | .amoCas g _ _ _ a b e f _ => { guard := g, uses := [s.srcUse a e] ++ pairUses b f, dsts := [], pushes := 1 }
  | .fxinit g a b e f _ => { guard := g, uses := [s.srcUse a e, s.srcUse b f], dsts := [], pushes := 0 }
  | .fxaddF32 g a b e f _ => { guard := g, uses := [s.srcUse a e, s.srcUse b f], dsts := [], pushes := 0 }
  | .fxaddH g a b e f _ => { guard := g, uses := [s.srcUse a e, s.srcUse b f], dsts := [], pushes := 0 }
  | .fxrd g d a e _ => { guard := g, uses := [s.srcUse a e], dsts := Dst.regs d, pushes := 1 }
  | .fence g _ _ => { guard := g, uses := [], dsts := [], pushes := 0 }
  | .fenceSurv g => { guard := g, uses := [], dsts := [], pushes := 0 }
  | .mls g b => { guard := g, uses := [], dsts := [], pushes := 0, cause := s.stopCause.or (s.barrierCause b) }
  | .mlsArr g b => { guard := g, uses := [], dsts := [], pushes := 0, cause := s.stopCause.or (s.barrierCause b) }
  | .mlsWt g b => { guard := g, uses := [], dsts := [], pushes := 0, cause := s.barrierCause b }
  | .mlsQ g d b => { guard := g, uses := [], dsts := Dst.regs d, pushes := 1, cause := s.barrierCause b }
  | .sysrd g d n => { guard := g, uses := [⟨.sys n, n.code, false⟩], dsts := Dst.regs d, pushes := 1, priv := SysReg.hidden n }
  | .syswr g n b => { guard := g, uses := [s.srcUse b false], dsts := [], pushes := 0, priv := !SysReg.userWritable n }
  | .time g d => { guard := g, uses := [], dsts := Dst.regs d, pushes := 1 }
  | .energy g d => { guard := g, uses := [], dsts := Dst.regs d, pushes := 1 }
  | .cycle g d => { guard := g, uses := [], dsts := Dst.regs d, pushes := 1 }
  | .tlbPf g a e => { guard := g, uses := [s.srcUse a e], dsts := [], pushes := 0 }
  | .pgInv g a b e f => { guard := g, uses := [s.srcUse a e, s.srcUse b f], dsts := [], pushes := 0, priv := true }
  | .pwrReq g a e => { guard := g, uses := [s.srcUse a e], dsts := [], pushes := 0 }
  | .pwrRel g => { guard := g, uses := [], dsts := [], pushes := 0 }
  | .lvlIdx g d _ => { guard := g, uses := [], dsts := Dst.regs d, pushes := 1 }
  | .lvlCnt g d _ => { guard := g, uses := [], dsts := Dst.regs d, pushes := 1 }
  | .crc g d a b e f _ => { guard := g, uses := [s.srcUse a e, s.srcUse b f], dsts := Dst.regs d, pushes := 1 }
  | .vfadd g d a b m e f _ => { guard := g, uses := [vUse a e, vUse b f, mUse m] ++ mergeUse d m, dsts := [.v d], pushes := 0 }
  | .vfsub g d a b m e f _ => { guard := g, uses := [vUse a e, vUse b f, mUse m] ++ mergeUse d m, dsts := [.v d], pushes := 0 }
  | .vfmul g d a b m e f _ => { guard := g, uses := [vUse a e, vUse b f, mUse m] ++ mergeUse d m, dsts := [.v d], pushes := 0 }
  | .vfma g d a b m e f _ => { guard := g, uses := [vUse a e, vUse b f, vUse d false, mUse m], dsts := [.v d], pushes := 0 }
  | .vfms g d a b m e f _ => { guard := g, uses := [vUse a e, vUse b f, vUse d false, mUse m], dsts := [.v d], pushes := 0 }
  | .vfnma g d a b m e f _ => { guard := g, uses := [vUse a e, vUse b f, vUse d false, mUse m], dsts := [.v d], pushes := 0 }
  | .vfmin g d a b m e f _ => { guard := g, uses := [vUse a e, vUse b f, mUse m] ++ mergeUse d m, dsts := [.v d], pushes := 0 }
  | .vfmax g d a b m e f _ => { guard := g, uses := [vUse a e, vUse b f, mUse m] ++ mergeUse d m, dsts := [.v d], pushes := 0 }
  | .vfabs g d a m e _ => { guard := g, uses := [vUse a e, mUse m] ++ mergeUse d m, dsts := [.v d], pushes := 0 }
  | .vfneg g d a m e _ => { guard := g, uses := [vUse a e, mUse m] ++ mergeUse d m, dsts := [.v d], pushes := 0 }
  | .vfcpys g d a b m e f _ => { guard := g, uses := [vUse a e, vUse b f, mUse m] ++ mergeUse d m, dsts := [.v d], pushes := 0 }
  | .vrcp g d a m e _ => { guard := g, uses := [vUse a e, mUse m] ++ mergeUse d m, dsts := [.v d], pushes := 0 }
  | .vrsq g d a m e _ => { guard := g, uses := [vUse a e, mUse m] ++ mergeUse d m, dsts := [.v d], pushes := 0 }
  | .vsqrt g d a m e _ => { guard := g, uses := [vUse a e, mUse m] ++ mergeUse d m, dsts := [.v d], pushes := 0 }
  | .vexp2 g d a m e _ => { guard := g, uses := [vUse a e, mUse m] ++ mergeUse d m, dsts := [.v d], pushes := 0 }
  | .vlog2 g d a m e _ => { guard := g, uses := [vUse a e, mUse m] ++ mergeUse d m, dsts := [.v d], pushes := 0 }
  | .vtanh g d a m e _ => { guard := g, uses := [vUse a e, mUse m] ++ mergeUse d m, dsts := [.v d], pushes := 0 }
  | .vsig g d a m e _ => { guard := g, uses := [vUse a e, mUse m] ++ mergeUse d m, dsts := [.v d], pushes := 0 }
  | .vdiv g d a b m e f _ => { guard := g, uses := [vUse a e, vUse b f, mUse m] ++ mergeUse d m, dsts := [.v d], pushes := 0 }
  | .vfcmpEq g p a b m e f _ => { guard := g, uses := [vUse a e, vUse b f, mUse m], dsts := mPair p, pushes := 0 }
  | .vfcmpLt g p a b m e f _ => { guard := g, uses := [vUse a e, vUse b f, mUse m], dsts := mPair p, pushes := 0 }
  | .vfcmpLe g p a b m e f _ => { guard := g, uses := [vUse a e, vUse b f, mUse m], dsts := mPair p, pushes := 0 }
  | .vfcmpUn g p a b m e f _ => { guard := g, uses := [vUse a e, vUse b f, mUse m], dsts := mPair p, pushes := 0 }
  | .vadd g d a b m e f _ => { guard := g, uses := [vUse a e, vUse b f, mUse m] ++ mergeUse d m, dsts := [.v d], pushes := 0 }
  | .vsub g d a b m e f _ => { guard := g, uses := [vUse a e, vUse b f, mUse m] ++ mergeUse d m, dsts := [.v d], pushes := 0 }
  | .vmul g d a b m e f _ => { guard := g, uses := [vUse a e, vUse b f, mUse m] ++ mergeUse d m, dsts := [.v d], pushes := 0 }
  | .vmulh g d a b m e f _ => { guard := g, uses := [vUse a e, vUse b f, mUse m] ++ mergeUse d m, dsts := [.v d], pushes := 0 }
  | .vmin g d a b m e f _ => { guard := g, uses := [vUse a e, vUse b f, mUse m] ++ mergeUse d m, dsts := [.v d], pushes := 0 }
  | .vmax g d a b m e f _ => { guard := g, uses := [vUse a e, vUse b f, mUse m] ++ mergeUse d m, dsts := [.v d], pushes := 0 }
  | .vminu g d a b m e f _ => { guard := g, uses := [vUse a e, vUse b f, mUse m] ++ mergeUse d m, dsts := [.v d], pushes := 0 }
  | .vmaxu g d a b m e f _ => { guard := g, uses := [vUse a e, vUse b f, mUse m] ++ mergeUse d m, dsts := [.v d], pushes := 0 }
  | .vand g d a b m e f => { guard := g, uses := [vUse a e, vUse b f, mUse m] ++ mergeUse d m, dsts := [.v d], pushes := 0 }
  | .vor g d a b m e f => { guard := g, uses := [vUse a e, vUse b f, mUse m] ++ mergeUse d m, dsts := [.v d], pushes := 0 }
  | .vxor g d a b m e f => { guard := g, uses := [vUse a e, vUse b f, mUse m] ++ mergeUse d m, dsts := [.v d], pushes := 0 }
  | .vshl g d a b m e f _ => { guard := g, uses := [vUse a e, vUse b f, mUse m] ++ mergeUse d m, dsts := [.v d], pushes := 0 }
  | .vshr g d a b m e f _ => { guard := g, uses := [vUse a e, vUse b f, mUse m] ++ mergeUse d m, dsts := [.v d], pushes := 0 }
  | .vsra g d a b m e f _ => { guard := g, uses := [vUse a e, vUse b f, mUse m] ++ mergeUse d m, dsts := [.v d], pushes := 0 }
  | .vabs g d a m e _ => { guard := g, uses := [vUse a e, mUse m] ++ mergeUse d m, dsts := [.v d], pushes := 0 }
  | .vcmpEq g p a b m e f _ => { guard := g, uses := [vUse a e, vUse b f, mUse m], dsts := mPair p, pushes := 0 }
  | .vcmpLt g p a b m e f _ => { guard := g, uses := [vUse a e, vUse b f, mUse m], dsts := mPair p, pushes := 0 }
  | .vcmpLtu g p a b m e f _ => { guard := g, uses := [vUse a e, vUse b f, mUse m], dsts := mPair p, pushes := 0 }
  | .vmov g d a m e => { guard := g, uses := [vUse a e, mUse m] ++ mergeUse d m, dsts := [.v d], pushes := 0 }
  | .vsplat g d a m e _ => { guard := g, uses := [sUse a e, mUse m] ++ mergeUse d m, dsts := [.v d], pushes := 0 }
  | .vins g d a b m e f _ => { guard := g, uses := [sUse a e, sUse b f, vUse d false, mUse m], dsts := [.v d], pushes := 0 }
  | .vext g d a b e f _ => { guard := g, uses := [vUse a e, sUse b f], dsts := [.s d], pushes := 1 }
  | .vsel g d a b m e f => { guard := g, uses := [vUse a e, vUse b f, mUse m], dsts := [.v d], pushes := 0 }
  | .vperm g d a b m e f => { guard := g, uses := [vUse a e, vUse b f, mUse m] ++ mergeUse d m, dsts := [.v d], pushes := 0 }
  | .vrot g d a b m e f => { guard := g, uses := [vUse a e, sUse b f, mUse m] ++ mergeUse d m, dsts := [.v d], pushes := 0 }
  | .vzip g d a b _ e f _ => { guard := g, uses := [vUse a e, vUse b f], dsts := [.v d], pushes := 0 }
  | .vidx g d a b m e f => { guard := g, uses := [sUse a e, sUse b f, mUse m] ++ mergeUse d m, dsts := [.v d], pushes := 0 }
  | .vrsum g d a m e _ => { guard := g, uses := [vUse a e, mUse m], dsts := [.s d], pushes := 1 }
  | .vrmax g d a m e _ => { guard := g, uses := [vUse a e, mUse m], dsts := [.s d], pushes := 1 }
  | .vrmin g d a m e _ => { guard := g, uses := [vUse a e, mUse m], dsts := [.s d], pushes := 1 }
  | .vrmaxi g d a m e _ => { guard := g, uses := [vUse a e, mUse m], dsts := [.s d], pushes := 1 }
  | .vrpop g d m => { guard := g, uses := [mUse m], dsts := [.s d], pushes := 1 }
  | .vtopk g d a b m e f _ => { guard := g, uses := [vUse a e, sUse b f, mUse m], dsts := [.v d], pushes := 0, engine := .sOnly }
  | .vtopkI g d a b m e f _ => { guard := g, uses := [vUse a e, sUse b f, mUse m], dsts := [.v d], pushes := 0, engine := .sOnly }
  | .vsort g d a m e _ => { guard := g, uses := [vUse a e, mUse m], dsts := [.v d], pushes := 0, engine := .sOnly }
  | .vrank g d a m e _ => { guard := g, uses := [vUse a e, mUse m] ++ mergeUse d m, dsts := [.v d], pushes := 0, engine := .sOnly }
  | .vqnt g d a b e f _ => { guard := g, uses := [sUse b f] ++ s.groupUses a b e, dsts := [.v d] ++ (if d.val < 15 then [.v (d + 1)] else []), pushes := 0 }
  | .vdqnt g d a b _ e f _ => { guard := g, uses := [vUse a e, vUse b f], dsts := [.v d], pushes := 0 }
  | .vcvt g d a m e _ => { guard := g, uses := [vUse a e, mUse m] ++ mergeUse d m, dsts := [.v d], pushes := 0 }
  | .vpack g d a b m e f t => { guard := g, uses := [vUse a e, mUse m] ++ (if quarter t then [] else [vUse b f]) ++ (if quarter t || m != 0 then [vUse d false] else []), dsts := [.v d], pushes := 0 }
  | .vunpk g d a _ m e _ => { guard := g, uses := [vUse a e, mUse m] ++ mergeUse d m, dsts := [.v d], pushes := 0 }
  | .vsrnd g a m e => { guard := g, uses := [vUse a e, mUse m], dsts := [], pushes := 0 }
  | .vld g d a b m e f _ => { guard := g, uses := [sUse a e, sUse b f, mUse m] ++ mergeUse d m, dsts := [.v d], pushes := 0 }
  | .vst g d a b m e f _ => { guard := g, uses := [sUse a e, sUse b f, vUse d false, mUse m], dsts := [], pushes := 0 }
  | .vldT g d _ b m f _ => { guard := g, uses := [mUse m] ++ vPairUses b f ++ mergeUse d m, dsts := [.v d], pushes := 0 }
  | .vstT g d _ b m f _ => { guard := g, uses := [vUse d false, mUse m] ++ vPairUses b f, dsts := [], pushes := 0 }
  | .vgat g d a b m e f _ _ => { guard := g, uses := [sUse a e, vUse b f, mUse m] ++ mergeUse d m, dsts := [.v d], pushes := 0 }
  | .vsca g d a b m e f _ _ => { guard := g, uses := [sUse a e, vUse b f, vUse d false, mUse m], dsts := [], pushes := 0 }
  | .vldB g d a b m e f _ => { guard := g, uses := [sUse a e, sUse b f, mUse m] ++ mergeUse d m, dsts := [.v d], pushes := 0 }
  | .mand g d a b => { guard := g, uses := [mUse a, mUse b], dsts := [mReg d], pushes := 0 }
  | .mor g d a b => { guard := g, uses := [mUse a, mUse b], dsts := [mReg d], pushes := 0 }
  | .mxor g d a b => { guard := g, uses := [mUse a, mUse b], dsts := [mReg d], pushes := 0 }
  | .mnot g d a => { guard := g, uses := [mUse a], dsts := [mReg d], pushes := 0 }
  | .mfirst g d a => { guard := g, uses := [mUse a], dsts := [mReg d], pushes := 0 }
  | .mset g d a e => { guard := g, uses := [sUse a e], dsts := [mReg d], pushes := 0 }
  | .msetRd g d a => { guard := g, uses := [mUse a], dsts := [.s d], pushes := 1 }
  | .vaccRd g d _ b m f _ => { guard := g, uses := [sUse b f, mUse m] ++ mergeUse d m, dsts := [.v d], pushes := 0 }
  | .vaccPk g d _ b m f _ => { guard := g, uses := [sUse b f, mUse m] ++ mergeUse d m, dsts := [.v d], pushes := 0 }
  | .vaccWr g _ a b m e f _ => { guard := g, uses := [vUse a e, sUse b f, mUse m], dsts := [], pushes := 0 }
  | .vclamp g d a b m e f _ => { guard := g, uses := [vUse a e, vUse b f, mUse m] ++ mergeUse d m, dsts := [.v d], pushes := 0 }
  | .vdot4 g d a b m e f _ => { guard := g, uses := [vUse a e, vUse b f, vUse d false, mUse m], dsts := [.v d], pushes := 0 }
  | .vfrnd g d a m e _ => { guard := g, uses := [vUse a e, mUse m] ++ mergeUse d m, dsts := [.v d], pushes := 0 }
  | .vfexp g d a m e _ => { guard := g, uses := [vUse a e, mUse m] ++ mergeUse d m, dsts := [.v d], pushes := 0 }
  | .vscl g d a b m e f _ => { guard := g, uses := [vUse a e, vUse b f, mUse m] ++ mergeUse d m, dsts := [.v d], pushes := 0 }
  | .vcompress g d a m e _ => { guard := g, uses := [vUse a e, mUse m], dsts := [.v d], pushes := 0 }
  | .vexpand g d a m e _ => { guard := g, uses := [vUse a e, mUse m] ++ mergeUse d m, dsts := [.v d], pushes := 0 }
  | .vscan g d a m e _ => { guard := g, uses := [vUse a e, mUse m] ++ mergeUse d m, dsts := [.v d], pushes := 0 }
  | .vlut g d a b m e f _ => { guard := g, uses := [vUse a e, vUse b f, mUse m] ++ mergeUse d m, dsts := [.v d], pushes := 0 }
  | .vclz g d a m e _ => { guard := g, uses := [vUse a e, mUse m] ++ mergeUse d m, dsts := [.v d], pushes := 0 }
  | .vpopc g d a m e _ => { guard := g, uses := [vUse a e, mUse m] ++ mergeUse d m, dsts := [.v d], pushes := 0 }
  | .vbfx g d a b m e f _ => { guard := g, uses := [vUse a e, sUse b f, mUse m] ++ mergeUse d m, dsts := [.v d], pushes := 0 }
  | .vrev g d a m e _ => { guard := g, uses := [vUse a e, mUse m] ++ mergeUse d m, dsts := [.v d], pushes := 0 }
  | .vhist g d a m e _ => { guard := g, uses := [vUse a e, vUse d false, mUse m], dsts := [.v d], pushes := 0 }
  | .vbcast g d a b m e f _ => { guard := g, uses := [vUse a e, sUse b f, mUse m] ++ mergeUse d m, dsts := [.v d], pushes := 0 }
  | .mcall g k => { guard := g, uses := aUses, dsts := [], pushes := 0, engine := .mOnly, cause := s.routineCause k.val }
  | .mcallB g k => { guard := g, uses := aUses, dsts := [], pushes := 0, engine := .mOnly, cause := s.routineCause k.val }
  | .mwait g => { guard := g, uses := [], dsts := [], pushes := 0, engine := .mOnly }
  | .mscale g _ _ => { guard := g, uses := [], dsts := [], pushes := 0, engine := .mOnly }
  | .mdrain g _ => { guard := g, uses := [], dsts := [], pushes := 0, engine := .mOnly }
  | .mclr g _ _ => { guard := g, uses := [], dsts := [], pushes := 0, engine := .mOnly }
  | .mldMs g a e => { guard := g, uses := [s.srcUse a e], dsts := [], pushes := 0, engine := .mOnly }
  | .mstMs g a b e f => { guard := g, uses := [s.srcUse a e, s.srcUse b f], dsts := [], pushes := 0, engine := .mOnly }
  | .mqClr g _ _ _ => { guard := g, uses := [], dsts := [], pushes := 0, engine := .mOnly }
  | .mqSt g d => { guard := g, uses := [], dsts := Dst.regs d, pushes := 1, engine := .mOnly }
  | .mhalf g _ => { guard := g, uses := [], dsts := [], pushes := 0, engine := .mOnly, priv := true }
  | .mchk g d _ => { guard := g, uses := [], dsts := Dst.regs d, pushes := 1, engine := .mOnly }
  | .mfix g _ _ _ => { guard := g, uses := [], dsts := [], pushes := 0, engine := .mOnly }
  | .mmov g d x0 => { guard := g, uses := [], dsts := [], pushes := 0, engine := .mOnly, cause := planeCause d x0 }
  | .mstat g d => { guard := g, uses := [], dsts := Dst.regs d, pushes := 1, engine := .mOnly }
  | .mabort g => { guard := g, uses := [], dsts := [], pushes := 0, engine := .mOnly }
  | .cpyGo g a e c => EngSyl.info s (.cpyGo g a e c)
  | .cpyGq g a b e f c => EngSyl.info s (.cpyGq g a b e f c)
  | .cpyDrn g c => EngSyl.info s (.cpyDrn g c)
  | .cpySt g d c => EngSyl.info s (.cpySt g d c)
  | .cpyPb g a e => EngSyl.info s (.cpyPb g a e)
  | .cpyInv g a e => EngSyl.info s (.cpyInv g a e)
  | .cpyZero g h c => EngSyl.info s (.cpyZero g h c)
  | .cpyFill g a b e f c => EngSyl.info s (.cpyFill g a b e f c)
  | .cpyCvt g a e c => EngSyl.info s (.cpyCvt g a e c)
  | .cpyCancel g c => EngSyl.info s (.cpyCancel g c)
  | .tmov g d x0 a b => EngSyl.info s (.tmov g d x0 a b)
  | .tmovH g d x0 a b => EngSyl.info s (.tmovH g d x0 a b)
  | .rlay g h a b e f => EngSyl.info s (.rlay g h a b e f)
  | .rlayWt g h => EngSyl.info s (.rlayWt g h)
  | .rlaySt g h => EngSyl.info s (.rlaySt g h)
  | .bcDrv g d a e => EngSyl.info s (.bcDrv g d a e)
  | .bcLat g d a e => EngSyl.info s (.bcLat g d a e)
  | .bcSync g a b e f => EngSyl.info s (.bcSync g a b e f)
  | .bufArm g c k a b e f => EngSyl.info s (.bufArm g c k a b e f)
  | .bufSwp g k => EngSyl.info s (.bufSwp g k)
  | .bufSt g d k => EngSyl.info s (.bufSt g d k)
  | .pfG g a b e f => EngSyl.info s (.pfG g a b e f)
  | .fsend g h a e => EngSyl.info s (.fsend g h a e)
  | .fsendV g v a e => EngSyl.info s (.fsendV g v a e)
  | .fsendM g a b e f => EngSyl.info s (.fsendM g a b e f)
  | .rpost g h a b e f => EngSyl.info s (.rpost g h a b e f)
  | .rpostW g h a b e f => EngSyl.info s (.rpostW g h a b e f)
  | .rcancel g d a e => EngSyl.info s (.rcancel g d a e)
  | .rprobe g d a e => EngSyl.info s (.rprobe g d a e)
  | .rwait g d a e => EngSyl.info s (.rwait g d a e)
  | .rlbQ g d a e => EngSyl.info s (.rlbQ g d a e)
  | .fdrn g => EngSyl.info s (.fdrn g)
  | .collRed g h a e => EngSyl.info s (.collRed g h a e)
  | .collAg g h a e => EngSyl.info s (.collAg g h a e)
  | .collRs g h a e => EngSyl.info s (.collRs g h a e)
  | .collA2a g h a e => EngSyl.info s (.collA2a g h a e)
  | .collBar g a e => EngSyl.info s (.collBar g a e)
  | .collSt g d => EngSyl.info s (.collSt g d)
  | .collRing g a b e f => EngSyl.info s (.collRing g a b e f)
  | .noiseRd g d n => EngSyl.info s (.noiseRd g d n)
  | .noiseClr g => EngSyl.info s (.noiseClr g)
  | .fpeer g d a e => EngSyl.info s (.fpeer g d a e)
  | .fslot g d a e => EngSyl.info s (.fslot g d a e)
  | .fbays g d a e => EngSyl.info s (.fbays g d a e)
  | .fevt g d => EngSyl.info s (.fevt g d)
  | .fretune g a e => EngSyl.info s (.fretune g a e)
  | .frepair g a b e f => EngSyl.info s (.frepair g a b e f)
  | .fgrant g a e => EngSyl.info s (.fgrant g a e)
  | .nop _ => Info.none
  | .ldc _ _ _ => Info.none
  | .decc _ _ => Info.none
  | .jmp _ _ => Info.none
  | .jcnd _ _ _ _ => Info.none
  | .pulla _ => Info.none
  | .pullb _ => Info.none
  | .mac _ _ => Info.none
  | .macb _ _ => Info.none
  | .segcut _ => Info.none
  | .ckacc _ => Info.none
  | .ckcmp _ => Info.none
  | .postp _ _ => Info.none
  | .halfp _ => Info.none
  | .waitq _ _ _ _ => Info.none
  | .endRoutine => Info.none
  | .resultLand _ _ => Info.none
  | .blockCleared _ => Info.none
  | .contextSwitch _ => Info.none
  | .quantum _ => Info.none
  | .stopSpacing _ => Info.none
  | .fetchRefill _ => Info.none
  | .parkTExpiry _ => Info.none
  | .syncRoundRelease _ _ => Info.none
  | .katInject _ _ _ => Info.none
  | .kickGo => Info.none
  | .poolPlace => Info.none
  | .priorityAging => Info.none
  | .dieDispatch _ => Info.none
  | .lineAck _ _ => Info.none
  | .walkComplete _ => Info.none
  | .remoteAccessArrival _ => Info.none
  | .remoteReply _ _ => Info.none
  | .remoteRefusal _ _ _ => Info.none
  | .poisonConsumed _ _ _ _ => Info.none
  | .patrolScrub _ => Info.none
  | .deltaArrival _ => Info.none
  | .parityAckArrival _ => Info.none
  | .relayoutTile _ _ => Info.none
  | .copyExecute _ _ _ => Info.none
  | .copyComplete _ _ => Info.none
  | .routineStart _ => Info.none
  | .scalePerform _ => Info.none
  | .mdrainPerform _ => Info.none
  | .mclrPerform _ => Info.none
  | .mmovPerform _ => Info.none
  | .vaccRdPerform _ => Info.none
  | .rotorSlotBoundary => Info.none
  | .periodBoundary => Info.none
  | .controlFlitArrival _ _ _ => Info.none
  | .dataFlitArrival _ _ _ => Info.none
  | .messageHeaderArrival _ => Info.none
  | .relayedHeaderArrival _ _ _ _ _ => Info.none
  | .landingComplete _ => Info.none
  | .sendComplete _ _ => Info.none
  | .collectiveExecute _ _ _ => Info.none
  | .lineDrift _ _ _ => Info.none
  | .reserveSubstitution => Info.none
  | .linkTraining _ _ _ => Info.none
  | .retrainTimeout _ _ => Info.none
  | .keeperMarkLoss => Info.none
  | .fabricDrained => Info.none
  | .tollBoundary => Info.none
  | .mailboxWrite _ _ => Info.none
  | .permitsWrite _ _ => Info.none
  | .framemapSync => Info.none
  | .framemapSyncDone => Info.none
  | .protctlWrite _ => Info.none
  | .rebuildAll _ => Info.none
  | .rebuildFrame _ => Info.none
  | .rebuildParity _ => Info.none
  | .rebuildDone => Info.none
  | .devnumWrite _ => Info.none
  | .fabricEnable _ => Info.none
  | .fabricDrain => Info.none
  | .profileSelect _ _ => Info.none
  | .preemptSave => Info.none
  | .preemptRestore => Info.none
  | .saveRoutineTimeout => Info.none
  | .contextSaved _ => Info.none
  | .fatalStore _ _ => Info.none
  | .powerOn _ => Info.none
  | .powerLoss => Info.none
  | .selftestRetest _ => Info.none
  | .pcieLinkTraining _ => Info.none
  | .fruRead _ _ => Info.none
  | .vacateGo => Info.none
  | .vacateBudgetTimeout => Info.none
  | .attestGo => Info.none
  | .attestDone => Info.none
  | .keyLoad => Info.none
  | .keyErase => Info.none
  | .registerWrite _ _ _ => Info.none
  | .softError _ => Info.none
  | .hostBarAccess _ => Info.none
  | .vacateCopyDone => Info.none

/-! ## The checks before issue (R207) -/

/-- What the checks find. -/
inductive Verdict where
  | go | block | wake | walk (va : Word) (wr : Bool) | fault (t : Trap) (slot : Fin 8)
  deriving DecidableEq, Repr

def Verdict.or : Verdict → Verdict → Verdict
  | .go, v => v
  | v, _ => v

/-- A syllable with its slot. -/
abbrev Slotted := Fin 8 × Info

def State.slotTrap (s : State) (slot : Fin 8) (code : BitVec 8) (reg cause : Nat) : Verdict :=
  .fault ⟨code, s.cx.regs.pc, bundleInfo reg slot.val false cause⟩ slot

/-- The context runs on a core that lacks the engine. -/
def State.absent (s : State) : Engine → Bool
  | .any => false
  | .mOnly => !isMCore s.gcore
  | .sOnly => isMCore s.gcore

/-- Step 2 for one syllable: illegal, absent engine, privilege. -/
def State.checkStatic (s : State) (x : Slotted) : Verdict :=
  match x.2.cause with
  | some c => s.slotTrap x.1 0x01 0 c
  | none =>
    if s.absent x.2.engine then s.slotTrap x.1 0x03 0 0
    else if x.2.priv && !s.system then s.slotTrap x.1 0x02 0 0
    else .go

/-- The first verdict that is not `go`. -/
def firstVerdict (f : Slotted → Verdict) : List Slotted → Verdict
  | [] => .go
  | x :: xs => (f x).or (firstVerdict f xs)

/-- p0, p1, m0 and m1 are constants. -/
def Reg.isConst : Reg → Bool
  | .p i => i.val < 2
  | .m i => i.val < 2
  | _ => false

def State.vinvalid (s : State) : Reg → Bool
  | .v i => s.cx.regs.vinvalid.getLsbD i.val
  | _ => false

/-- A read of the register would receive a previous value (R197); FPMODE holds the flags (R175). -/
def State.isStale (s : State) (r : Reg) : Bool :=
  !r.isConst && (s.cx.stale r s.issue.cycle || (r == .sys .fpmode && s.cx.stale .flags s.issue.cycle))

/-- The sources that a syllable reads, its guard among them. -/
def State.reads (s : State) (x : Slotted) : List Use :=
  if s.readP x.2.guard then pUse x.2.guard :: x.2.uses else [pUse x.2.guard]

/-- The queue entries that n pushes from now on write. -/
def State.pushRegs (s : State) (n : Nat) : List Reg := (List.range n).map fun k => .qr (Fin.ofNat 16 (s.cx.regs.qp.toNat + k))

/-- A fault for the first source of a kind. -/
def State.checkUse (s : State) (code : BitVec 8) (bad : Use → Bool) (x : Slotted) : Verdict :=
  match (s.reads x).find? bad with
  | some u => s.slotTrap x.1 code u.code 0
  | none => .go

def Reg.isVector : Reg → Bool
  | .v _ => true
  | _ => false

/-- The syllables name a register of the vector bank (R195). -/
def State.namesBank (s : State) (on : List Slotted) : Bool :=
  on.any fun x => (s.reads x).any (·.reg.isVector) || x.2.dsts.any Reg.isVector

/-- Step 4: empty operands that trap, then empty operands and destinations that block, a bank in retention, then invalid operands, then
previous values under STRICT (R194, R195, R197). -/
def State.checkSources (s : State) (xs : List Slotted) : Verdict :=
  let on := xs.filter fun x => s.readP x.2.guard
  let empty := fun r => s.cx.empty r
  let dsts := on.flatMap (·.2.dsts) ++ s.pushRegs ((on.map (·.2.pushes)).sum)
  let waits := (xs.any fun x => (s.reads x).any fun u => empty u.reg) || dsts.any empty
  (firstVerdict (s.checkUse 0x04 fun u => u.trap && empty u.reg) xs).or <|
  (if waits then .block else if s.cx.retained && s.namesBank on then .wake else .go : Verdict).or <|
  (firstVerdict (s.checkUse 0x05 fun u => s.vinvalid u.reg) xs).or <|
  if flag s.cx.regs.issuectl 0 then firstVerdict (s.checkUse 0x0D fun u => s.isStale u.reg) xs else .go

/-- Reads of previous values set VIOL while STRICT is 0 (R198). -/
def State.markViol (s : State) (xs : List Slotted) : State :=
  if !flag s.cx.regs.issuectl 0 && xs.any fun x => (s.reads x).any fun u => s.isStale u.reg then
    s.modRegs fun r => { r with issuectl := setFlag r.issuectl 1 true }
  else s

/-- The destination clash of R206: the later of two syllables whose guards read 1 names a destination of an earlier one. -/
def State.checkClash (s : State) : List Reg → List Slotted → Verdict
  | _, [] => .go
  | seen, x :: xs =>
    if s.readP x.2.guard then
      if x.2.dsts.any seen.contains then s.slotTrap x.1 0x01 0 0x0C else s.checkClash (seen ++ x.2.dsts) xs
    else s.checkClash seen xs

/-! ## Stack spill and fill (R216) -/

/-- Entries the return stack and the mask stack hold on chip. -/
def rstackSize : Nat := 16
def mstackSize : Nat := 8

/-- The address of spill entry i. -/
def State.spillAddr (s : State) (mask : Bool) (i : Nat) : Word :=
  (s.cx.regs.spillptr &&& ones 12 44) + word (8 * i + if mask then 0x800 else 0)

/-- RSP or MSP. -/
def State.spilled (s : State) (mask : Bool) : Nat :=
  if mask then field s.cx.regs.spillptr 4 8 else field s.cx.regs.spillptr 56 8

def State.setSpilled (s : State) (mask : Bool) (n : Nat) : State :=
  s.modRegs fun r => { r with spillptr := if mask then setField r.spillptr 4 8 n else setField r.spillptr 56 8 n }

/-- Spill and fill are made at system privilege. -/
def State.spillWho (s : State) : Who := ⟨s.cid, true, none⟩

/-- The stack-spill fault. -/
def State.stackTrap (s : State) (ea : Word) (cause : Nat) : Trap := ⟨0x0B, ea, bundleInfo 0 s.issue.slot.val false cause⟩

/-- The place of spill entry i, from the TLBs: the stack-spill fault, or a walk that parks the context (R216). -/
def State.spillPlace (s : State) (mask : Bool) (i : Nat) (k : Kind) : Except XErr Place :=
  let a := s.spillAddr mask i
  match s.translate s.spillWho a k with
  | .ok p => if (s.placeFault p k a).isSome then .error (.fault (s.stackTrap a 0x51)) else .ok p
  | .error (.fault _) => .error (.fault (s.stackTrap a 0x51))
  | .error (.miss va) =>
    .error (if s.cx.walkFault.any (·.1 == va) then .fault (s.stackTrap a 0x51) else .miss va)

/-- How many entries a stack holds on chip and in the spill area. -/
structure Depth where
  chip : Nat
  spill : Nat
  deriving DecidableEq, Repr

def State.depth (s : State) (mask : Bool) : Depth :=
  ⟨if mask then s.cx.regs.mstack.length else s.cx.regs.rstack.length, s.spilled mask⟩

/-- One push or pop: the depth after it, and the spill entry it writes or reads. -/
def Depth.move (d : Depth) (mask push : Bool) : Except Nat (Depth × Option Nat) :=
  if push then
    if d.chip < (if mask then mstackSize else rstackSize) then .ok (⟨d.chip + 1, d.spill⟩, none)
    else if d.spill = 255 then .error 0x52
    else .ok (⟨d.chip, d.spill + 1⟩, some d.spill)
  else if 0 < d.chip then .ok (⟨d.chip - 1, d.spill⟩, none)
  else if d.spill = 0 then .error 0x53
  else .ok (⟨0, d.spill - 1⟩, some (d.spill - 1))

/-- A stack operation at a depth: the depth after it, or what keeps it from being made. -/
def State.stackMove (s : State) (slot : Fin 8) (mask push : Bool) (d : Depth) : Except Verdict Depth :=
  match d.move mask push with
  | .error c => .error (.fault (s.stackTrap s.cx.regs.pc c) slot)
  | .ok (d, none) => .ok d
  | .ok (d, some i) =>
    match s.spillPlace mask i (if push then .write else .read) with
    | .ok _ => .ok d
    | .error (.fault t) => .error (.fault t slot)
    | .error (.miss va) => .error (.walk va push)

/-- Step 3: the stack operations of the syllables whose guards read 1, one after the other from the depths of the return and the mask
stack. -/
def State.checkStack (s : State) (r m : Depth) : List Slotted → Verdict
  | [] => .go
  | x :: xs =>
    if !s.readP x.2.guard then s.checkStack r m xs
    else
      let at_ := fun mask push d => { s with issue := { s.issue with slot := x.1 } }.stackMove x.1 mask push d
      match x.2.stack with
      | .none => s.checkStack r m xs
      | .pushR => match at_ false true r with | .ok r => s.checkStack r m xs | .error v => v
      | .popR => match at_ false false r with | .ok r => s.checkStack r m xs | .error v => v
      | .pushM => match at_ true true m with | .ok m => s.checkStack r m xs | .error v => v
      | .popM => match at_ true false m with | .ok m => s.checkStack r m xs | .error v => v

def State.checkStacks (s : State) (xs : List Slotted) : Verdict := s.checkStack (s.depth false) (s.depth true) xs

/-! ## Running a syllable -/

/-- The checks for the syllables of a bundle, or for one syllable. -/
def State.checks (s : State) (xs : List Slotted) : Verdict :=
  (firstVerdict s.checkStatic xs).or <| (s.checkStacks xs).or <| s.checkSources xs

/-- The bundle blocks for the vector bank to wake, which takes about 2 µs (R195; assumption 93). -/
def State.wakeBank (s : State) : State := ({ s with cx := { s.cx with retained := false } }).blockOn (.time (s.now + 2000))

/-- The context parks for the walk of a spill or fill (R165, R216). -/
def State.parkSpill (s : State) (va : Word) (wr : Bool) : State := { s.parkOn (.walk va wr true) with evt := .walk }

/-- A syllable: the checks unless they are made, then its effect if its guard reads 1 (R201). -/
def State.runSyl (s : State) (i : Info) (body : State → State) : State :=
  let s := { s with evt := .done }
  if s.issue.checked then (if s.readP i.guard then body s else s)
  else
    match s.checks [(s.issue.slot, i)] with
    | .fault t _ => s.trap t
    | .block => s.blockBundle
    | .wake => s.wakeBank
    | .walk va wr => s.parkSpill va wr
    | .go =>
      let s := s.markViol [(s.issue.slot, i)]
      if s.readP i.guard then body s else s

/-- What every syllable's meaning is: always a next state. -/
def State.syl (s : State) (i : Info) (body : State → State) : Host.Outcome State Fault Refusal := .next (s.runSyl i body)

/-- A fault 0x01 that a source value decides. -/
def State.illegalNow (s : State) (cause : Nat) : State := s.trap (s.illegal cause)

/-- A fault whose EADDR, and whose EINFO unless it is given, the spec does not state: free values (assumption 9). -/
def State.silentTrap (s : State) (code : BitVec 8) (einfo : Option Word) : State :=
  let (a, s) := s.freeValue
  match einfo with
  | some i => s.trap ⟨code, a, i⟩
  | none =>
    let (i, s) := s.freeValue
    s.trap ⟨code, a, i⟩

/-- EINFO[13:11] := SLOT. -/
def State.slotInfo (s : State) : Word := bundleInfo 0 s.issue.slot.val false 0

/-- The alignment fault (R112). -/
def State.misaligned (s : State) : State := s.silentTrap 0x06 none

/-! ## Reads that a bundle blocks for -/

/-- The bytes of a piece, a peer's part among the lines kept for this bundle. -/
def State.keptPiece (s : State) (ord : Bool) (p : Piece) : Option (List Byte) :=
  let d := if ord then s.deferred p.pod else (0, 0)
  match s.cx.fetched.find? (·.1 == p.pod) with
  | some l => some (lineBytes (mergeLine l.2 d.2 d.1) p.off p.len)
  | none => none

/-- Asks peers for the lines not yet on their way. `dest` are the registers that a refusal leaves zero; a fetch says so in EINFO. -/
def State.askKept (s : State) (fetch : Bool) (dest : List Reg) (asks : List (Piece × BitVec 64)) : State :=
  asks.foldl (fun s a =>
    if s.remotes.any fun r => r.ctx == s.cid && r.keep && r.dev.val * 2 ^ 42 + r.line == a.1.pod then s
    else
      let n := s.nextId
      let s := s.ask s.cid .load a.1 a.2 0 0 [] 0 true
      { s with remotes := s.remotes.map fun (r : RemotePend) =>
                 if r.id = n then { r with dest := dest, info := if fetch then fetchRefusal else r.info } else r }) s

/-- Reads n bytes for a syllable that is a block point until they have arrived: the bytes, or the state in which it stopped. -/
def State.readBlocking (s : State) (w : Who) (ord : Bool) (dest : List Reg) (space : Space) (ea : Word) (n : Nat) :
    Except State (List Byte × State) :=
  match s.resolve w space ea n .read with
  | .error e => .error (s.stopAccess .read e)
  | .ok ps =>
    let (l, s) := s.loadPieces ord ps
    match l.poison with
    | some a => .error (s.consume (s.eccTrap space a))
    | none =>
      if l.ask.isEmpty then .ok (l.bytes, s)
      else
        let missing := l.ask.filter fun a => (s.keptPiece ord a.1).isNone
        if missing.isEmpty then
          let bs := ps.flatMap fun p =>
            if l.ask.any (·.1 == p) then (s.keptPiece ord p).getD [] else (l.bytes.drop p.pos).take p.len
          .ok (bs, s)
        else if s.askWaits missing then .error s.blockBundle
        else .error (s.askKept false dest missing).blockBundle

end Sys2Proof.Machine
end

