-- ==== Sys2Proof/Machine/Front.lean ====
section
/-! DEFINITION. The fetch path (R209 to R213): segments read into the two halves of a context's instruction buffer, stored bundles
cut out of them, the bundle after a bundle (R210), transfers of control, and the words of a bundle decoded. -/

namespace Sys2Proof.Machine

/-! ## Reading code -/

/-- What a read of code gives: the bytes, a fault, or nothing yet because a peer must send a line or the hub has no walk yet. -/
inductive Fetched (α : Type) where
  | ok (x : α) | fault (t : Trap) | wait (asks : List (Piece × BitVec 64))

/-- Reads one piece of code (R213): a relaxed strong load. -/
def State.codePiece (s : State) (p : Piece) : Fetched (List Byte) × State :=
  if p.at_.dev = s.device then
    let s := s.touch p.line p.mask
    match s.poisonAt p p.mask with
    | some a => (.fault ⟨0x0F, a, 0⟩, s)
    | none => (.ok (lineBytes (s.plainLine p.at_.key p.line) p.off p.len), s)
  else
    match s.keptPiece false p with
    | some bs => (.ok bs, s)
    | none => (.wait [(p, p.mask)], s)

def State.codePieces (s : State) : List Piece → Fetched (List Byte) × State
  | [] => (.ok [], s)
  | p :: ps =>
    match s.codePiece p with
    | (.ok a, s) =>
      match s.codePieces ps with
      | (.ok b, s) => (.ok (a ++ b), s)
      | (.fault t, s) => (.fault t, s)
      | (.wait l, s) => (.wait l, s)
    | (.fault t, s) => (.fault t, s)
    | (.wait l, s) =>
      match s.codePieces ps with
      | (.wait l', s) => (.wait (l ++ l'), s)
      | (_, s) => (.wait l, s)

/-- Reads n bytes of code at a virtual address. -/
def State.codeBytes (s : State) (a : Word) (n : Nat) : Fetched (List Byte) × State :=
  match s.engLocate s.who a .fetch (lineParts a.toNat n) with
  | (.error t, s) => if s.evt.isHub then (.wait [], s) else (.fault t, s)
  | (.ok ps, s) => if s.evt.isHub then (.wait [], s) else s.codePieces ps

/-! ## Stored bundles (R199, R200) -/

/-- PRES and NLIT of a bundle header. -/
def presOf (h : Word32) : Nat := h.toNat / 2 ^ 20 % 256
def nlitOf (h : Word32) : Nat := h.toNat / 2 ^ 18 % 4
def waitOf (h : Word32) : Nat := h.toNat / 2 ^ 28 % 8
def stopOf (h : Word32) : Bool := h.getLsbD 31

def popCount8 (n : Nat) : Nat := ((List.range 8).filter n.testBit).length

/-- The words that follow a header, as stored. -/
def tailWords (h : Word32) : Nat := popCount8 (presOf h) + nlitOf h

/-- The 32-bit words of bytes. -/
def wordsOf : Nat → List Byte → List Word32
  | 0, _ => []
  | n + 1, bs => BitVec.ofNat 32 (ofBytes (bs.take 4)) :: wordsOf n (bs.drop 4)

/-- Walks the stored bundles of a segment from address a: n bundles are left (R210). A fault in a header leaves the place of the
bundles after it unknown: all of them fault. -/
def State.readBundles (s : State) : Nat → Word → Fetched (List BufLine) × State
  | 0, _ => (.ok [], s)
  | n + 1, a =>
    match s.codeBytes a 4 with
    | (.fault t, s) => (.ok (List.replicate (n + 1) (.bad t)), s)
    | (.wait l, s) => (.wait l, s)
    | (.ok hb, s) =>
      let h : Word32 := BitVec.ofNat 32 (ofBytes hb)
      let k := tailWords h
      match s.codeBytes (a + 4) (4 * k) with
      | (.wait l, s) => (.wait l, s)
      | (r, s) =>
        let line : BufLine := match r with
          | .ok bs => .bundle h (wordsOf k bs)
          | .fault t => .bad t
          | .wait _ => .bundle h []
        match s.readBundles n (a + word (4 * (k + 1))) with
        | (.ok ls, s) => (.ok (line :: ls), s)
        | (.fault t, s) => (.fault t, s)
        | (.wait l, s) => (.wait l, s)

/-- A segment whose header cannot be used: the fault is raised at the bundle at which control enters it, whatever its index (DESIGN CHOICE,
assumption 107). -/
def badSegment (a : Word) (t : Trap) : Segment := ⟨a, 0, 0, List.replicate 64 (.bad t)⟩

/-- Reads the segment at a 64-byte-aligned address (R209). -/
def State.readSegment (s : State) (a : Word) : Fetched Segment × State :=
  match s.codeBytes a 16 with
  | (.fault t, s) => (.ok (badSegment a t), s)
  | (.wait l, s) => (.wait l, s)
  | (.ok bs, s) =>
    let w0 : Word := word (ofBytes (bs.take 8))
    let w1 : Word := word (ofBytes (bs.drop 8))
    if field w0 56 8 ≠ 0 ∨ field w1 56 8 ≠ 0 ∨ field w1 0 6 ≠ 0 then
      (.ok (badSegment a ⟨0x01, a, bundleInfo 0 0 true 0x0B⟩), s)
    else
      match s.readBundles (field w0 0 6 + 1) (a + 16) with
      | (.ok ls, s) => (.ok ⟨a, w0 &&& ones 6 50, w1 &&& ones 6 50, ls⟩, s)
      | (.fault t, s) => (.ok (badSegment a t), s)
      | (.wait l, s) => (.wait l, s)

/-! ## The instruction buffer (R211) -/

def holdsSeg (g : Option Segment) (a : Word) : Bool :=
  match g with
  | some g => g.addr == a
  | none => false

/-- The half that does not execute. -/
def State.otherSeg (s : State) : Option Segment := if s.cx.half then s.cx.half0 else s.cx.half1

def State.setOther (s : State) (g : Segment) : State :=
  { s with cx := if s.cx.half then { s.cx with half0 := some g } else { s.cx with half1 := some g } }

/-- The halves swap roles. -/
def State.flipHalf (s : State) : State := { s with cx := { s.cx with half := !s.cx.half } }

/-- The segment the fetch path fills the other half with: ALT, else NEXT; none while a pin gates fetch off (R212). -/
def State.refillAddr (s : State) : Option Word :=
  match s.curSeg with
  | none => none
  | some g =>
    if s.pinned then none
    else
      let a := if g.alt ≠ 0 then g.alt else g.next
      if a = 0 ∨ holdsSeg s.otherSeg a ∨ holdsSeg s.curSeg a then none else some a

/-- Fills the other half from an address, unless a peer would have to send the code. -/
def State.fillOther (s : State) (a : Word) : State :=
  match s.readSegment a with
  | (.ok g, s) => s.setOther g
  | (_, s) => s

/-- Brings the segment of a code address into the executing half. Answers the state that waits when a peer must send the code first, or a
walk must be made. -/
def State.goTo (s : State) (pc : Word) : Except State State :=
  let a := segOf pc
  if holdsSeg s.curSeg a then .ok s
  else if holdsSeg s.otherSeg a then .ok s.flipHalf
  else
    match s.readSegment a with
    | (.ok g, s) => .ok (s.setOther g).flipHalf
    | (.fault t, s) => .ok (s.setOther (badSegment a t)).flipHalf
    | (.wait l, s) => .error (s.askKept true [] l)

/-- The buffer line of a code address, or the fault raised there. An index that is not below the number of bundles is cause 0x06 (R209); an
illegal segment header has the entry address as EADDR and EPC (DESIGN CHOICE, assumption 107). -/
def State.lineAtPc (s : State) (pc : Word) : Except Trap (Word32 × List Word32) :=
  match s.curSeg with
  | none => .error ⟨0x01, pc, bundleInfo 0 0 false 0x06⟩
  | some g =>
    let at_ := fun (t : Trap) => if t.code = 0x01 then { t with eaddr := pc } else t
    match g.lines[indexOf pc]? with
    | some (.bundle h ws) => .ok (h, ws)
    | some (.bad t) => .error (at_ t)
    | none => .error ⟨0x01, pc, bundleInfo 0 0 false 0x06⟩

/-- The bundle after a bundle in the order of R210; none after the last bundle of a segment whose NEXT is 0. -/
def State.successor (s : State) (pc : Word) : Option Word :=
  match s.curSeg with
  | none => none
  | some g => if indexOf pc + 1 < g.lines.length then some (pc + 1) else if g.next = 0 then none else some g.next

/-- The fault of running past the last bundle (R210): EADDR, and EPC, are the last bundle's code address. -/
def pastEnd (pc : Word) : Trap := ⟨0x01, pc, bundleInfo 0 0 false 0x07⟩

/-! ## Transfers of control -/

/-- The target of a constant-target branch (R203). -/
def State.target (s : State) (d : BitVec 14) (k : Fin 64) : Word :=
  segOf s.cx.regs.pc + 64 * d.signExtend 64 + word k.val

/-- A taken transfer of control. -/
def State.jumpTo (s : State) (a : Word) : State := { s with issue := { s.issue with jump := some a } }

/-- Ends a pin: LCOUNT := 0 (R225). -/
def State.endPin (s : State) : State := s.modRegs fun r => { r with pin := none, lcount := 0 }

/-! ## The syllables of a bundle -/

/-- A syllable as decoded. -/
inductive Syl where
  | core (i : Instr) | eng (x : EngSyl)

def Syl.info (s : State) : Syl → Info
  | .core i => Instr.info s i
  | .eng x => EngSyl.info s x

/-- Decodes the word in a slot (R201). -/
def decodeSlot (slot : Fin 8) (nlit w : Nat) : Except Nat Syl :=
  match slot with
  | 0 | 1 => (decodeB w).map .core
  | 2 | 3 => (decodeS nlit w).map .core
  | 4 => (decodeV w).map .core
  | 5 => (decodeM w).map .core
  | 6 => (decodeC w).map .eng
  | 7 => (decodeF w).map .eng

/-- The present slots in the order BA, BB, SA, SB, V, M, C, F (R200). -/
def slotsOf (pres : Nat) : List (Fin 8) := (List.finRange 8).filter fun k => pres.testBit (7 - k.val)

/-- The present syllables of a bundle, and its literal words. -/
def decodeWords (h : Word32) (ws : List Word32) : List (Fin 8 × Except Nat Syl) × List Word32 :=
  let slots := slotsOf (presOf h)
  ((slots.zip ws).map fun x => (x.1, decodeSlot x.1 (nlitOf h) x.2.toNat), ws.drop slots.length)

/-- A header with a reserved bit, or NLIT = 3 (R199, R208). -/
def badHeader (h : Word32) : Bool := h.toNat % 2 ^ 18 != 0 || nlitOf h == 3

end Sys2Proof.Machine
end

