-- ==== Sys2Proof/Machine/Sched.lean ====
section
/-! DEFINITION. Contexts and cores over time (R165, R214, R357 to R365): results that land, contexts that become READY, are chosen and
leave, prefetch of segments, known-answer injection. The meanings of the scheduling events of the opcode table. -/

namespace Sys2Proof.Machine

/-- An event's meaning: it ends as done unless it says otherwise. -/
def State.event (s : State) (f : State → State) : Host.Outcome State Fault Refusal := .next (f { s with evt := .done })

/-! ## Results that land (R194) -/

/-- Element k leaves a list. -/
def dropAt {α : Type} : Nat → List α → List α
  | _, [] => []
  | 0, _ :: l => l
  | k + 1, x :: l => x :: dropAt k l

/-- Write k of the current context lands, if it is a long-latency result whose value has come, and with it the other writes of its
syllable: the queue entry and the flags (R175, R193). -/
def State.landLong (s : State) (k : Nat) : State :=
  match s.cx.inflight[k]? with
  | some f =>
    if f.land.isNone && f.ready then
      let with_ := fun (x : Flight) => x.land.isNone && x.ready && x.tag == f.tag
      (s.cx.inflight.filter with_).foldl State.landOne { s with cx := { s.cx with inflight := s.cx.inflight.filter fun x => !with_ x } }
    else s
  | none => s

/-- An operation brings the value of the results with its tag. -/
def State.deliver (s : State) (c tag : Nat) (f : Val → Val) : State :=
  let now := (s.coreAt (c / 4)).cycle
  let upd := fun (x : Flight) =>
    if x.land.isNone && !x.ready && x.tag == tag then { x with val := f x.val, ready := true, due := now } else x
  s.modCtx c fun x => { x with inflight := x.inflight.map upd, fresh := x.fresh.map upd }

/-- A blocked context is tried again. -/
def State.retry (s : State) (c : Nat) : State :=
  s.modCtx c fun x => if x.status = .blocked ∧ x.wait = .bundle then { x with status := .ready, wait := .none } else x

/-- A result lands (R194, R196): the register is full; a context that waits for it is tried again. -/
def execResultLand (c k : Nat) (s : State) : Host.Outcome State Fault Refusal :=
  s.event fun s => (s.inCtx c (·.landLong k)).retry c

/-- The long-latency results of a context whose values have come and that are due by a cycle. -/
def Ctx.dueResult (x : Ctx) (cycle : Nat) : Option Nat :=
  x.inflight.findIdx? fun f => f.land.isNone && f.ready && f.due ≤ cycle

/-- Lands every long-latency result that is due: at most n of them. -/
def State.landDue (s : State) (cycle : Nat) : Nat → State
  | 0 => s
  | n + 1 =>
    match s.cx.dueResult cycle with
    | some k => (s.landLong k).landDue cycle n
    | none => s

/-! ## Choosing a context (R358, R359) -/

/-- The contexts of core g from the one after k on. -/
def roundRobin (k : Fin 4) : List (Fin 4) := [k + 1, k + 2, k + 3, k]

def State.isReady (s : State) (g : Nat) (k : Fin 4) : Bool := (s.ctx (4 * g + k.val)).status == .ready

/-- The context that core g takes next: one released by a sync round first, the lower-numbered ahead, else by round robin. -/
def State.nextReady (s : State) (g : Nat) : Option (Fin 4) :=
  match (List.finRange 4).find? fun k => s.isReady g k && (s.ctx (4 * g + k.val)).exempt with
  | some k => some k
  | none => (roundRobin (s.coreAt g).lastRun).find? (s.isReady g)

/-- The current context leaves RUNNING: its core is free to take another. -/
def State.leaveCore (s : State) : State := s.stopRunning s.cid

/-- The next bundle of the current context is stop-flagged, and it has not been begun. -/
def State.atStop (s : State) : Bool :=
  let pc := s.cx.regs.pc
  s.cx.part.isNone && holdsSeg s.curSeg (segOf pc) && (match s.lineAtPc pc with
    | .ok (h, _) => stopOf h
    | .error _ => false)

/-- The quantum (R358): at a stop-flagged bundle after 4,096 bundles the RUNNING context goes back to READY when another context
of the core is READY. -/
def State.endQuantum (s : State) : State := ({ s.landOld with cx := { s.landOld.cx with status := .ready } }).leaveCore

/-! ## Becoming READY (R165) -/

/-- The condition that holds a context clears. -/
def execBlockCleared (c : Nat) (s : State) : Host.Outcome State Fault Refusal :=
  s.event fun s => s.modCtx c fun x => if x.status = .blocked then { x with status := .ready, wait := .none } else x

/-- `park.t` ends when the time base has reached its argument (R227). -/
def execParkTExpiry (c : Nat) (s : State) : Host.Outcome State Fault Refusal :=
  s.event fun s =>
    match (s.ctx c).wait with
    | .time t => if t ≤ s.now then s.makeReady c else s
    | _ => s

/-- The core is for a context that a sync round releases: another that runs on it is READY again, unless the core holds its bundle or another
round has released it (R334, assumption 79). -/
def State.clearCore (s : State) (g : Nat) : State :=
  match (s.coreAt g).running with
  | some k => s.inCtx (4 * g + k.val) fun s => if s.cx.wait = .bundle ∨ s.cx.exempt = true then s else s.endQuantum
  | none => s

/-- A sync round is complete (R334): its participants are released together, ahead of the round-robin order and exempt from the
quantum (R359). Each goes on in the cycle before the one, 8 after the last arrival, in which it issues its next bundle; what a context that
gave its core up still lands does not delay it (assumption 79). -/
def execSyncRoundRelease (n id : Nat) (s : State) : Host.Outcome State Fault Refusal :=
  s.event fun s =>
    match (s.clusterAt n).rounds.find? (·.id == id) with
    | some r =>
      if r.arrived.length < r.n then s
      else
        let s := s.modCluster n fun k => { k with rounds := k.rounds.filter (·.id != id) }
        let s := r.arrived.foldl (fun s c => s.clearCore (c / 4)) s
        let at_ := (s.coreAt ((r.arrived.getLastD 0) / 4)).cycle + 7
        r.arrived.foldl (fun s c =>
          (s.modCore (c / 4) fun k => { k with readyAt := Nat.min k.readyAt at_, idle := false }).modCtx c fun x =>
            if x.wait = .round id then
              { x with status := .ready, wait := .none, exempt := true, synced := true, resumeAt := at_ }
            else x) s
    | none => s

/-! ## Taking a context (R358) -/

/-- A core that idled comes up to the count of its cluster's clock. -/
def State.catchUp (s : State) : State :=
  let c := (s.clusterAt (clusterOf s.cid)).cycleAt s.tick
  if s.core.cycle < c then { s with core := { s.core with cycle := c, tick := Nat.max s.core.tick (s.tickOf s.gcore c) } } else s

/-- The core takes a READY context: it is RUNNING, and issues two cycles after the last write of the outgoing one has landed or, when
the core idled, after it became READY (R358). -/
def State.startCtx (s : State) (g : Nat) (k : Fin 4) : State :=
  let s := s.focus (4 * g + k.val)
  let s := s.catchUp
  let at_ := Nat.max s.core.readyAt (s.core.cycle + if s.core.idle then 2 else 0)
  { s with cx := { s.cx with status := .running, issued := 0, resumeAt := Nat.max at_ s.cx.resumeAt },
           core := { s.core with running := some k, idle := false, sample := (s.clusterAt (clusterOf s.cid)).energy } }

/-- A context switch of core g. -/
def execContextSwitch (g : Nat) (s : State) : Host.Outcome State Fault Refusal :=
  s.event fun s =>
    if (s.coreAt g).running.isSome then s
    else
      match s.nextReady g with
      | some k => s.startCtx g k
      | none => s

def State.quantumDue (s : State) : Bool :=
  4096 ≤ s.cx.issued && !s.cx.exempt &&
    (List.finRange 4).any fun k => k.val != s.cid % 4 && s.isReady s.gcore k

def execQuantum (g : Nat) (s : State) : Host.Outcome State Fault Refusal :=
  s.event fun s =>
    match (s.coreAt g).running with
    | some k => s.inCtx (4 * g + k.val) fun s => if s.atStop && s.quantumDue then s.endQuantum else s
    | none => s

/-- The 64th bundle in a row without a stop flag (R215): fault 0x0C at that bundle, always fatal. -/
def State.stopFault (s : State) : State := ({ s with evt := .trap ⟨0x0C, s.cx.regs.pc, 0⟩ }).fatal 0x0C

def execStopSpacing (c : Nat) (s : State) : Host.Outcome State Fault Refusal :=
  s.event fun s => s.inCtx c fun s => if 63 ≤ s.cx.stopCount then s.stopFault else s

/-! ## Prefetch of segments (R211) -/

def execFetchRefill (c : Nat) (s : State) : Host.Outcome State Fault Refusal :=
  s.event fun s => s.inCtx c fun s =>
    match s.refillAddr with
    | some a => s.fillOther a
    | none => s

/-! ## Known-answer injection (R364, R365) -/

/-- Marks the first mismatch of the device since KAT was cleared. -/
def State.katInterrupt (s : State) (g : Nat) : State :=
  if flag s.mgmt.intstat 6 then s
  else ({ s with mgmt := { s.mgmt with intstat := setField s.mgmt.intstat 16 13 g } }).interrupt 6

/-- The outcome of one injected operation on an instance of core g: `fails` are the lanes that differ from the signature. -/
def State.katOutcome (s : State) (g : Nat) (inst : BitVec 8) (fails : BitVec 16) : State :=
  if fails = 0 then s
  else
    let old := (s.coreAt g).katsig
    let counted := setField old 48 8 (satAdd 8 (field old 48 8) 1)
    if flag old 63 then s.modCore g fun k => { k with katsig := counted }
    else
      let new := setField (setField (setFlag counted 63 true) 40 8 inst.toNat) 0 16 fails.toNat
      (s.modCore g fun k => { k with katsig := new }).katInterrupt g

/-- A cycle in which no sub-bundle uses the instance, from a cycle on and before the present one: of the sub-bundles that issued last, or
after them. -/
def Core.freeCycle (k : Core) (inst lo : Nat) : Option Nat :=
  let (c, l) := k.used
  let after := Nat.max lo (c + l.length)
  (l.zipIdx.findSome? fun x => if lo ≤ c + x.2 && c + x.2 < k.cycle && !x.1.contains inst then some (c + x.2) else none).or
    (if after < k.cycle then some after else none)

/-- The cycle whose injection is due into an instance, one at most in each: the instance is unused and its PERIOD has elapsed; the forced one
is tested in every cycle (R364). -/
def Core.katCycle (k : Core) (inst : Nat) : Option Nat :=
  let last := (k.katLast.find? (·.1 == inst)).map (·.2)
  let next := fun (n : Nat) => match last with
    | some c => Nat.max k.used.1 (c + Nat.max 1 n)
    | none => k.used.1
  if !flag k.katctl 0 || 10 ≤ inst then none
  else if flag k.katctl 1 && field k.katctl 16 8 == inst then (if next 1 < k.cycle then some (next 1) else none)
  else k.freeCycle inst (next (field k.katctl 32 32))

/-- The lanes that LANES shows of an instance: bit 0 alone for an ALU or a branch unit (R365). -/
def katLanes (inst : Nat) (fails : BitVec 16) : BitVec 16 := if 3 ≤ inst ∧ inst < 8 then fails else fails &&& 1

/-- An injection into an instance of core g in one of the cycles that have just ended. -/
def execKatInject (g : Nat) (inst : BitVec 8) (fails : BitVec 16) (s : State) : Host.Outcome State Fault Refusal :=
  s.event fun s =>
    match (s.coreAt g).katCycle inst.toNat with
    | some c => (s.modCore g fun k => { k with katLast := put inst.toNat c k.katLast }).katOutcome g inst (katLanes inst.toNat fails)
    | none => s

end Sys2Proof.Machine
end

