-- ==== Sys2Proof/Machine/LoadStore.lean ====
section
/-! DEFINITION. Loads, stores and fences (R241 to R243, R247, R110, R111, R140). -/

namespace Sys2Proof.Machine

/-! ## Shapes -/

/-- An ordinary load of n bytes at a + b (R241). -/
def State.loadOrd (s : State) (n : Nat) (d : Dst) (a b : Src) (x0 : Space) (sgn : Bool) : State :=
  s.loadTo true x0 (s.readSrc a + s.readSrc b) n sgn d

/-- An ordinary store of n bytes (R242). -/
def State.storeN (s : State) (n : Nat) (x0 : Space) (a b : Src) : State :=
  s.storeOrd x0 (s.readSrc a) (bytesOf n (s.readSrc b).toNat)

/-- A strong load of n bytes, aligned (R243, R112). -/
def State.loadStrong (s : State) (n : Nat) (d : Dst) (a : Src) (x0 : Space) : State :=
  if (s.readSrc a).toNat % n ≠ 0 then s.misaligned else s.loadTo false x0 (s.readSrc a) n false d

/-- A strong store of n bytes, aligned; `.rel` makes it a release. -/
def State.storeStrongN (s : State) (n : Nat) (x0 : Space) (rel : Bool) (a b : Src) : State :=
  if (s.readSrc a).toNat % n ≠ 0 then s.misaligned
  else s.storeStrong x0 (s.readSrc a) (bytesOf n (s.readSrc b).toNat) rel

/-! ## Ordinary loads (R241) -/

def execLdB (g : Fin 16) (d : Dst) (a b : Src) (e f : Bool) (x0 : Space) (x : Bool) (s : State) : Host.Outcome State Fault Refusal :=
  s.syl (Instr.info s (.ldB g d a b e f x0 x)) fun s => s.loadOrd 1 d a b x0 x

def execLdH (g : Fin 16) (d : Dst) (a b : Src) (e f : Bool) (x0 : Space) (x : Bool) (s : State) : Host.Outcome State Fault Refusal :=
  s.syl (Instr.info s (.ldH g d a b e f x0 x)) fun s => s.loadOrd 2 d a b x0 x

def execLdW (g : Fin 16) (d : Dst) (a b : Src) (e f : Bool) (x0 : Space) (x : Bool) (s : State) : Host.Outcome State Fault Refusal :=
  s.syl (Instr.info s (.ldW g d a b e f x0 x)) fun s => s.loadOrd 4 d a b x0 x

def execLdD (g : Fin 16) (d : Dst) (a b : Src) (e f : Bool) (x0 : Space) (s : State) : Host.Outcome State Fault Refusal :=
  s.syl (Instr.info s (.ldD g d a b e f x0)) fun s => s.loadOrd 8 d a b x0 false

/-! ## Ordinary stores (R242) -/

def execStB (g : Fin 16) (x0 : Space) (a b : Src) (e f : Bool) (s : State) : Host.Outcome State Fault Refusal :=
  s.syl (Instr.info s (.stB g x0 a b e f)) fun s => s.storeN 1 x0 a b

def execStH (g : Fin 16) (x0 : Space) (a b : Src) (e f : Bool) (s : State) : Host.Outcome State Fault Refusal :=
  s.syl (Instr.info s (.stH g x0 a b e f)) fun s => s.storeN 2 x0 a b

def execStW (g : Fin 16) (x0 : Space) (a b : Src) (e f : Bool) (s : State) : Host.Outcome State Fault Refusal :=
  s.syl (Instr.info s (.stW g x0 a b e f)) fun s => s.storeN 4 x0 a b

def execStD (g : Fin 16) (x0 : Space) (a b : Src) (e f : Bool) (s : State) : Host.Outcome State Fault Refusal :=
  s.syl (Instr.info s (.stD g x0 a b e f)) fun s => s.storeN 8 x0 a b

/-! ## Strong loads and stores (R243) -/

def execLdsB (g : Fin 16) (d : Dst) (a : Src) (x0 : Space) (r e : Bool) (c : Scope) (s : State) : Host.Outcome State Fault Refusal :=
  s.syl (Instr.info s (.ldsB g d a x0 r e c)) fun s => s.loadStrong 1 d a x0

def execLdsH (g : Fin 16) (d : Dst) (a : Src) (x0 : Space) (r e : Bool) (c : Scope) (s : State) : Host.Outcome State Fault Refusal :=
  s.syl (Instr.info s (.ldsH g d a x0 r e c)) fun s => s.loadStrong 2 d a x0

def execLdsW (g : Fin 16) (d : Dst) (a : Src) (x0 : Space) (r e : Bool) (c : Scope) (s : State) : Host.Outcome State Fault Refusal :=
  s.syl (Instr.info s (.ldsW g d a x0 r e c)) fun s => s.loadStrong 4 d a x0

def execLdsD (g : Fin 16) (d : Dst) (a : Src) (x0 : Space) (r e : Bool) (c : Scope) (s : State) : Host.Outcome State Fault Refusal :=
  s.syl (Instr.info s (.ldsD g d a x0 r e c)) fun s => s.loadStrong 8 d a x0

def execStsB (g : Fin 16) (x0 : Space) (r : Bool) (a b : Src) (e f : Bool) (c : Scope) (s : State) : Host.Outcome State Fault Refusal :=
  s.syl (Instr.info s (.stsB g x0 r a b e f c)) fun s => s.storeStrongN 1 x0 r a b

def execStsH (g : Fin 16) (x0 : Space) (r : Bool) (a b : Src) (e f : Bool) (c : Scope) (s : State) : Host.Outcome State Fault Refusal :=
  s.syl (Instr.info s (.stsH g x0 r a b e f c)) fun s => s.storeStrongN 2 x0 r a b

def execStsW (g : Fin 16) (x0 : Space) (r : Bool) (a b : Src) (e f : Bool) (c : Scope) (s : State) : Host.Outcome State Fault Refusal :=
  s.syl (Instr.info s (.stsW g x0 r a b e f c)) fun s => s.storeStrongN 4 x0 r a b

def execStsD (g : Fin 16) (x0 : Space) (r : Bool) (a b : Src) (e f : Bool) (c : Scope) (s : State) : Host.Outcome State Fault Refusal :=
  s.syl (Instr.info s (.stsD g x0 r a b e f c)) fun s => s.storeStrongN 8 x0 r a b

/-! ## Fences (R110, R247) -/

/-- Every read issued so far has its value. -/
def State.readsBound (s : State) : Bool := !s.remotes.any fun r => r.ctx == s.cid && !r.write

/-- A fence waits for earlier reads. -/
def State.bindReads (s : State) : State := if s.readsBound then s else s.blockBundle

/-- A fence with release publishes and waits for acknowledgements; one with acquire waits for earlier reads. -/
def execFence (g : Fin 16) (o : FenceOrd) (c : Scope) (s : State) : Host.Outcome State Fault Refusal :=
  s.syl (Instr.info s (.fence g o c)) fun s =>
    match o with
    | .rel => s.release fun s => s
    | .acq => s.bindReads
    | .acqrel => s.release State.bindReads
    | .sc => s.release State.bindReads

/-- A sticky bit is raised at the `fence.surv` bundle and cleared (R140). -/
def State.survivalFault (s : State) (dev : Fin 64) (cause : Nat) : State :=
  s.trap ⟨0x0A, 0, setField (setField (refusalInfo true false false) 24 6 dev.val) 0 8 cause⟩

/-- No deferred line with PROT = 1 is left. -/
def State.protDrained (s : State) : Bool := !((s.journalLines.map (·.2) ++ s.cx.dsb).any fun l => l.prot)

/-- `fence.surv` (R140, R141): an outbound effect when it publishes lines. -/
def execFenceSurv (g : Fin 16) (s : State) : Host.Outcome State Fault Refusal :=
  s.syl (Instr.info s (.fenceSurv g)) fun s =>
    let s := if s.protDrained then s else (s.drain true).markOutbound
    if !s.protDrained || s.cx.parity ≠ 0 || s.cx.awaiting.any (·.prot) then s.blockBundle
    else
      match s.cx.nohold, s.cx.nopar with
      | some dev, _ => ({ s with cx := { s.cx with nohold := none } }).survivalFault dev 0x4C
      | none, some dev => ({ s with cx := { s.cx with nopar := none } }).survivalFault dev 0x4D
      | none, none => s

end Sys2Proof.Machine
end

