-- ==== Sys2Proof/Machine/Atomics.lean ====
section
/-! DEFINITION. Atomics and fixed-point cells (R66 to R72, R244, R245). -/

namespace Sys2Proof.Machine

/-! ## What the home computes -/

/-- The new value of an atomic on w bits (R67). -/
def amoNew (op : AmoOp) (w old x c : Nat) : Nat :=
  let x := x % 2 ^ w
  match op with
  | .add => (old + x) % 2 ^ w
  | .and => old &&& x
  | .or => old ||| x
  | .xor => old ^^^ x
  | .min => if signed w old ≤ signed w x then old else x
  | .max => if signed w old ≤ signed w x then x else old
  | .minu => Nat.min old x
  | .maxu => Nat.max old x
  | .swap => x
  | .cas => if old = c % 2 ^ w then x else old

/-- ⌊(−1)^neg · m · 2^e⌋. -/
def floorPow (neg : Bool) (m : Nat) (e : Int) : Int :=
  let v : Int := if neg then -(m : Int) else m
  match e with
  | .ofNat k => v * 2 ^ k
  | .negSucc k => v / 2 ^ (k + 1)

/-! The fields of a cell (R70), the cell as a number of 256 bits. -/

def cellAnchor (cell : Nat) : Int := signed 16 cell
def cellPinf (cell : Nat) : Bool := cell.testBit 16
def cellNinf (cell : Nat) : Bool := cell.testBit 17
def cellWrap (cell : Nat) : Nat := cell / 2 ^ 19 % 32
def cellValue (cell : Nat) : Int := signed 232 (cell / 2 ^ 24)

/-- A cell from its fields; bit 2 of byte 2 is zero. -/
def cellOf (anchor : Nat) (pinf ninf : Bool) (wrap : Nat) (value : Int) : Nat :=
  anchor % 2 ^ 16 + 2 ^ 16 * pinf.toNat + 2 ^ 17 * ninf.toNat + 2 ^ 19 * (wrap % 32) +
    2 ^ 24 * (value % (2 ^ 232 : Nat)).toNat

/-- The cell with PINF, NINF raised. -/
def cellFlag (cell : Nat) (pinf ninf : Bool) : Nat :=
  cellOf cell (cellPinf cell || pinf) (cellNinf cell || ninf) (cellWrap cell) (cellValue cell)

/-- Adds q counts to VALUE, counting a wrap. -/
def cellCount (cell : Nat) (q : Int) : Nat :=
  let v := cellValue cell + q
  if v > 2 ^ 231 - 1 then cellOf cell (cellPinf cell) (cellNinf cell) (cellWrap cell + 1) (v - 2 ^ 232)
  else if v < -2 ^ 231 then cellOf cell (cellPinf cell) (cellNinf cell) (cellWrap cell + 31) (v + 2 ^ 232)
  else cellOf cell (cellPinf cell) (cellNinf cell) (cellWrap cell) v

/-- `fx_add` (R71). -/
def fxAdd (cell : Nat) : Fp → Nat
  | .nan => cellFlag cell true true
  | .inf neg => cellFlag cell (!neg) neg
  | .fin neg m e =>
    let q := floorPow neg m (e - cellAnchor cell)
    if q > 2 ^ 231 - 1 then cellFlag cell true false
    else if q < -2 ^ 231 then cellFlag cell false true
    else cellCount cell q

/-- `fx_read` (R72). -/
def fxRead (cell : Nat) : Nat :=
  if cellPinf cell && cellNinf cell then 0x7FC00000
  else if cellPinf cell then 0x7F800000
  else if cellNinf cell then 0xFF800000
  else if cellWrap cell ≠ 0 then (if cellWrap cell < 16 then 0x7F800000 else 0xFF800000)
  else
    let v := cellValue cell
    (Fmt.f32.round Rounding.rne (v < 0) v.natAbs (cellAnchor cell) false).1

/-- What a cell instruction leaves in a cell: `fxinit` sets ANCHOR and clears the rest (R245). -/
def fxNew (op : FxOp) (cell : Nat) (x : Word) : Nat :=
  match op with
  | .init => x.toNat % 2 ^ 16
  | .addF32 => fxAdd cell (Fmt.f32.decode (x.toNat % 2 ^ 32))
  | .addH => fxAdd cell (Fmt.f16.decode (x.toNat % 2 ^ 16))
  | .rd => cell

/-! ## At the home -/

/-- The value of n bytes of a piece at its home. -/
def State.homeValue (s : State) (p : Piece) : Nat := ofBytes (lineBytes (s.plainLine p.at_.key p.line) p.off p.len)

/-- The place has no atomic unit (R69). -/
def State.noAtomicUnit (s : State) (p : Piece) : Bool := p.at_.dev == s.device && sysBase ≤ p.line

/-- What every atomic and cell update does to its issuer: its deferred bytes go, and it is an outbound effect unless the place is
the own unit store (R61, R64). -/
def State.strongEffect (s : State) (p : Piece) : State :=
  let s := s.punch p.pod p.mask
  if s.ownUnit p.at_ then s else s.markOutbound

/-- An atomic is performed, here or at a peer; the old value goes to the queue. -/
def State.atomicAt (s : State) (op : AmoOp) (w8 : Bool) (x c : Word) (p : Piece) : State :=
  if p.at_.dev = s.device then
    let s := s.touch p.line p.mask
    match s.poisonAt p p.mask with
    | some a => s.consume (s.eccTrap p.space a)
    | none =>
      let old := s.homeValue p
      let new := amoNew op (if w8 then 64 else 32) old x.toNat c.toNat
      let s := (s.strongEffect p).push .long .queue (word old)
      s.perform (s.writer true) p.line p.at_.key p.at_.prot p.mask (lineAt p.off new) 0
  else
    let s := s.strongEffect p
    let s := if p.counted then s.parityUp s.cid none else s
    let (tag, s) := s.fresh
    (s.pushAwait tag .queue 0).ask s.cid (.amo op w8 x c) p p.mask 0 tag (p.places p.mask 0) 0 false

/-- An atomic (R67, R69, R244). -/
def State.atomic (s : State) (op : AmoOp) (x0 : Space) (w8 : Bool) (o : AmoOrd) (ea x c : Word) : State :=
  let n := if w8 then 8 else 4
  if ea.toNat % n ≠ 0 then s.misaligned
  else
    match s.resolve s.who x0 ea n .write with
    | .error e => s.stopAccess .write e
    | .ok [] => s
    | .ok (p :: _) =>
      if s.noAtomicUnit p then s.trap (accessTrap 0x08 ea p.at_.info 0x21)
      else
        let perform := fun (s : State) => s.unlessWaits [p] fun s => s.atomicAt op w8 x c p
        match o with
        | .rlx => perform s
        | .acq => perform s
        | .rel => s.release perform
        | .sc => s.release perform

/-- A cell update is performed, here or at a peer. -/
def State.cellAt (s : State) (op : FxOp) (x : Word) (p : Piece) : State :=
  if p.at_.dev = s.device then
    let s := if op = .init then s else s.touch p.line p.mask
    match (if op = .init then none else s.poisonAt p p.mask) with
    | some a => s.consume (s.eccTrap p.space a)
    | none =>
      let new := fxNew op (s.homeValue p) x
      let s := s.strongEffect p
      s.perform (s.writer true) p.line p.at_.key p.at_.prot p.mask (lineAt p.off new) 0
  else
    let s := s.strongEffect p
    let s := if p.counted then s.parityUp s.cid none else s
    s.ask s.cid (.fx op x) p p.mask 0 0 [] 0 false

/-- `fxinit` and `fxadd` (R245). -/
def State.cellUpdate (s : State) (op : FxOp) (x0 : Space) (ea x : Word) : State :=
  if ea.toNat % 32 ≠ 0 then s.misaligned
  else
    match s.resolve s.who x0 ea 32 .write with
    | .error e => s.stopAccess .write e
    | .ok [] => s
    | .ok (p :: _) =>
      if s.noAtomicUnit p then s.trap (accessTrap 0x08 ea p.at_.info 0x21)
      else s.unlessWaits [p] fun s => s.cellAt op x p

/-- `fxrd`: a long-latency read at the home (R72, R245). At a local system-register address, where the spec has atomics and cell updates
fault (R69) and says nothing of this read, the model reads the registers' bytes as a cell (DESIGN CHOICE, assumption 77). -/
def State.cellRead (s : State) (x0 : Space) (ea : Word) (d : Dst) : State :=
  if ea.toNat % 32 ≠ 0 then s.misaligned
  else
    match s.resolve s.who x0 ea 32 .read with
    | .error e => s.stopAccess .read e
    | .ok [] => s
    | .ok (p :: _) =>
      if p.at_.dev = s.device then
        let s := s.touch p.line p.mask
        match s.poisonAt p p.mask with
        | some a => s.consume (s.eccTrap p.space a)
        | none => s.push .long d (word (fxRead (s.homeValue p)))
      else if s.askWaits [(p, p.mask)] then s.blockBundle
      else
        let (tag, s) := s.fresh
        (s.pushAwait tag d 0).ask s.cid (.fx .rd 0) p p.mask 0 tag ((List.range 4).map fun i => (i, i)) 0 false

/-! ## Atomics (R244) -/

def execAmoAdd (g : Fin 16) (x0 : Space) (w : Bool) (o : AmoOrd) (a b : Src) (e f : Bool) (c : Scope) (s : State) :
    Host.Outcome State Fault Refusal :=
  s.syl (Instr.info s (.amoAdd g x0 w o a b e f c)) fun s => s.atomic .add x0 w o (s.readSrc a) (s.readSrc b) 0

def execAmoAnd (g : Fin 16) (x0 : Space) (w : Bool) (o : AmoOrd) (a b : Src) (e f : Bool) (c : Scope) (s : State) :
    Host.Outcome State Fault Refusal :=
  s.syl (Instr.info s (.amoAnd g x0 w o a b e f c)) fun s => s.atomic .and x0 w o (s.readSrc a) (s.readSrc b) 0

def execAmoOr (g : Fin 16) (x0 : Space) (w : Bool) (o : AmoOrd) (a b : Src) (e f : Bool) (c : Scope) (s : State) :
    Host.Outcome State Fault Refusal :=
  s.syl (Instr.info s (.amoOr g x0 w o a b e f c)) fun s => s.atomic .or x0 w o (s.readSrc a) (s.readSrc b) 0

def execAmoXor (g : Fin 16) (x0 : Space) (w : Bool) (o : AmoOrd) (a b : Src) (e f : Bool) (c : Scope) (s : State) :
    Host.Outcome State Fault Refusal :=
  s.syl (Instr.info s (.amoXor g x0 w o a b e f c)) fun s => s.atomic .xor x0 w o (s.readSrc a) (s.readSrc b) 0

def execAmoMin (g : Fin 16) (x0 : Space) (w : Bool) (o : AmoOrd) (a b : Src) (e f : Bool) (c : Scope) (s : State) :
    Host.Outcome State Fault Refusal :=
  s.syl (Instr.info s (.amoMin g x0 w o a b e f c)) fun s => s.atomic .min x0 w o (s.readSrc a) (s.readSrc b) 0

def execAmoMax (g : Fin 16) (x0 : Space) (w : Bool) (o : AmoOrd) (a b : Src) (e f : Bool) (c : Scope) (s : State) :
    Host.Outcome State Fault Refusal :=
  s.syl (Instr.info s (.amoMax g x0 w o a b e f c)) fun s => s.atomic .max x0 w o (s.readSrc a) (s.readSrc b) 0

def execAmoMinu (g : Fin 16) (x0 : Space) (w : Bool) (o : AmoOrd) (a b : Src) (e f : Bool) (c : Scope) (s : State) :
    Host.Outcome State Fault Refusal :=
  s.syl (Instr.info s (.amoMinu g x0 w o a b e f c)) fun s => s.atomic .minu x0 w o (s.readSrc a) (s.readSrc b) 0

def execAmoMaxu (g : Fin 16) (x0 : Space) (w : Bool) (o : AmoOrd) (a b : Src) (e f : Bool) (c : Scope) (s : State) :
    Host.Outcome State Fault Refusal :=
  s.syl (Instr.info s (.amoMaxu g x0 w o a b e f c)) fun s => s.atomic .maxu x0 w o (s.readSrc a) (s.readSrc b) 0

def execAmoSwap (g : Fin 16) (x0 : Space) (w : Bool) (o : AmoOrd) (a b : Src) (e f : Bool) (c : Scope) (s : State) :
    Host.Outcome State Fault Refusal :=
  s.syl (Instr.info s (.amoSwap g x0 w o a b e f c)) fun s => s.atomic .swap x0 w o (s.readSrc a) (s.readSrc b) 0

/-- `amo.cas`: x in s2j, c in s2j+1. -/
def execAmoCas (g : Fin 16) (x0 : Space) (w : Bool) (o : AmoOrd) (a : Src) (b : Fin 8) (e f : Bool) (c : Scope) (s : State) :
    Host.Outcome State Fault Refusal :=
  s.syl (Instr.info s (.amoCas g x0 w o a b e f c)) fun s =>
    s.atomic .cas x0 w o (s.readSrc a) (s.readS (evenP b)) (s.readS (oddP b))

/-! ## Cells (R245) -/

def execFxinit (g : Fin 16) (a b : Src) (e f : Bool) (x0 : Space) (s : State) : Host.Outcome State Fault Refusal :=
  s.syl (Instr.info s (.fxinit g a b e f x0)) fun s => s.cellUpdate .init x0 (s.readSrc a) (s.readSrc b)

def execFxaddF32 (g : Fin 16) (a b : Src) (e f : Bool) (x0 : Space) (s : State) : Host.Outcome State Fault Refusal :=
  s.syl (Instr.info s (.fxaddF32 g a b e f x0)) fun s => s.cellUpdate .addF32 x0 (s.readSrc a) (s.readSrc b)

def execFxaddH (g : Fin 16) (a b : Src) (e f : Bool) (x0 : Space) (s : State) : Host.Outcome State Fault Refusal :=
  s.syl (Instr.info s (.fxaddH g a b e f x0)) fun s => s.cellUpdate .addH x0 (s.readSrc a) (s.readSrc b)

def execFxrd (g : Fin 16) (d : Dst) (a : Src) (e : Bool) (x0 : Space) (s : State) : Host.Outcome State Fault Refusal :=
  s.syl (Instr.info s (.fxrd g d a e x0)) fun s => s.cellRead x0 (s.readSrc a) d

end Sys2Proof.Machine
end

