-- ==== Sys2Proof/Machine/Control.lean ====
section
/-! DEFINITION. Control: branches, pinned loops, the mask stack, time, other contexts, events and traps (R223 to R231). `end.node`
and `spawn` stand in Pool.lean. -/

namespace Sys2Proof.Machine

/-! ## The stacks (R216, R226) -/

/-- The piece of a spill entry. -/
def spillPiece (a : Word) (p : Place) : Piece := ⟨0, 8, a, .g, p⟩

/-- Writes the oldest entry to the spill area and goes on. -/
def State.spillEntry (s : State) (mask : Bool) (v : Word) (after : State → State) : State :=
  let n := s.spilled mask
  match s.spillPlace mask n .write with
  | .error (.fault t) => s.trap t
  | .error (.miss va) => s.parkSpill va true
  | .ok p =>
    let q := spillPiece (s.spillAddr mask n) p
    s.unlessWaits [q] fun s => after ((s.strongWrite q q.mask (lineAt q.off v.toNat)).setSpilled mask (n + 1))

/-- Pushes a code address onto the return stack, or a mask onto the mask stack, and goes on; a full stack spills its oldest entry first. -/
def State.pushReturn (s : State) (v : Word) (after : State → State) : State :=
  if s.cx.regs.rstack.length < rstackSize then after (s.modRegs fun r => { r with rstack := v :: r.rstack })
  else
    s.spillEntry false (s.cx.regs.rstack.getLastD 0) fun s => after (s.modRegs fun r => { r with rstack := v :: r.rstack.dropLast })

def State.pushMask (s : State) (v : Word) : State :=
  if s.cx.regs.mstack.length < mstackSize then s.modRegs fun r => { r with mstack := v :: r.mstack }
  else
    s.spillEntry true (s.cx.regs.mstack.getLastD 0) fun s => s.modRegs fun r => { r with mstack := v :: r.mstack.dropLast }

/-- Reads back the last spilled entry. -/
def State.fillEntry (s : State) (mask : Bool) (after : Word → State → State) : State :=
  let n := s.spilled mask
  if n = 0 then s.trap (s.stackTrap s.cx.regs.pc 0x53)
  else
    match s.spillPlace mask (n - 1) .read with
    | .error (.fault t) => s.trap t
    | .error (.miss va) => s.parkSpill va false
    | .ok _ =>
      match s.readBlocking s.spillWho false [] .g (s.spillAddr mask (n - 1)) 8 with
      | .error s => s
      | .ok (bs, s) => after (word (ofBytes bs)) (s.setSpilled mask (n - 1))

/-- Pops the return stack and hands the entry on. -/
def State.popReturn (s : State) (after : Word → State → State) : State :=
  match s.cx.regs.rstack with
  | v :: l => after v (s.modRegs fun r => { r with rstack := l })
  | [] => s.fillEntry false after

def State.popMask (s : State) (after : Word → State → State) : State :=
  match s.cx.regs.mstack with
  | v :: l => after v (s.modRegs fun r => { r with mstack := l })
  | [] => s.fillEntry true after

/-! ## Branches and calls (R224) -/

def execBr (g : Fin 16) (d : BitVec 14) (k : Fin 64) (s : State) : Host.Outcome State Fault Refusal :=
  s.syl (Instr.info s (.br g d k)) fun s => s.jumpTo (s.target d k)

def execBrL (g : Fin 16) (d : BitVec 14) (k : Fin 64) (s : State) : Host.Outcome State Fault Refusal :=
  s.syl (Instr.info s (.brL g d k)) fun s => s.pushReturn (s.issue.link.getD 0) fun s => s.jumpTo (s.target d k)

def execBrx (g : Fin 16) (x0 : Src) (e : Bool) (s : State) : Host.Outcome State Fault Refusal :=
  s.syl (Instr.info s (.brx g x0 e)) fun s => s.jumpTo (s.readSrc x0)

def execBrxL (g : Fin 16) (x0 : Src) (e : Bool) (s : State) : Host.Outcome State Fault Refusal :=
  s.syl (Instr.info s (.brxL g x0 e)) fun s => 
    let a := s.readSrc x0
    s.pushReturn (s.issue.link.getD 0) fun s => s.jumpTo a

def execRet (g : Fin 16) (s : State) : Host.Outcome State Fault Refusal :=
  s.syl (Instr.info s (.ret g)) fun s => s.popReturn fun a s => s.jumpTo a

/-- `seg.alt` changes only timing: the target's segment is fetched into the other half unless a half holds it. -/
def execSegAlt (g : Fin 16) (d : BitVec 14) (k : Fin 64) (s : State) : Host.Outcome State Fault Refusal :=
  s.syl (Instr.info s (.segAlt g d k)) fun s =>
    let a := segOf (s.target d k)
    if holdsSeg s.curSeg a || holdsSeg s.otherSeg a || s.pinned then s else s.fillOther a

/-! ## Pinned loops (R225)

Causes 0x20 and 0x21 are conditions of a syllable that issues: one whose guard reads 0 has no effect at all (R223; chapter 19, program B). -/

/-- Control goes to the bundle after bundle index j of the segment. -/
def State.jumpPast (s : State) (j : Nat) : State :=
  let last := segOf s.cx.regs.pc + word j
  match s.successor last with
  | some a => s.jumpTo a
  | none => { s.jumpTo last with issue := { (s.jumpTo last).issue with trapAfter := some (pastEnd last) } }

def execLoopPin (g : Fin 16) (x0 : Src) (e : Bool) (n : Fin 128) (s : State) : Host.Outcome State Fault Refusal :=
  s.syl (Instr.info s (.loopPin g x0 e n)) fun s =>
    let i := indexOf s.cx.regs.pc
    let a := s.readSrc x0
    if s.cx.regs.pin.isSome then s.illegalNow 0x20
    else if a = 0 then s.jumpPast (i + n.val)
    else s.modRegs fun r => { r with pin := some ⟨segOf r.pc, i + 1, i + n.val, false⟩, lcount := a }

def execLoopEnd (g : Fin 16) (s : State) : Host.Outcome State Fault Refusal :=
  s.syl (Instr.info s (.loopEnd g)) fun s =>
    if !s.pinned then s.illegalNow 0x21
    else if s.loops then
      let s := s.modRegs fun r => { r with lcount := r.lcount - 1 }
      match s.cx.regs.pin with
      | some p => s.jumpTo (p.seg + word p.first)
      | none => s
    else s.endPin

def execLoopBrk (g : Fin 16) (d : BitVec 14) (k : Fin 64) (s : State) : Host.Outcome State Fault Refusal :=
  s.syl (Instr.info s (.loopBrk g d k)) fun s => if s.pinned then s.endPin.jumpTo (s.target d k) else s.illegalNow 0x21

/-! ## Mask stack (R226) -/

def execMpush (g : Fin 16) (a : Fin 8) (s : State) : Host.Outcome State Fault Refusal :=
  s.syl (Instr.info s (.mpush g a)) fun s => s.pushMask (s.readM a)

def execMpop (g : Fin 16) (a : Fin 8) (s : State) : Host.Outcome State Fault Refusal :=
  s.syl (Instr.info s (.mpop g a)) fun s => s.popMask fun v s => s.write .s1 (.m a) (.word v)

def execMjoin (g : Fin 16) (a b : Fin 8) (s : State) : Host.Outcome State Fault Refusal :=
  s.syl (Instr.info s (.mjoin g a b)) fun s =>
    let x := s.readM b
    s.popMask fun v s => s.write .s1 (.m a) (.word (x ||| v))

/-! ## Time and other contexts (R227) -/

/-- The context goes back to READY; a block point. -/
def execYield (g : Fin 16) (s : State) : Host.Outcome State Fault Refusal :=
  s.syl (Instr.info s (.yield g)) fun s => { s with cx := { s.cx with status := .ready, exempt := false } }

def execParkT (g : Fin 16) (x0 : Src) (e : Bool) (s : State) : Host.Outcome State Fault Refusal :=
  s.syl (Instr.info s (.parkT g x0 e)) fun s =>
    let t := (s.readSrc x0).toNat
    if t ≤ s.now then s else s.blockOn (.time t)

/-- Reserved bits of KATCTL (R364). -/
def katReserved : Word := ~~~ (ones 32 32 ||| ones 16 8 ||| ones 4 4 ||| ones 0 2)

def execKatArm (g : Fin 16) (x0 : Src) (e : Bool) (s : State) : Host.Outcome State Fault Refusal :=
  s.syl (Instr.info s (.katArm g x0 e)) fun s =>
    let a := s.readSrc x0
    if a &&& katReserved ≠ 0 then s.illegalNow 0x2D
    else { s with core := { s.core with katctl := a } }

/-- The context to be saved stops at its next stop point or block point; a blocked one is at a block point. -/
def State.requestStop (s : State) (c : Nat) : State :=
  let s := s.modCtx c fun x =>
    { x with stopReq := x.stopReq.or (some s.tick), preSave := if x.stopReq.isNone then x.status else x.preSave }
  match (s.ctx c).status with
  | .blocked => s.enqueue (.contextSaved c)
  | .parked => s
  | _ => s

/-- A context that runs an instance or was started by system software: neither FREE nor SAVED. -/
def State.live (s : State) (c : Nat) : Bool := (s.ctx c).status != .free && (s.ctx c).status != .saved

def execHaltCtx (g : Fin 16) (x0 : Src) (e : Bool) (s : State) : Host.Outcome State Fault Refusal :=
  s.syl (Instr.info s (.haltCtx g x0 e)) fun s =>
    let a := s.readSrc x0
    let c := a.toNat
    if 18432 ≤ c ∨ c = s.cid then s.illegalNow 0x23
    else if s.live c then (s.requestStop c).blockOn (.saved c)
    else s

/-! ## Events (R228) -/

def execSigEv (g : Fin 16) (v : Fin 64) (s : State) : Host.Outcome State Fault Refusal :=
  s.syl (Instr.info s (.sigEv g v)) fun s => s.release fun s => s.signal (clusterOf s.cid) v.val

/-- The contexts that wait on counter e, in the order in which they began: a context leaves the order only when it takes an increment,
takes a trap, is saved or ends. -/
def State.waitersOf (s : State) (e : Nat) : List Nat :=
  ((s.clusterAt (clusterOf s.cid)).waiters.filter fun w => w.1 == e).map (·.2)

/-- `wait.ev`: the first waiter takes an increment; the others block. -/
def execWaitEv (g : Fin 16) (v : Fin 64) (s : State) : Host.Outcome State Fault Refusal :=
  s.syl (Instr.info s (.waitEv g v)) fun s =>
    let n := clusterOf s.cid
    let k := look 0 v.val (s.clusterAt n).events
    let first := match s.waitersOf v.val with
      | [] => true
      | c :: _ => c == s.cid
    if k ≠ 0 && first then
      s.modCluster n fun cl => { cl with
        events := put v.val (k - 1) cl.events, waiters := cl.waiters.filter (· != (v.val, s.cid)) }
    else
      let s := s.modCluster n fun cl =>
        if cl.waiters.contains (v.val, s.cid) then cl else { cl with waiters := cl.waiters ++ [(v.val, s.cid)] }
      s.blockBundle

/-! ## Traps (R230) -/

/-- `trap`: after the other syllables of its bundle; EPC is the link. -/
def execTrap (g : Fin 16) (n : BitVec 8) (s : State) : Host.Outcome State Fault Refusal :=
  s.syl (Instr.info s (.trap g n)) fun s =>
    let (a, s) := s.freeValue
    let t : Trap := ⟨0x17, a, setField s.slotInfo 0 8 n.toNat⟩
    { s with issue := { s.issue with trapAfter := some t, jump := s.issue.link } }

/-- `eret`. -/
def execEret (g : Fin 16) (s : State) : Host.Outcome State Fault Refusal :=
  s.syl (Instr.info s (.eret g)) State.returnFrom

/-- `brk`: before its bundle issues. -/
def execBrk (g : Fin 16) (n : BitVec 8) (s : State) : Host.Outcome State Fault Refusal :=
  s.syl (Instr.info s (.brk g n)) fun s => s.silentTrap 0x18 (some (n.setWidth 64))

/-- `illegal`: cause 0x0D, found by the checks before issue. -/
def execIllegal (g : Fin 16) (s : State) : Host.Outcome State Fault Refusal :=
  s.syl (Instr.info s (.illegal g)) fun s => s.illegalNow 0x0D

end Sys2Proof.Machine
end

