-- ==== Sys2Proof/Machine/Milestone.lean ====
section
/-! DEFINITION. Joins of engine operations (R115, R117) and milestone barriers (R120 to R124, R248). -/

namespace Sys2Proof.Machine

/-! ## Joins -/

/-- What a join sees of an operation. -/
structure JoinOp where
  id : Nat
  complete : Bool
  fault : Option Trap
  flags : BitVec 10
  warnings : Nat
  deriving DecidableEq, Repr

def Copy.join (y : Copy) : JoinOp := ⟨y.id, y.finished, y.fault, y.flags, y.warnings⟩
def MOp.join (o : MOp) : JoinOp := ⟨o.id, o.complete, o.fault, o.flags, o.warnings⟩
def FOp.join (o : FOp) : JoinOp := ⟨o.id, o.complete, o.fault, o.flags, 0⟩
def Posted.join (p : Posted) : JoinOp := ⟨p.order, p.landed, p.fault, 0, 0⟩

/-- Copies of the current core on a channel; a cancelled one counts as complete (R328). -/
def State.channelJoins (s : State) (c : Fin 4) : List JoinOp := ((s.core.ch[c]).filter fun y => !y.cancelled).map Copy.join

/-- Operations of the current context. -/
def State.copyJoins (s : State) : List JoinOp :=
  (s.core.ch.toList.flatten.filter fun y => y.ctx == s.cid && !y.cancelled).map Copy.join

/-- A matrix operation of R300; the others that stand among them bring a register its value and are joined only for a fault. -/
def MOp.joins (o : MOp) : Bool :=
  match o.kind with
  | .accRd _ _ _ _ | .chk _ | .logRd => o.fault.isSome
  | _ => true

def State.matrixJoins (s : State) : List JoinOp := (s.core.mx.ops.filter fun o => o.ctx == s.cid && o.joins).map MOp.join

def State.fabricJoins (s : State) : List JoinOp := (s.fab.fops.filter fun o => o.ctx == s.cid).map FOp.join

def State.landingJoins (s : State) : List JoinOp :=
  (s.fab.posted.filter fun p => p.ctx == s.cid && p.msg.isSome).map Posted.join

/-- Every engine operation of the current context but its relayout conversions. -/
def State.allJoins (s : State) : List JoinOp := s.copyJoins ++ s.matrixJoins ++ s.fabricJoins ++ s.landingJoins

/-- Changes the copies, matrix operations and fabric operations of the device and its current core. -/
def State.mapCopies (s : State) (f : List Copy → List Copy) : State :=
  { s with core := { s.core with ch := s.core.ch.map f } }

def State.mapMatrixOps (s : State) (f : List MOp → List MOp) : State :=
  { s with core := { s.core with mx := { s.core.mx with ops := f s.core.mx.ops } } }

def State.mapFops (s : State) (f : List FOp → List FOp) : State := { s with fab := { s.fab with fops := f s.fab.fops } }

def State.mapPosted (s : State) (f : List Posted → List Posted) : State :=
  { s with fab := { s.fab with posted := f s.fab.posted } }

/-- A recorded fault has been raised. -/
def State.forgetFault (s : State) (id : Nat) : State :=
  let s := s.mapCopies (List.map fun (y : Copy) => if y.id = id then { y with fault := none } else y)
  let s := s.mapMatrixOps (List.map fun (o : MOp) => if o.id = id then { o with fault := none } else o)
  let s := s.mapFops (List.map fun (o : FOp) => if o.id = id then { o with fault := none } else o)
  s.mapPosted (List.map fun (p : Posted) => if p.order = id then { p with fault := none } else p)

/-- An operation is joined: its flags go to the joining context and its writes count against it (R136, R326). A landing keeps its
entry until `rwait`. -/
def State.joined (s : State) (o : JoinOp) : State :=
  let s := s.mapCopies (List.filter fun (y : Copy) => y.id != o.id)
  let s := s.mapMatrixOps (List.filter fun (m : MOp) => m.id != o.id)
  let s := s.mapFops (List.filter fun (f : FOp) => f.id != o.id)
  let s := s.joinParity s.cid o.id
  s.modRegs fun r => { r with fpmode := raiseFlags r.fpmode o.flags o.warnings }

/-- The fault recorded by an operation is rollback-class. -/
def JoinOp.rollback (o : JoinOp) : Bool := o.fault.any fun t => t.code == 0x0E || t.code == 0x0F

/-- A fault of the operation is taken before one of the other: a rollback-class one first, then in issue order (R408). -/
def JoinOp.before (a b : JoinOp) : Bool := (a.rollback && !b.rollback) || (a.rollback == b.rollback && a.id < b.id)

/-- The operation whose recorded fault a join raises. -/
def firstFault (ops : List JoinOp) : Option JoinOp :=
  (ops.filter (·.fault.isSome)).foldl (fun best o => match best with
    | some b => if o.before b then some o else best
    | none => some o) none

/-- Checks of planes that have recorded 0x0E: the context's next join raises it, whatever it joins (R305). -/
def State.dueChecks (s : State) : List JoinOp :=
  (s.core.mx.ops.filter fun o => o.ctx == s.cid && o.complete && o.fault.isSome && (match o.kind with
    | .chk _ => true
    | _ => false)).map MOp.join

/-- Raises the fault that an operation has recorded. -/
def State.raiseJoined (s : State) (o : JoinOp) : State := (s.forgetFault o.id).raise (s.slotFault (o.fault.getD ⟨0, 0, 0⟩))

/-- The join of operations: blocks until they are complete, raises the first recorded fault, goes on when none is left. -/
def State.joinOps (s : State) (ops : List JoinOp) (after : State → State) : State :=
  if ops.any fun o => !o.complete then s.blockBundle
  else
    match firstFault (ops ++ s.dueChecks) with
    | some o => s.raiseJoined o
    | none => after (ops.foldl State.joined s)

/-- A join of something else than these operations: a check's fault comes first. -/
def State.afterChecks (s : State) (after : State → State) : State :=
  match firstFault s.dueChecks with
  | some o => s.raiseJoined o
  | none => after s

/-! ## Barriers (R120, R121, R155) -/

/-- Instances of a node under one instance of level k: the fan-outs below it down to the grain. -/
def Graph.per (g : Graph) (n : NodeEntry) (k : Nat) : Nat :=
  ((g.levels.drop (k + 1)).take (n.grain - k)).foldl (fun acc l => acc * l.fanout) 1

/-- Barrier b of the domain instance that instance i lies in. -/
def State.barrierOf (s : State) (g : Graph) (n : NodeEntry) (i : Inst) (b : Nat) : Barrier :=
  let per := g.per n (look 0 b n.barriers)
  let d := i.spawnId * n.count + i.u / per
  (s.pool.barriers.find? fun x => x.node == i.node && x.b == b && x.domain == d).getD ⟨i.node, b, d, false, 0, 0, per⟩

def State.setBarrier (s : State) (x : Barrier) : State :=
  let others := s.pool.barriers.filter fun y => !(y.node == x.node && y.b == x.b && y.domain == x.domain)
  { s with pool := { s.pool with barriers := x :: others } }

/-- The current context's barrier b, if its node declares it. -/
def State.myBarrier (s : State) (b : Nat) : Option Barrier :=
  match s.cx.inst, s.pool.graph with
  | some i, some g =>
    match g.nodes[i.node]? with
    | some n => if n.barriers.any (·.1 == b) then some (s.barrierOf g n i b) else none
    | none => none
  | _, _ => none

/-- Phase n is complete. -/
def Barrier.done (x : Barrier) (n : Nat) : Bool := x.phase != (n % 2 == 1)

/-- The current phase completes when its count equals N. -/
def Barrier.arrivals (x : Barrier) (odd : Bool) : Nat := if odd then x.arr1 else x.arr0

def Barrier.setArrivals (x : Barrier) (odd : Bool) (k : Nat) : Barrier := if odd then { x with arr1 := k } else { x with arr0 := k }

/-- One arrival at phase n. -/
def Barrier.arrive (x : Barrier) (n : Nat) : Barrier :=
  let odd := n % 2 == 1
  let k := x.arrivals odd + 1
  if k = x.n then { x.setArrivals odd 0 with phase := !x.phase } else x.setArrivals odd k

/-- A participant drops out (R124). -/
def Barrier.dropOut (x : Barrier) : Barrier :=
  let x := { x with n := x.n - 1 }
  if x.n ≠ 0 ∧ x.arrivals x.phase = x.n then { x.setArrivals x.phase 0 with phase := !x.phase } else x

def State.setPart (s : State) (b : Fin 16) (p : BarrierPart) : State :=
  { s with cx := { s.cx with barriers := s.cx.barriers.set b p } }

/-! ## Arriving and waiting (R122) -/

/-- The relayout entries that the current context started. -/
def State.ownRelayouts (s : State) : List Relayout := s.relayouts.filter fun r => r.ctx == s.cid

/-- The context's instance has done something that forbids a restart (R413). -/
def State.markInst (s : State) (f : Inst → Inst) : State := { s with cx := { s.cx with inst := s.cx.inst.map f } }

/-- The arrival itself, once everything before it is done. -/
def State.countArrival (s : State) (b : Fin 16) (x : Barrier) : State :=
  let p := s.cx.barriers[b]
  let s := s.arrives.commitHere.markInst fun i => { i with arrived := true }
  (s.setPart b { p with next := p.next + 1, pend := true }).setBarrier (x.arrive p.next)

/-- `arrive(C, b)`; `after` follows. -/
def State.arrive (s : State) (b : Fin 16) (after : State → State) : State :=
  match s.myBarrier b.val with
  | none => s.illegalNow 0x0A
  | some x =>
    let p := s.cx.barriers[b]
    if p.pend && !x.done (p.next - 1) then s.blockBundle
    else
      s.release fun s => s.joinOps s.allJoins fun s =>
        if s.ownRelayouts.any fun r => r.state == .active then s.blockBundle
        else after (s.countArrival b x)

/-- `wait(C, b)`. -/
def State.waitBarrier (s : State) (b : Fin 16) : State :=
  match s.myBarrier b.val with
  | none => s.illegalNow 0x0A
  | some x =>
    let p := s.cx.barriers[b]
    if !p.pend then s
    else if x.done (p.next - 1) then s.setPart b { p with pend := false, waiting := none }
    else s.blockBundle

/-- `mls`: an arrival, then a wait; tried again at its code address, the wait alone. -/
def execMls (g b : Fin 16) (s : State) : Host.Outcome State Fault Refusal :=
  s.syl (Instr.info s (.mls g b)) fun s =>
    let here := some s.cx.regs.pc
    if (s.cx.barriers[b]).waiting = here then s.waitBarrier b
    else s.arrive b fun s => (s.setPart b { s.cx.barriers[b] with waiting := here }).waitBarrier b

def execMlsArr (g b : Fin 16) (s : State) : Host.Outcome State Fault Refusal :=
  s.syl (Instr.info s (.mlsArr g b)) fun s => s.arrive b fun s => s

def execMlsWt (g b : Fin 16) (s : State) : Host.Outcome State Fault Refusal :=
  s.syl (Instr.info s (.mlsWt g b)) fun s => s.waitBarrier b

/-- `mls.q`: 1 when nothing is pending or the pending phase is done. -/
def execMlsQ (g : Fin 16) (d : Dst) (b : Fin 16) (s : State) : Host.Outcome State Fault Refusal :=
  s.syl (Instr.info s (.mlsQ g d b)) fun s =>
    let p := s.cx.barriers[b]
    let done := match s.myBarrier b.val with
      | some x => x.done (p.next - 1)
      | none => true
    s.push .s1 d (word (!p.pend || done).toNat)

end Sys2Proof.Machine
end

