-- ==== Sys2Proof/Machine/Handles.lean ====
section
/-! DEFINITION. Tensor handles: descriptors and their checks (R73 to R76), the address function of every layout (R78 to R82),
redirection by the relayout table (R83, R87), and `hld`, `hst`, `hset`, `hcoord` (R239, R240). -/

namespace Sys2Proof.Machine

/-! ## Descriptors (R73) -/

/-- Bits [lo+len-1:lo] of a descriptor. -/
def dField (d : Line) (lo len : Nat) : Nat := d.toNat / 2 ^ lo % 2 ^ len

def setDField (d : Line) (lo len v : Nat) : Line :=
  let m : Line := BitVec.ofNat 512 ((2 ^ len - 1) * 2 ^ lo)
  (d &&& ~~~ m) ||| BitVec.ofNat 512 (v % 2 ^ len * 2 ^ lo)

namespace Desc

def base (d : Line) : Nat := dField d 0 56
def type (d : Line) : Nat := dField d 56 8
def ext (d : Line) (k : Nat) : Nat := dField d (64 + 32 * k) 32
def scale (d : Line) : Nat := dField d 256 56
def tag (d : Line) : Nat := dField d 312 8
def bmap (d : Line) : Nat := dField d 320 56
def ntag (d : Line) : Nat := dField d 376 8
def shadow (d : Line) : Nat := dField d 384 56
def rank (d : Line) : Nat := dField d 440 3
def done (d : Line) : Nat := dField d 448 56
def ro (d : Line) : Bool := d.getLsbD 510
def rly (d : Line) : Bool := d.getLsbD 511

/-- EXT[0] … EXT[r−1]. -/
def exts (d : Line) : List Nat := (List.range (rank d)).map (ext d)

end Desc

/-- Bytes of an element (R74); of a granule for the MX types. -/
def typeSize (t : Nat) : Nat :=
  ([1, 1, 2, 2, 4, 4, 8, 8, 4, 2, 2, 1, 1, 16, 12, 8] : List Nat).getD t 0

/-- MXINT8, MXINT6, MXINT4. -/
def isMx (t : Nat) : Bool := 13 ≤ t && t ≤ 15

/-- The layout tag MXK (R78). -/
def tagMxk : Nat := 5

def ceilDiv (a b : Nat) : Nat := (a + b - 1) / b

/-- The product of extents. -/
def prod (l : List Nat) : Nat := l.foldl (· * ·) 1

/-- The row-major index of coordinates over extents. -/
def rowMajor (xs es : List Nat) : Nat := (xs.zip es).foldl (fun lin p => lin * p.2 + p.1) 0

/-- The plane terms of a shape: B, R, C (R79). -/
structure Plane where
  b : Nat
  r : Nat
  c : Nat
  deriving DecidableEq, Repr

def planeOf (es : List Nat) : Plane :=
  match es.reverse with
  | [] => ⟨1, 1, 1⟩
  | [c] => ⟨1, 1, c⟩
  | c :: r :: bs => ⟨prod bs, r, c⟩

/-- The plane terms of coordinates: b, i, j. -/
def planeAt (es xs : List Nat) : Nat × Nat × Nat :=
  let n := es.length
  if n ≤ 1 then (0, 0, xs.getD 0 0)
  else (rowMajor (xs.take (n - 2)) (es.take (n - 2)), xs.getD (n - 2) 0, xs.getD (n - 1) 0)

/-- The byte offset from the storage base (R79). -/
def offsetOf (tag type : Nat) (es xs : List Nat) : Nat :=
  let e := typeSize type
  let p := planeOf es
  let (b, i, j) := planeAt es xs
  match tag with
  | 0 => e * rowMajor xs es
  | 1 => e * rowMajor xs.reverse es.reverse
  | 2 => e * (4096 * ((b * ceilDiv p.r 64 + i / 64) * ceilDiv p.c 64 + j / 64) + 64 * (i % 64) + j % 64)
  | 3 => e * (4096 * ((b * ceilDiv p.c 64 + j / 64) * ceilDiv p.r 64 + i / 64) + 64 * (j % 64) + i % 64)
  | 4 => e * (256 * ((b * ceilDiv p.r 16 + i / 16) * ceilDiv p.c 16 + j / 16) + 16 * (i % 16) + j % 16)
  | 5 => e * ((b * p.r + i) * ceilDiv p.c 16 + j / 16)
  | _ => e * (64 * (p.b * p.r) * (j / 64) + 64 * (b * p.r + i) + j % 64)

/-- The footprint of element storage (R81). -/
def footprint (tag type : Nat) (es : List Nat) : Nat :=
  let e := typeSize type
  let p := planeOf es
  match tag with
  | 0 => e * prod es
  | 1 => e * prod es
  | 2 => e * p.b * ceilDiv p.r 64 * ceilDiv p.c 64 * 4096
  | 3 => e * p.b * ceilDiv p.r 64 * ceilDiv p.c 64 * 4096
  | 4 => e * p.b * ceilDiv p.r 16 * ceilDiv p.c 16 * 256
  | 5 => e * p.b * p.r * ceilDiv p.c 16
  | _ => e * (p.b * p.r) * ceilDiv p.c 64 * 64

/-- The granules of an MXK tensor, its scale array and its boundary bitmap in bytes. -/
def granules (es : List Nat) : Nat := let p := planeOf es; p.b * p.r * ceilDiv p.c 16
def scaleBytes (es : List Nat) : Nat := 4 * granules es
def bmapBytes (es : List Nat) : Nat := ceilDiv (granules es) 8

/-- The cause for which a descriptor is not well formed (R75): the first that applies. -/
def descCause (d : Line) : Option Nat :=
  let es := Desc.exts d
  let mx := isMx (Desc.type d)
  let rly := Desc.rly d
  if 16 ≤ Desc.type d then some 0x02
  else if Desc.rank d = 0 ∨ 6 < Desc.rank d then some 0x03
  else if 7 ≤ Desc.tag d ∨ (rly ∧ 7 ≤ Desc.ntag d) then some 0x01
  else if (Desc.tag d == tagMxk) != mx || (rly && (Desc.ntag d == tagMxk) != mx) then some 0x04
  else if dField d 504 6 ≠ 0 ∨ dField d 443 5 ≠ 0 ∨ ((List.range 6).any fun k => Desc.rank d ≤ k && Desc.ext d k != 0)
      ∨ (Desc.tag d ≠ tagMxk ∧ (Desc.scale d ≠ 0 ∨ Desc.bmap d ≠ 0))
      ∨ (¬ rly ∧ (Desc.ntag d ≠ 0 ∨ Desc.shadow d ≠ 0 ∨ Desc.done d ≠ 0)) then some 0x06
  else if Desc.base d % 64 ≠ 0 ∨ (rly ∧ Desc.shadow d % 64 ≠ 0) ∨ Desc.scale d % 8 ≠ 0 ∨ Desc.bmap d % 8 ≠ 0
      ∨ Desc.done d % 8 ≠ 0 then some 0x05
  else if 2 ^ 56 ≤ footprint (Desc.tag d) (Desc.type d) es
      ∨ (rly ∧ 2 ^ 56 ≤ footprint (Desc.ntag d) (Desc.type d) es) then some 0x0C
  else none

/-! ## Elements (R82, R87) -/

/-- The entry for a register's DADDR; DADDR = 0 never matches (R83). -/
def State.relayoutOf (s : State) (daddr : BitVec 56) : Option Relayout :=
  if daddr = 0 then none else s.relayouts.find? fun r => r.handle.daddr == daddr

/-- The logical tile of an element (R83). -/
def tileOf (es xs : List Nat) : Nat :=
  let p := planeOf es
  let (b, i, j) := planeAt es xs
  (b * ceilDiv p.r 64 + i / 64) * ceilDiv p.c 64 + j / 64

/-- The number of logical tiles. -/
def tileCount (es : List Nat) : Nat := let p := planeOf es; p.b * ceilDiv p.r 64 * ceilDiv p.c 64

/-- Where an element is: its address, a wait for its tile, a handle fault's cause and dimension, what stopped the read of the tile's done
bit, or the place of that bit at a peer that has yet to send it. -/
inductive Elem where
  | at_ (a : Word) | wait | bad (cause dim : Nat) | stop (e : XErr) | ask (p : Piece)
  deriving DecidableEq, Repr

/-- What the read of a done bit gives. -/
inductive DoneBit where
  | bit (b : Bool) | stop (e : XErr) | ask (p : Piece)
  deriving DecidableEq, Repr

/-- A unit of error correction cannot be read. -/
def State.unreadable (s : State) (u : Nat) : Bool := s.mem.poison.contains u || s.mem.hard.contains u

/-- The pieces of some bytes of a done bitmap, for an agent. -/
def State.donePieces (s : State) (w : Who) (a : Word) (n : Nat) : Except XErr (List Piece) :=
  if w.eng.isNone then s.resolve w .g a n .read
  else match (s.engResolve w .g a n .read).1 with
    | .ok ps => .ok ps
    | .error t => .error (.fault t)

/-- The done bit of tile l, read for an agent at device scope (R87). A context asks a peer that is the bit's home for it; an engine takes it
for set exactly when l < P, as the converting engine sets it (R86, assumption 32). -/
def State.doneBit (s : State) (w : Who) (r : Relayout) (l : Nat) : DoneBit :=
  let a := r.done + word (l / 8)
  match s.donePieces w a 1 with
  | .error e => .stop e
  | .ok [] => .bit (l < r.p)
  | .ok (p :: _) =>
    if p.at_.dev ≠ s.device then
      if w.eng.isSome then .bit (l < r.p)
      else
        match s.keptPiece false p with
        | some bs => .bit ((bs.headD 0).getLsbD (l % 8))
        | none => .ask p
    else if s.unreadable (unitOf p.at_.loc) then .stop (.fault (s.eccTrap .g (a - word (p.at_.loc % eccUnit p.at_.loc))))
    else .bit ((lineByte (s.plainLine p.at_.key p.line) p.off).getLsbD (l % 8))

/-- The lowest dimension whose coordinate is not below its extent. -/
def badDim (es : List Nat) (xs : List Int) : Option Nat :=
  (es.zip xs).findIdx? fun p => !(0 ≤ p.2 && p.2 < (p.1 : Int))

/-- The address of an element through a handle (R82, R87). -/
def State.element (s : State) (w : Who) (h : Handle) (xs : List Int) (wr : Bool) : Elem :=
  let d := h.desc
  let es := Desc.exts d
  if Desc.rank d = 0 ∨ 6 < Desc.rank d then .bad 0x03 0
  else
    match badDim es xs with
    | some k => .bad 0x07 k
    | none =>
      if wr && Desc.ro d then .bad 0x0B 0
      else
        let ns := xs.map Int.toNat
        let addr := fun (tag base : Nat) => Elem.at_ (word (base + offsetOf tag (Desc.type d) es ns))
        match s.relayoutOf h.daddr with
        | some r =>
          match s.doneBit w r (tileOf es ns) with
          | .stop e => .stop e
          | .ask p => .ask p
          | .bit true => addr r.ntag.toNat r.shadow.toNat
          | .bit false =>
            if !wr then addr (Desc.tag r.handle.desc) (Desc.base r.handle.desc)
            else if r.state = .failed then .bad 0x0D 0
            else .wait
        | none =>
          if Desc.rly d then addr (Desc.ntag d) (Desc.shadow d) else addr (Desc.tag d) (Desc.base d)

/-- The own lines of a register's done bitmap are read before the bits are used: errors in them are found (R48, R49). -/
def State.touchDone (s : State) (w : Who) (h : Handle) : State :=
  match s.relayoutOf h.daddr with
  | none => s
  | some r =>
    match s.donePieces w r.done (ceilDiv r.nt 8) with
    | .ok ps => ps.foldl (fun s (p : Piece) => if p.at_.dev = s.device then s.touch p.line p.mask else s) s
    | .error _ => s

/-- A context asks a peer for the done bit that it needs, and waits. -/
def State.askDone (s : State) (p : Piece) : State :=
  if s.askWaits [(p, p.mask)] then s.blockBundle else (s.askKept false [] [(p, p.mask)]).blockBundle

/-- The coordinates that a batch index and a pair (i, j) give for a rank (R240). DESIGN CHOICE: over an extent of 0 the quotient is 0 and the
remainder the whole index (assumption 106). -/
def batchCoords (es : List Nat) (a : Nat) (i j : Nat) : List Int :=
  let n := es.length
  if n = 1 then [(j : Int)]
  else
    let bs := (es.take (n - 2)).drop 1
    let xs := bs.foldr (fun e acc => (acc.1 / e, (acc.1 % e : Nat) :: acc.2)) (a, ([] : List Nat))
    let lead := if n ≤ 2 then [] else xs.1 :: xs.2
    (lead ++ [i, j]).map Int.ofNat

/-- A value for a dimension that the rank lacks: DIM 6 (R240). -/
def missingDim (es : List Nat) (a i : Nat) : Bool := (es.length == 1 && (a != 0 || i != 0)) || (es.length == 2 && a != 0)

/-! ## `hld`, `hst`, `hset` (R239) -/

/-- Goes on when nothing has stopped the syllable. -/
def State.andThen (s : State) (f : State → State) : State := if s.evt = .done then f s else s

/-- DADDR after an access at a. -/
def homeOf (x0 : Space) (a : Word) : BitVec 56 := if x0 = .g then a.setWidth 56 else 0

/-- The handle fault of a register (R93). -/
def State.handleFault (s : State) (k : Fin 16) (dim : Nat) (wr : Bool) (cause : Nat) : State :=
  s.trap (handleTrap (s.readH k).daddr k.val dim false wr cause)

def execHld (g h : Fin 16) (a : Src) (e : Bool) (x0 : Space) (s : State) : Host.Outcome State Fault Refusal :=
  s.syl (Instr.info s (.hld g h a e x0)) fun s =>
    let ea := s.readSrc a
    match s.readBlocking s.who true [.h h] x0 ea 64 with
    | .error s => s
    | .ok (bs, s) =>
      let d : Line := BitVec.ofNat 512 (ofBytes bs)
      match descCause d with
      | some c => s.handleFault h 0 false c
      | none => s.write .s1 (.h h) (.handle ⟨d, homeOf x0 ea⟩)

/-- `hst`. DESIGN CHOICE: a register that has not been loaded is stored as it is, with no fault (assumption 106). -/
def execHst (g h : Fin 16) (a : Src) (e : Bool) (x0 : Space) (s : State) : Host.Outcome State Fault Refusal :=
  s.syl (Instr.info s (.hst g h a e x0)) fun s =>
    let ea := s.readSrc a
    let d := (s.readH h).desc
    (s.storeOrd x0 ea (bytesOf 64 d.toNat)).andThen fun s => s.write .s1 (.h h) (.handle ⟨d, homeOf x0 ea⟩)

/-- The field that a selector names: lowest bit and width. -/
def hsetField : List (Nat × Nat) :=
  [(0, 56), (56, 8), (440, 3), (312, 8), (64, 32), (96, 32), (128, 32), (160, 32), (192, 32), (224, 32), (256, 56), (320, 56),
   (510, 1)]

/-- `hset`. Its handle faults have WR 0 (DESIGN CHOICE, assumption 98). -/
def execHset (g h : Fin 16) (a b : Src) (e f : Bool) (s : State) : Host.Outcome State Fault Refusal :=
  s.syl (Instr.info s (.hset g h a b e f)) fun s =>
    let x := s.readH h
    let v := (s.readSrc a).toNat
    if Desc.rly x.desc then s.handleFault h 0 false 0x08
    else
      match hsetField[field (s.readSrc b) 0 4]? with
      | none => s.handleFault h 0 false 0x06
      | some (lo, len) =>
        if 2 ^ len ≤ v then s.handleFault h 0 false 0x06
        else
          let d := setDField x.desc lo len v
          match descCause d with
          | some c => s.handleFault h 0 false c
          | none => s.write .s1 (.h h) (.handle ⟨d, x.daddr⟩)

/-! ## `hcoord` (R240) -/

/-- `hcoord`. DESIGN CHOICE: of a value for a dimension that the rank lacks and a coordinate at or beyond its extent the former is reported
(assumption 106). -/
def execHcoord (g : Fin 16) (d : Dst) (a b : Src) (e f : Bool) (x : Fin 8) (s : State) : Host.Outcome State Fault Refusal :=
  s.syl (Instr.info s (.hcoord g d a b e f x)) fun s =>
    let k : Fin 16 := Fin.ofNat 16 x.val
    let h := s.readH k
    let es := Desc.exts h.desc
    let i := field (s.readSrc b) 32 32
    let n := (s.readSrc a).toNat
    if missingDim es n i then s.handleFault k 6 false 0x07
    else
      let s := s.touchDone s.who h
      match s.element s.who h (batchCoords es n i (field (s.readSrc b) 0 32)) false with
      | .at_ v => s.push (if (s.relayoutOf h.daddr).isSome then .long else .s3) d v
      | .bad c dim => s.handleFault k dim false c
      | .wait => s.blockBundle
      | .stop e => s.stopAccess .read e
      | .ask p => s.askDone p

end Sys2Proof.Machine
end

