-- ==== Sys2Proof/Machine/Lanes.lean ====
section
/-! DEFINITION. Arithmetic on the elements of vector registers (R170 to R189, R258 to R273): element functions on codes, lanes and
sequences of elements, fixed summation orders, the select unit's key order, block-scaled formats and the quantiser. -/

namespace Sys2Proof.Machine

/-! ## Lanes and sequences (R174, R258) -/

/-- A result for each lane, with the flags of the active lanes; inactive lanes keep the old contents. -/
def mapLanes (mask : Word) (old : VReg) (f : Nat → Word32 × FFlags) : VReg × FFlags :=
  let r : Vector (Word32 × FFlags) 64 := gen 64 fun l => if mask.getLsbD l then f l else (at_ old l 0, 0)
  (r.map Prod.fst, r.foldl (fun acc x => acc ||| x.2) 0)

/-- The lane whose elements of width w a function gives, with the flags of all. -/
def laneFrom (w : Nat) (f : Nat → Nat × FFlags) : Word32 × FFlags :=
  let es := (List.range (32 / w)).map f
  (BitVec.ofNat 32 (laneOf w (es.map Prod.fst)), es.foldl (fun acc x => acc ||| x.2) 0)

/-- Elementwise operations on packed elements. -/
def lift1 (w : Nat) (f : Nat → Nat × FFlags) (a : VReg) (l : Nat) : Word32 × FFlags :=
  laneFrom w fun k => f (laneElem w k (at_ a l 0))

def lift2 (w : Nat) (f : Nat → Nat → Nat × FFlags) (a b : VReg) (l : Nat) : Word32 × FFlags :=
  laneFrom w fun k => f (laneElem w k (at_ a l 0)) (laneElem w k (at_ b l 0))

def lift3 (w : Nat) (f : Nat → Nat → Nat → Nat × FFlags) (a b c : VReg) (l : Nat) : Word32 × FFlags :=
  laneFrom w fun k => f (laneElem w k (at_ a l 0)) (laneElem w k (at_ b l 0)) (laneElem w k (at_ c l 0))

/-- Elements in a register. -/
def elemCount (w : Nat) : Nat := 64 * (32 / w)

/-- Element m of a register as one sequence. -/
def seqElem (w : Nat) (v : VReg) (m : Nat) : Nat := laneElem w (m % (32 / w)) (at_ v (m / (32 / w)) 0)

/-- A register from a sequence, under a mask. -/
def fromSeq (w : Nat) (mask : Word) (old : VReg) (f : Nat → Nat) : VReg :=
  (mapLanes mask old fun l => laneFrom w fun k => (f (l * (32 / w) + k), 0)).1

/-- Every lane. -/
def allLanes : Word := BitVec.allOnes 64

/-- The element's lane is active. -/
def activeElem (w : Nat) (mask : Word) (m : Nat) : Bool := mask.getLsbD (m / (32 / w))

/-- The active elements in increasing order, with their indices. -/
def activeSeq (w : Nat) (mask : Word) (v : VReg) : List (Nat × Nat) :=
  ((List.range (elemCount w)).filter (activeElem w mask)).map fun m => (m, seqElem w v m)

/-- The bytes of a register, lane 0 first. -/
def vecBytes (v : VReg) : List Byte := v.toList.flatMap fun x => bytesOf 4 x.toNat

/-- The register whose bytes are given; missing bytes are zero. -/
def vecOf (bs : List Byte) : VReg := gen 64 fun l => BitVec.ofNat 32 (ofBytes ((bs.drop (4 * l)).take 4))

/-! ## Floating-point elements (R262) -/

def nanOr (f : Fmt) (ops : List Nat) (r : Nat × FFlags) : Nat × FFlags :=
  if ops.any fun x => (f.decode x).isNan then (f.nanCode, 0) else r

/-- Rounds an exact result and keeps the flags of its making. -/
def Fmt.finish (f : Fmt) (r : Rounding) (x : Fp × FFlags) : Nat × FFlags :=
  let y := f.encode r x.1
  (y.1, y.2 ||| x.2)

def fpAdd (f : Fmt) (r : Rounding) (a b : Nat) : Nat × FFlags := f.finish r ((f.decode a).add r (f.decode b))
def fpSub (f : Fmt) (r : Rounding) (a b : Nat) : Nat × FFlags := f.finish r ((f.decode a).add r (f.decode b).neg)
def fpMul (f : Fmt) (r : Rounding) (a b : Nat) : Nat × FFlags := f.finish r ((f.decode a).mul (f.decode b))

/-- ±(a · b) ± c, rounded once. -/
def fpFma (f : Fmt) (r : Rounding) (negP negC : Bool) (a b c : Nat) : Nat × FFlags :=
  nanOr f [a, b, c] <|
    let p := (f.decode a).mul (f.decode b)
    let x := if negP then p.1.neg else p.1
    let y := if negC then (f.decode c).neg else f.decode c
    let s := x.add r y
    f.finish r (s.1, s.2 ||| p.2)

/-- The lesser and the greater; −0 < +0. -/
def fpMin (f : Fmt) (r : Rounding) (a b : Nat) : Nat × FFlags :=
  nanOr f [a, b] (f.encode r (f.decode (if f.orderKey b < f.orderKey a then b else a)))

def fpMax (f : Fmt) (r : Rounding) (a b : Nat) : Nat × FFlags :=
  nanOr f [a, b] (f.encode r (f.decode (if f.orderKey a < f.orderKey b then b else a)))

def fpAbs (f : Fmt) (a : Nat) : Nat × FFlags := (a % f.signBit, 0)
def fpNeg (f : Fmt) (a : Nat) : Nat × FFlags := ((a + f.signBit) % 2 ^ f.width, 0)
def fpCopySign (f : Fmt) (a b : Nat) : Nat × FFlags := (a % f.signBit + b / f.signBit * f.signBit, 0)

/-- `vfrnd`: an integral value; infinities unchanged, where the format has an infinite result (R176, R262). -/
def fpRound (f : Fmt) (r : Rounding) (a : Nat) : Nat × FFlags :=
  match f.decode a with
  | .nan => (f.nanCode, 0)
  | .inf neg => f.deliverInf r neg
  | .fin neg m e =>
    match Fp.toInt r (.fin neg m e) with
    | some (i, nx) => ((f.round r neg i.natAbs 0 false).1, if nx then fNX else 0)
    | none => (a, 0)

/-- `vfexp`: ⌊log2 |a|⌋. -/
def fpExponent (f : Fmt) (r : Rounding) (a : Nat) : Nat × FFlags :=
  match f.decode a with
  | .nan => (f.nanCode, 0)
  | .inf _ => f.deliverInf r false
  | .fin _ m e =>
    if m = 0 then let d := f.deliverInf r true; (d.1, d.2 ||| fDZ) else f.encode r (Fp.ofInt (topExp m e))

/-- `vscl`: a · 2^n. An n beyond ±1,000 rounds as ±1,000 does. -/
def fpScale (f : Fmt) (r : Rounding) (a b : Nat) : Nat × FFlags :=
  let n := signed f.width b
  let n : Int := if n < -1000 then -1000 else if 1000 < n then 1000 else n
  match f.decode a with
  | .fin neg m e => f.encode r (.fin neg m (e + n))
  | x => f.encode r x

/-- `vclamp` on floats. -/
def fpClamp (f : Fmt) (r : Rounding) (a b : Nat) : Nat × FFlags :=
  nanOr f [a, b] <|
    let hi := f.decode (b % f.signBit)
    let x := f.decode a
    f.encode r (if hi.lt x then hi else if x.lt hi.neg then hi.neg else x)

/-- A compare: NV when an element is NaN (R179). -/
def fpCompare (f : Fmt) (c : Fp → Fp → Bool) (a b : Nat) : Bool × FFlags :=
  let x := f.decode a
  let y := f.decode b
  (c x y, if x.isNan || y.isNan then fNV else 0)

def Fp.le (a b : Fp) : Bool := a.lt b || a.eq b

/-- `vcvt` and the other conversions between floats: a NaN becomes canonical. -/
def fpConvert (src dst : Fmt) (r : Rounding) (a : Nat) : Nat × FFlags := dst.encode r (src.decode a)

/-! ## Integer elements (R265) -/

/-- An element under a signedness. -/
def intOf (w : Nat) (sgn : Bool) (a : Nat) : Int := if sgn then signed w a else (a % 2 ^ w : Nat)

/-- The code of an integer. -/
def codeOf (w : Nat) (i : Int) : Nat := (i % (2 ^ w : Nat)).toNat

def pure0 (x : Nat) : Nat × FFlags := (x, 0)

def intMin (w : Nat) (sgn : Bool) (a b : Nat) : Nat := if intOf w sgn b < intOf w sgn a then b else a
def intMax (w : Nat) (sgn : Bool) (a b : Nat) : Nat := if intOf w sgn a < intOf w sgn b then b else a

/-- The high half of the double-width product. -/
def intMulHigh (w : Nat) (sgn : Bool) (a b : Nat) : Nat := codeOf w (intOf w sgn a * intOf w sgn b / (2 ^ w : Nat))

/-- A shift count is b modulo the width. -/
def intShl (w a b : Nat) : Nat := a * 2 ^ (b % w) % 2 ^ w
def intShr (w a b : Nat) : Nat := a / 2 ^ (b % w)
def intSra (w : Nat) (sgn : Bool) (a b : Nat) : Nat := codeOf w (intOf w sgn a / (2 ^ (b % w) : Nat))

def intAbs (w : Nat) (sgn : Bool) (a : Nat) : Nat := codeOf w (intOf w sgn a).natAbs

/-- `vclamp` on integers: |most negative| is the largest value. -/
def intClamp (w : Nat) (sgn : Bool) (a b : Nat) : Nat :=
  if sgn then
    let m := Nat.min (signed w b).natAbs (2 ^ (w - 1) - 1)
    let x := signed w a
    codeOf w (if x < -(m : Int) then -(m : Int) else if (m : Int) < x then m else x)
  else Nat.min a b

/-- Leading zeros and set bits of an element. -/
def elemLeadingZeros (w a : Nat) : Nat := if a = 0 then w else w - 1 - Nat.log2 a
def elemSetBits (w a : Nat) : Nat := ((List.range w).filter fun i => a.testBit i).length

/-- `vbfx`: the control is a scalar. -/
def elemField (w : Nat) (sgn : Bool) (a : Nat) (ctl : Word) : Nat :=
  let lo := field ctl 0 5
  let n := Nat.min (field ctl 8 6) (w - lo)
  if w ≤ lo ∨ n = 0 then 0
  else
    let v := a / 2 ^ lo % 2 ^ n
    if sgn then codeOf w (signed n v) else v

/-! ## Reductions (R188, R267) -/

/-- One level of the tree. -/
def treeLevel (f : Nat → Nat → Nat × FFlags) : List (Option Nat × FFlags) → List (Option Nat × FFlags)
  | (some a, fa) :: (some b, fb) :: l => let c := f a b; (some c.1, fa ||| fb ||| c.2) :: treeLevel f l
  | (a, fa) :: (b, fb) :: l => (a.or b, fa ||| fb) :: treeLevel f l
  | l => l

/-- The fixed tree: n levels. -/
def tree (f : Nat → Nat → Nat × FFlags) : Nat → List (Option Nat × FFlags) → List (Option Nat × FFlags)
  | 0, l => l
  | n + 1, l => tree f n (treeLevel f l)

/-- The root of the tree over the elements of a register, each converted exactly to FP32; an inactive root gives +0. -/
def treeOf (f : Fmt) (op : Nat → Nat → Nat × FFlags) (mask : Word) (v : VReg) : Nat × FFlags :=
  let w := f.width
  let leaf := fun m => if activeElem w mask m then some (fpConvert f Fmt.f32 Rounding.rne (seqElem w v m)).1 else none
  match tree op 8 ((List.range (elemCount w)).map fun m => (leaf m, (0 : FFlags))) with
  | (some x, fl) :: _ => (x, fl)
  | _ => (0, 0)

/-- A 32-bit sum or extreme extended to 64 bits. -/
def extend32 (sgn : Bool) (x : Nat) : Word := if sgn then (BitVec.ofNat 32 x).signExtend 64 else word (x % 2 ^ 32)

/-- `vrsum`. -/
def reduceSum (t : XTy) (r : Rounding) (mask : Word) (v : VReg) : Word × FFlags :=
  match XTy.fmt t with
  | some f => let x := treeOf f (fpAdd Fmt.f32 r) mask v; (word x.1, x.2)
  | none =>
    let w := XTy.width t
    let sgn := XTy.isSigned t
    let total := (activeSeq w mask v).foldl (fun acc e => acc + intOf w sgn e.2) (0 : Int)
    (extend32 sgn (codeOf 32 total), 0)

/-- The better of two integers, kept over a list. -/
def bestInt (less : Int → Int → Bool) : List Int → Option Int
  | [] => none
  | x :: l =>
    match bestInt less l with
    | some y => some (if less y x then x else y)
    | none => some x

/-- `vrmax` and `vrmin`. -/
def reduceExtreme (t : XTy) (greatest : Bool) (mask : Word) (v : VReg) : Word × FFlags :=
  match XTy.fmt t with
  | some f =>
    let x := treeOf f (if greatest then fpMax Fmt.f32 Rounding.rne else fpMin Fmt.f32 Rounding.rne) mask v
    (word x.1, x.2)
  | none =>
    let w := XTy.width t
    let sgn := XTy.isSigned t
    let xs := (activeSeq w mask v).map fun e => intOf w sgn e.2
    (extend32 sgn (codeOf 32 ((bestInt (fun a b => if greatest then a < b else b < a) xs).getD 0)), 0)

/-! ## The key order (R269) -/

/-- The key of an element. -/
def keyOf (t : XTy) (a : Nat) : Int :=
  match XTy.fmt t with
  | some f => f.orderKey a
  | none => intOf (XTy.width t) (XTy.isSigned t) a

/-- `vrmaxi`: the index of the greatest active element, the lowest on a tie. -/
def greatestIndex (t : XTy) (mask : Word) (v : VReg) : Option Nat :=
  ((activeSeq (XTy.width t) mask v).foldl (fun (acc : Option (Nat × Int)) e =>
    match acc with
    | some (i, k) => if k < keyOf t e.2 then some (e.1, keyOf t e.2) else some (i, k)
    | none => some (e.1, keyOf t e.2)) none).map Prod.fst

/-- The key of a lane in the select unit. -/
def selectKey (t : KTy) (a : Word32) : Int :=
  match t with
  | .f32 => Fmt.f32.orderKey a.toNat
  | .i32 => signed 32 a.toNat

/-- Inserts a candidate after every one whose key is not less. -/
def insertKey (x : Nat × Int) : List (Nat × Int) → List (Nat × Int)
  | [] => [x]
  | y :: l => if y.2 < x.2 then x :: y :: l else y :: insertKey x l

/-- The candidates in key order, equal keys by lower lane. -/
def candidates (t : KTy) (mask : Word) (v : VReg) : List (Nat × Int) :=
  ((List.range 64).filter fun l => mask.getLsbD l).foldl (fun acc l => insertKey (l, selectKey t (at_ v l 0)) acc) []

/-! ## Scans, dot products, histograms (R268, R189) -/

/-- `vscan`: the running sums of the active elements; `first` is the first of them as a result. -/
def scanFrom (first : Nat → Nat × FFlags) (add : Nat → Nat → Nat × FFlags) : Option Nat → List (Nat × Nat) → List (Nat × Nat) × FFlags
  | _, [] => ([], 0)
  | acc, (m, x) :: l =>
    let s := match acc with
      | some y => add y x
      | none => first x
    let r := scanFrom first add (some s.1) l
    ((m, s.1) :: r.1, s.2 ||| r.2)

/-- The exact sum of values. -/
def sumExact (r : Rounding) (x : Fp) : List (Fp × FFlags) → Fp × FFlags
  | [] => (x, 0)
  | y :: l =>
    let s := x.add r y.1
    let t := sumExact r s.1 l
    (t.1, t.2 ||| s.2 ||| y.2)

def Dot4Ty.fmt : Dot4Ty → Option Fmt
  | .bf16 => some Fmt.bf16
  | .f16 => some Fmt.f16
  | .e4m3 => some Fmt.e4m3
  | .e5m2 => some Fmt.e5m2
  | _ => none

def Dot4Ty.width : Dot4Ty → Nat
  | .bf16 => 16
  | .f16 => 16
  | .i16 => 16
  | _ => 8

/-- One lane of `vdot4`. -/
def dotLane (t : Dot4Ty) (r : Rounding) (a b c : Word32) : Word32 × FFlags :=
  let w := Dot4Ty.width t
  let ks := List.range (32 / w)
  match Dot4Ty.fmt t with
  | some f =>
    let xs := ks.map fun k => (f.decode (laneElem w k a), f.decode (laneElem w k b))
    let acc := Fmt.f32.decode c.toNat
    if acc.isNan || xs.any (fun p => p.1.isNan || p.2.isNan) then (BitVec.ofNat 32 Fmt.f32.nanCode, 0)
    else
      let y := Fmt.f32.finish r (sumExact r acc (xs.map fun p => p.1.mul p.2))
      (BitVec.ofNat 32 y.1, y.2)
  | none =>
    let sgn := t != .u8
    let s := ks.foldl (fun acc k => acc + intOf w sgn (laneElem w k a) * intOf w sgn (laneElem w k b)) (signed 32 c.toNat)
    (BitVec.ofInt 32 s, 0)

/-! ## Conversions with stochastic rounding (R177, R271, R272) -/

/-- One element: rounded by RM, or stochastically with the lane's state. -/
def convertElem (dst : Fmt) (r : Rounding) (sr : Bool) (x : Fp) (l : Word32) : Nat × FFlags × Word32 :=
  if sr then dst.encodeSr r x l else let y := dst.encode r x; (y.1, y.2, l)

/-- A register of converted elements: `src m` is the exact value for element m, `on m` says which elements are written. The states of
the lanes advance in increasing element index. -/
def convertLanes (dst : Fmt) (r : Rounding) (sr : Bool) (on : Nat → Bool) (src : Nat → Fp) (old lfsr : VReg) : VReg × FFlags × VReg :=
  let w := dst.width
  let n := 32 / w
  let lane := fun (l : Nat) => (List.range n).foldl (fun (acc : List Nat × FFlags × Word32) k =>
    let m := l * n + k
    if on m then
      let y := convertElem dst r sr (src m) acc.2.2
      (acc.1 ++ [y.1], acc.2.1 ||| y.2.1, y.2.2)
    else (acc.1 ++ [laneElem w k (at_ old l 0)], acc.2)) ([], 0, at_ lfsr l 0)
  let r : Vector (List Nat × FFlags × Word32) 64 := gen 64 lane
  (r.map fun x => BitVec.ofNat 32 (laneOf w x.1), r.foldl (fun acc x => acc ||| x.2.1) 0, r.map fun x => x.2.2)

/-! ## Block-scaled formats (R180 to R185) -/

/-- Bits of an element and bytes of a granule. -/
def mxBits : MxFmt → Nat
  | .int8 => 8
  | .int6 => 6
  | .int4 => 4

def mxGranule (t : MxFmt) : Nat := 2 * mxBits t
def mxMax (t : MxFmt) : Nat := 2 ^ (mxBits t - 1) - 1

/-- An S24 scale as a value; a NaN scale is NaN. -/
def s24Value (x : Nat) : Fp := Fmt.f32.decode (x % 2 ^ 24 * 256)

/-- Conversion of an FP32 code to S24: RNE over the 8 discarded bits (R181). A NaN keeps its exponent and a fraction bit. -/
def toS24 (code : Nat) : Nat :=
  match Fmt.f32.decode code with
  | .nan => 0x7FC000
  | _ =>
    let n := code / 256
    let low := code % 256
    if low < 128 then n else if 128 < low then n + 1 else n + n % 2

/-- q · s under R182. -/
def scaled24 (q : Int) (s : Nat) : Fp × FFlags := (Fp.ofInt q).mul (s24Value s)

/-- Whether a · 2^t is less than b · 2^u for magnitudes given as codes: NaN above ∞ above the finite values. -/
def magLess (a t b u : Nat) : Bool :=
  let rank := fun (x : Fp) => match x with
    | .nan => 2
    | .inf _ => 1
    | .fin _ _ _ => 0
  let x := Fmt.f32.decode a
  let y := Fmt.f32.decode b
  match x, y with
  | .fin _ m e, .fin _ m' e' => (Fp.fin false m (e + t)).lt (.fin false m' (e' + u))
  | _, _ => rank x < rank y

/-- The greatest magnitude of a granule. -/
def granuleMax (xs : List Nat) : Nat := xs.foldl (fun acc x => Nat.max acc (x % 2 ^ 31)) 0

/-- The blocks of a row: (number of granules, greatest magnitude), from the maxima of the granules (R184). -/
def blocksOf (t : Nat) : Nat → Nat → List Nat → List (Nat × Nat)
  | n, m, [] => [(n, m)]
  | n, m, g :: gs =>
    if 16 ≤ n || magLess m t g 0 || magLess g t m 0 || (m == 0 && g != 0) then (n, m) :: blocksOf t 1 g gs
    else blocksOf t (n + 1) (Nat.max m g) gs

/-- A quotient of magnitudes rounded to an integer: by RM, or stochastically; whether it is inexact, and the lane's state. -/
def roundQuotient (r : Rounding) (sr : Bool) (neg : Bool) (num den : Nat) (l : Word32) : Int × Bool × Word32 :=
  let n := num / den
  let rem := num % den
  let below := if rem = 0 then 0 else if 2 * rem < den then 1 else if 2 * rem = den then 2 else 3
  let l' := if rem = 0 || !sr then l else lfsrUse l
  let up := if sr then rem != 0 && l'.toNat < rem * 2 ^ 32 / den else roundUp r.rm neg n below
  let k : Int := ((if up then n + 1 else n) : Nat)
  (if neg then -k else k, rem != 0, l')

/-- One element of a block with scale s (R184). -/
def quantElem (r : Rounding) (sr : Bool) (qmax : Nat) (s : Nat) (x : Nat) (l : Word32) : Int × FFlags × Word32 :=
  match Fmt.f32.decode x, s24Value s with
  | .fin neg m e, .fin _ m' e' =>
    let num := if e' ≤ e then m * 2 ^ (e - e').toNat else m
    let den := if e' ≤ e then m' else m' * 2 ^ (e' - e).toNat
    let q := roundQuotient r sr neg num den l
    let c := if q.1 < -(qmax : Int) - 1 then -(qmax : Int) - 1 else if (qmax : Int) < q.1 then (qmax : Int) else q.1
    (c, if q.2.1 || c != q.1 then fNX else 0, q.2.2)
  | _, _ => (0, 0, l)

/-- The scale of a block and the flags it sets; `none` when every code is zero. -/
def blockScale (m qmax : Nat) : Nat × FFlags × Bool :=
  match Fmt.f32.decode m with
  | .nan => (0x7FC000, fNV, false)
  | .inf _ => (0x7FC000, fNV, false)
  | .fin neg m' e =>
    if m' = 0 then (0, 0, false)
    else
      let s := toS24 (Fmt.f32.div Rounding.rne (.fin neg m' e) (Fp.ofInt qmax)).1
      if s = 0 then (0, fUF ||| fNX, false) else (s, 0, true)

/-- What the quantiser gives: signed codes, the scale of each granule, the granules that start a block, flags and lane states. -/
structure Quantised where
  codes : List Int
  scales : List Nat
  starts : List Bool
  flags : FFlags
  lfsr : VReg

/-- One block: its elements are numbered from `e` on; element e uses lane e mod 64. -/
def quantBlock (r : Rounding) (sr : Bool) (qmax : Nat) (n m e : Nat) (xs : List Nat) (acc : Quantised) : Quantised :=
  let s := blockScale m qmax
  let body := (xs.zipIdx e).foldl (fun (acc : List Int × FFlags × VReg) x =>
    if s.2.2 then
      let lane : Fin 64 := Fin.ofNat 64 x.2
      let q := quantElem r sr qmax s.1 x.1 acc.2.2[lane]
      (acc.1 ++ [q.1], acc.2.1 ||| q.2.1, acc.2.2.set lane q.2.2)
    else (acc.1 ++ [0], acc.2)) ([], s.2.1, acc.lfsr)
  ⟨acc.codes ++ body.1, acc.scales ++ List.replicate n s.1, acc.starts ++ (true :: List.replicate (n - 1) false),
    acc.flags ||| body.2.1, body.2.2⟩

/-- The blocks of a row in order. -/
def quantBlocks (r : Rounding) (sr : Bool) (qmax : Nat) : Nat → List (Nat × Nat) → List Nat → Quantised → Quantised
  | _, [], _, acc => acc
  | e, (n, m) :: bs, xs, acc =>
    quantBlocks r sr qmax (e + 16 * n) bs (xs.drop (16 * n)) (quantBlock r sr qmax n m e (xs.take (16 * n)) acc)

/-- The granules of a row. -/
def granulesOf (n : Nat) (xs : List Nat) : List (List Nat) := (List.range n).map fun g => (xs.drop (16 * g)).take 16

/-- `quantise_row` (R184). -/
def quantiseRow (r : Rounding) (sr : Bool) (t qmax : Nat) (xs : List Nat) (lfsr : VReg) : Quantised :=
  let ms := (granulesOf (xs.length / 16) xs).map granuleMax
  match ms with
  | [] => ⟨[], [], [], 0, lfsr⟩
  | m :: rest => quantBlocks r sr qmax 0 (blocksOf t 1 m rest) xs ⟨[], [], [], 0, lfsr⟩

/-- The number whose k-th field of `bits` bits is the k-th code. -/
def packCodes (bits : Nat) (cs : List Int) : Nat := cs.zipIdx.foldl (fun acc c => acc + codeOf bits c.1 * 2 ^ (bits * c.2)) 0

/-- Code k of a granule. -/
def granuleCode (bits granule k : Nat) : Int := signed bits (granule / 2 ^ (bits * k))

/-- The first granule of granule g's block, from the boundary bits of a row (R80, R183): the granule and whether a correction made
it a start. `run` granules have been passed since g. -/
def blockStart (bit : Nat → Bool) : Nat → Nat × Bool
  | 0 => (0, !bit 0)
  | g + 1 =>
    if bit (g + 1) then (g + 1, false)
    else
      let p := blockStart bit g
      if p.1 + 16 ≤ g + 1 then (g + 1, true) else p

end Sys2Proof.Machine
end

