-- ==== Sys2Proof/Machine/VecArith.lean ====
section
/-! DEFINITION. Vector arithmetic and compares (R257 to R265). -/

namespace Sys2Proof.Machine

/-! ## Writing results -/

/-- FPMODE's rounding. -/
def State.rounding (s : State) : Rounding := roundingOf s.cx.regs.fpmode

/-- SR of FPMODE. -/
def State.stochastic (s : State) : Bool := flag s.cx.regs.fpmode 2

/-- Flags set in the cycle the result lands (R175, R261). -/
def State.writeFlags (s : State) (lat : Lat) (fl : FFlags) (warnings : Nat) : State :=
  if fl = 0 ∧ warnings = 0 then s else s.write lat .flags (.flags fl warnings)

/-- Writes a vector result with its flags. -/
def State.putVec (s : State) (lat : Lat) (d : Fin 16) (r : VReg × FFlags) : State :=
  (s.write lat (.v d) (.vec r.1)).writeFlags lat r.2 0

/-- The transcendental group: V8 on an S-core, long-latency on an M-core (R261). -/
def State.slowLat (s : State) : Lat := if isMCore s.gcore then .long else .v8

/-! ## Shapes -/

def State.float1 (s : State) (lat : Lat) (t : FTy) (d a : Fin 16) (m : Fin 8) (f : Fmt → Rounding → Nat → Nat × FFlags) : State :=
  s.putVec lat d (mapLanes (s.readM m) (s.readV d) (lift1 (FTy.width t) (f (FTy.fmt t) s.rounding) (s.readV a)))

def State.float2 (s : State) (lat : Lat) (t : FTy) (d a b : Fin 16) (m : Fin 8)
    (f : Fmt → Rounding → Nat → Nat → Nat × FFlags) : State :=
  s.putVec lat d (mapLanes (s.readM m) (s.readV d) (lift2 (FTy.width t) (f (FTy.fmt t) s.rounding) (s.readV a) (s.readV b)))

/-- The fused forms read vd as their third operand. -/
def State.float3 (s : State) (t : FTy) (d a b : Fin 16) (m : Fin 8)
    (f : Fmt → Rounding → Nat → Nat → Nat → Nat × FFlags) : State :=
  s.putVec .v4 d (mapLanes (s.readM m) (s.readV d)
    (lift3 (FTy.width t) (f (FTy.fmt t) s.rounding) (s.readV a) (s.readV b) (s.readV d)))

def State.int1 (s : State) (t : ITy) (d a : Fin 16) (m : Fin 8) (f : Nat → Bool → Nat → Nat) : State :=
  let w := ITy.width t
  s.putVec .v2 d (mapLanes (s.readM m) (s.readV d) (lift1 w (fun x => pure0 (f w (ITy.isSigned t) x)) (s.readV a)))

def State.int2 (s : State) (lat : Lat) (t : ITy) (d a b : Fin 16) (m : Fin 8) (f : Nat → Bool → Nat → Nat → Nat) : State :=
  let w := ITy.width t
  s.putVec lat d (mapLanes (s.readM m) (s.readV d)
    (lift2 w (fun x y => pure0 (f w (ITy.isSigned t) x y)) (s.readV a) (s.readV b)))

/-- Bitwise on 32-bit lanes. -/
def State.bits2 (s : State) (d a b : Fin 16) (m : Fin 8) (f : Word32 → Word32 → Word32) : State :=
  let x := s.readV a
  let y := s.readV b
  s.putVec .v2 d (mapLanes (s.readM m) (s.readV d) fun l => (f (at_ x l 0) (at_ y l 0), 0))

/-- `vclamp`: V4 on floats, V2 on integers. -/
def State.clamp (s : State) (t : XTy) (d a b : Fin 16) (m : Fin 8) : State :=
  let w := XTy.width t
  match XTy.fmt t with
  | some f => s.putVec .v4 d (mapLanes (s.readM m) (s.readV d) (lift2 w (fpClamp f s.rounding) (s.readV a) (s.readV b)))
  | none =>
    s.putVec .v2 d (mapLanes (s.readM m) (s.readV d)
      (lift2 w (fun x y => pure0 (intClamp w (XTy.isSigned t) x y)) (s.readV a) (s.readV b)))

/-- The lanes that are active and meet a condition. -/
def lanesWhere (mask : Word) (c : Nat → Bool) : Word :=
  word ((List.range 64).foldl (fun acc l => if mask.getLsbD l && c l then acc + 2 ^ l else acc) 0)

/-- A float compare: every element of the lane; NV for a NaN in an active lane. -/
def State.compareF (s : State) (t : FTy) (p : Fin 4) (a b : Fin 16) (m : Fin 8) (c : Fp → Fp → Bool) : State :=
  let w := FTy.width t
  let x := s.readV a
  let y := s.readV b
  let one := fun (l k : Nat) => fpCompare (FTy.fmt t) c (laneElem w k (at_ x l 0)) (laneElem w k (at_ y l 0))
  let ks := List.range (32 / w)
  let fl := (List.range 64).foldl (fun acc l =>
    if (s.readM m).getLsbD l then ks.foldl (fun acc k => acc ||| (one l k).2) acc else acc) (0 : FFlags)
  (s.writeMaskPair .v2 p (lanesWhere (s.readM m) fun l => ks.all fun k => (one l k).1)).writeFlags .v2 fl 0

def State.compareI (s : State) (t : ITy) (p : Fin 4) (a b : Fin 16) (m : Fin 8) (c : Nat → Bool → Nat → Nat → Bool) : State :=
  let w := ITy.width t
  let x := s.readV a
  let y := s.readV b
  s.writeMaskPair .v2 p (lanesWhere (s.readM m) fun l => (List.range (32 / w)).all fun k =>
    c w (ITy.isSigned t) (laneElem w k (at_ x l 0)) (laneElem w k (at_ y l 0)))

/-! ## Floating-point arithmetic (R262) -/

def execVfadd (g d a b : Fin 16) (m : Fin 8) (e f : Bool) (t : FTy) (s : State) : Host.Outcome State Fault Refusal :=
  s.syl (Instr.info s (.vfadd g d a b m e f t)) fun s => s.float2 .v4 t d a b m fpAdd

def execVfsub (g d a b : Fin 16) (m : Fin 8) (e f : Bool) (t : FTy) (s : State) : Host.Outcome State Fault Refusal :=
  s.syl (Instr.info s (.vfsub g d a b m e f t)) fun s => s.float2 .v4 t d a b m fpSub

def execVfmul (g d a b : Fin 16) (m : Fin 8) (e f : Bool) (t : FTy) (s : State) : Host.Outcome State Fault Refusal :=
  s.syl (Instr.info s (.vfmul g d a b m e f t)) fun s => s.float2 .v4 t d a b m fpMul

def execVfma (g d a b : Fin 16) (m : Fin 8) (e f : Bool) (t : FTy) (s : State) : Host.Outcome State Fault Refusal :=
  s.syl (Instr.info s (.vfma g d a b m e f t)) fun s => s.float3 t d a b m fun f r => fpFma f r false false

def execVfms (g d a b : Fin 16) (m : Fin 8) (e f : Bool) (t : FTy) (s : State) : Host.Outcome State Fault Refusal :=
  s.syl (Instr.info s (.vfms g d a b m e f t)) fun s => s.float3 t d a b m fun f r => fpFma f r false true

def execVfnma (g d a b : Fin 16) (m : Fin 8) (e f : Bool) (t : FTy) (s : State) : Host.Outcome State Fault Refusal :=
  s.syl (Instr.info s (.vfnma g d a b m e f t)) fun s => s.float3 t d a b m fun f r => fpFma f r true false

def execVfmin (g d a b : Fin 16) (m : Fin 8) (e f : Bool) (t : FTy) (s : State) : Host.Outcome State Fault Refusal :=
  s.syl (Instr.info s (.vfmin g d a b m e f t)) fun s => s.float2 .v4 t d a b m fpMin

def execVfmax (g d a b : Fin 16) (m : Fin 8) (e f : Bool) (t : FTy) (s : State) : Host.Outcome State Fault Refusal :=
  s.syl (Instr.info s (.vfmax g d a b m e f t)) fun s => s.float2 .v4 t d a b m fpMax

def execVfabs (g d a : Fin 16) (m : Fin 8) (e : Bool) (t : FTy) (s : State) : Host.Outcome State Fault Refusal :=
  s.syl (Instr.info s (.vfabs g d a m e t)) fun s => s.float1 .v2 t d a m fun f _ => fpAbs f

def execVfneg (g d a : Fin 16) (m : Fin 8) (e : Bool) (t : FTy) (s : State) : Host.Outcome State Fault Refusal :=
  s.syl (Instr.info s (.vfneg g d a m e t)) fun s => s.float1 .v2 t d a m fun f _ => fpNeg f

def execVfcpys (g d a b : Fin 16) (m : Fin 8) (e f : Bool) (t : FTy) (s : State) : Host.Outcome State Fault Refusal :=
  s.syl (Instr.info s (.vfcpys g d a b m e f t)) fun s => s.float2 .v2 t d a b m fun f _ => fpCopySign f

def execVfrnd (g d a : Fin 16) (m : Fin 8) (e : Bool) (t : FTy) (s : State) : Host.Outcome State Fault Refusal :=
  s.syl (Instr.info s (.vfrnd g d a m e t)) fun s => s.float1 .v4 t d a m fpRound

def execVfexp (g d a : Fin 16) (m : Fin 8) (e : Bool) (t : FTy) (s : State) : Host.Outcome State Fault Refusal :=
  s.syl (Instr.info s (.vfexp g d a m e t)) fun s => s.float1 .v4 t d a m fpExponent

def execVscl (g d a b : Fin 16) (m : Fin 8) (e f : Bool) (t : FTy) (s : State) : Host.Outcome State Fault Refusal :=
  s.syl (Instr.info s (.vscl g d a b m e f t)) fun s => s.float2 .v4 t d a b m fpScale

/-! ## Transcendental functions (R263) -/

def execVrcp (g d a : Fin 16) (m : Fin 8) (e : Bool) (t : FTy) (s : State) : Host.Outcome State Fault Refusal :=
  s.syl (Instr.info s (.vrcp g d a m e t)) fun s => s.float1 s.slowLat t d a m fun f r x => f.rcp r (f.decode x)

def execVrsq (g d a : Fin 16) (m : Fin 8) (e : Bool) (t : FTy) (s : State) : Host.Outcome State Fault Refusal :=
  s.syl (Instr.info s (.vrsq g d a m e t)) fun s => s.float1 s.slowLat t d a m fun f r x => f.rsq r (f.decode x)

def execVsqrt (g d a : Fin 16) (m : Fin 8) (e : Bool) (t : FTy) (s : State) : Host.Outcome State Fault Refusal :=
  s.syl (Instr.info s (.vsqrt g d a m e t)) fun s => s.float1 s.slowLat t d a m fun f r x => f.sqrt r (f.decode x)

def execVexp2 (g d a : Fin 16) (m : Fin 8) (e : Bool) (t : FTy) (s : State) : Host.Outcome State Fault Refusal :=
  s.syl (Instr.info s (.vexp2 g d a m e t)) fun s => s.float1 s.slowLat t d a m fun f r x => f.exp2 r (f.decode x)

def execVlog2 (g d a : Fin 16) (m : Fin 8) (e : Bool) (t : FTy) (s : State) : Host.Outcome State Fault Refusal :=
  s.syl (Instr.info s (.vlog2 g d a m e t)) fun s => s.float1 s.slowLat t d a m fun f r x => f.log2 r (f.decode x)

def execVtanh (g d a : Fin 16) (m : Fin 8) (e : Bool) (t : FTy) (s : State) : Host.Outcome State Fault Refusal :=
  s.syl (Instr.info s (.vtanh g d a m e t)) fun s => s.float1 s.slowLat t d a m fun f r x => f.tanh r (f.decode x)

def execVsig (g d a : Fin 16) (m : Fin 8) (e : Bool) (t : FTy) (s : State) : Host.Outcome State Fault Refusal :=
  s.syl (Instr.info s (.vsig g d a m e t)) fun s => s.float1 s.slowLat t d a m fun f r x => f.sig r (f.decode x)

def execVdiv (g d a b : Fin 16) (m : Fin 8) (e f : Bool) (t : FTy) (s : State) : Host.Outcome State Fault Refusal :=
  s.syl (Instr.info s (.vdiv g d a b m e f t)) fun s => s.float2 s.slowLat t d a b m fun f r x y => f.div r (f.decode x) (f.decode y)

/-! ## Compares (R264) -/

def execVfcmpEq (g : Fin 16) (p : Fin 4) (a b : Fin 16) (m : Fin 8) (e f : Bool) (t : FTy) (s : State) :
    Host.Outcome State Fault Refusal :=
  s.syl (Instr.info s (.vfcmpEq g p a b m e f t)) fun s => s.compareF t p a b m Fp.eq

def execVfcmpLt (g : Fin 16) (p : Fin 4) (a b : Fin 16) (m : Fin 8) (e f : Bool) (t : FTy) (s : State) :
    Host.Outcome State Fault Refusal :=
  s.syl (Instr.info s (.vfcmpLt g p a b m e f t)) fun s => s.compareF t p a b m Fp.lt

def execVfcmpLe (g : Fin 16) (p : Fin 4) (a b : Fin 16) (m : Fin 8) (e f : Bool) (t : FTy) (s : State) :
    Host.Outcome State Fault Refusal :=
  s.syl (Instr.info s (.vfcmpLe g p a b m e f t)) fun s => s.compareF t p a b m Fp.le

def execVfcmpUn (g : Fin 16) (p : Fin 4) (a b : Fin 16) (m : Fin 8) (e f : Bool) (t : FTy) (s : State) :
    Host.Outcome State Fault Refusal :=
  s.syl (Instr.info s (.vfcmpUn g p a b m e f t)) fun s => s.compareF t p a b m (fun x y => x.isNan || y.isNan)

def execVcmpEq (g : Fin 16) (p : Fin 4) (a b : Fin 16) (m : Fin 8) (e f : Bool) (t : ITy) (s : State) :
    Host.Outcome State Fault Refusal :=
  s.syl (Instr.info s (.vcmpEq g p a b m e f t)) fun s => s.compareI t p a b m (fun _ _ x y => x == y)

def execVcmpLt (g : Fin 16) (p : Fin 4) (a b : Fin 16) (m : Fin 8) (e f : Bool) (t : ITy) (s : State) :
    Host.Outcome State Fault Refusal :=
  s.syl (Instr.info s (.vcmpLt g p a b m e f t)) fun s => s.compareI t p a b m (fun w sgn x y => intOf w sgn x < intOf w sgn y)

def execVcmpLtu (g : Fin 16) (p : Fin 4) (a b : Fin 16) (m : Fin 8) (e f : Bool) (t : ITy) (s : State) :
    Host.Outcome State Fault Refusal :=
  s.syl (Instr.info s (.vcmpLtu g p a b m e f t)) fun s => s.compareI t p a b m (fun _ _ x y => x < y)

/-! ## Integer and bit operations (R265) -/

def execVadd (g d a b : Fin 16) (m : Fin 8) (e f : Bool) (t : ITy) (s : State) : Host.Outcome State Fault Refusal :=
  s.syl (Instr.info s (.vadd g d a b m e f t)) fun s => s.int2 .v2 t d a b m fun w _ x y => (x + y) % 2 ^ w

def execVsub (g d a b : Fin 16) (m : Fin 8) (e f : Bool) (t : ITy) (s : State) : Host.Outcome State Fault Refusal :=
  s.syl (Instr.info s (.vsub g d a b m e f t)) fun s => s.int2 .v2 t d a b m fun w _ x y => (x + 2 ^ w - y) % 2 ^ w

def execVmul (g d a b : Fin 16) (m : Fin 8) (e f : Bool) (t : ITy) (s : State) : Host.Outcome State Fault Refusal :=
  s.syl (Instr.info s (.vmul g d a b m e f t)) fun s => s.int2 .v2 t d a b m fun w _ x y => x * y % 2 ^ w

def execVmulh (g d a b : Fin 16) (m : Fin 8) (e f : Bool) (t : ITy) (s : State) : Host.Outcome State Fault Refusal :=
  s.syl (Instr.info s (.vmulh g d a b m e f t)) fun s => s.int2 .v4 t d a b m fun w sgn x y => intMulHigh w sgn x y

def execVmin (g d a b : Fin 16) (m : Fin 8) (e f : Bool) (t : ITy) (s : State) : Host.Outcome State Fault Refusal :=
  s.syl (Instr.info s (.vmin g d a b m e f t)) fun s => s.int2 .v2 t d a b m fun w sgn x y => intMin w sgn x y

def execVmax (g d a b : Fin 16) (m : Fin 8) (e f : Bool) (t : ITy) (s : State) : Host.Outcome State Fault Refusal :=
  s.syl (Instr.info s (.vmax g d a b m e f t)) fun s => s.int2 .v2 t d a b m fun w sgn x y => intMax w sgn x y

def execVminu (g d a b : Fin 16) (m : Fin 8) (e f : Bool) (t : ITy) (s : State) : Host.Outcome State Fault Refusal :=
  s.syl (Instr.info s (.vminu g d a b m e f t)) fun s => s.int2 .v2 t d a b m fun _ _ x y => Nat.min x y

def execVmaxu (g d a b : Fin 16) (m : Fin 8) (e f : Bool) (t : ITy) (s : State) : Host.Outcome State Fault Refusal :=
  s.syl (Instr.info s (.vmaxu g d a b m e f t)) fun s => s.int2 .v2 t d a b m fun _ _ x y => Nat.max x y

def execVand (g d a b : Fin 16) (m : Fin 8) (e f : Bool) (s : State) : Host.Outcome State Fault Refusal :=
  s.syl (Instr.info s (.vand g d a b m e f)) fun s => s.bits2 d a b m fun x y => x &&& y

def execVor (g d a b : Fin 16) (m : Fin 8) (e f : Bool) (s : State) : Host.Outcome State Fault Refusal :=
  s.syl (Instr.info s (.vor g d a b m e f)) fun s => s.bits2 d a b m fun x y => x ||| y

def execVxor (g d a b : Fin 16) (m : Fin 8) (e f : Bool) (s : State) : Host.Outcome State Fault Refusal :=
  s.syl (Instr.info s (.vxor g d a b m e f)) fun s => s.bits2 d a b m fun x y => x ^^^ y

def execVshl (g d a b : Fin 16) (m : Fin 8) (e f : Bool) (t : ITy) (s : State) : Host.Outcome State Fault Refusal :=
  s.syl (Instr.info s (.vshl g d a b m e f t)) fun s => s.int2 .v2 t d a b m fun w _ x y => intShl w x y

def execVshr (g d a b : Fin 16) (m : Fin 8) (e f : Bool) (t : ITy) (s : State) : Host.Outcome State Fault Refusal :=
  s.syl (Instr.info s (.vshr g d a b m e f t)) fun s => s.int2 .v2 t d a b m fun w _ x y => intShr w x y

def execVsra (g d a b : Fin 16) (m : Fin 8) (e f : Bool) (t : ITy) (s : State) : Host.Outcome State Fault Refusal :=
  s.syl (Instr.info s (.vsra g d a b m e f t)) fun s => s.int2 .v2 t d a b m fun w sgn x y => intSra w sgn x y

def execVabs (g d a : Fin 16) (m : Fin 8) (e : Bool) (t : ITy) (s : State) : Host.Outcome State Fault Refusal :=
  s.syl (Instr.info s (.vabs g d a m e t)) fun s => s.int1 t d a m fun w sgn x => intAbs w sgn x

def execVclamp (g d a b : Fin 16) (m : Fin 8) (e f : Bool) (t : XTy) (s : State) : Host.Outcome State Fault Refusal :=
  s.syl (Instr.info s (.vclamp g d a b m e f t)) fun s => s.clamp t d a b m

def execVclz (g d a : Fin 16) (m : Fin 8) (e : Bool) (t : ITy) (s : State) : Host.Outcome State Fault Refusal :=
  s.syl (Instr.info s (.vclz g d a m e t)) fun s => s.int1 t d a m fun w _ x => elemLeadingZeros w x

def execVpopc (g d a : Fin 16) (m : Fin 8) (e : Bool) (t : ITy) (s : State) : Host.Outcome State Fault Refusal :=
  s.syl (Instr.info s (.vpopc g d a m e t)) fun s => s.int1 t d a m fun w _ x => elemSetBits w x

def execVbfx (g d a b : Fin 16) (m : Fin 8) (e f : Bool) (t : ITy) (s : State) : Host.Outcome State Fault Refusal :=
  s.syl (Instr.info s (.vbfx g d a b m e f t)) fun s =>
    let ctl := s.readS b
    s.int1 t d a m fun w sgn x => elemField w sgn x ctl

end Sys2Proof.Machine
end

