-- ==== Sys2Proof/Machine/VecMove.lean ====
section
/-! DEFINITION. Lane moves, reductions, scans, the select unit, conversions, the quantiser and masks (R266 to R275, R279). -/

namespace Sys2Proof.Machine

/-! ## Lane moves (R266) -/

/-- A V2 result lane by lane. -/
def State.move (s : State) (d : Fin 16) (m : Fin 8) (f : Nat → Word32) : State :=
  s.putVec .v2 d (mapLanes (s.readM m) (s.readV d) fun l => (f l, 0))

/-- A V2 result element by element. -/
def State.moveElems (s : State) (w : Nat) (d : Fin 16) (m : Fin 8) (f : Nat → Nat) : State :=
  s.putVec .v2 d (fromSeq w (s.readM m) (s.readV d) f, 0)

def execVmov (g d a : Fin 16) (m : Fin 8) (e : Bool) (s : State) : Host.Outcome State Fault Refusal :=
  s.syl (Instr.info s (.vmov g d a m e)) fun s =>
    let x := s.readV a
    s.move d m fun l => at_ x l 0

def execVsplat (g d a : Fin 16) (m : Fin 8) (e : Bool) (t : XTy) (s : State) : Host.Outcome State Fault Refusal :=
  s.syl (Instr.info s (.vsplat g d a m e t)) fun s =>
    let x := (s.readS a).toNat
    s.moveElems (XTy.width t) d m fun _ => x % 2 ^ XTy.width t

def execVins (g d a b : Fin 16) (m : Fin 8) (e f : Bool) (t : XTy) (s : State) : Host.Outcome State Fault Refusal :=
  s.syl (Instr.info s (.vins g d a b m e f t)) fun s =>
    let w := XTy.width t
    let i := (s.readS b).toNat % elemCount w
    let x := (s.readS a).toNat % 2 ^ w
    let old := s.readV d
    s.moveElems w d m fun k => if k = i then x else seqElem w old k

/-- An element as `vext` returns it. -/
def extendElem (t : XTy) (x : Nat) : Word :=
  match t with
  | .i32 => BitVec.ofInt 64 (signed 32 x)
  | .i16 => BitVec.ofInt 64 (signed 16 x)
  | .i8 => BitVec.ofInt 64 (signed 8 x)
  | _ => word x

def execVext (g d a b : Fin 16) (e f : Bool) (t : XTy) (s : State) : Host.Outcome State Fault Refusal :=
  s.syl (Instr.info s (.vext g d a b e f t)) fun s =>
    let w := XTy.width t
    s.push .v2 (.s d) (extendElem t (seqElem w (s.readV a) ((s.readS b).toNat % elemCount w)))

/-- `vsel`: every lane is written. -/
def execVsel (g d a b : Fin 16) (m : Fin 8) (e f : Bool) (s : State) : Host.Outcome State Fault Refusal :=
  s.syl (Instr.info s (.vsel g d a b m e f)) fun s =>
    let x := s.readV a
    s.putVec .v2 d (mapLanes (s.readM m) (s.readV b) fun l => (at_ x l 0, 0))

def execVperm (g d a b : Fin 16) (m : Fin 8) (e f : Bool) (s : State) : Host.Outcome State Fault Refusal :=
  s.syl (Instr.info s (.vperm g d a b m e f)) fun s =>
    let x := s.readV a
    let i := s.readV b
    s.move d m fun l => at_ x ((at_ i l 0).toNat % 64) 0

def execVrot (g d a b : Fin 16) (m : Fin 8) (e f : Bool) (s : State) : Host.Outcome State Fault Refusal :=
  s.syl (Instr.info s (.vrot g d a b m e f)) fun s =>
    let x := s.readV a
    let k := (s.readS b).toNat % 64
    s.move d m fun l => at_ x ((l + k) % 64) 0

/-- The source of element k of `vzip`. -/
def zipElem (w sel : Nat) (a b : VReg) (k : Nat) : Nat :=
  let half := elemCount w / 2
  if sel < 2 then
    let i := k / 2 + (if sel = 0 then 0 else half)
    if k % 2 = 0 then seqElem w a i else seqElem w b i
  else
    let i := 2 * (k % half) + (sel - 2)
    if k < half then seqElem w a i else seqElem w b i

def execVzip (g d a b : Fin 16) (x0 : Fin 4) (e f : Bool) (t : XTy) (s : State) : Host.Outcome State Fault Refusal :=
  s.syl (Instr.info s (.vzip g d a b x0 e f t)) fun s =>
    let w := XTy.width t
    s.putVec .v2 d (fromSeq w allLanes (s.readV d) (zipElem w x0.val (s.readV a) (s.readV b)), 0)

def execVidx (g d a b : Fin 16) (m : Fin 8) (e f : Bool) (s : State) : Host.Outcome State Fault Refusal :=
  s.syl (Instr.info s (.vidx g d a b m e f)) fun s =>
    let x := (s.readS a).toNat
    let y := (s.readS b).toNat
    s.move d m fun l => BitVec.ofNat 32 (x + l * y)

/-- The active lanes in increasing order. -/
def activeLanes (mask : Word) : List Nat := (List.range 64).filter fun l => mask.getLsbD l

def execVcompress (g d a : Fin 16) (m : Fin 8) (e : Bool) (t : KTy) (s : State) : Host.Outcome State Fault Refusal :=
  s.syl (Instr.info s (.vcompress g d a m e t)) fun s =>
    let x := s.readV a
    let ls := activeLanes (s.readM m)
    s.putVec .v2 d (gen 64 fun l => (ls[l]?.map fun i => at_ x i 0).getD 0, 0)

def execVexpand (g d a : Fin 16) (m : Fin 8) (e : Bool) (t : KTy) (s : State) : Host.Outcome State Fault Refusal :=
  s.syl (Instr.info s (.vexpand g d a m e t)) fun s =>
    let x := s.readV a
    let ls := activeLanes (s.readM m)
    s.move d m fun l => at_ x (ls.idxOf l) 0

/-- `vlut`: the byte table, or with t the table of 128 halves. -/
def execVlut (g d a b : Fin 16) (m : Fin 8) (e f t : Bool) (s : State) : Host.Outcome State Fault Refusal :=
  s.syl (Instr.info s (.vlut g d a b m e f t)) fun s =>
    let w := if t then 16 else 8
    let x := s.readV a
    let y := s.readV b
    s.moveElems w d m fun k => seqElem w y (seqElem w x k % elemCount w)

def execVrev (g d a : Fin 16) (m : Fin 8) (e : Bool) (t : XTy) (s : State) : Host.Outcome State Fault Refusal :=
  s.syl (Instr.info s (.vrev g d a m e t)) fun s =>
    let w := XTy.width t
    let x := s.readV a
    s.moveElems w d m fun k => seqElem w x (elemCount w - 1 - k)

def execVbcast (g d a b : Fin 16) (m : Fin 8) (e f : Bool) (t : XTy) (s : State) : Host.Outcome State Fault Refusal :=
  s.syl (Instr.info s (.vbcast g d a b m e f t)) fun s =>
    let w := XTy.width t
    let x := seqElem w (s.readV a) ((s.readS b).toNat % elemCount w)
    s.moveElems w d m fun _ => x

/-! ## Reductions, scans, dot products (R267, R268) -/

/-- A long-latency scalar result with flags. -/
def State.reduce (s : State) (d : Fin 16) (r : Word × FFlags) : State := (s.push .long (.s d) r.1).writeFlags .long r.2 0

def execVrsum (g d a : Fin 16) (m : Fin 8) (e : Bool) (t : XTy) (s : State) : Host.Outcome State Fault Refusal :=
  s.syl (Instr.info s (.vrsum g d a m e t)) fun s => s.reduce d (reduceSum t s.rounding (s.readM m) (s.readV a))

def execVrmax (g d a : Fin 16) (m : Fin 8) (e : Bool) (t : XTy) (s : State) : Host.Outcome State Fault Refusal :=
  s.syl (Instr.info s (.vrmax g d a m e t)) fun s => s.reduce d (reduceExtreme t true (s.readM m) (s.readV a))

def execVrmin (g d a : Fin 16) (m : Fin 8) (e : Bool) (t : XTy) (s : State) : Host.Outcome State Fault Refusal :=
  s.syl (Instr.info s (.vrmin g d a m e t)) fun s => s.reduce d (reduceExtreme t false (s.readM m) (s.readV a))

def execVrmaxi (g d a : Fin 16) (m : Fin 8) (e : Bool) (t : XTy) (s : State) : Host.Outcome State Fault Refusal :=
  s.syl (Instr.info s (.vrmaxi g d a m e t)) fun s =>
    s.push .long (.s d) (match greatestIndex t (s.readM m) (s.readV a) with
      | some i => word i
      | none => BitVec.allOnes 64)

def execVrpop (g d : Fin 16) (m : Fin 8) (s : State) : Host.Outcome State Fault Refusal :=
  s.syl (Instr.info s (.vrpop g d m)) fun s => s.push .v2 (.s d) (word (elemSetBits 64 (s.readM m).toNat))

def execVdot4 (g d a b : Fin 16) (m : Fin 8) (e f : Bool) (t : Dot4Ty) (s : State) : Host.Outcome State Fault Refusal :=
  s.syl (Instr.info s (.vdot4 g d a b m e f t)) fun s =>
    let x := s.readV a
    let y := s.readV b
    let z := s.readV d
    s.putVec .v4 d (mapLanes (s.readM m) z fun l => dotLane t s.rounding (at_ x l 0) (at_ y l 0) (at_ z l 0))

/-- The running sums of `vscan`: each active element's index with its sum. -/
def scanSums (t : XTy) (r : Rounding) (mask : Word) (v : VReg) : List (Nat × Nat) × FFlags :=
  let w := XTy.width t
  match XTy.fmt t with
  | some f => scanFrom (fun x => f.encode r (f.decode x)) (fpAdd f r) none (activeSeq w mask v)
  | none => scanFrom pure0 (fun x y => ((x + y) % 2 ^ w, 0)) none (activeSeq w mask v)

def execVscan (g d a : Fin 16) (m : Fin 8) (e : Bool) (t : XTy) (s : State) : Host.Outcome State Fault Refusal :=
  s.syl (Instr.info s (.vscan g d a m e t)) fun s =>
    let sums := scanSums t s.rounding (s.readM m) (s.readV a)
    s.putVec .v8 d (fromSeq (XTy.width t) (s.readM m) (s.readV d) (fun k => look 0 k sums.1), sums.2)

/-- `vhist`: every lane is updated whatever the mask. -/
def execVhist (g d a : Fin 16) (m : Fin 8) (e : Bool) (t : ITy) (s : State) : Host.Outcome State Fault Refusal :=
  s.syl (Instr.info s (.vhist g d a m e t)) fun s =>
    let w := ITy.width t
    let xs := (activeSeq w (s.readM m) (s.readV a)).map fun x => intOf w (ITy.isSigned t) x.2
    let old := s.readV d
    s.putVec .v4 d (gen 64 fun l => at_ old l 0 + BitVec.ofNat 32 (xs.filter fun x => x == (l : Int)).length, 0)

/-! ## The select unit (R269, R270) -/

/-- The candidates kept: the first k. -/
def State.topCandidates (s : State) (t : KTy) (a : Fin 16) (m : Fin 8) (k : Nat) : List (Nat × Int) :=
  (candidates t (s.readM m) (s.readV a)).take k

/-- Lane l receives candidate l's value; the others 0. -/
def State.selectValues (s : State) (d a : Fin 16) (cs : List (Nat × Int)) : State :=
  let x := s.readV a
  s.putVec .long d (gen 64 fun l => (cs[l]?.map fun c => at_ x c.1 0).getD 0, 0)

def execVtopk (g d a b : Fin 16) (m : Fin 8) (e f : Bool) (t : KTy) (s : State) : Host.Outcome State Fault Refusal :=
  s.syl (Instr.info s (.vtopk g d a b m e f t)) fun s =>
    s.selectValues d a (s.topCandidates t a m (Nat.min (s.readS b).toNat 64))

def execVtopkI (g d a b : Fin 16) (m : Fin 8) (e f : Bool) (t : KTy) (s : State) : Host.Outcome State Fault Refusal :=
  s.syl (Instr.info s (.vtopkI g d a b m e f t)) fun s =>
    let cs := s.topCandidates t a m (Nat.min (s.readS b).toNat 64)
    s.putVec .long d (gen 64 fun l => (cs[l]?.map fun c => BitVec.ofNat 32 c.1).getD 0xFFFFFFFF, 0)

def execVsort (g d a : Fin 16) (m : Fin 8) (e : Bool) (t : KTy) (s : State) : Host.Outcome State Fault Refusal :=
  s.syl (Instr.info s (.vsort g d a m e t)) fun s => s.selectValues d a (s.topCandidates t a m 64)

def execVrank (g d a : Fin 16) (m : Fin 8) (e : Bool) (t : KTy) (s : State) : Host.Outcome State Fault Refusal :=
  s.syl (Instr.info s (.vrank g d a m e t)) fun s =>
    let order := (candidates t (s.readM m) (s.readV a)).map Prod.fst
    s.putVec .long d (mapLanes (s.readM m) (s.readV d) fun l => (BitVec.ofNat 32 (order.idxOf l), 0))

/-! ## Conversions (R271, R272) -/

/-- A conversion to floats writes its result, its flags and the lane states. -/
def State.convert (s : State) (dst : Fmt) (sr : Bool) (d : Fin 16) (on : Nat → Bool) (src : Nat → Fp) : State :=
  let r := convertLanes dst s.rounding sr on src (s.readV d) s.cx.regs.lfsr
  (s.putVec .v4 d (r.1, r.2.1)).modRegs fun x => { x with lfsr := r.2.2 }

/-- A conversion to integers of w bits. -/
def State.convertInt (s : State) (f : Fmt) (sgn : Bool) (d a : Fin 16) (m : Fin 8) : State :=
  let w := f.width
  s.putVec .v4 d (mapLanes (s.readM m) (s.readV d)
    (lift1 w (fun x => Fp.toIntCode s.rounding w sgn (f.decode x)) (s.readV a)))

/-- `vcvt`: its eight conversions between types of one width. -/
def State.vcvt (s : State) (d a : Fin 16) (m : Fin 8) (t : Fin 8) : State :=
  let mask := s.readM m
  let v := s.readV a
  let ints := fun (w : Nat) (sgn : Bool) (k : Nat) => Fp.ofInt (intOf w sgn (seqElem w v k))
  match t with
  | 0 => s.convertInt Fmt.f32 true d a m
  | 1 => s.convert Fmt.f32 false d (activeElem 32 mask) (ints 32 true)
  | 2 => s.convertInt Fmt.f32 false d a m
  | 3 => s.convert Fmt.f32 false d (activeElem 32 mask) (ints 32 false)
  | 4 => s.convertInt Fmt.f16 true d a m
  | 5 => s.convert Fmt.f16 s.stochastic d (activeElem 16 mask) (ints 16 true)
  | 6 => s.convert Fmt.e5m2 false d (activeElem 8 mask) fun k => Fmt.e4m3.decode (seqElem 8 v k)
  | _ => s.convert Fmt.e4m3 false d (activeElem 8 mask) fun k => Fmt.e5m2.decode (seqElem 8 v k)

def execVcvt (g d a : Fin 16) (m : Fin 8) (e : Bool) (t : Fin 8) (s : State) : Host.Outcome State Fault Refusal :=
  s.syl (Instr.info s (.vcvt g d a m e t)) fun s => s.vcvt d a m t

/-- The formats of `vpack`. -/
def packFmts (t : Fin 8) : Fmt × Fmt :=
  match t with
  | 0 => (Fmt.f32, Fmt.bf16)
  | 1 => (Fmt.f32, Fmt.f16)
  | 2 => (Fmt.f32, Fmt.e4m3)
  | 3 => (Fmt.f32, Fmt.e5m2)
  | 4 => (Fmt.bf16, Fmt.e4m3)
  | 5 => (Fmt.bf16, Fmt.e5m2)
  | 6 => (Fmt.f16, Fmt.e4m3)
  | _ => (Fmt.f16, Fmt.e5m2)

/-- `vpack`: the quarter forms write elements 64h to 64h + 63, the pair forms the sequence va, vb. -/
def execVpack (g d a b : Fin 16) (m : Fin 8) (e f : Bool) (t : Fin 8) (s : State) : Host.Outcome State Fault Refusal :=
  s.syl (Instr.info s (.vpack g d a b m e f t)) fun s =>
    let (src, dst) := packFmts t
    let mask := s.readM m
    let x := s.readV a
    if quarter t then
      let h := b.val
      s.convert dst s.stochastic d (fun k => activeElem dst.width mask k && k / 64 == h) fun k => src.decode (seqElem 32 x (k % 64))
    else
      let y := s.readV b
      let n := elemCount src.width
      s.convert dst s.stochastic d (activeElem dst.width mask) fun k =>
        src.decode (if k < n then seqElem src.width x k else seqElem src.width y (k - n))

/-- `vunpk`: widening, exact. -/
def State.vunpk (s : State) (d a h : Fin 16) (m : Fin 8) (t : Fin 8) : State :=
  let v := s.readV a
  let fl := fun (src dst : Fmt) =>
    let n := elemCount dst.width
    s.putVec .v4 d (fromSeq dst.width (s.readM m) (s.readV d) fun k =>
      (fpConvert src dst Rounding.rne (seqElem src.width v (n * h.val + k))).1, 0)
  let int := fun (w : Nat) =>
    let n := elemCount (2 * w)
    s.putVec .v4 d (fromSeq (2 * w) (s.readM m) (s.readV d) fun k => codeOf (2 * w) (signed w (seqElem w v (n * h.val + k))), 0)
  match t with
  | 0 => fl Fmt.bf16 Fmt.f32
  | 1 => fl Fmt.f16 Fmt.f32
  | 2 => fl Fmt.e4m3 Fmt.f32
  | 3 => fl Fmt.e5m2 Fmt.f32
  | 4 => fl Fmt.e4m3 Fmt.bf16
  | 5 => fl Fmt.e5m2 Fmt.bf16
  | 6 => int 16
  | _ => int 8

def execVunpk (g d a h : Fin 16) (m : Fin 8) (e : Bool) (t : Fin 8) (s : State) : Host.Outcome State Fault Refusal :=
  s.syl (Instr.info s (.vunpk g d a h m e t)) fun s => s.vunpk d a h m t

/-- `vsrnd`: a seed of zero is stored as 1. A zero lane of the landing value leaves its lane's state alone. -/
def execVsrnd (g a : Fin 16) (m : Fin 8) (e : Bool) (s : State) : Host.Outcome State Fault Refusal :=
  s.syl (Instr.info s (.vsrnd g a m e)) fun s =>
    let x := s.readV a
    let mask := s.readM m
    s.write .v2 .lfsr (.vec (gen 64 fun l => if mask.getLsbD l then (if at_ x l 0 = 0 then 1 else at_ x l 0) else 0))

/-! ## The quantiser (R273, R274) -/

/-- Cause 0x2A: the group of sources or vd + 1 passes v15. -/
def groupPast (d a : Fin 16) (ctl : Word) : Bool := 15 < a.val + groupCount ctl - 1 || 15 < d.val + 1

/-- The lanes of the scale register: scale words, and the boundary bits in lane 16. -/
def scaleLanes (q : Quantised) : VReg :=
  let bits := q.starts.zipIdx.foldl (fun acc b => if b.1 then acc + 2 ^ b.2 else acc) 0
  gen 64 fun l => if l = 16 then BitVec.ofNat 32 bits else BitVec.ofNat 32 (q.scales.getD l 0 * 256)

/-- `vqnt`. The group that would end past v15, vd = 15 among such, is cause 0x2A with the checks of the source values: a false guard or an
empty source comes first (R207 names no step for it; DESIGN CHOICE, assumption 108). -/
def execVqnt (g d a b : Fin 16) (e f : Bool) (t : MxFmt) (s : State) : Host.Outcome State Fault Refusal :=
  s.syl (Instr.info s (.vqnt g d a b e f t)) fun s =>
    let ctl := s.readS b
    if groupPast d a ctl then s.illegalNow 0x2A
    else
      let xs := (List.range (groupCount ctl)).flatMap fun i => (s.readV (Fin.ofNat 16 (a.val + i))).toList.map BitVec.toNat
      let q := quantiseRow s.rounding s.stochastic (field ctl 0 4) (mxMax t) xs s.cx.regs.lfsr
      let bytes := (List.range (4 * groupCount ctl)).flatMap fun g =>
        bytesOf (mxGranule t) (packCodes (mxBits t) ((q.codes.drop (16 * g)).take 16))
      let s := (s.putVec .long d (vecOf bytes, q.flags)).write .long (.v (d + 1)) (.vec (scaleLanes q))
      s.modRegs fun r => { r with lfsr := q.lfsr }

/-- Element e of a register of codes. -/
def codeIn (t : MxFmt) (v : VReg) (e : Nat) : Int :=
  let gb := mxGranule t
  granuleCode (mxBits t) (ofBytes (((vecBytes v).drop (gb * (e / 16))).take gb)) (e % 16)

def execVdqnt (g d a b : Fin 16) (j : Fin 4) (e f : Bool) (t : MxFmt) (s : State) : Host.Outcome State Fault Refusal :=
  s.syl (Instr.info s (.vdqnt g d a b j e f t)) fun s =>
    let codes := s.readV a
    let scales := s.readV b
    let bit := fun i => (at_ scales 16 0).getLsbD i
    let start := fun l => blockStart bit ((64 * j.val + l) / 16)
    let r := mapLanes allLanes (s.readV d) fun l =>
      let y := Fmt.f32.finish s.rounding (scaled24 (codeIn t codes (64 * j.val + l)) ((at_ scales (start l).1 0).toNat / 256))
      (BitVec.ofNat 32 y.1, y.2)
    let fixed := (((List.range 64).map start).filter Prod.snd).eraseDups.length
    (s.write .v4 (.v d) (.vec r.1)).writeFlags .v4 r.2 fixed

/-! ## Masks (R279) -/

def State.setMask (s : State) (d : Fin 8) (x : Word) : State := s.write .v2 (.m d) (.word x)

def execMand (g : Fin 16) (d a b : Fin 8) (s : State) : Host.Outcome State Fault Refusal :=
  s.syl (Instr.info s (.mand g d a b)) fun s => s.setMask d (s.readM a &&& s.readM b)

def execMor (g : Fin 16) (d a b : Fin 8) (s : State) : Host.Outcome State Fault Refusal :=
  s.syl (Instr.info s (.mor g d a b)) fun s => s.setMask d (s.readM a ||| s.readM b)

def execMxor (g : Fin 16) (d a b : Fin 8) (s : State) : Host.Outcome State Fault Refusal :=
  s.syl (Instr.info s (.mxor g d a b)) fun s => s.setMask d (s.readM a ^^^ s.readM b)

def execMnot (g : Fin 16) (d a : Fin 8) (s : State) : Host.Outcome State Fault Refusal :=
  s.syl (Instr.info s (.mnot g d a)) fun s => s.setMask d (~~~ s.readM a)

def execMfirst (g : Fin 16) (d a : Fin 8) (s : State) : Host.Outcome State Fault Refusal :=
  s.syl (Instr.info s (.mfirst g d a)) fun s => s.setMask d (s.readM a &&& (0 - s.readM a))

def execMset (g : Fin 16) (d : Fin 8) (a : Fin 16) (e : Bool) (s : State) : Host.Outcome State Fault Refusal :=
  s.syl (Instr.info s (.mset g d a e)) fun s => s.setMask d (s.readS a)

def execMsetRd (g d : Fin 16) (a : Fin 8) (s : State) : Host.Outcome State Fault Refusal :=
  s.syl (Instr.info s (.msetRd g d a)) fun s => s.push .v2 (.s d) (s.readM a)

end Sys2Proof.Machine
end

