-- ==== Sys2Proof/Machine/VecMem.lean ====
section
/-! DEFINITION. Vector loads and stores (R276 to R278): ordinary accesses made by the active lanes. -/

namespace Sys2Proof.Machine

/-! ## The accesses of a vector -/

/-- One access of a vector: the first of the register's 256 bytes it concerns, its address and its length. -/
structure LaneAccess where
  pos : Nat
  ea : Word
  len : Nat
  deriving DecidableEq, Repr

/-- The pieces of the accesses; `pos` of a piece counts bytes of the register. The lowest lane that fails decides. -/
def State.resolveLanes (s : State) (x0 : Space) (k : Kind) : List LaneAccess → Except XErr (List Piece)
  | [] => .ok []
  | a :: as_ =>
    match s.resolve s.who x0 a.ea a.len k with
    | .error e => .error e
    | .ok ps =>
      match s.resolveLanes x0 k as_ with
      | .error e => .error e
      | .ok qs => .ok (ps.map (fun (p : Piece) => { p with pos := p.pos + a.pos }) ++ qs)

/-- The bytes of pieces, each with its place in the register. -/
def placeBytes (ps : List Piece) (bs : List Byte) : List (Nat × Byte) :=
  (ps.flatMap fun p => (List.range p.len).map (p.pos + ·)).zip bs

/-- A register with some of its bytes replaced. -/
def putBytesIn (old : VReg) (bs : List (Nat × Byte)) : VReg :=
  gen 64 fun l => BitVec.ofNat 32 (ofBytes ((List.range 4).map fun k =>
    look (BitVec.ofNat 8 ((at_ old l 0).toNat / 2 ^ (8 * k))) (4 * l + k) bs))

/-- A load by lanes: long-latency; what peers hold arrives with their replies. `spreadTo` gives the places of a byte of the access:
one for each lane that takes it. -/
def State.loadLanes (s : State) (d : Fin 16) (x0 : Space) (as_ : List LaneAccess) (spreadTo : Nat → List Nat) : State :=
  match s.resolveLanes x0 .read as_ with
  | .error e => s.stopAccess .read e
  | .ok ps =>
    let (l, s) := s.loadPieces true ps
    match l.poison with
    | some a => s.consume (s.eccTrap x0 a)
    | none =>
      let bs := (placeBytes ps l.bytes).flatMap fun b => (spreadTo b.1).map fun i => (i, b.2)
      let v : Val := .vec (putBytesIn (s.readV d) bs)
      if l.ask.isEmpty then s.write .long (.v d) v
      else if s.askWaits l.ask then s.blockBundle
      else
        let (tag, s) := s.fresh
        l.ask.foldl (fun s a =>
          s.ask s.cid .load a.1 a.2 0 tag ((a.1.places a.2 0).flatMap fun b => (spreadTo b.2).map fun i => (b.1, i)) 0 false)
          (s.await tag (.v d) v)

/-- A store by lanes, lower lanes first (R98). -/
def State.storeLanes (s : State) (v : VReg) (x0 : Space) (as_ : List LaneAccess) : State :=
  match s.resolveLanes x0 .write as_ with
  | .error e => s.stopAccess .write e
  | .ok ps =>
    let bs := vecBytes v
    if x0 = .u then s.performPieces (s.writer false) bs ps
    else
      match s.deferAll bs ps with
      | .ok u => u
      | .error t => s.trap t

/-- One word for each active lane, at an address that depends on the lane. -/
def wordLanes (mask : Word) (ea : Nat → Word) : List LaneAccess := (activeLanes mask).map fun l => ⟨4 * l, ea l, 4⟩

/-- Address of lane l in a gather or scatter. -/
def State.gatherAddr (s : State) (a b : Fin 16) (k : Bool) (l : Nat) : Word :=
  s.readS a + (at_ (s.readV b) l 0).setWidth 64 * (if k then 4 else 1)

/-! ## Address forms (R277) -/

def execVld (g d a b : Fin 16) (m : Fin 8) (e f : Bool) (x0 : Space) (s : State) : Host.Outcome State Fault Refusal :=
  s.syl (Instr.info s (.vld g d a b m e f x0)) fun s =>
    s.loadLanes d x0 (wordLanes (s.readM m) fun l => s.readS a + s.readS b + word (4 * l)) fun i => [i]

def execVst (g d a b : Fin 16) (m : Fin 8) (e f : Bool) (x0 : Space) (s : State) : Host.Outcome State Fault Refusal :=
  s.syl (Instr.info s (.vst g d a b m e f x0)) fun s =>
    s.storeLanes (s.readV d) x0 (wordLanes (s.readM m) fun l => s.readS a + s.readS b + word (4 * l))

/-- `vld.b`: one read for all active lanes; none when no lane is active. -/
def execVldB (g d a b : Fin 16) (m : Fin 8) (e f : Bool) (x0 : Space) (s : State) : Host.Outcome State Fault Refusal :=
  s.syl (Instr.info s (.vldB g d a b m e f x0)) fun s =>
    let ls := activeLanes (s.readM m)
    s.loadLanes d x0 (if ls.isEmpty then [] else [⟨0, s.readS a + s.readS b, 4⟩]) fun i => ls.map (4 * · + i)

def execVgat (g d a b : Fin 16) (m : Fin 8) (e f k : Bool) (x0 : Space) (s : State) : Host.Outcome State Fault Refusal :=
  s.syl (Instr.info s (.vgat g d a b m e f k x0)) fun s =>
    s.loadLanes d x0 (wordLanes (s.readM m) (s.gatherAddr a b k)) fun i => [i]

def execVsca (g d a b : Fin 16) (m : Fin 8) (e f k : Bool) (x0 : Space) (s : State) : Host.Outcome State Fault Refusal :=
  s.syl (Instr.info s (.vsca g d a b m e f k x0)) fun s =>
    s.storeLanes (s.readV d) x0 (wordLanes (s.readM m) (s.gatherAddr a b k))

/-! ## Handle forms (R278) -/

/-- The cause for which a handle's type or rank is not accepted. -/
def vectorHandleCause (d : Line) (col : Bool) : Option Nat :=
  if isMx (Desc.type d) || typeSize (Desc.type d) == 8 || typeSize (Desc.type d) == 0 || (col && Desc.rank d == 1) then some 0x0F
  else none

/-- Element m of the row or column that starts at (b, i, j). -/
def State.vectorElem (s : State) (h : Handle) (b i j : Nat) (col wr : Bool) (m : Nat) : Elem :=
  let es := Desc.exts h.desc
  if missingDim es b i then .bad 0x07 6
  else s.element s.who h (if col then batchCoords es b (i + m) j else batchCoords es b i (j + m)) wr

/-- What the active elements come to: a handle fault, a wait, or the accesses. -/
inductive Row where
  | bad (cause dim : Nat) | stop (e : XErr) | ask (p : Piece) | wait | at_ (l : List LaneAccess)
  deriving DecidableEq, Repr

def rowOf (n : Nat) : List (Nat × Elem) → Row
  | [] => .at_ []
  | (m, e) :: l =>
    match e, rowOf n l with
    | .bad c k, _ => .bad c k
    | _, .bad c k => .bad c k
    | .stop x, _ => .stop x
    | _, .stop x => .stop x
    | .ask p, _ => .ask p
    | _, .ask p => .ask p
    | .wait, _ => .wait
    | _, .wait => .wait
    | .at_ a, .at_ as_ => .at_ (⟨n * m, a, n⟩ :: as_)

/-- The checks of a handle form, and then its accesses. -/
def State.vectorRow (s : State) (k : Fin 16) (b : Fin 8) (mask : Word) (col wr : Bool)
    (go : State → List LaneAccess → State) : State :=
  let h := s.readH k
  match vectorHandleCause h.desc col with
  | some c => s.handleFault k 0 wr c
  | none =>
    let s := s.touchDone s.who h
    let n := typeSize (Desc.type h.desc)
    let at0 := s.readS (oddP b)
    let ms := (List.range (256 / n)).filter fun m => mask.getLsbD (m * n / 4)
    match rowOf n (ms.map fun m => (m, s.vectorElem h (s.readS (evenP b)).toNat (field at0 32 32) (field at0 0 32) col wr m)) with
    | .bad c dim => s.handleFault k dim wr c
    | .stop e => s.stopAccess .read e
    | .ask p => s.askDone p
    | .wait => s.blockBundle
    | .at_ l => go s l

def execVldT (g d h : Fin 16) (b m : Fin 8) (f c : Bool) (s : State) : Host.Outcome State Fault Refusal :=
  s.syl (Instr.info s (.vldT g d h b m f c)) fun s =>
    s.vectorRow h b (s.readM m) c false fun s l => s.loadLanes d .g l fun i => [i]

def execVstT (g d h : Fin 16) (b m : Fin 8) (f c : Bool) (s : State) : Host.Outcome State Fault Refusal :=
  s.syl (Instr.info s (.vstT g d h b m f c)) fun s =>
    s.vectorRow h b (s.readM m) c true fun s l => s.storeLanes (s.readV d) .g l

end Sys2Proof.Machine
end

