-- ==== Sys2Proof/Machine/Matrix.lean ====
section
/-! DEFINITION. The matrix engine (R282 to R313): planes and their checks, the sequencer's micro-ops, the operations that act on
planes in issue order, the M syllables, and the accumulator operations of class V (R280). -/

namespace Sys2Proof.Machine

/-! ## Parameters of a routine (R285) -/

def fmtWidth (c : Nat) : Nat := if c = 0 then 8 else if c = 1 then 6 else 4

/-- Widths of the A and B operands. -/
def widthA (a0 : Word) : Nat := fmtWidth (field a0 0 2)
def widthB (a0 : Word) : Nat := fmtWidth (field a0 2 2)

/-- k-steps that one MAC consumes. -/
def stepsPerMac (a0 : Word) : Nat := (if widthA a0 = 4 then 2 else 1) * (if widthB a0 = 4 then 2 else 1)

def planeSet (a0 : Word) : Nat := field a0 4 4
def firstPlane (a0 : Word) : Fin 4 := Fin.ofNat 4 (field a0 8 2)

def a0Valid (a0 : Word) : Bool :=
  field a0 10 6 == 0 && field a0 0 2 != 3 && field a0 2 2 != 3 && planeSet a0 != 0 && (planeSet a0).testBit (firstPlane a0).val

/-- The next higher member of PSET, wrapping round. -/
def nextPlane (a0 : Word) (p : Fin 4) : Fin 4 :=
  (([p + 1, p + 2, p + 3, p] : List (Fin 4)).find? fun q => (planeSet a0).testBit q.val).getD p

/-! ## Planes -/

def Matrix.plane (m : Matrix) (p : Fin 4) : IPlane := m.ia[p]

def Matrix.setPlane (m : Matrix) (p : Fin 4) (x : IPlane) : Matrix := { m with ia := m.ia.set p x }

/-- The plane is open for the routine. -/
def IPlane.accFor (x : IPlane) (r : Routine) : Bool := x.state == .acc && x.owner == r.op

/-- Adds one k-step (R293); a batched one keeps to the diagonal blocks (R294). -/
def IPlane.step (x : IPlane) (batched : Bool) (a b : Vector Int 64) : IPlane :=
  let same := fun (i j : Nat) => !batched || i / 16 == j / 16
  let exact := fun (i j : Nat) => (at_ (at_ x.e i (Vector.replicate 64 0)) j 0).toInt + at_ a i 0 * at_ b j 0
  let e : Vector VReg 64 := gen 64 fun i => gen 64 fun j =>
    if same i j then BitVec.ofInt 32 (exact i j) else at_ (at_ x.e i (Vector.replicate 64 0)) j 0
  let out := (List.range 64).any fun i => (List.range 64).any fun j =>
    same i j && (exact i j < -2 ^ 31 || 2 ^ 31 - 1 < exact i j)
  let sumA := fun j => (List.range 64).foldl (fun acc i => if same i j then acc + at_ a i 0 else acc) (0 : Int)
  let sumB := fun i => (List.range 64).foldl (fun acc j => if same i j then acc + at_ b j 0 else acc) (0 : Int)
  { x with e := e, sat := x.sat || out, chk := false,
           crow := gen 64 fun j => at_ x.crow j 0 + BitVec.ofInt 32 (sumA j * at_ b j 0),
           ccol := gen 64 fun i => at_ x.ccol i 0 + BitVec.ofInt 32 (at_ a i 0 * sumB i) }

/-- The sums that a check compares with CCOL and CROW: of every row, of every column. -/
def IPlane.rowSums (x : IPlane) : VReg := x.e.map fun row => row.foldl (· + ·) 0

def IPlane.colSums (x : IPlane) : VReg := x.e.foldl (fun acc row => gen 64 fun j => at_ acc j 0 + at_ row j 0) (Vector.replicate 64 0)

/-- How a check ended (R297). -/
inductive Checked where
  | ok | fixed (i j : Nat) | bad
  deriving DecidableEq, Repr

/-- The check with given sums. -/
def IPlane.check (x : IPlane) (rowSum colSum : VReg) : Checked × IPlane :=
  let dr := (List.range 64).filterMap fun i => let d := at_ x.ccol i 0 - at_ rowSum i 0; if d = 0 then none else some (i, d)
  let dc := (List.range 64).filterMap fun j => let d := at_ x.crow j 0 - at_ colSum j 0; if d = 0 then none else some (j, d)
  match dr, dc with
  | [], [] => (.ok, { x with chk := true })
  | [(i, d)], [(j, d')] =>
    if d = d' then
      let row := at_ x.e i (Vector.replicate 64 0)
      let row' : VReg := gen 64 fun k => if k = j then at_ row k 0 + d else at_ row k 0
      (.fixed i j, { x with chk := true, e := gen 64 fun k => if k = i then row' else at_ x.e k (Vector.replicate 64 0) })
    else (.bad, { x with state := .bad })
  | _, _ => (.bad, { x with state := .bad })

/-- MXERR counts the outcome (R284). -/
def Matrix.countCheck (m : Matrix) (c : Checked) : Matrix :=
  match c with
  | .ok => m
  | .fixed _ _ => { m with mxerr := setField m.mxerr 32 32 (satAdd 32 (field m.mxerr 32 32) 1) }
  | .bad => { m with mxerr := setField m.mxerr 16 16 (satAdd 16 (field m.mxerr 16 16) 1) }

/-- Checks plane p with its own sums, unless CHK is 1. -/
def Matrix.checkPlane (m : Matrix) (p : Fin 4) : Checked × Matrix :=
  let x := m.plane p
  if x.chk then (.ok, m)
  else
    let (c, x) := x.check x.rowSums x.colSums
    (c, (m.setPlane p x).countCheck c)

/-! ## Recording (R302, R313, R415) -/

def Matrix.opPc (m : Matrix) (id : Nat) : Word := ((m.ops.find? (·.id == id)).map (·.pc)).getD 0

/-- An illegal-syllable fault recorded against an operation. -/
def Matrix.causeOf (m : Matrix) (id cause : Nat) : Trap := ⟨0x01, m.opPc id, bundleInfo 0 5 false cause⟩

/-- A checksum failure of an integer plane. -/
def checkTrap (p : Fin 4) : Trap := ⟨0x0E, 0, rollbackInfo 0 p.val 5⟩

/-- Records a fault; an operation keeps its first. -/
def Matrix.record (m : Matrix) (id : Nat) (t : Trap) : Matrix :=
  { m with ops := m.ops.map fun (o : MOp) => if o.id = id then { o with fault := o.fault.or (some t) } else o }

/-- An operation is complete. -/
def Matrix.complete (m : Matrix) (id : Nat) : Matrix :=
  { m with ops := m.ops.map fun (o : MOp) => if o.id = id then { o with complete := true } else o }

/-- Complete operations that nothing joins leave the list: results without a fault, and those of no context. -/
def Matrix.tidy (m : Matrix) : Matrix :=
  { m with ops := m.ops.filter fun o => !o.complete || (o.ctx != noCtx && o.joins) }

/-! ## The segment log (R309) -/

def logRecord (post : Bool) (plane : Nat) (seq kstart len : Nat) : Word :=
  fieldsWord [(63, 1, post.toNat), (56, 2, plane), (40, 16, seq), (16, 24, kstart), (0, 16, len)]

/-- Appends a record; of 16 the oldest is dropped. -/
def Matrix.append (m : Matrix) (x : Word) : Matrix :=
  if 16 ≤ m.log.length then { m with log := m.log.drop 1 ++ [x], logovf := true } else { m with log := m.log ++ [x] }

/-- Records go to the pending `mq.st`s in issue order: at most n of them. -/
def State.serveLog (s : State) : Nat → State
  | 0 => s
  | n + 1 =>
    let m := s.core.mx
    match m.log, m.ops.find? fun o => o.kind == .logRd with
    | x :: l, some o =>
      let s := s.deliver o.ctx o.id fun _ => .word x
      ({ s with core := { s.core with mx := { m with log := l, ops := m.ops.filter (·.id != o.id) } } }).serveLog n
    | _, _ => s

/-! ## Operand queues (R286, R287) -/

def QItem.isMark : QItem → Bool
  | .mark _ _ => true
  | .data _ _ => false

def markHead (q : List QItem) : Bool :=
  match q with
  | x :: _ => x.isMark
  | [] => false

def dataHead (q : List QItem) : Bool :=
  match q with
  | x :: _ => !x.isMark
  | [] => false

/-- What a pull of n finds: the DATA items it takes, and whether it is complete: n items, or a MARK at the head. -/
def pullRun (n : Nat) (q : List QItem) : Nat × Bool :=
  let d := (q.takeWhile fun x => !x.isMark).length
  if n ≤ d then (n, true) else (d, d < q.length)

/-- The first poison among items: where it came from. -/
def itemPoison (l : List QItem) : Option (Space × Word) :=
  l.findSome? fun x => match x with
    | .data _ p => p
    | .mark _ _ => none

/-- The 64 elements of an item as values of width w. -/
def QItem.values (w : Nat) : QItem → Vector Int 64
  | .data x _ => x.map fun b => signed w b.toNat
  | .mark _ _ => Vector.replicate 64 0

def QItem.scales : QItem → Vector (BitVec 24) 64
  | .mark x _ => x
  | .data _ _ => Vector.replicate 64 0

/-- The corrected blocks a marker's scales come from (R185). -/
def QItem.corrected : QItem → Nat
  | .mark _ n => n
  | .data _ _ => 0

/-! ## Micro-ops -/

/-- How a micro-op ends: it goes on at a microword, waits, stops the routine with a recorded fault, or ends it. -/
inductive MicroEnd where
  | go (m : Matrix) (r : Routine) (next : Nat) | stall (m : Matrix) (r : Routine) | stop (m : Matrix) (t : Trap) | fin (m : Matrix)

/-- The routine has ended: its operation is complete, both stages are empty. -/
def Matrix.endRun (m : Matrix) (r : Routine) : Matrix :=
  (({ m with routine := none, aStage := [], bStage := [] }).complete r.op).tidy

/-- A recorded fault stops the routine; its planes stay as they are (R292). -/
def Matrix.stopRun (m : Matrix) (r : Routine) (t : Trap) : Matrix := (m.record r.op t).endRun r

/-- A micro-op of the core's running routine. -/
def State.micro (s : State) (f : Matrix → Routine → MicroEnd) : Host.Outcome State Fault Refusal :=
  let s := { s with evt := .done }
  let put := fun (s : State) (m : Matrix) => ({ s with core := { s.core with mx := m } }).serveLog m.ops.length
  match s.core.mx.routine with
  | none => .next s
  | some r =>
    match f { s.core.mx with gov := s.govAt s.gcore } r with
    | .go m r n => .next (put s { m with routine := some { r with addr := n } })
    | .stall m r => .next (put { s with evt := .stall } { m with routine := some r })
    | .stop m t => .next (put s (m.stopRun r t))
    | .fin m => .next (put s (m.endRun r))

/-- Half-row mode is in force (R298). -/
def Matrix.half (m : Matrix) : Bool := m.gov || m.sw

/-- The condition holds (R290). -/
def condHolds (m : Matrix) (r : Routine) : Cond → Bool
  | .always => true
  | .c0z => r.c[0] == 0
  | .c1z => r.c[1] == 0
  | .c2z => r.c[2] == 0
  | .c3z => r.c[3] == 0
  | .aempty => m.aq.isEmpty
  | .bempty => m.bq.isEmpty
  | .seg => markHead m.aq || markHead m.bq
  | .busy =>
    let p := match r.plane with
      | some p => nextPlane r.params[0] p
      | none => firstPlane r.params[0]
    (m.plane p).state != .idle
  | .ckmis => r.ckmis
  | .half => m.half

/-- The micro-op is done; the condition chooses the next word. -/
def goOn (n : MNext) (m : Matrix) (r : Routine) : MicroEnd := .go m r (if condHolds m r n.cond then n.nt.val else n.nf.val)

/-- Quarter h of parameter register k. -/
def Routine.quarter (r : Routine) (k : Fin 8) (h : Fin 4) : BitVec 16 := (r.params[k] >>> (16 * h.val)).setWidth 16

/-! ### Cuts and seals (R283, R293) -/

/-- The current plane has accumulated k-steps since it was opened. -/
def Routine.accumulated (r : Routine) : Bool := r.kstart < r.kcount

/-- Seals the routine's plane; a BAD plane stays BAD. -/
def sealPlane (m : Matrix) (r : Routine) (p : Fin 4) : Matrix × Routine :=
  let len := r.kcount - r.kstart
  let x := m.plane p
  let x := { x with state := (if x.state = .bad then .bad else .isSealed), sealRec := some ⟨r.op, r.seq, r.kstart, len⟩ }
  ((m.setPlane p x).append (logRecord false p.val r.seq r.kstart len), { r with seq := r.seq + 1, kstart := r.kcount })

/-- The planes an operation names, ia0 to ia3 and fa0 to fa3, and those of them it writes (R283). -/
def MKind.names : MKind → BitVec 8
  | .routine _ _ => 0
  | .scale f i => (1#8 <<< i.val) ||| (16#8 <<< f.val)
  | .fix f i _ => (1#8 <<< i.val) ||| (16#8 <<< f.val)
  | .drain i => 1#8 <<< i.val
  | .clr ia fa => ia.setWidth 8 ||| (fa.setWidth 8 <<< 4)
  | .mov d s => (1#8 <<< d.val) ||| (1#8 <<< s.val)
  | .accRd n _ _ _ => 1#8 <<< n.val
  | .chk i => 1#8 <<< i.val
  | .logRd => 0

def MKind.writes : MKind → BitVec 8
  | .mov d _ => 1#8 <<< d.val
  | .accRd _ _ _ _ => 0
  | .chk _ => 0
  | k => k.names

def MKind.isRoutine : MKind → Bool
  | .routine _ _ => true
  | _ => false

/-- Operations issued before operation id that are not complete. -/
def Matrix.earlier (m : Matrix) (id : Nat) : List MOp := m.ops.filter fun o => o.id < id && !o.complete

/-- No earlier operation other than a routine names one of the planes. -/
def Matrix.clearOf (m : Matrix) (id : Nat) (planes : BitVec 8) : Bool :=
  !(m.earlier id).any fun o => (o.kind.names &&& planes) != 0

/-- Opens a plane for the routine with the scales of the MARKs at the heads. -/
def openPlane (m : Matrix) (r : Routine) (p : Fin 4) : Matrix × Routine :=
  let scales := fun (q : List QItem) => ((q.head?).map QItem.scales).getD (Vector.replicate 64 0)
  let fixed := fun (q : List QItem) => ((q.head?).map QItem.corrected).getD 0
  let x := { IPlane.reset with scaleA := scales m.aq, scaleB := scales m.bq, fixed := fixed m.aq + fixed m.bq, state := .acc,
                               owner := r.op, ctx := r.ctx }
  ({ m.setPlane p x with aq := m.aq.drop 1, bq := m.bq.drop 1 }, { r with plane := some p, kstart := r.kcount })

/-- A cut: MARKs stand at the heads of both queues. It waits for the plane to be IDLE, and for the operations on it that were issued
before the routine. -/
def cut_ (m : Matrix) (r : Routine) (after : Matrix → Routine → MicroEnd) : MicroEnd :=
  let (m, r) := match r.plane with
    | some p =>
      if r.accumulated then
        let (m, r) := sealPlane m r p
        (m, { r with plane := some (nextPlane r.params[0] p) })
      else (m, r)
    | none => (m, { r with plane := some (firstPlane r.params[0]) })
  let p := r.plane.getD 0
  if (m.plane p).accFor r || ((m.plane p).state == .idle && m.clearOf r.op (1#8 <<< p.val)) then
    let (m, r) := openPlane m r p
    after m r
  else .stall m r

/-! ### Pulls and MAC -/

/-- The fault of a poisoned item (R49, R415). -/
def poisonTrap (p : Space × Word) : Trap := ⟨0x0F, p.2, rollbackInfo p.1.code 0 5⟩

/-- Adds the staged k-steps to the current plane. -/
def addSteps (m : Matrix) (r : Routine) (p : Fin 4) (batched : Bool) : Matrix × Routine :=
  let wa := widthA r.params[0]
  let wb := widthB r.params[0]
  (m.aStage.zip m.bStage).foldl (fun (acc : Matrix × Routine) ab =>
    let x := (acc.1.plane p).step batched (ab.1.values wa) (ab.2.values wb)
    let k := acc.2.kcount + 1
    let x := if k % 16 = 0 then { x with granule := x.e } else x
    (acc.1.setPlane p x, { acc.2 with kcount := k })) (m, r)

/-- MAC and MACB (R293, R294). -/
def macOp (batched : Bool) (n : MNext) (x : MacArg) (m : Matrix) (r : Routine) : MicroEnd :=
  if x.ac && markHead m.aq && markHead m.bq then cut_ m r (goOn n)
  else
    match r.plane with
    | none => .stop m (m.causeOf r.op 0x33)
    | some p =>
      if !(m.plane p).accFor r then .stop m (m.causeOf r.op 0x33)
      else
        let g := stepsPerMac r.params[0]
        let (na, fa) := if x.keepA then (m.aStage.length, true) else pullRun g m.aq
        let (nb, fb) := if x.keepB then (m.bStage.length, true) else pullRun g m.bq
        if (fa && na < nb) || (fb && nb < na) then .stop m (m.causeOf r.op 0x33)
        else if !fa || !fb then .stall m r
        else
          let m := if x.keepA then m else { m with aStage := m.aq.take na, aq := m.aq.drop na }
          let m := if x.keepB then m else { m with bStage := m.bq.take nb, bq := m.bq.drop nb }
          match (if x.keepA then none else itemPoison m.aStage).or (if x.keepB then none else itemPoison m.bStage) with
          | some a => .stop m (poisonTrap a)
          | none =>
            let (m, r) := addSteps m r p (batched || r.batched)
            let r := if x.cnt then { r with c := r.c.set 0 (BitVec.ofNat 16 (r.c[0].toNat - na)) } else r
            goOn n m r

/-- PULLA and PULLB. -/
def pullOp (b : Bool) (n : MNext) (m : Matrix) (r : Routine) : MicroEnd :=
  let q := if b then m.bq else m.aq
  let (k, full) := pullRun (stepsPerMac r.params[0]) q
  if !full then .stall m r
  else
    let m := if b then { m with bStage := q.take k, bq := q.drop k } else { m with aStage := q.take k, aq := q.drop k }
    match itemPoison (q.take k) with
    | some a => .stop m (poisonTrap a)
    | none => goOn n m r

/-! ### The sixteen micro-ops (R291) -/

def execNop (n : MNext) (s : State) : Host.Outcome State Fault Refusal := s.micro (goOn n)

def execLdc (n : MNext) (c : Fin 4) (v : LdcArg) (s : State) : Host.Outcome State Fault Refusal :=
  s.micro fun m r =>
    let x := match v with
      | .imm x => x
      | .areg k h => r.quarter k h
    goOn n m { r with c := r.c.set c x }

def execDecc (n : MNext) (c : Fin 4) (s : State) : Host.Outcome State Fault Refusal :=
  s.micro fun m r => goOn n m { r with c := r.c.set c (if r.c[c] = 0 then 0 else r.c[c] - 1) }

def execJmp (nt : Fin 4096) (k : Fin 8) (s : State) : Host.Outcome State Fault Refusal :=
  s.micro fun m r => .go m r ((nt.val + field r.params[k] 0 12) % 4096)

def execJcnd (nt nf : Fin 4096) (k : Fin 8) (b : Fin 64) (s : State) : Host.Outcome State Fault Refusal :=
  s.micro fun m r => .go m r (if flag r.params[k] b.val then nt.val else nf.val)

def execPulla (n : MNext) (s : State) : Host.Outcome State Fault Refusal := s.micro (pullOp false n)

def execPullb (n : MNext) (s : State) : Host.Outcome State Fault Refusal := s.micro (pullOp true n)

def execMac (n : MNext) (x : MacArg) (s : State) : Host.Outcome State Fault Refusal := s.micro (macOp false n x)

def execMacb (n : MNext) (x : MacArg) (s : State) : Host.Outcome State Fault Refusal := s.micro (macOp true n x)

/-- SEGCUT waits for items; DATA at a head is out of step. -/
def execSegcut (n : MNext) (s : State) : Host.Outcome State Fault Refusal :=
  s.micro fun m r =>
    if dataHead m.aq || dataHead m.bq then .stop m (m.causeOf r.op 0x33)
    else if m.aq.isEmpty || m.bq.isEmpty then .stall m r
    else cut_ m r (goOn n)

def execCkacc (n : MNext) (s : State) : Host.Outcome State Fault Refusal :=
  s.micro fun m r =>
    match r.plane with
    | some p => goOn n m { r with rowSum := (m.plane p).rowSums, colSum := (m.plane p).colSums }
    | none => goOn n m r

/-- CKCMP: the check of the current plane; a failure is recorded and the routine goes on. -/
def execCkcmp (n : MNext) (s : State) : Host.Outcome State Fault Refusal :=
  s.micro fun m r =>
    match r.plane with
    | none => goOn n m { r with ckmis := false }
    | some p =>
      if (m.plane p).chk then goOn n m { r with ckmis := false }
      else
        let (c, x) := (m.plane p).check r.rowSum r.colSum
        let m := (m.setPlane p x).countCheck c
        let m := if c = .bad then m.record r.op (checkTrap p) else m
        goOn n m { r with ckmis := c == .bad }

/-- `POSTP`: a record of the segment log. Without a current plane its PLANE is 0 (R309 states it only of a current plane; DESIGN CHOICE,
assumption 110). -/
def execPostp (n : MNext) (tag : BitVec 16) (s : State) : Host.Outcome State Fault Refusal :=
  s.micro fun m r => goOn n (m.append (logRecord true (r.plane.getD 0).val r.seq r.kcount tag.toNat)) r

/-- HALFP: every pass is complete when the next micro-op begins. -/
def execHalfp (n : MNext) (s : State) : Host.Outcome State Fault Refusal := s.micro (goOn n)

def execWaitq (n : MNext) (a b : Bool) (k : Fin 8) (s : State) : Host.Outcome State Fault Refusal :=
  s.micro fun m r =>
    let ok := fun (q : List QItem) => k.val ≤ (q.filter fun x => !x.isMark).length || markHead q
    if (!a || ok m.aq) && (!b || ok m.bq) then goOn n m r else .stall m r

/-- END: a plane with k-steps is sealed, one without returns to IDLE. -/
def execEndRoutine (s : State) : Host.Outcome State Fault Refusal :=
  s.micro fun m r =>
    match r.plane with
    | none => .fin m
    | some p =>
      if r.accumulated then .fin (sealPlane m r p).1
      else if (m.plane p).accFor r then .fin (m.setPlane p (m.plane p).cleared)
      else .fin m

/-- An invalid microword (R292). -/
def State.badMicroword (s : State) : Host.Outcome State Fault Refusal := s.micro fun m r => .stop m (m.causeOf r.op 0x35)

/-! ## Operations on planes (R283, R300, R303 to R306) -/

/-- An integer plane is not in use by a routine or a seal. -/
def Matrix.idleIa (m : Matrix) (p : Fin 4) : Bool := (m.plane p).state == .idle

/-- A plane code is not busy for operation id. -/
def Matrix.notBusy (m : Matrix) (id : Nat) (n : Fin 8) : Bool :=
  (4 ≤ n.val || m.idleIa (Fin.ofNat 4 n.val)) && !(m.earlier id).any fun o => (o.kind.writes &&& (1#8 <<< n.val)) != 0

/-- The operation's target seal exists, or no routine issued before it is running or queued (R304). -/
def Matrix.target (m : Matrix) (id : Nat) (p : Fin 4) : Bool :=
  let x := m.plane p
  let here := (x.state == .isSealed || x.state == .bad) && (match x.sealRec with
    | some z => z.op < id
    | none => false)
  here || !(m.earlier id).any (·.kind.isRoutine)

/-- The operation can be performed now. -/
def Matrix.ready (m : Matrix) (o : MOp) : Bool :=
  let clear := m.clearOf o.id o.kind.names
  match o.kind with
  | .routine _ _ => m.routine.isNone && !(m.earlier o.id).any (·.kind.isRoutine)
  | .scale _ i => m.target o.id i && clear
  | .fix _ i _ => m.target o.id i && clear
  | .drain i => m.target o.id i && clear
  | .clr ia _ => clear && (List.finRange 4).all fun p => !ia.getLsbD p.val || (m.plane p).state != .acc
  | .mov d x => d == x || (m.notBusy o.id d && m.notBusy o.id x && clear)
  | .accRd n _ _ _ => m.notBusy o.id n
  | .chk i => clear && (m.plane i).state != .acc
  | .logRd => false

/-- The first operation that can be performed among those a test names. -/
def Matrix.pick (m : Matrix) (p : MKind → Bool) : Option MOp := m.ops.find? fun o => p o.kind && !o.complete && m.ready o

/-- A plane sealed by the same routine before, and not yet folded, drained or cleared. -/
def Matrix.olderSeal (m : Matrix) (p : Fin 4) : Bool :=
  match (m.plane p).sealRec with
  | some z => (List.finRange 4).any fun q =>
      q != p && ((m.plane q).state == .isSealed || (m.plane q).state == .bad) && (match (m.plane q).sealRec with
        | some y => y.op == z.op && y.seq < z.seq
        | none => false)
  | none => false

/-- `mscale_element` (R187) and its counterpart for `mfix`. -/
def scaleElem (rm : BitVec 2) (c : Nat) (q : Int) (sa sb : Nat) : Nat × FFlags :=
  let r : Rounding := ⟨rm, false⟩
  nanOr .f32 [c] <|
    let k := (s24Value sa).mul (s24Value sb)
    let x := (Fp.ofInt q).mul k.1
    let y := (Fmt.f32.decode c).add r x.1
    Fmt.f32.finish r (y.1, k.2 ||| x.2 ||| y.2)

def fixElem (rm : BitVec 2) (c : Nat) (q e : Int) : Nat × FFlags :=
  let r : Rounding := ⟨rm, false⟩
  nanOr .f32 [c] <| Fmt.f32.finish r ((Fmt.f32.decode c).add r (.fin (q < 0) q.natAbs e))

/-- A plane of FP32 values from a function of the index, and the flags of all. -/
def foldPlane (f : Nat → Nat → Nat × FFlags) : Vector VReg 64 × FFlags :=
  let t : Vector (Vector (Nat × FFlags) 64) 64 := gen 64 fun i => gen 64 fun j => f i j
  (t.map fun row => row.map fun x => BitVec.ofNat 32 x.1,
   t.foldl (fun acc row => row.foldl (fun acc x => acc ||| x.2) acc) 0)

def planeElem (e : Vector VReg 64) (i j : Nat) : Word32 := at_ (at_ e i (Vector.replicate 64 0)) j 0

/-- Element of plane f after the fold of plane p. -/
def foldElem (o : MOp) (c : Vector VReg 64) (x : IPlane) (i j : Nat) : Nat × FFlags :=
  let q := (planeElem x.e i j).toInt
  let old := (planeElem c i j).toNat
  match o.kind with
  | .fix _ _ e => fixElem o.rm old q e.toInt
  | _ => scaleElem o.rm old q (at_ x.scaleA i 0).toNat (at_ x.scaleB j 0).toNat

/-- `scale` (R303): the matrix after it, the flags, and the recorded fault. -/
def Matrix.scale (m : Matrix) (o : MOp) (f p : Fin 4) : Matrix × FFlags × Option Trap :=
  match (m.plane p).state with
  | .idle => (m, 0, some (m.causeOf o.id 0x32))
  | .acc => (m, 0, some (m.causeOf o.id 0x32))
  | .bad => (m, 0, some (checkTrap p))
  | .isSealed =>
    if m.olderSeal p then (m, 0, some (m.causeOf o.id 0x30))
    else
      match m.checkPlane p with
      | (.bad, m) => (m, 0, some (checkTrap p))
      | (_, m) =>
        let (c, fl) := foldPlane (foldElem o m.fa[f] (m.plane p))
        ({ m.setPlane p (m.plane p).cleared with fa := m.fa.set f c }, fl, none)

/-- `mdrain` (R305). -/
def Matrix.drain (m : Matrix) (p : Fin 4) : Matrix × Option Trap :=
  match (m.plane p).state with
  | .bad => (m, some (checkTrap p))
  | .isSealed =>
    match m.checkPlane p with
    | (.bad, m) => (m, some (checkTrap p))
    | (_, m) => (m.setPlane p { m.plane p with state := .idle, sealRec := none }, none)
  | _ => (m, none)

/-- `mclr` (R306). -/
def Matrix.clr (m : Matrix) (ia fa : BitVec 4) : Matrix :=
  { m with ia := gen 4 fun i => let x := at_ m.ia i IPlane.reset; if ia.getLsbD i then x.cleared else x,
           fa := gen 4 fun i =>
             if fa.getLsbD i then Vector.replicate 64 (Vector.replicate 64 0)
             else at_ m.fa i (Vector.replicate 64 (Vector.replicate 64 0)) }

/-- `mmov` (R306). -/
def Matrix.mov (m : Matrix) (d x : Fin 8) : Matrix :=
  let p : Fin 4 := Fin.ofNat 4 d.val
  let q : Fin 4 := Fin.ofNat 4 x.val
  if d = x then m
  else if d.val < 4 then
    let y := m.plane q
    m.setPlane p { IPlane.reset with e := y.e, crow := y.crow, ccol := y.ccol, sat := y.sat, chk := y.chk }
  else { m with fa := m.fa.set p m.fa[q] }

/-- An operation is complete, with the fault it records. -/
def Matrix.close (m : Matrix) (o : MOp) (t : Option Trap) : Matrix :=
  let m := match t with
    | some t => m.record o.id t
    | none => m
  (m.complete o.id).tidy

/-- Performs, on core g, the first operation that can be among those a test names. -/
def State.perform_ (s : State) (g : Nat) (p : MKind → Bool) (f : State → MOp → State) : Host.Outcome State Fault Refusal :=
  s.event fun s =>
    match (s.coreAt g).mx.pick p with
    | some o => s.inCtx (4 * g) fun s => f s o
    | none => s

def State.setMx (s : State) (m : Matrix) : State := { s with core := { s.core with mx := m } }

/-- The flags of an operation go to the FPMODE of its context. -/
def State.flagOp (s : State) (o : MOp) (fl : FFlags) : State :=
  if fl = 0 ∨ noCtx ≤ o.ctx then s
  else s.modCtx o.ctx fun x => { x with regs := { x.regs with fpmode := raiseFlags x.regs.fpmode fl 0 } }

/-- A queued routine starts: counters clear, no current plane (R301). -/
def execRoutineStart (g : Nat) (s : State) : Host.Outcome State Fault Refusal :=
  s.perform_ g MKind.isRoutine fun s o =>
    match o.kind with
    | .routine k b =>
      let z : VReg := Vector.replicate 64 0
      let r : Routine := ⟨o.id, o.ctx, k, b, o.params, Vector.replicate 4 0, look 0 k s.core.mx.table, none, 0, 0, 0, false, z, z⟩
      s.setMx { s.core.mx with routine := some r }
    | _ => s

/-- The corrections of R183 among the blocks whose scales an `mscale` reads (R185); `mfix` reads none. -/
def Matrix.corrections (m : Matrix) (k : MKind) : Nat :=
  match k with
  | .scale _ p => (m.plane p).fixed
  | _ => 0

/-- Notes the format warnings of an operation: its join counts them in the joining context (R185). -/
def Matrix.warn (m : Matrix) (id n : Nat) : Matrix :=
  { m with ops := m.ops.map fun (o : MOp) => if o.id = id then { o with warnings := n } else o }

def execScalePerform (g : Nat) (s : State) : Host.Outcome State Fault Refusal :=
  s.perform_ g (fun k => match k with | .scale _ _ | .fix _ _ _ => true | _ => false) fun s o =>
    let run := fun (f p : Fin 4) =>
      let n := s.core.mx.corrections o.kind
      let (m, fl, t) := s.core.mx.scale o f p
      (s.setMx ((if t.isNone then m.warn o.id n else m).close o t)).flagOp o fl
    match o.kind with
    | .scale f p => run f p
    | .fix f p _ => run f p
    | _ => s

def execMdrainPerform (g : Nat) (s : State) : Host.Outcome State Fault Refusal :=
  s.perform_ g (fun k => match k with | .drain _ => true | _ => false) fun s o =>
    match o.kind with
    | .drain p => let (m, t) := s.core.mx.drain p; s.setMx (m.close o t)
    | _ => s

def execMclrPerform (g : Nat) (s : State) : Host.Outcome State Fault Refusal :=
  s.perform_ g (fun k => match k with | .clr _ _ => true | _ => false) fun s o =>
    match o.kind with
    | .clr ia fa => s.setMx ((s.core.mx.clr ia fa).close o none)
    | _ => s

def execMmovPerform (g : Nat) (s : State) : Host.Outcome State Fault Refusal :=
  s.perform_ g (fun k => match k with | .mov _ _ => true | _ => false) fun s o =>
    match o.kind with
    | .mov d x => s.setMx ((s.core.mx.mov d x).close o none)
    | _ => s

/-! ## Accumulator rows (R280) -/

/-- Lane l of a row or column. -/
def rowElem (e : Vector VReg 64) (index : Nat) (col : Bool) (l : Nat) : Word32 :=
  if col then planeElem e l index else planeElem e index l

/-- The elements of a plane code. -/
def Matrix.elems (m : Matrix) (n : Fin 8) : Vector VReg 64 :=
  if n.val < 4 then (m.plane (Fin.ofNat 4 n.val)).e else m.fa[(Fin.ofNat 4 n.val : Fin 4)]

/-- What `vacc.pk` sees of a plane (R280). Of an unfinished accumulation it is one snapshot for all elements: the sums over the latest whole
granules of 16 steps, and of an fa plane every fold that is done (DESIGN CHOICE, assumption 109: R280 leaves the prefixes open). -/
def Matrix.peek (m : Matrix) (n : Fin 8) : Vector VReg 64 :=
  if n.val < 4 ∧ (m.plane (Fin.ofNat 4 n.val)).state = .acc then (m.plane (Fin.ofNat 4 n.val)).granule else m.elems n

/-- The active lanes of a register taken from a row. -/
def mergeRow (e : Vector VReg 64) (index : Nat) (col : Bool) (mask : Word) (old : VReg) : VReg :=
  gen 64 fun l => if mask.getLsbD l then rowElem e index col l else at_ old l 0

/-- The status of `mchk` (R305). -/
def checkStatus (x : IPlane) (c : Checked) : Word :=
  let bad := x.state == .bad
  match c with
  | .fixed i j => fieldsWord [(16, 6, j), (8, 6, i), (2, 1, x.sat.toNat), (1, 1, bad.toNat), (0, 1, 1)]
  | _ => fieldsWord [(2, 1, x.sat.toNat), (1, 1, bad.toNat)]

/-- A pending result that reads a plane: of `vacc.rd`, or of `mchk`, which the table gives no event of its own. -/
def execVaccRdPerform (g : Nat) (s : State) : Host.Outcome State Fault Refusal :=
  s.perform_ g (fun k => match k with | .accRd _ _ _ _ | .chk _ => true | _ => false) fun s o =>
    match o.kind with
    | .accRd n i col mask =>
      let e := s.core.mx.elems n
      let s := s.setMx (s.core.mx.close o none)
      s.deliver o.ctx o.id fun v => .vec (mergeRow e i.val col mask v.toVec)
    | .chk p =>
      let (c, m) := if (s.core.mx.plane p).state = .isSealed then s.core.mx.checkPlane p else (.ok, s.core.mx)
      let s := s.setMx (m.close o (if c = .bad then some (checkTrap p) else none))
      s.deliver o.ctx o.id fun _ => .word (checkStatus (m.plane p) c)
    | _ => s

/-- Forks an operation: it stands after those issued before. -/
def State.forkOp (s : State) (k : MKind) : Nat × State :=
  let (id, s) := s.fresh
  let o : MOp := ⟨id, s.cid, s.cx.regs.pc, k, s.cx.regs.a, s.cx.regs.fpmode.setWidth 2, false, none, 0, 0⟩
  (id, s.setMx { s.core.mx with ops := s.core.mx.ops ++ [o] })

def execVaccRd (g d : Fin 16) (n : Fin 8) (b : Fin 16) (m : Fin 8) (f c : Bool) (s : State) : Host.Outcome State Fault Refusal :=
  s.syl (Instr.info s (.vaccRd g d n b m f c)) fun s =>
    let i : Fin 64 := Fin.ofNat 64 (field (s.readS b) 0 6)
    let (id, s) := s.forkOp (.accRd n i c (s.readM m))
    s.await id (.v d) (.vec (s.readV d))

def execVaccPk (g d : Fin 16) (n : Fin 8) (b : Fin 16) (m : Fin 8) (f c : Bool) (s : State) : Host.Outcome State Fault Refusal :=
  s.syl (Instr.info s (.vaccPk g d n b m f c)) fun s =>
    s.write .long (.v d) (.vec (mergeRow (s.core.mx.peek n) (field (s.readS b) 0 6) c (s.readM m) (s.readV d)))

/-- `vacc.wr` blocks while the plane is busy, or while an earlier `vacc.rd` of it has not taken place. -/
def execVaccWr (g : Fin 16) (n : Fin 8) (a b : Fin 16) (m : Fin 8) (e f c : Bool) (s : State) : Host.Outcome State Fault Refusal :=
  s.syl (Instr.info s (.vaccWr g n a b m e f c)) fun s =>
    let mx := s.core.mx
    if !(mx.notBusy s.nextId n && mx.clearOf s.nextId (1#8 <<< n.val)) then s.blockBundle
    else
      let v := s.readV a
      let mask := s.readM m
      let i := field (s.readS b) 0 6
      let old := mx.elems n
      let new : Vector VReg 64 := gen 64 fun r => gen 64 fun k =>
        let (lane, at0) := if c then (r, k == i) else (k, r == i)
        if at0 && mask.getLsbD lane then at_ v lane 0 else planeElem old r k
      let p : Fin 4 := Fin.ofNat 4 n.val
      if n.val < 4 then s.setMx (mx.setPlane p { mx.plane p with e := new })
      else s.setMx { mx with fa := mx.fa.set p new }

/-! ## M syllables (R299 to R312) -/

/-- `mcall` and `mcall.b` once the table entry is known to be valid. -/
def State.callRoutine (s : State) (k : Nat) (batched : Bool) : State :=
  if !a0Valid s.cx.regs.a[0] then s.illegalNow 0x34 else (s.forkOp (.routine k batched)).2

def execMcall (g : Fin 16) (k : Fin 256) (s : State) : Host.Outcome State Fault Refusal :=
  s.syl (Instr.info s (.mcall g k)) fun s => s.callRoutine k.val false

def execMcallB (g : Fin 16) (k : Fin 256) (s : State) : Host.Outcome State Fault Refusal :=
  s.syl (Instr.info s (.mcallB g k)) fun s => s.callRoutine k.val true

def execMwait (g : Fin 16) (s : State) : Host.Outcome State Fault Refusal :=
  s.syl (Instr.info s (.mwait g)) fun s => s.joinOps s.matrixJoins fun s => s

def execMscale (g : Fin 16) (f i : Fin 4) (s : State) : Host.Outcome State Fault Refusal :=
  s.syl (Instr.info s (.mscale g f i)) fun s => (s.forkOp (.scale f i)).2

def execMfix (g : Fin 16) (f i : Fin 4) (x : BitVec 8) (s : State) : Host.Outcome State Fault Refusal :=
  s.syl (Instr.info s (.mfix g f i x)) fun s => (s.forkOp (.fix f i x)).2

def execMdrain (g : Fin 16) (i : Fin 4) (s : State) : Host.Outcome State Fault Refusal :=
  s.syl (Instr.info s (.mdrain g i)) fun s => (s.forkOp (.drain i)).2

/-- Empty masks complete with no effect. -/
def execMclr (g : Fin 16) (i f : BitVec 4) (s : State) : Host.Outcome State Fault Refusal :=
  s.syl (Instr.info s (.mclr g i f)) fun s => if i = 0 ∧ f = 0 then s else (s.forkOp (.clr i f)).2

def execMmov (g : Fin 16) (d x0 : Fin 8) (s : State) : Host.Outcome State Fault Refusal :=
  s.syl (Instr.info s (.mmov g d x0)) fun s => if d = x0 then s else (s.forkOp (.mov d x0)).2

def execMchk (g : Fin 16) (d : Dst) (i : Fin 4) (s : State) : Host.Outcome State Fault Refusal :=
  s.syl (Instr.info s (.mchk g d i)) fun s =>
    let (id, s) := s.forkOp (.chk i)
    s.pushAwait id d 0

/-- A routine is running or queued. -/
def Matrix.anyRoutine (m : Matrix) : Bool := m.routine.isSome || m.ops.any fun o => o.kind.isRoutine && !o.complete

/-- The first store word that the shared part does not hold. -/
def sharedWords : Nat := 1024

/-- An image header that R307 allows. -/
def imageValid (h : Word) : Bool :=
  let n := field h 20 12
  let w := field h 8 12
  let low := field h 0 8 < 128
  field h 44 20 == 0 && n != 0 && field h 32 12 < n && w + n ≤ 4096 && (if low then w + n ≤ sharedWords else sharedWords ≤ w)

/-- Words written to the store from w on. -/
def storeWords (store : List (Nat × Word)) : Nat → List Word → List (Nat × Word)
  | _, [] => store
  | w, x :: xs => storeWords (put w x store) (w + 1) xs

/-- The 64-bit words of bytes. -/
def wordsOf64 : Nat → List Byte → List Word
  | 0, _ => []
  | n + 1, bs => word (ofBytes (bs.take 8)) :: wordsOf64 n (bs.drop 8)

/-- `mld.ms`: the image is read and checked, then written once no routine is running or queued. -/
def execMldMs (g : Fin 16) (a : Src) (e : Bool) (s : State) : Host.Outcome State Fault Refusal :=
  s.syl (Instr.info s (.mldMs g a e)) fun s =>
    let ea := s.readSrc a
    match s.readBlocking s.who true [] .g ea 8 with
    | .error s => s
    | .ok (bs, s) =>
      let h := word (ofBytes bs)
      if !imageValid h then s.illegalNow 0x36
      else if field h 0 8 < 128 && !s.system then s.trap s.privilegeTrap
      else
        let n := field h 20 12
        match s.readBlocking s.who true [] .g (ea + 8) (8 * n) with
        | .error s => s
        | .ok (ws, s) =>
          if s.core.mx.anyRoutine then s.blockBundle
          else
            let m := s.core.mx
            s.setMx { m with store := storeWords m.store (field h 8 12) (wordsOf64 n ws),
                                     table := put (field h 0 8) ((field h 8 12 + field h 32 12) % 4096) m.table }

def execMstMs (g : Fin 16) (a b : Src) (e f : Bool) (s : State) : Host.Outcome State Fault Refusal :=
  s.syl (Instr.info s (.mstMs g a b e f)) fun s =>
    let x := s.readSrc b
    let w := field x 0 12
    let n := field x 12 12
    if field x 24 40 ≠ 0 ∨ n = 0 ∨ 4096 < w + n then s.illegalNow 0x36
    else
      s.storeOrd .g (s.readSrc a)
        ((List.range n).flatMap fun k => bytesOf 8 (look 0 (w + k) s.core.mx.store).toNat)

def execMqClr (g : Fin 16) (a b l : Bool) (s : State) : Host.Outcome State Fault Refusal :=
  s.syl (Instr.info s (.mqClr g a b l)) fun s =>
    let m := s.core.mx
    if m.anyRoutine then s.blockBundle
    else s.setMx { m with aq := (if a then [] else m.aq), bq := (if b then [] else m.bq), log := (if l then [] else m.log),
                          logovf := m.logovf && !l }

/-- `mq.st`: the oldest record, or the next one to come. -/
def execMqSt (g : Fin 16) (d : Dst) (s : State) : Host.Outcome State Fault Refusal :=
  s.syl (Instr.info s (.mqSt g d)) fun s =>
    match s.core.mx.log with
    | x :: l => (s.setMx { s.core.mx with log := l }).push .long d x
    | [] =>
      let (id, s) := s.forkOp .logRd
      s.pushAwait id d 0

def execMhalf (g : Fin 16) (n : Bool) (s : State) : Host.Outcome State Fault Refusal :=
  s.syl (Instr.info s (.mhalf g n)) fun s => s.setMx { s.core.mx with sw := n }

/-- Two bits for the state of a plane. -/
def PlaneState.code : PlaneState → Nat
  | .idle => 0
  | .acc => 1
  | .isSealed => 2
  | .bad => 3

/-- Engine status (R311). -/
def Matrix.status (m : Matrix) : Word :=
  let run := match m.routine with
    | some r => [(63, 1, 1), (47, 8, r.k), (32, 15, r.ctx)]
    | none => []
  let planes := (List.range 4).flatMap fun n =>
    let x := at_ m.ia n IPlane.reset
    [(24 + 2 * n, 2, x.state.code), (20 + n, 1, x.sat.toNat),
     (16 + n, 1, (m.ops.any fun o => !o.complete && (o.kind.writes &&& (16#8 <<< n)) != 0).toNat)]
  fieldsWord (run ++ [(62, 1, m.half.toNat), (61, 1, m.sw.toNat), (60, 1, m.logovf.toNat), (55, 5, m.log.length)] ++ planes ++
    [(8, 8, m.aq.length), (0, 8, m.bq.length)])

def execMstat (g : Fin 16) (d : Dst) (s : State) : Host.Outcome State Fault Refusal :=
  s.syl (Instr.info s (.mstat g d)) fun s => s.push .s3 d ({ s.core.mx with gov := s.govAt s.gcore } : Matrix).status

def execMabort (g : Fin 16) (s : State) : Host.Outcome State Fault Refusal :=
  s.syl (Instr.info s (.mabort g)) fun s => s.setMx (s.core.mx.abort s.cid)

end Sys2Proof.Machine
end

