-- ==== Sys2Proof/Machine/Copy.lean ====
section
/-! DEFINITION. The copy engine (R317 to R329, R116, R117): parameter blocks, their checks and their cache, what a run of a copy moves,
channels, joins, buffer pairs (R63, R336, R337), and `pf.g`. -/

namespace Sys2Proof.Machine

/-! ## Parameter blocks (R317 to R320) -/

/-- A parameter block as its bytes give it. -/
structure RawBlock where
  sk : Nat
  sh : Nat
  sa : Nat
  dk : Nat
  dh : Nat
  da : Nat
  cvt : Nat
  esize : Nat
  run : Nat
  srdim : Nat
  drdim : Nat
  sbase : List Nat
  dbase : List Nat
  loops : List LoopLevel
  rsv : Bool

def blockWord (bs : List Byte) (i : Nat) : Word := word (ofBytes ((bs.drop (8 * i)).take 8))

def parseLoop (w : Word) : LoopLevel :=
  ⟨field w 48 16, field w 45 3, field w 42 3, signed 21 (field w 21 21), signed 21 (field w 0 21)⟩

def parseBlock (bs : List Byte) : RawBlock :=
  let s := blockWord bs 0
  let d := blockWord bs 1
  let c := blockWord bs 2
  let coords := fun a => (List.range 6).map fun i => ofBytes ((bs.drop (a + 4 * i)).take 4)
  { sk := field s 60 4, sh := field s 56 4, sa := field s 0 56, dk := field d 60 4, dh := field d 56 4, da := field d 0 56,
    cvt := field c 56 8, esize := field c 48 8, run := field c 39 9, srdim := field c 36 3, drdim := field c 33 3,
    sbase := coords 24, dbase := coords 48, loops := (List.range 6).map fun l => parseLoop (blockWord bs (9 + l)),
    rsv := field c 0 33 != 0 || blockWord bs 15 != 0 }

/-- The iterations of a block. -/
def CopyBlock.total (b : CopyBlock) : Nat := prod (b.loops.map (·.count))
def RawBlock.total (b : RawBlock) : Nat := prod (b.loops.map (·.count))

/-! ## Checks (R321, R325 to R327) -/

/-- Which instruction a block is checked for. -/
inductive BlockUse where
  | go | fill | cvt | queueA | queueB
  deriving DecidableEq, Repr

/-- Why a block is refused: cause 0x38, or a handle fault of a register. -/
inductive BlockErr where
  | ill | handle (r : Fin 16) (wr : Bool) (cause : Nat)
  deriving DecidableEq, Repr

/-- The first error of a list of checks. -/
def firstErr : List (Option BlockErr) → Option BlockErr
  | [] => none
  | some e :: _ => some e
  | none :: l => firstErr l

def illWhen (b : Bool) : Option BlockErr := if b then some .ill else none

/-- The integer type of a size, for an address source of `cpy.cvt`. -/
def intType (esize : Nat) : Nat := if esize = 1 then 0 else if esize = 2 then 2 else if esize = 4 then 4 else 6

def BlockUse.isQueue (u : BlockUse) : Bool := u == .queueA || u == .queueB

/-- KIND is allowed for its side and instruction. -/
def kindsOk (u : BlockUse) (b : RawBlock) : Bool :=
  match u with
  | .go => b.sk ≤ 4 && b.dk ≤ 4
  | .cvt => b.sk ≤ 4 && b.dk ≤ 4
  | .fill => b.sk == 7 && b.dk ≤ 4
  | .queueA => b.sk ≤ 4 && b.dk == 5
  | .queueB => b.sk ≤ 4 && b.dk == 6

/-- Well-formedness and element size of a handle endpoint; an MXINT handle has no element size that ESIZE could equal. -/
def handleErr (u : BlockUse) (b : RawBlock) (wr : Bool) (r : Fin 16) (h : Option Line) : Option BlockErr :=
  match h with
  | none => none
  | some d =>
    match descCause d with
    | some c => some (.handle r wr c)
    | none => illWhen (u != .cvt && !isMx (Desc.type d) && typeSize (Desc.type d) != b.esize)

/-- Element types that the instruction accepts. -/
def typeErr (u : BlockUse) (b : RawBlock) (wr : Bool) (r : Fin 16) (h : Option Line) : Option BlockErr :=
  match h with
  | none => none
  | some d =>
    let mx := isMx (Desc.type d)
    let ok := if wr then !mx
      else if u.isQueue then mx || Desc.type d == 0
      else !mx || (u == .cvt && 8 ≤ b.cvt && b.cvt ≤ 10)
    if ok then none else some (.handle r wr 0x0F)

/-- Fields that must be zero for the endpoint's kind, and a run dimension below the rank. -/
def endErr (k hr a rd : Nat) (h : Option Line) : Option BlockErr :=
  match h with
  | some d => illWhen (a != 0 || Desc.rank d ≤ rd)
  | none => illWhen (hr != 0 || rd != 0 || (4 < k && a != 0))

/-- The pairs of R326. -/
def cvtErr (u : BlockUse) (b : RawBlock) (sh dh : Option Line) : Option BlockErr :=
  if u ≠ .cvt then illWhen (b.cvt != 0)
  else
    let st := match sh with
      | some d => Desc.type d
      | none => intType b.esize
    let pair := (st ≤ 12 && b.cvt ≤ 12) || (isMx st && 8 ≤ b.cvt && b.cvt ≤ 10)
    let dest := match dh with
      | some d => Desc.type d == b.cvt
      | none => typeSize b.cvt == b.esize
    illWhen (!pair || !dest)

/-- The conditions of R327 that concern one block. -/
def queueErr (u : BlockUse) (b : RawBlock) (sh : Option Line) : Option BlockErr :=
  if !u.isQueue then none
  else
    match sh with
    | some d => illWhen (b.run != 64 || Desc.rank d < 2 || b.srdim + 2 != Desc.rank d)
    | none => some .ill

/-- A block is checked at issue (R321): the first error in the order of the rule. -/
def State.blockErr (s : State) (u : BlockUse) (b : RawBlock) : Option BlockErr :=
  let sr : Fin 16 := Fin.ofNat 16 b.sh
  let dr : Fin 16 := Fin.ofNat 16 b.dh
  let sh := if b.sk = 4 then some (s.readH sr).desc else none
  let dh := if b.dk = 4 then some (s.readH dr).desc else none
  firstErr [
    illWhen (!kindsOk u b),
    if u.isQueue && b.sk != 4 then some (.handle 0 false 0x0F) else none,
    handleErr u b false sr sh, handleErr u b true dr dh,
    typeErr u b false sr sh, typeErr u b true dr dh,
    illWhen (!([1, 2, 4, 8].contains b.esize) || b.run == 0 || 256 < b.run || b.rsv),
    illWhen (b.loops.any fun l => 5 < l.sdim || 5 < l.ddim),
    endErr b.sk b.sh b.sa b.srdim sh, endErr b.dk b.dh b.da b.drdim dh,
    cvtErr u b sh dh,
    match dh with
    | some d => if Desc.ro d then some (.handle dr true 0x0B) else none
    | none => none,
    queueErr u b sh]

def State.raiseErr (s : State) (e : BlockErr) : State :=
  match e with
  | .ill => s.illegalNow 0x38
  | .handle r wr c => s.handleFault r 0 wr c

/-- An endpoint with its handle captured (R77, R323). -/
def State.endPt (s : State) (k r a : Nat) : EndPt :=
  if k = 0 then .addr .g (word a)
  else if k = 1 then .addr .u (word a)
  else if k = 2 then .addr .c (word a)
  else if k = 3 then .addr .d (word a)
  else if k = 4 then .handle (Fin.ofNat 16 r) (s.readH (Fin.ofNat 16 r))
  else if k = 5 then .queueA
  else if k = 6 then .queueB
  else .none

def State.captured (s : State) (b : RawBlock) : CopyBlock :=
  { src := s.endPt b.sk b.sh b.sa, dst := s.endPt b.dk b.dh b.da, cvt := b.cvt, esize := b.esize, run := b.run,
    srdim := b.srdim, drdim := b.drdim, sbase := b.sbase, dbase := b.dbase, loops := b.loops }

/-! ## Capture and the cache (R322) -/

/-- A block enters the cache; of 16 the oldest leaves. -/
def cacheAdd (a : Nat) (bs : List Byte) (l : List (Nat × List Byte)) : List (Nat × List Byte) :=
  let l := l.filter (·.1 != a)
  (if 16 ≤ l.length then l.drop 1 else l) ++ [(a, bs)]

/-- The bytes of the block at an address, from the cache or from memory; then the rest of the instruction. -/
def State.withBlock (s : State) (a : Word) (go : List Byte → State → State) : State :=
  if field a 56 8 ≠ 0 then s.trap (accessTrap 0x07 a (gInfo s.who .read 7) 0x02)
  else if a.toNat % 64 ≠ 0 then s.misaligned
  else
    match s.core.pbCache.find? (·.1 == a.toNat) with
    | some e => go e.2 s
    | none =>
      match s.readBlocking s.who true [] .g a 128 with
      | .error s => s
      | .ok (bs, s) => go bs s

/-- A checked block is in the cache. -/
def State.enterBlock (s : State) (a : Word) (bs : List Byte) : State :=
  if s.core.pbCache.any (·.1 == a.toNat) then s
  else { s with core := { s.core with pbCache := cacheAdd a.toNat bs s.core.pbCache } }

/-- The block at an address, checked for a use and captured. -/
def State.withChecked (s : State) (a : Word) (u : RawBlock → Option BlockUse) (go : CopyBlock → State → State) : State :=
  s.withBlock a fun bs s =>
    let b := parseBlock bs
    match u b with
    | none => s.illegalNow 0x38
    | some u =>
      match s.blockErr u b with
      | some e => s.raiseErr e
      | none => go (s.captured b) (s.enterBlock a bs)

/-! ## Coordinates and elements (R318, R323) -/

/-- The loop counters of iteration n, innermost first. -/
def digits : List Nat → Nat → List Nat
  | [], _ => []
  | c :: cs, n => n % c :: digits cs (n / c)

def addAt (k : Nat) (v : Int) (l : List Int) : List Int := l.set k (l.getD k 0 + v)

/-- The coordinates of iteration n on the source or destination side. -/
def CopyBlock.coords (b : CopyBlock) (dst : Bool) (n : Nat) : List Int :=
  let base := (if dst then b.dbase else b.sbase).map Int.ofNat
  (b.loops.zip (digits (b.loops.map (·.count)) n)).foldl (fun xs (l : LoopLevel × Nat) =>
    if dst then addAt l.1.ddim (l.2 * l.1.dstep) xs else addAt l.1.sdim (l.2 * l.1.sstep) xs) base

/-- Where an element of a run is: an address in a space, a wait for its tile, or a fault. -/
inductive Addr where
  | at_ (space : Space) (ea : Word) | wait | fault (t : Trap)
  deriving DecidableEq, Repr

/-- An element of a handle as an engine's address. -/
def Elem.addr (h : Handle) (r : Fin 16) (wr : Bool) : Elem → Addr
  | .at_ a => .at_ .g a
  | .wait => .wait
  | .bad c k => .fault (handleTrap h.daddr r.val k true wr c)
  | .stop (.fault t) => .fault t
  | .stop (.miss _) => .wait
  | .ask _ => .wait

/-- Element m of a run. -/
def State.runElem (s : State) (w : Who) (b : CopyBlock) (dst : Bool) (xs : List Int) (m : Nat) : Addr :=
  match (if dst then b.dst else b.src) with
  | .addr x0 ea => .at_ x0 (ea + BitVec.ofInt 64 (xs.getD 0 0 + 2 ^ 32 * xs.getD 1 0 + m * b.esize))
  | .handle r h =>
    let xs := (addAt (if dst then b.drdim else b.srdim) m xs).take (Desc.rank h.desc)
    Elem.addr h r dst (s.element w h xs dst)
  | _ => .wait

def State.runElems (s : State) (w : Who) (b : CopyBlock) (dst : Bool) (n : Nat) : List Addr :=
  let xs := b.coords dst n
  (List.range b.run).map (s.runElem w b dst xs)

/-- The size of an element on a side. -/
def CopyBlock.size (b : CopyBlock) (dst : Bool) : Nat :=
  match (if dst then b.dst else b.src) with
  | .handle _ h => typeSize (Desc.type h.desc)
  | _ => b.esize

/-- The element type of the source of a conversion. -/
def CopyBlock.sourceType (b : CopyBlock) : Nat :=
  match b.src with
  | .handle _ h => Desc.type h.desc
  | _ => intType b.esize

/-! ## Engine accesses of a copy -/

def Copy.who (y : Copy) : Who := ⟨y.ctx, y.system, some y.id⟩

/-- The pieces lie in the unit store of core g. -/
def State.within (s : State) (g : Nat) (ps : List Piece) : Bool :=
  ps.all fun p => p.at_.dev == s.device && (match regionOf p.at_.loc with
    | .unit k _ => k == g
    | _ => false)

/-- An engine writes bytes; the answer says whether it wrote outside the unit store of its core, or, if it is none, that the write has
to wait. -/
def State.engStore (s : State) (w : Who) (x0 : Space) (ea : Word) (bs : EngBytes) : Except Trap (Option Bool) × State :=
  match s.engResolve w x0 ea bs.length .write with
  | (.error t, s) => if s.evt.isHub then (.ok none, s) else (.error t, s)
  | (.ok ps, s) =>
    if s.evt.isHub || s.engMustWait w ps then (.ok none, s)
    else
      let s := s.engWritePieces w bs ps
      (.ok (some (!s.within (w.ctx / 4) ps)), s)

/-- The address of the unit of error correction that a byte lies in. -/
def State.unitAddr (s : State) (w : Who) (x0 : Space) (ea : Word) : Word :=
  match (s.engResolve w x0 ea 1 .read).1 with
  | .ok (p :: _) => ea - word (p.at_.loc % eccUnit p.at_.loc)
  | _ => ea

/-- The first poisoned byte of bytes read from an address, as the unit it lies in. -/
def State.badUnit (s : State) (w : Who) (x0 : Space) (ea : Word) (bs : EngBytes) : Option (Space × Word) :=
  match bs.findIdx? (·.2) with
  | some i => some (x0, s.unitAddr w x0 (ea + word i))
  | none => none

/-- An engine reads bytes that it interprets: poison is consumed (R49). -/
def State.engUse (s : State) (w : Who) (v : PeerView) (ea : Word) (n : Nat) : Except Trap Nat × State :=
  match s.engRead w v .g ea n with
  | (.error t, s) => (.error t, s)
  | (.ok bs, s) =>
    match s.badUnit w .g ea bs with
    | some p => (.error ⟨0x0F, p.2, rollbackInfo p.1.code 0 0⟩, s)
    | none => (.ok (ofBytes (bs.map (·.1))), s)

/-- Reads elements in order. -/
def State.readElems (s : State) (w : Who) (v : PeerView) (size : Nat) : List Addr → Except Trap (List EngBytes) × State
  | [] => (.ok [], s)
  | .at_ x0 ea :: l =>
    match s.engRead w v x0 ea size with
    | (.error t, s) => (.error t, s)
    | (.ok b, s) =>
      match s.readElems w v size l with
      | (.error t, s) => (.error t, s)
      | (.ok bs, s) => (.ok (b :: bs), s)
  | .fault t :: _ => (.error t, s)
  | .wait :: l => s.readElems w v size l

/-- Elements that follow each other in one line are written together, so that they cover the words they fill (R49). -/
def coalesce : List (Addr × EngBytes) → List (Addr × EngBytes)
  | [] => []
  | (.at_ x0 ea, b) :: l =>
    match coalesce l with
    | (.at_ x1 eb, c) :: r =>
      if x0 = x1 ∧ eb = ea + word b.length ∧ ea.toNat % 64 + b.length + c.length ≤ 64 then (.at_ x0 ea, b ++ c) :: r
      else (.at_ x0 ea, b) :: (.at_ x1 eb, c) :: r
    | r => (.at_ x0 ea, b) :: r
  | x :: l => x :: coalesce l

/-- What the writes of an engine have come to: how many are done, whether any went outside the unit store, and a fault that stopped
them. -/
structure Written where
  count : Nat
  outward : Bool
  fault : Option Trap
  deriving DecidableEq, Repr

/-- Writes bytes in order until one has to wait or faults. -/
def State.writeChunks (s : State) (w : Who) : List (Addr × EngBytes) → Written × State
  | [] => (⟨0, false, none⟩, s)
  | (.at_ x0 ea, b) :: l =>
    match s.engStore w x0 ea b with
    | (.error t, s) => (⟨0, false, some t⟩, s)
    | (.ok none, s) => (⟨0, false, none⟩, s)
    | (.ok (some out), s) =>
      let (x, s) := s.writeChunks w l
      (⟨x.count + 1, out || x.outward, x.fault⟩, s)
  | (.fault t, _) :: _ => (⟨0, false, some t⟩, s)
  | (.wait, _) :: _ => (⟨0, false, none⟩, s)

/-- How many elements make up some bytes. -/
def itemsOf : Nat → List EngBytes → Nat
  | _, [] => 0
  | k, b :: l => if b.length ≤ k then 1 + itemsOf (k - b.length) l else 0

/-- Writes elements in order until one has to wait or faults; `count` counts elements. -/
def State.writeItems (s : State) (w : Who) (l : List (Addr × EngBytes)) : Written × State :=
  let cs := coalesce l
  let (x, s) := s.writeChunks w cs
  let k := ((cs.take x.count).map fun c => c.2.length).sum
  ({ x with count := if x.count = cs.length then l.length else itemsOf k (l.map (·.2)) }, s)

/-- Writes elements in order: whether any went outside the unit store, a fault, or none when one of them has to wait. -/
def State.writeElems (s : State) (w : Who) (l : List (Addr × EngBytes)) : Option (Except Trap Bool) × State :=
  let cs := coalesce l
  match s.writeChunks w cs with
  | (⟨_, _, some t⟩, s) => (some (.error t), s)
  | (⟨n, out, none⟩, s) => (if n = cs.length then some (.ok out) else none, s)

/-- A run of engine accesses may take effect: while the device drains it has sent nothing (R389), and the hub has made its walks (R27). -/
def State.mayRun (s t : State) : Bool := !(s.draining && s.outbox.length < t.outbox.length) && !t.evt.isHub

/-! ## Conversion (R178, R326) -/

def typeFmt (t : Nat) : Option Fmt :=
  if t = 8 then some .f32 else if t = 9 then some .f16 else if t = 10 then some .bf16 else if t = 11 then some .e4m3
  else if t = 12 then some .e5m2 else none

/-- An integer code as a value: the even integer types are signed. -/
def typeInt (t code : Nat) : Int := if t % 2 = 0 then signed (8 * typeSize t) code else (code : Int)

def convertCode (r : Rounding) (st dt code : Nat) : Nat × FFlags :=
  if st = dt then (code, 0)
  else
    match typeFmt st, typeFmt dt with
    | some f, some g => g.encode r (f.decode code)
    | some f, none => Fp.toIntCode r (8 * typeSize dt) (dt % 2 == 0) (f.decode code)
    | none, some g => g.encode r (Fp.ofInt (typeInt st code))
    | none, none => ((typeInt st code % (2 ^ (8 * typeSize dt) : Nat)).toNat, 0)

/-! ## Block-scaled sources (R80, R183, R185) -/

/-- Bits of an element of an MXINT type. -/
def mxWidth (t : Nat) : Nat := if t = 13 then 8 else if t = 14 then 6 else 4

/-- The block of a granule: its scale, the granule at which it starts, its start if a correction made it one, and the first poisoned unit
among the bytes that say so. -/
structure MxBlock where
  scale : Nat
  start : Nat
  fixed : Option Nat
  poison : Option (Space × Word)

/-- The block that holds granule g of a row of granules (`row`: the number of its first granule). -/
def State.mxBlock (s : State) (w : Who) (v : PeerView) (d : Line) (row g : Nat) : Except Trap MxBlock × State :=
  let a0 := row / 8
  let at0 := word (Desc.bmap d + a0)
  match s.engRead w v .g at0 ((row + g) / 8 + 1 - a0) with
  | (.error t, s) => (.error t, s)
  | (.ok bs, s) =>
    let bits := ofBytes (bs.map (·.1))
    let (start, fixed) := blockStart (fun k => bits.testBit (row + k - 8 * a0)) g
    let at1 := word (Desc.scale d + 4 * (row + start))
    match s.engRead w v .g at1 4 with
    | (.error t, s) => (.error t, s)
    | (.ok xs, s) =>
      (.ok ⟨ofBytes (xs.map (·.1)) / 256 % 2 ^ 24, start, if fixed then some (row + start) else none,
        (s.badUnit w .g at0 bs).or (s.badUnit w .g at1 xs)⟩, s)

/-- The row of granules and the granule in it, of an element. -/
def mxPlace (d : Line) (xs : List Int) : Nat × Nat × Nat :=
  let es := Desc.exts d
  let p := planeOf es
  let (b, i, j) := planeAt es (xs.map Int.toNat)
  ((b * p.r + i) * ceilDiv p.c 16, j / 16, j % 16)

/-- A correction is counted once for each block (R185). -/
def Copy.count (y : Copy) (key : Option Nat) : Copy :=
  match key with
  | some k => if y.seen.contains k then y else { y with seen := k :: y.seen, warnings := y.warnings + 1 }
  | none => y

/-! ## A run of a copy -/

/-- How a run ends. -/
inductive RunEnd where
  | moved (y : Copy) (s : State) | wait | failed (t : Trap) (s : State)

/-- An element converted by `cpy.cvt`: the bytes to write, each with the element's poison. -/
def convertBytes (r : Rounding) (st dt : Nat) (b : EngBytes) : EngBytes × FFlags :=
  let (c, fl) := convertCode r st dt (ofBytes (b.map (·.1)))
  ((bytesOf (typeSize dt) c).map fun x => (x, b.any (·.2)), fl)

/-- Converts the elements of a run from an MXINT handle. -/
def State.convertMx (s : State) (y : Copy) (v : PeerView) (h : Handle) : List (List Int × EngBytes) →
    Except Trap (List EngBytes × FFlags) × Copy × State
  | [] => (.ok ([], 0), y, s)
  | (xs, b) :: l =>
    let (row, g, k) := mxPlace h.desc xs
    match s.mxBlock y.who v h.desc row g with
    | (.error t, s) => (.error t, y, s)
    | (.ok m, s) =>
      let q := granuleCode (mxWidth (Desc.type h.desc)) (ofBytes (b.map (·.1))) k
      let f := (typeFmt y.block.cvt).getD .f32
      let (c, fl) := f.finish ⟨y.rm, y.sat8⟩ (scaled24 q m.scale)
      let bad := m.poison.isSome || b.any (·.2)
      match s.convertMx (y.count m.fixed) v h l with
      | (.error t, y, s) => (.error t, y, s)
      | (.ok (bs, fl'), y, s) =>
        (.ok ((bytesOf (typeSize y.block.cvt) c).map (fun x => (x, bad)) :: bs, fl ||| fl'), y, s)

/-- The values that a run moves, from the elements read. -/
def State.runValues (s : State) (y : Copy) (v : PeerView) (bs : List EngBytes) :
    Except Trap (List EngBytes × FFlags) × Copy × State :=
  match y.kind, y.block.src with
  | .cvt, .handle _ h =>
    if isMx (Desc.type h.desc) then
      let xs := y.block.coords false y.pos
      let at0 := (List.range y.block.run).map fun (m : Nat) => (addAt y.block.srdim m xs).take (Desc.rank h.desc)
      s.convertMx y v h (at0.zip bs)
    else
      let rs := bs.map (convertBytes ⟨y.rm, y.sat8⟩ y.block.sourceType y.block.cvt)
      (.ok (rs.map (·.1), rs.foldl (fun acc r => acc ||| r.2) 0), y, s)
  | .cvt, _ =>
    let rs := bs.map (convertBytes ⟨y.rm, y.sat8⟩ y.block.sourceType y.block.cvt)
    (.ok (rs.map (·.1), rs.foldl (fun acc r => acc ||| r.2) 0), y, s)
  | _, _ => (.ok (bs, 0), y, s)

/-- The destination of a run is written. -/
def State.putRun (s : State) (y : Copy) (vals : List EngBytes) (fl : FFlags) : RunEnd :=
  let ds := s.runElems y.who y.block true y.pos
  if ds.contains .wait then .wait
  else
    match s.writeElems y.who (ds.zip vals) with
    | (some (.error t), s) => .failed t s
    | (some (.ok out), s) => .moved { y with pos := y.pos + 1, outward := y.outward || out, flags := y.flags ||| fl } s
    | (none, _) => .wait

/-- One run of `cpy.go` and `cpy.cvt`. -/
def State.moveRun (s : State) (y : Copy) (v : PeerView) : RunEnd :=
  match s.readElems y.who v (y.block.size false) (s.runElems y.who y.block false y.pos) with
  | (.error t, s) => .failed t s
  | (.ok bs, s) =>
    match s.runValues y v bs with
    | (.error t, _, s) => .failed t s
    | (.ok (vals, fl), y, s) => s.putRun y vals fl

def State.fillRun (s : State) (y : Copy) (x : Word) : RunEnd :=
  s.putRun y (List.replicate y.block.run ((bytesOf y.block.esize x.toNat).map fun b => (b, false))) 0

/-- The pieces in which `cpy.zero` writes: 4,096 bytes at most, in increasing address order, side arrays included. -/
def zeroParts (d : Line) : List (Nat × Nat) :=
  let es := Desc.exts d
  let side := if Desc.tag d = tagMxk then [(Desc.scale d, scaleBytes es), (Desc.bmap d, bmapBytes es)] else []
  let areas := (((Desc.base d, footprint (Desc.tag d) (Desc.type d) es) :: side).mergeSort fun a b => a.1 ≤ b.1)
  areas.flatMap fun a => (List.range (ceilDiv a.2 4096)).map fun k => (a.1 + 4096 * k, Nat.min 4096 (a.2 - 4096 * k))

def State.zeroRun (s : State) (y : Copy) (d : Line) : RunEnd :=
  match (zeroParts d)[y.pos]? with
  | none => .wait
  | some (a, n) =>
    match s.engStore y.who .g (word a) (List.replicate n (0, false)) with
    | (.error t, s) => .failed t s
    | (.ok (some out), s) => .moved { y with pos := y.pos + 1, outward := y.outward || out } s
    | (.ok none, _) => .wait

/-! ### Queue copies (R327) -/

/-- An element of a k-step: its value, its scale, the block it comes from where R183 corrected it, whether its granule starts a block
at this k, and the poison it brings. -/
structure QElem where
  q : Int
  scale : Nat
  fixed : Option Nat
  starts : Bool
  poison : Option (Space × Word)

/-- The S24 scale 1.0. -/
def scaleOne : Nat := 0x3F8000

/-- One element of a k-step. A run coordinate at or beyond its extent delivers 0 with scale +0. -/
def State.queueElem (s : State) (y : Copy) (v : PeerView) (side : Nat) (r : Fin 16) (h : Handle) (xs : List Int) (rd : Nat) :
    Except Trap QElem × Copy × State :=
  let d := h.desc
  if ((Desc.ext d rd : Nat) : Int) ≤ xs.getD rd 0 then (.ok ⟨0, 0, none, false, none⟩, y, s)
  else
    match Elem.addr h r false (s.element y.who h xs false) with
    | .fault t => (.error t, y, s)
    | .wait => (.ok ⟨0, 0, none, false, none⟩, y, s)
    | .at_ _ a =>
      match s.engRead y.who v .g a (typeSize (Desc.type d)) with
      | (.error t, s) => (.error t, y, s)
      | (.ok b, s) =>
        let code := ofBytes (b.map (·.1))
        let bad := s.badUnit y.who .g a b
        if !isMx (Desc.type d) then (.ok ⟨signed 8 code, scaleOne, none, false, bad⟩, y, s)
        else
          let (row, g, k) := mxPlace d xs
          match s.mxBlock y.who v d row g with
          | (.error t, s) => (.error t, y, s)
          | (.ok m, s) =>
            let q := granuleCode (mxWidth (Desc.type d)) code k
            (.ok ⟨q, m.scale, m.fixed, k == 0 && m.start == g, bad.or m.poison⟩, y.count (m.fixed.map (2 * · + side)), s)

def State.queueElems (s : State) (y : Copy) (v : PeerView) (side : Nat) (r : Fin 16) (h : Handle) (rd : Nat) :
    List (List Int) → Except Trap (List QElem) × Copy × State
  | [] => (.ok [], y, s)
  | xs :: l =>
    match s.queueElem y v side r h xs rd with
    | (.error t, y, s) => (.error t, y, s)
    | (.ok e, y, s) =>
      match s.queueElems y v side r h rd l with
      | (.error t, y, s) => (.error t, y, s)
      | (.ok es, y, s) => (.ok (e :: es), y, s)

/-- The 64 elements of k-step n from one block. -/
def State.queueSide (s : State) (y : Copy) (v : PeerView) (side : Nat) (b : CopyBlock) : Except Trap (List QElem) × Copy × State :=
  match b.src with
  | .handle r h =>
    let xs := b.coords false y.pos
    s.queueElems y v side r h b.srdim ((List.range 64).map fun (m : Nat) => (addAt b.srdim m xs).take (Desc.rank h.desc))
  | _ => (.ok [], y, s)

def dataItem (es : List QElem) : QItem :=
  .data (gen 64 fun i => BitVec.ofInt 8 ((es[i]?.map (·.q)).getD 0)) (es.findSome? (·.poison))

/-- The marker of a k-step: its scales, and the distinct blocks they come from that were corrected. -/
def markItem (es : List QElem) : QItem :=
  .mark (gen 64 fun i => BitVec.ofNat 24 ((es[i]?.map (·.scale)).getD 0)) ((es.filterMap (·.fixed)).foldl (fun l k => insertNat k l) []).length

/-- Places items in the queues as long as there is room: the items left and how many were placed. -/
def placeItems : List (Bool × QItem) → Matrix → Nat → Nat × Matrix
  | [], m, n => (n, m)
  | (b, x) :: l, m, n =>
    if 64 ≤ (if b then m.bq else m.aq).length then (n, m)
    else placeItems l (if b then { m with bq := m.bq ++ [x] } else { m with aq := m.aq ++ [x] }) (n + 1)

/-- One k-step of a queue copy: MARKs when a block starts, then DATA; it waits while a queue is full. -/
def State.queueRun (s : State) (y : Copy) (v : PeerView) (b : CopyBlock) : RunEnd :=
  match s.queueSide y v 0 y.block with
  | (.error t, _, s) => .failed t s
  | (.ok as_, y, s) =>
    match s.queueSide y v 1 b with
    | (.error t, _, s) => .failed t s
    | (.ok bs, y, s) =>
      let mark := y.pos == 0 || (as_ ++ bs).any (·.starts)
      let items := (if mark then [(false, markItem as_), (true, markItem bs)] else []) ++
        [(false, dataItem as_), (true, dataItem bs)]
      let (n, m) := placeItems (items.drop y.sub) s.core.mx 0
      if n = 0 then .wait
      else if y.sub + n = items.length then .moved { y with pos := y.pos + 1, sub := 0 } (s.setMx m)
      else .moved { y with sub := y.sub + n } (s.setMx m)

/-! ## Running the channels (R324) -/

def Copy.total (y : Copy) : Nat :=
  match y.kind with
  | .zero h => (zeroParts h.desc).length
  | _ => y.block.total

/-- Its writes are done, or a fault or, at a run boundary, a cancel has stopped it. -/
def Copy.over (y : Copy) : Bool := y.fault.isSome || y.total ≤ y.pos || (y.cancelled && y.sub == 0)

def setCopy (y : Copy) (l : List Copy) : List Copy := l.map fun (x : Copy) => if x.id = y.id then y else x

/-- Changes the copies of a channel of the current core. -/
def State.modChannel (s : State) (c : Fin 4) (f : List Copy → List Copy) : State :=
  { s with core := { s.core with ch := s.core.ch.set c (f s.core.ch[c]) } }

/-- The done bits of an endpoint's tiles are read. -/
def State.touchEnd (s : State) (w : Who) : EndPt → State
  | .handle _ h => s.touchDone w h
  | _ => s

/-- The next run of a copy. -/
def State.copyRun (s : State) (y : Copy) (v : PeerView) : RunEnd :=
  let s := (s.touchEnd y.who y.block.src).touchEnd y.who y.block.dst
  match y.kind with
  | .go => s.moveRun y v
  | .cvt => s.moveRun y v
  | .fill x => s.fillRun y x
  | .zero h => s.zeroRun y h.desc
  | .queue b => s.queueRun y v b

/-- The next run of the first copy of a channel that is not complete. A copy that cannot go on waits; so does one whose run would read
at a peer while the device drains (R389). -/
def State.stepChannel (s : State) (c : Fin 4) (v : PeerView) : State :=
  let wait := { s with evt := .stall }
  match (s.core.ch[c]).find? fun y => !y.finished with
  | none => wait
  | some y =>
    if y.over then wait
    else
      match s.copyRun y v with
      | .moved y t => if s.mayRun t then t.modChannel c (setCopy y) else s.notYet t
      | .failed f t => if s.mayRun t then t.modChannel c (setCopy { y with fault := some f }) else s.notYet t
      | .wait => wait

/-- A copy engine performs a run (R323): earlier runs of the channel are done. -/
def execCopyExecute (g : Nat) (ch : Fin 4) (view : PeerView) (s : State) : Host.Outcome State Fault Refusal :=
  s.event fun s => s.inCtx (4 * g) fun s => s.stepChannel ch view

/-- The copy's writes are done and those at peers acknowledged (R324). -/
def State.copyDone (s : State) (y : Copy) : Bool := y.over && !s.engAwaits y.id

/-- A copy is complete (R324); one that wrote outside the own unit store is an outbound effect (R64). -/
def execCopyComplete (g : Nat) (ch : Fin 4) (s : State) : Host.Outcome State Fault Refusal :=
  s.event fun s => s.inCtx (4 * g) fun s =>
    match (s.core.ch[ch]).find? fun y => !y.finished with
    | some y =>
      if s.copyDone y then
        let s := (s.modChannel ch fun l => if y.cancelled then l.filter (·.id != y.id) else setCopy { y with finished := true } l).dropKept y.id
        if y.cancelled then s
        else if y.outward && y.ctx < noCtx then s.markOutboundOf y.ctx else s
      else s
    | none => s

/-! ## Issuing a copy (R324, R325) -/

/-- Copies of a channel that are not complete. -/
def State.busyCopies (s : State) (c : Fin 4) : Nat := ((s.core.ch[c]).filter fun y => !(y.finished || y.cancelled)).length

/-- A copy joins its channel; one of zero extent is complete at its issue (R117). A pair on the channel remembers it (R337). -/
def State.issueCopy (s : State) (c : Fin 4) (kind : CopyKind) (b : CopyBlock) : State :=
  if 16 ≤ s.busyCopies c then s.blockBundle
  else
    let (id, s) := s.fresh
    let y : Copy := ⟨id, s.cid, s.system, kind, b, s.cx.regs.fpmode.setWidth 2, flag s.cx.regs.fpmode 3, 0, 0, [], false, false,
      none, 0, 0, false⟩
    let note := fun (p : BufPair) => if p.armed && p.ch == c then { p with hist := y :: p.hist } else p
    let s := { s with cx := { s.cx with pairs := s.cx.pairs.map note } }
    if y.total = 0 then s else s.modChannel c (· ++ [y])

/-- A block that describes nothing, for a copy that has none. -/
def CopyBlock.empty : CopyBlock := ⟨.none, .none, 0, 1, 1, 0, 0, [], [], []⟩

def execCpyGo (g : Fin 16) (a : Src) (e : Bool) (c : Fin 4) (s : State) : Host.Outcome State Fault Refusal :=
  s.syl (EngSyl.info s (.cpyGo g a e c)) fun s =>
    s.withChecked (s.readSrc a) (fun _ => some .go) fun b s => s.issueCopy c .go b

def execCpyFill (g : Fin 16) (a b : Src) (e f : Bool) (c : Fin 4) (s : State) : Host.Outcome State Fault Refusal :=
  s.syl (EngSyl.info s (.cpyFill g a b e f c)) fun s =>
    let x := s.readSrc b
    s.withChecked (s.readSrc a) (fun _ => some .fill) fun b s => s.issueCopy c (.fill x) b

def execCpyCvt (g : Fin 16) (a : Src) (e : Bool) (c : Fin 4) (s : State) : Host.Outcome State Fault Refusal :=
  s.syl (EngSyl.info s (.cpyCvt g a e c)) fun s =>
    s.withChecked (s.readSrc a) (fun _ => some .cvt) fun b s => s.issueCopy c .cvt b

/-- `cpy.gq`: block a for the A queue, block b for the B queue. -/
def execCpyGq (g : Fin 16) (a b : Src) (e f : Bool) (c : Fin 4) (s : State) : Host.Outcome State Fault Refusal :=
  s.syl (EngSyl.info s (.cpyGq g a b e f c)) fun s =>
    let eb := s.readSrc b
    s.withChecked (s.readSrc a) (fun _ => some .queueA) fun x s =>
      s.withChecked eb (fun _ => some .queueB) fun y s =>
        if x.total ≠ y.total then s.illegalNow 0x38 else s.issueCopy c (.queue y) x

def execCpyZero (g h : Fin 16) (c : Fin 4) (s : State) : Host.Outcome State Fault Refusal :=
  s.syl (EngSyl.info s (.cpyZero g h c)) fun s =>
    let x := s.readH h
    match descCause x.desc with
    | some k => s.handleFault h 0 true k
    | none =>
      if Desc.rly x.desc || (s.relayoutOf x.daddr).isSome then s.handleFault h 0 true 0x08
      else if Desc.ro x.desc then s.handleFault h 0 true 0x0B
      else s.issueCopy c (.zero x) CopyBlock.empty

/-- The instruction whose fields a block fits (R329). -/
def blockFits (b : RawBlock) : Option BlockUse :=
  if b.sk = 7 then some .fill
  else if b.dk = 5 then some .queueA
  else if b.dk = 6 then some .queueB
  else if b.cvt ≠ 0 then some .cvt
  else some .go

def execCpyPb (g : Fin 16) (a : Src) (e : Bool) (s : State) : Host.Outcome State Fault Refusal :=
  s.syl (EngSyl.info s (.cpyPb g a e)) fun s => s.withChecked (s.readSrc a) blockFits fun _ s => s

def execCpyInv (g : Fin 16) (a : Src) (e : Bool) (s : State) : Host.Outcome State Fault Refusal :=
  s.syl (EngSyl.info s (.cpyInv g a e)) fun s =>
    let x := (s.readSrc a).toNat
    { s with core := { s.core with pbCache := if x = 0 then [] else s.core.pbCache.filter (·.1 != x) } }

/-! ## Joins and cancels (R328) -/

/-- Joins the copies of a channel that were issued before the join began (R115). -/
def State.joinChannel (s : State) (c : Fin 4) (after : State → State) : State :=
  let mark := if s.cx.joinMark = 0 then s.nextId else s.cx.joinMark
  let s := { s with cx := { s.cx with joinMark := mark } }
  s.joinOps ((s.channelJoins c).filter fun o => o.id < mark) fun s => after { s with cx := { s.cx with joinMark := 0 } }

def execCpyDrn (g : Fin 16) (c : Fin 4) (s : State) : Host.Outcome State Fault Refusal :=
  s.syl (EngSyl.info s (.cpyDrn g c)) fun s => s.joinChannel c fun s => s

def execCpySt (g : Fin 16) (d : Dst) (c : Fin 4) (s : State) : Host.Outcome State Fault Refusal :=
  s.syl (EngSyl.info s (.cpySt g d c)) fun s =>
    let bad := (s.core.ch[c]).any fun y => y.ctx == s.cid && y.fault.isSome
    s.push .s1 d (fieldsWord [(0, 5, s.busyCopies c), (8, 1, bad.toNat)])

/-- Cancels the context's copies on the channel that are not complete. A copy stands between two runs, or part-way through a k-step, which it
ends first. -/
def execCpyCancel (g : Fin 16) (c : Fin 4) (s : State) : Host.Outcome State Fault Refusal :=
  s.syl (EngSyl.info s (.cpyCancel g c)) fun s =>
    let gone := (s.core.ch[c]).filter (·.cancels s.cid 0)
    let ids := gone.map (·.id)
    let s := if gone.any (·.outward) then s.markOutbound else s
    let s := s.modChannel c (cancelCopies s.cid 0 false)
    { s with kept := s.kept.filter (fun e => !ids.contains e.1), cx := { s.cx with pairs := s.cx.pairs.map (BufPair.forget ids) } }

/-! ## Buffer pairs (R63, R336, R337) -/

def spaceOfCode (k : Nat) : Space := if k = 0 then .g else if k = 1 then .u else if k = 2 then .c else .d

/-- The extent words that R336 refuses. -/
def State.badExtents (s : State) (a b : Word) : Bool :=
  let len := 64 * field a 36 26
  let ea := field a 0 36
  let eb := field b 0 36
  let space := spaceOfCode (field a 62 2)
  field a 62 2 == 0 || field b 62 2 != field a 62 2 || field b 36 26 != field a 36 26 || ea % 64 != 0 || eb % 64 != 0
    || (ea < eb + len && eb < ea + len) || (scratch s.cid space (word ea) len).isNone || (scratch s.cid space (word eb) len).isNone

def State.setPair (s : State) (k : Fin 4) (p : BufPair) : State := { s with cx := { s.cx with pairs := s.cx.pairs.set k p } }

def execBufArm (g : Fin 16) (c k : Fin 4) (a b : Src) (e f : Bool) (s : State) : Host.Outcome State Fault Refusal :=
  s.syl (EngSyl.info s (.bufArm g c k a b e f)) fun s =>
    let x := s.readSrc a
    let y := s.readSrc b
    if field x 36 26 = 0 then s.setPair k BufPair.reset
    else if s.badExtents x y then s.illegalNow 0x3A
    else s.setPair k ⟨true, spaceOfCode (field x 62 2), 64 * field x 36 26, field x 0 36, field y 0 36, false, c, 0, [], none⟩

/-- The lowest effective address that a block writes, and the one past the highest, before they wrap. -/
def CopyBlock.span (b : CopyBlock) (ea : Word) : Int × Int :=
  let weight := fun (d : Nat) => if d = 0 then (1 : Int) else if d = 1 then 2 ^ 32 else 0
  let lo0 : Int := ea.toNat + b.dbase.getD 0 0 + 2 ^ 32 * b.dbase.getD 1 0
  let ds := b.loops.map fun l => ((l.count : Int) - 1) * l.dstep * weight l.ddim
  (ds.foldl (fun acc d => acc + min d 0) lo0, ds.foldl (fun acc d => acc + max d 0) lo0 + b.run * b.esize)

/-- The copy may be the fill copy of an extent. -/
def Copy.fills (y : Copy) (space : Space) (ea len : Nat) : Bool :=
  match y.block.dst with
  | .addr x0 a =>
    x0 == space && x0 != .g && (y.total == 0 ||
      (let (lo, hi) := y.block.span a; (ea : Int) ≤ lo % 2 ^ 64 && lo % 2 ^ 64 + (hi - lo) ≤ ea + len))
  | _ => false

/-- The swap itself, once the copies are joined. -/
def State.swapPair (s : State) (k : Fin 4) : State :=
  let p := s.cx.pairs[k]
  let front := if p.bFront then p.ea0 else p.ea1
  let fill := p.hist.find? fun y => y.fills p.space front p.len
  let s := s.setPair k { p with bFront := !p.bFront, swaps := p.swaps + 1, hist := [], fill := fill }
  s.commitHere

def execBufSwp (g : Fin 16) (k : Fin 4) (s : State) : Host.Outcome State Fault Refusal :=
  s.syl (EngSyl.info s (.bufSwp g k)) fun s => s.joinChannel (s.cx.pairs[k]).ch fun s => s.swapPair k

def execBufSt (g : Fin 16) (d : Dst) (k : Fin 4) (s : State) : Host.Outcome State Fault Refusal :=
  s.syl (EngSyl.info s (.bufSt g d k)) fun s =>
    let p := s.cx.pairs[k]
    s.push .s1 d (if p.armed then
      fieldsWord [(63, 1, 1), (62, 1, p.bFront.toNat), (60, 2, p.ch.val), (36, 24, p.swaps),
        (0, 36, if p.bFront then p.ea1 else p.ea0)]
      else 0)

/-- `pf.g` changes only timing (R332). -/
def execPfG (g : Fin 16) (a b : Src) (e f : Bool) (s : State) : Host.Outcome State Fault Refusal :=
  s.syl (EngSyl.info s (.pfG g a b e f)) fun s => s

end Sys2Proof.Machine
end

