-- ==== Sys2Proof/Machine/Inbox.lean ====
section
/-! DEFINITION. The receive engine's decisions (R341 to R343): which posted receive a message matches, the lay-by and its memory, messages
that are withheld until a post or room appears, and the order of messages (R340, R384). -/

namespace Sys2Proof.Machine

/-- The message matches a match word under a mask word (R342). -/
def matches_ (matchWord maskWord : Word) (m : MsgArrival) : Bool :=
  (BitVec.ofNat 32 (field matchWord 32 32) ^^^ m.tag) &&& BitVec.ofNat 32 (field maskWord 32 32) == 0 &&
    (BitVec.ofNat 6 (field matchWord 0 6) ^^^ BitVec.ofNat 6 m.src.val) &&& BitVec.ofNat 6 (field maskWord 0 6) == 0

/-! ## The memory of the lay-by (R341) -/

/-- The first local address of the lay-by, and how many bytes it has. -/
def Fabric.laybyBase (f : Fabric) : Nat := field f.rxctl 26 16 * 2 ^ 26
def laybySize : Nat := 2 ^ 26

/-- The lay-by takes a message of n bytes: it is in use and lies in HBM, and holds fewer than 1,024 messages and 64 MiB with it. -/
def State.laybyRoom (s : State) (n : Nat) : Bool :=
  flag s.fab.rxctl 0 && s.fab.laybyBase + laybySize ≤ 2 ^ 40 && s.fab.layby.length < 1024 &&
    (s.fab.layby.map Laid.len).sum + n ≤ laybySize

/-- Puts an extent, as first address and length, into a rising list. -/
def insertExtent (x : Nat × Nat) : List (Nat × Nat) → List (Nat × Nat)
  | [] => [x]
  | y :: l => if x.1 ≤ y.1 then x :: y :: l else y :: insertExtent x l

/-- What rising extents leave free between two addresses. -/
def gapsIn (lo hi : Nat) : List (Nat × Nat) → List (Nat × Nat)
  | [] => if lo < hi then [(lo, hi - lo)] else []
  | (a, n) :: l => (if lo < a then [(lo, Nat.min a hi - lo)] else []) ++ gapsIn (Nat.max lo (a + n)) hi l

/-- The first n bytes of free extents. -/
def takeExtents : Nat → List (Nat × Nat) → List (Nat × Nat)
  | _, [] => []
  | n, (a, k) :: l => if n = 0 then [] else (a, Nat.min n k) :: takeExtents (n - k) l

/-- Where the lay-by puts n bytes: in its first free bytes (assumption 96). -/
def State.layPlace (s : State) (n : Nat) : List (Nat × Nat) :=
  let used := (s.fab.layby.flatMap Laid.ext).foldl (fun l x => insertExtent x l) []
  takeExtents n (gapsIn s.fab.laybyBase (s.fab.laybyBase + laybySize) (used.filter fun x => s.fab.laybyBase ≤ x.1))

/-- Writes bytes to extents, in order. -/
def State.writeExtents (s : State) : List (Nat × Nat) → List Byte → State
  | [], _ => s
  | (a, n) :: l, bs => (s.putBytes a (bs.take n)).writeExtents l (bs.drop n)

/-- The bytes of an extent, with their poison. -/
def State.readExtent (s : State) (x : Nat × Nat) : EngBytes × State :=
  (lineParts x.1 x.2).foldl (fun acc p =>
    let a := x.1 + p.1
    let t := acc.2.touch (lineOf a) (byteMask (a % 64) p.2)
    let l := t.plainLine 0 (lineOf a)
    let m := t.poisonMask (lineOf a)
    (acc.1 ++ (List.range p.2).map fun i => (lineByte l (a % 64 + i), m.getLsbD (a % 64 + i)), t)) ([], s)

def State.readExtents (s : State) : List (Nat × Nat) → EngBytes × State
  | [] => ([], s)
  | x :: l =>
    let (a, s) := s.readExtent x
    let (b, s) := s.readExtents l
    (a ++ b, s)

/-- A message goes to the lay-by: its bytes are written there. -/
def State.layBy (s : State) (m : MsgArrival) : State :=
  let ext := s.layPlace m.payload.length
  let s := s.writeExtents ext m.payload
  { s with fab := { s.fab with layby := s.fab.layby ++ [⟨{ m with payload := [] }, m.payload.length, ext⟩] } }

/-- A laid-by message with the bytes that the memory now holds. -/
def State.laidMessage (s : State) (x : Laid) : MsgArrival × State :=
  let (bs, s) := s.readExtents x.ext
  let bad := bs.zipIdx.filterMap fun y => if y.1.2 then some y.2 else none
  ({ x.msg with payload := bs.map (·.1), poison := x.msg.poison ++ bad.filter fun i => !x.msg.poison.contains i }, s)

/-! ## Decisions (R343) -/

/-- A message lands in a posted entry: the landing is forked (R344). -/
def State.landIn (s : State) (order : Nat) (m : MsgArrival) (fromLayby : Bool) : State :=
  let upd := fun (p : Posted) => if p.order = order then { p with msg := some m, fromLayby := fromLayby } else p
  { s with fab := { s.fab with posted := s.fab.posted.map upd } }

/-- Header and data flits of a message of n bytes (R338). -/
def messageFlits (n : Nat) : Nat := 1 + (n + 15) / 16

/-- A message of n bytes has been landed or laid by: a send of this device to itself is complete (R340), other flits leave their bays. -/
def State.delivered (s : State) (m : MsgArrival) (n : Nat) : State :=
  if m.src.val = s.device then
    match m.op with
    | some o => s.enqueue (.sendComplete o false)
    | none => s
  else s.freeMessage m.plane.val m.via (messageFlits n)

/-- The oldest posted entry that no message has matched and this one does, in posting order. -/
def State.postFor (s : State) (m : MsgArrival) : Option Posted :=
  s.fab.posted.find? fun p => p.msg.isNone && matches_ p.matchWord p.maskWord m

/-- A message is decided: matched, laid by, or withheld (R343). Messages of one context stay in order (R340). -/
def State.offer (s : State) (m : MsgArrival) : State :=
  let hold := { s with fab := { s.fab with withheldMsgs := s.fab.withheldMsgs ++ [m] } }
  if s.fab.withheldMsgs.any fun (x : MsgArrival) => x.src == m.src && x.ctx == m.ctx then hold
  else
    match s.postFor m with
    | some p => s.landIn p.order m false
    | none => if s.laybyRoom m.payload.length then (s.layBy m).delivered m m.payload.length else hold

/-- Withheld messages are offered again, in the order in which they came. -/
def State.reoffer (s : State) : State :=
  s.fab.withheldMsgs.foldl State.offer { s with fab := { s.fab with withheldMsgs := [] } }

/-! ## The order of messages (R340, R384) -/

/-- The number under which the messages between a context and a device are counted. -/
def msgKey (ctx : Nat) (dev : Fin 64) : Nat := ctx * 64 + dev.val

/-- The number of the next message to come of a sending context. -/
def State.nextMsg (s : State) (m : MsgArrival) : Nat := look 0 (msgKey m.ctx m.src) s.fab.msgNext

/-- A message whose turn has come is decided. -/
def State.offerNext (s : State) (m : MsgArrival) : State :=
  { s with fab := { s.fab with msgNext := put (msgKey m.ctx m.src) (m.num + 1) s.fab.msgNext } }.offer m

/-- Messages of a context that came early are decided once their turn has come: at most n. -/
def State.offerEarly (src : Fin 64) (ctx : Nat) : Nat → State → State
  | 0, s => s
  | n + 1, s =>
    match s.fab.early.find? fun x => x.src == src && x.ctx == ctx && x.num == s.nextMsg x with
    | some x => State.offerEarly src ctx n ({ s with fab := { s.fab with early := s.fab.early.erase x } }.offerNext x)
    | none => s

/-- A message arrives: those of one context are decided in the order in which they were sent, whichever way they came; one that has come
before is dropped. -/
def State.arriveMsg (s : State) (m : MsgArrival) : State :=
  if m.num < s.nextMsg m then s.freeMessage m.plane.val m.via (messageFlits m.payload.length)
  else if s.nextMsg m < m.num then { s with fab := { s.fab with early := s.fab.early ++ [m] } }
  else (s.offerNext m).offerEarly m.src m.ctx s.fab.early.length

end Sys2Proof.Machine
end

