-- ==== Sys2Proof/Machine/Tiles.lean ====
section
/-! DEFINITION. Relayout (R83 to R92, R331), tile moves (R330), and the broadcast bus of a cluster (R333 to R335). -/

namespace Sys2Proof.Machine

/-! ## Coordinates -/

/-- The coordinates of a row-major index. -/
def unravel : List Nat → Nat → List Nat
  | [], _ => []
  | _ :: es, n => n / prod es :: unravel es (n % prod es)

/-- The coordinates of plane element (b, i, j). -/
def planeCoords (es : List Nat) (b i j : Nat) : List Nat :=
  if es.length ≤ 1 then [j] else unravel (es.take (es.length - 2)) b ++ [i, j]

/-- The in-extent elements of tile L (R83). -/
def tileElems (es : List Nat) (l : Nat) : List (List Nat) :=
  let p := planeOf es
  let tc := ceilDiv p.c 64
  let tr := ceilDiv p.r 64
  let b := l / (tr * tc)
  let i0 := 64 * (l / tc % tr)
  let j0 := 64 * (l % tc)
  (List.range (Nat.min 64 (p.r - i0))).flatMap fun i =>
    (List.range (Nat.min 64 (p.c - j0))).map fun j => planeCoords es b (i0 + i) (j0 + j)

/-! ## `rlay` (R84) -/

/-- The first check of R84 that fails. -/
def State.rlayCause (s : State) (x : Handle) (tag shadow bmap : Nat) : Option Nat :=
  let d := x.desc
  match descCause d with
  | some c => some c
  | none =>
    if x.daddr = 0 then some 0x0E
    else if Desc.rly d || (s.relayoutOf x.daddr).isSome then some 0x08
    else if 7 ≤ tag then some 0x01
    else if Desc.tag d = tagMxk ∨ tag = tagMxk then some 0x0A
    else if 2 ^ 56 ≤ shadow then some 0x06
    else if shadow % 64 ≠ 0 ∨ bmap % 8 ≠ 0 then some 0x05
    else if 2 ^ 56 ≤ footprint tag (Desc.type d) (Desc.exts d) then some 0x0C
    else if 64 ≤ s.relayouts.length then some 0x09
    else none

/-- Bytes that an instruction writes with strong stores to `.g` addresses, resolved; `pos` counts within each write. -/
structure StrongWrite where
  bytes : List Byte
  pieces : List Piece

/-- Resolves writes in order. -/
def State.resolveWrites (s : State) : List (Word × List Byte) → Except XErr (List StrongWrite)
  | [] => .ok []
  | (ea, bs) :: l =>
    match s.resolve s.who .g ea bs.length .write with
    | .error e => .error e
    | .ok ps =>
      match s.resolveWrites l with
      | .error e => .error e
      | .ok ws => .ok (⟨bs, ps⟩ :: ws)

def State.writeStrong (s : State) (ws : List StrongWrite) : State :=
  ws.foldl (fun s w => w.pieces.foldl (fun s p => s.strongWrite p p.mask (p.data w.bytes)) s) s

/-- The context goes on once its writes are acknowledged. -/
def State.awaitAcks (s : State) : State :=
  if s.acked then s else { s with cx := { s.cx with status := .blocked, wait := .acks, exempt := false } }

/-- A release, then strong stores, then what follows them; the context waits until they are visible. -/
def State.releaseWrites (s : State) (ws : List (Word × List Byte)) (after : State → State) : State :=
  match s.resolveWrites ws with
  | .error e => s.stopAccess .write e
  | .ok rs =>
    s.release fun s => s.unlessWaits (rs.flatMap (·.pieces)) fun s => (after (s.writeStrong rs)).awaitAcks

/-- The lowest number that no entry of the relayout table has. -/
def freeSlot (l : List Relayout) : Nat := ((List.range 64).find? fun k => !l.any (·.slot == k)).getD 0

/-- `rlay`. Whether its handle faults, and those of `rlay.wt` and `hset`, count as writes is not stated: WR is 0 (DESIGN CHOICE, assumption
98). -/
def execRlay (g h : Fin 16) (a b : Src) (e f : Bool) (s : State) : Host.Outcome State Fault Refusal :=
  s.syl (EngSyl.info s (.rlay g h a b e f)) fun s =>
    let x := s.readH h
    let shadow := (s.readSrc a).toNat
    let tag := field (s.readSrc b) 56 8
    let bmap := field (s.readSrc b) 0 56
    match s.rlayCause x tag shadow bmap with
    | some c => s.handleFault h 0 false c
    | none =>
      let nt := tileCount (Desc.exts x.desc)
      let d := setDField (setDField (setDField (setDField x.desc 511 1 1) 376 8 tag) 384 56 shadow) 448 56 bmap
      let home := x.daddr.setWidth 64
      s.releaseWrites [(word bmap, List.replicate (ceilDiv nt 8) 0), (home + 32, (bytesOf 64 d.toNat).drop 32)] fun s =>
        let (id, s) := s.fresh
        let r : Relayout := ⟨freeSlot s.relayouts, x, BitVec.ofNat 8 tag, word shadow, word bmap, nt, 0, dieOf s.cid, s.cid, s.system, id,
          if nt = 0 then .complete else .active, none, false, false, []⟩
        ({ s with relayouts := s.relayouts ++ [r] }).write .s1 (.h h) (.handle ⟨d, x.daddr⟩)

/-! ## The relayout engine (R86, R88) -/

def Relayout.who (r : Relayout) : Who := ⟨r.ctx, r.system, some r.order⟩

/-- Where an element lies in the old layout and in the new. -/
def Relayout.oldAt (r : Relayout) (xs : List Nat) : Addr :=
  let d := r.handle.desc
  .at_ .g (word (Desc.base d + offsetOf (Desc.tag d) (Desc.type d) (Desc.exts d) xs))

def Relayout.newAt (r : Relayout) (xs : List Nat) : Addr :=
  let d := r.handle.desc
  .at_ .g (r.shadow + word (offsetOf r.ntag.toNat (Desc.type d) (Desc.exts d) xs))

/-- Copies the elements of a tile from the old layout to the new. -/
def State.convertTile (s : State) (r : Relayout) (v : PeerView) : Option (Except Trap Bool) × State :=
  let xs := tileElems (Desc.exts r.handle.desc) r.p
  match s.readElems r.who v (typeSize (Desc.type r.handle.desc)) (xs.map r.oldAt) with
  | (.error t, s) => (some (.error t), s)
  | (.ok bs, s) => s.writeElems r.who ((xs.map r.newAt).zip bs)

/-- The done bit of a tile is set. -/
def State.setDoneBit (s : State) (r : Relayout) (v : PeerView) : Option (Except Trap Bool) × State :=
  let a := r.done + word (r.p / 8)
  match s.engUse r.who v a 1 with
  | (.error t, s) => (some (.error t), s)
  | (.ok x, s) => s.writeElems r.who [(.at_ .g a, [(BitVec.ofNat 8 (x ||| 2 ^ (r.p % 8)), false)])]

def State.setRelayout (s : State) (r : Relayout) : State :=
  { s with relayouts := s.relayouts.map fun (x : Relayout) => if x.slot = r.slot then r else x }

/-- An ACTIVE entry can go on: what it has written at peers is acknowledged, so that the next write is a release of it (R86); in a vacate
the engines stop at a tile's end (R92). -/
def State.canConvert (s : State) (r : Relayout) : Bool :=
  r.state == .active && !s.engAwaits r.order && (!s.vacating || r.conv)

/-- The ACTIVE entry of a die that its engine serves next, round-robin. -/
def State.nextRelayout (s : State) (d : Nat) : Option Relayout :=
  let k := (s.dieAt d).engineNext
  let order := (List.range 64).map fun i => (k + i) % 64
  order.findSome? fun slot => s.relayouts.find? fun r => r.slot == slot && r.die == d && s.canConvert r

/-- The relayout engine ends an entry's last tile: a completed conversion that wrote outside the own unit store is an outbound effect
(R64). -/
def State.closeRelayout (s : State) (r : Relayout) : State :=
  let s := (s.setRelayout { r with state := .complete }).dropKept r.order
  if r.outward && r.ctx < noCtx then s.markOutboundOf r.ctx else s

/-- The tile's elements are written: its done bit is set with a release, and P follows. -/
def State.finishTile (s : State) (r : Relayout) (v : PeerView) : State :=
  match s.setDoneBit r v with
  | (none, _) => { s.setRelayout r with evt := .stall }
  | (some (.error t), s) => s.setRelayout { r with state := .failed, fault := some t, conv := false }
  | (some (.ok out), s) =>
    let r := { r with p := r.p + 1, conv := false, outward := r.outward || out }
    if r.p = r.nt then s.closeRelayout r else s.setRelayout r

/-- The engine of a die converts one tile, or records what stopped it. A tile waits while the device drains (R389). -/
def execRelayoutTile (d : Nat) (view : PeerView) (s : State) : Host.Outcome State Fault Refusal :=
  s.event fun s =>
    match s.nextRelayout d with
    | none => { s with evt := .stall }
    | some r =>
      let s := s.modDie d fun k => { k with engineNext := (r.slot + 1) % 64 }
      let t := if r.conv then s.finishTile r view
        else
          match s.convertTile r view with
          | (none, _) => { s with evt := .stall }
          | (some (.error f), t) => t.setRelayout { r with state := .failed, fault := some f }
          | (some (.ok out), t) =>
            let r := { r with conv := true, outward := r.outward || out }
            if t.engAwaits r.order then t.setRelayout r else t.finishTile r view
      if s.mayRun t then t else s.notYet t

/-! ## `rlay.wt` and `rlay.st` (R89, R91) -/

/-- A descriptor as the join leaves it. -/
def joinedDesc (d : Line) (r : Relayout) : Line :=
  setDField (setDField (setDField (setDField (setDField (setDField d 0 56 r.shadow.toNat) 312 8 r.ntag.toNat) 511 1 0) 376 8 0)
    384 56 0) 448 56 0

/-- The join of a COMPLETE entry; `after` sees the freed table. A conversion is an outbound effect through its release (R64). -/
def State.joinRelayout (s : State) (r : Relayout) (after : State → State) : State :=
  let d := joinedDesc r.handle.desc r
  s.releaseWrites [(r.handle.daddr.setWidth 64, bytesOf 64 d.toNat)] fun s =>
    after (({ s with relayouts := s.relayouts.filter (·.slot != r.slot) }).joinParity s.cid r.order)

/-- Waits for an entry, raises its recorded fault, or joins it. A bundle that has raised the fault of a FAILED entry and issues again
makes it ACTIVE. EINFO.ENG of the fault is 1; of an uncorrectable error bit 13 belongs to the field SLOT (R415), which names
the slot (DESIGN CHOICE, assumption 81). -/
def State.waitRelayout (s : State) (r : Relayout) (after : State → State) : State :=
  let here := (s.cid, s.cx.regs.pc)
  match r.state, r.fault with
  | .complete, _ => s.afterChecks fun s => s.joinRelayout r after
  | .failed, some t => s.afterChecks fun s =>
    if r.raised.contains here then
      (s.setRelayout { r with state := .active, fault := none, raised := [], conv := false }).arrives.blockBundle
    else (s.setRelayout { r with raised := here :: r.raised }).raise
      (s.slotFault { t with einfo := setField t.einfo 13 1 1 })
  | _, _ => s.blockBundle

def execRlayWt (g h : Fin 16) (s : State) : Host.Outcome State Fault Refusal :=
  s.syl (EngSyl.info s (.rlayWt g h)) fun s =>
    let x := s.readH h
    match s.relayoutOf x.daddr with
    | some r => s.waitRelayout r fun s => s.write .s1 (.h h) (.handle ⟨joinedDesc x.desc r, x.daddr⟩)
    | none =>
      if !Desc.rly x.desc then s
      else if x.daddr = 0 then s.handleFault h 0 false 0x0E
      else
        match s.readBlocking s.who false [] .g (x.daddr.setWidth 64) 64 with
        | .error s => s
        | .ok (bs, s) =>
          let d : Line := BitVec.ofNat 512 (ofBytes bs)
          match descCause d with
          | some c => s.handleFault h 0 false c
          | none => s.write .s1 (.h h) (.handle ⟨d, x.daddr⟩)

def execRlaySt (g h : Fin 16) (s : State) : Host.Outcome State Fault Refusal :=
  s.syl (EngSyl.info s (.rlaySt g h)) fun s =>
    s.push .s3 .queue (match s.relayoutOf (s.readH h).daddr with
      | some r => setFlag (word (r.nt - r.p)) 63 (r.state == .failed)
      | none => 0)

/-! ## Tile moves (R330) -/

/-- An element of a tile: skipped when it lies beyond an extent. -/
def State.tileElem (s : State) (w : Who) (k : Fin 16) (h : Handle) (a i j : Nat) (wr : Bool) : Option Addr :=
  let es := Desc.exts h.desc
  let p := planeOf es
  if p.r ≤ i ∨ p.c ≤ j then none
  else
    some (Elem.addr h k wr (s.element w h (batchCoords es a i j) wr))

/-- The fault of an origin. -/
def State.originFault (s : State) (w : Who) (k : Fin 16) (h : Handle) (a i j : Nat) (wr : Bool) : Option Trap :=
  let es := Desc.exts h.desc
  if missingDim es a i then some (handleTrap h.daddr k.val 6 true wr 0x07)
  else
    match Elem.addr h k wr (s.element w h (batchCoords es a i j) wr) with
    | .fault t => some t
    | _ => none

/-- The pairs of a tile move whose elements both exist. -/
def State.tilePairs (s : State) (w : Who) (d x0 : Fin 16) (hd hs : Handle) (src dst : Nat × Nat × Nat) (flip : Bool) : List (Addr × Addr) :=
  (List.range 64).flatMap fun a => (List.range 64).filterMap fun b =>
    let (p, q) := if flip then (b, a) else (a, b)
    match s.tileElem w x0 hs src.1 (src.2.1 + p) (src.2.2 + q) false, s.tileElem w d hd dst.1 (dst.2.1 + a) (dst.2.2 + b) true with
    | some u, some v => some (u, v)
    | _, _ => none

/-- The join of a tile move: its writes at peers are acknowledged; a fault that it met is raised. -/
def State.endMove (s : State) (m : Move) : State :=
  if s.engAwaits m.id then s.blockBundle
  else s.afterChecks fun s =>
    let s := { s with cx := { s.cx with joinMark := 0, moves := s.cx.moves.filter (·.id != m.id) } }
    let s := (s.joinParity s.cid m.id).dropKept m.id
    match m.fault with
    | some t => s.raise (s.slotFault t)
    | none => if m.outward then s.markOutbound else s

/-- The writes of a tile move are done, or a fault has stopped them: it is joined, at once or when they are acknowledged. -/
def State.joinMove (s : State) (m : Move) : State :=
  if s.engAwaits m.id then
    { s.arrives with cx := { s.cx with joinMark := m.id, moves := s.cx.moves ++ [m] } }.blockBundle
  else s.endMove m

/-- A tile move: forked and joined by its own bundle. Every element is read before one is written. -/
def State.startMove (s : State) (d x0 : Fin 16) (ja jb : Fin 8) (flip : Bool) : State :=
  let hd := s.readH d
  let hs := s.readH x0
  let ranked := fun (h : Handle) => 1 ≤ Desc.rank h.desc && Desc.rank h.desc ≤ 6
  let okay := fun (h : Handle) => 2 ≤ Desc.rank h.desc && !isMx (Desc.type h.desc)
  if !ranked hs then s.handleFault x0 0 false 0x03
  else if !ranked hd then s.handleFault d 0 true 0x03
  else if !okay hs then s.handleFault x0 0 false 0x0F
  else if !okay hd || Desc.type hd.desc != Desc.type hs.desc then s.handleFault d 0 true 0x0F
  else
    let origin := fun (j : Fin 8) =>
      ((s.readS (evenP j)).toNat, field (s.readS (oddP j)) 32 32, field (s.readS (oddP j)) 0 32)
    let src := origin ja
    let dst := origin jb
    let w : Who := ⟨s.cid, s.system, some s.nextId⟩
    let s := (s.touchDone w hs).touchDone w hd
    match (s.originFault w x0 hs src.1 src.2.1 src.2.2 false).or (s.originFault w d hd dst.1 dst.2.1 dst.2.2 true) with
    | some t => s.raise (s.slotFault t)
    | none =>
      let ps := s.tilePairs w d x0 hd hs src dst flip
      if ps.any fun p => p.2 == .wait then s.blockBundle
      else
        let (id, u) := s.fresh
        match u.readElems w PeerView.none (typeSize (Desc.type hs.desc)) (ps.map (·.1)) with
        | (.error t, u) => if s.mayRun u then u.endMove ⟨id, some t, false⟩ else (s.notYet u).blockBundle
        | (.ok bs, u) =>
          match u.writeElems w ((ps.map (·.2)).zip bs) with
          | (none, _) => s.blockBundle
          | (some r, u) =>
            let m : Move := match r with
              | .error t => ⟨id, some t, false⟩
              | .ok out => ⟨id, none, out⟩
            if s.mayRun u then u.joinMove m else (s.notYet u).blockBundle

def State.moveTile (s : State) (d x0 : Fin 16) (ja jb : Fin 8) (flip : Bool) : State :=
  match s.cx.moves.find? (·.id == s.cx.joinMark) with
  | some m => s.endMove m
  | none => s.startMove d x0 ja jb flip

def execTmov (g d x0 : Fin 16) (a b : Fin 8) (s : State) : Host.Outcome State Fault Refusal :=
  s.syl (EngSyl.info s (.tmov g d x0 a b)) fun s => s.moveTile d x0 a b false

def execTmovH (g d x0 : Fin 16) (a b : Fin 8) (s : State) : Host.Outcome State Fault Refusal :=
  s.syl (EngSyl.info s (.tmovH g d x0 a b)) fun s => s.moveTile d x0 a b true

/-! ## The broadcast bus (R333 to R335) -/

/-- The own unit-store range of a drive or a latch, checked. -/
def State.withBusRange (s : State) (a : Word) (k : Kind) (go : List Piece → State) : State :=
  if a.toNat % 256 ≠ 0 then s.misaligned
  else
    match s.resolve s.who .u a 256 k with
    | .error e => s.stopAccess k e
    | .ok ps => go ps

/-- What the bus has carried in the cycle in which the slot issues. -/
def State.busNow (s : State) : List BusOp := (s.clusterAt (clusterOf s.cid)).bus.filter (·.cycle == s.slotCycle)

/-- The drive of lowest core number. -/
def lowestDrive (l : List BusOp) : Option BusOp :=
  l.foldl (fun m o => match o.out, m with
    | none, _ => m
    | some _, none => some o
    | some _, some b => if o.core < b.core then some o else m) none

/-- The drive whose beat the current cycle carries, if a core has driven one. -/
def State.beatNow (s : State) : Option BusOp := lowestDrive s.busNow

/-- The registers that the next push writes. -/
def State.pushTargets (s : State) (d : Dst) : List Reg := (Dst.reg d).toList ++ [s.pushSlot.1]

/-- The bus carries a drive or a latch of the slot's cycle; cycles before the bundle's own are over. -/
def State.onBus (s : State) (d : Dst) (out : Option (List Byte × List Nat)) (a : Word) : State :=
  let o : BusOp := ⟨s.slotCycle, s.gcore % 96, s.cid, s.pushTargets d, out, a⟩
  s.modCluster (clusterOf s.cid) fun k => { k with bus := k.bus.filter (fun x => s.issue.cycle ≤ x.cycle) ++ [o] }

/-- The result of a drive or latch that another core's drive of the same cycle changes: it is still in flight. -/
def State.busResult (s : State) (o : BusOp) (x : Word) : State :=
  let f := fun (l : List Flight) => l.map fun (y : Flight) =>
    if y.land = some (o.cycle + 1) ∧ o.regs.contains y.reg then { y with val := .word x } else y
  s.modCtx o.ctx fun c => { c with inflight := f c.inflight, fresh := f c.fresh }

/-- The result of a latch of core n's beat. -/
def latchWord (n : Nat) : Word := fieldsWord [(63, 1, 1), (0, 7, n)]

/-- Writes a beat to the latching context's unit store. -/
def State.latchBeat (s : State) (b : List Byte × List Nat) (ps : List Piece) : State :=
  let pois := fun (p : Piece) => BitVec.ofNat 64 ((List.range p.len).foldl (fun acc i =>
    if b.2.contains (p.pos + i) then acc + 2 ^ (p.off + i) else acc) 0)
  ps.foldl (fun s p => s.perform (s.writer false) p.line p.at_.key p.at_.prot p.mask (p.data b.1) (pois p)) s

/-- Core n has taken the beat of a cycle: the drives of higher cores have lost it, and the latches take its bytes. -/
def State.retake (s : State) (n : Nat) (b : List Byte × List Nat) (l : List BusOp) : State :=
  l.foldl (fun s o =>
    match o.out with
    | some _ => s.busResult o 0
    | none =>
      (s.inCtx o.ctx fun s =>
        match s.resolve s.who .u o.addr 256 .write with
        | .ok ps => s.latchBeat b ps
        | .error _ => s).busResult o (latchWord n)) s

/-- `bc.drv`: the lower-numbered core takes the beat of a cycle. Poison goes with the bytes. -/
def execBcDrv (g : Fin 16) (d : Dst) (a : Src) (e : Bool) (s : State) : Host.Outcome State Fault Refusal :=
  s.syl (EngSyl.info s (.bcDrv g d a e)) fun s =>
    let x := s.readSrc a
    s.withBusRange x .read fun ps =>
      let (l, s) := s.loadPieces false ps
      let bad := ps.flatMap fun p => (List.range p.len).filterMap fun i =>
        if (s.poisonMask p.line).getLsbD (p.off + i) then some (p.pos + i) else none
      if s.beatNow.any fun b => b.core < s.gcore % 96 then s.push .s1 d 0
      else ((s.onBus d (some (l.bytes, bad)) x).push .s1 d 1).retake (s.gcore % 96) (l.bytes, bad) s.busNow

/-- `bc.lat`: writes the cycle's beat. -/
def execBcLat (g : Fin 16) (d : Dst) (a : Src) (e : Bool) (s : State) : Host.Outcome State Fault Refusal :=
  s.syl (EngSyl.info s (.bcLat g d a e)) fun s =>
    s.withBusRange (s.readSrc a) .write fun ps =>
      let t := s.onBus d none (s.readSrc a)
      match s.beatNow with
      | none => t.push .s1 d 0
      | some b => (t.latchBeat (b.out.getD ([], [])) ps).push .s1 d (latchWord b.core)

/-- A participant arrives at the open round of an id; the first governs the count. The last releases all. -/
def State.joinRound (s : State) (id n : Nat) : State :=
  let k := clusterOf s.cid
  let r := ((s.clusterAt k).rounds.find? (·.id == id)).getD ⟨id, n, []⟩
  let r := { r with arrived := r.arrived ++ [s.cid] }
  let s := s.arrives.modCluster k fun c => { c with rounds := r :: c.rounds.filter (·.id != id) }
  let s := s.blockOn (.round id)
  if r.arrived.length < r.n then s else s.enqueue (.syncRoundRelease k id)

/-- `bc.sync`. Tried again once its round is complete, it is done. -/
def execBcSync (g : Fin 16) (a b : Src) (e f : Bool) (s : State) : Host.Outcome State Fault Refusal :=
  s.syl (EngSyl.info s (.bcSync g a b e f)) fun s =>
    let x := s.readSrc a
    let n := (s.readSrc b).toNat
    if s.cx.synced then
      { s with cx := { s.cx with synced := false } }
    else if field x 4 60 ≠ 0 ∨ n = 0 ∨ 96 < n then s.illegalNow 0x3B
    else s.joinRound (field x 0 4) n

end Sys2Proof.Machine
end

