-- ==== Sys2Proof/Machine/Messages.lean ====
section
/-! DEFINITION. Messages (R338 to R346): sends, the posted list and its tickets, landings, `fdrn`, and the events of the transfer and
receive engines. -/

namespace Sys2Proof.Machine

/-! ## Words of a message -/

/-- Bits [31:6] of a message, match or mask word must be zero (R338, R342). -/
def badPeerWord (w : Word) : Bool := field w 6 26 != 0

/-- Cuts a list at every k-th place: at most n parts. -/
def chunksOf {α : Type} (k : Nat) : Nat → List α → List (List α)
  | 0, _ => []
  | n + 1, l => if l.isEmpty then [] else l.take k :: chunksOf k n (l.drop k)

/-- The data of the flits that carry bytes (R376). -/
def flitsOf (bs : EngBytes) : List EngBytes := chunksOf 16 bs.length bs

/-- The indices of the bytes that arrive poisoned: a poisoned byte makes its flit one of the poison kind (R49). -/
def flitPoison (bs : EngBytes) : List Nat :=
  ((flitsOf bs).zipIdx.filter fun x => x.1.any (·.2)).flatMap fun x => (List.range x.1.length).map fun i => 16 * x.2 + i

/-! ## Sends (R339, R340) -/

/-- Sends and collectives of the current context that are not complete. -/
def State.fabricBusy (s : State) : Nat := (s.fab.fops.filter fun o => o.ctx == s.cid && !o.complete).length

/-- The fault for an unreachable or lost peer (R340, R350, R444). Its EADDR is not stated. -/
def State.lostTrap (s : State) (dev : Nat) : Trap × State :=
  let (a, s) := s.freeValue
  (⟨0x0A, a, setField (setField (refusalInfo false true false) 24 6 dev) 0 8 0x46⟩, s)

/-- A fabric operation of the current context. -/
def State.newFop (s : State) (id : Nat) (k : FKind) : FOp :=
  ⟨id, s.cid, s.system, k, s.cx.regs.fpmode.setWidth 2, flag s.cx.regs.fpmode 3, false, false, none, 0, none, 0⟩

def State.addFop (s : State) (o : FOp) : State := s.mapFops (· ++ [o])

/-- No new fabric work can start: 64 operations are outstanding, or the device drains (R389). -/
def State.fabricFull (s : State) : Bool := 64 ≤ s.fabricBusy || s.draining

/-- The number of the current context's next message to a peer (R384). -/
def State.numberMessage (s : State) (peer : Fin 64) : Nat × State :=
  let k := msgKey s.cid peer
  let n := look 0 k s.fab.msgNums
  (n, { s with fab := { s.fab with msgNums := put k (n + 1) s.fab.msgNums } })

/-- Starts a send: its payload is read as it stands at the issue. `w` is the message word. -/
def State.startSend (s : State) (w : Word) (k : SendKind) (read : Nat → State → Except Trap EngBytes × State) : State :=
  if s.fabricFull then s.blockBundle
  else
    let peer : Fin 64 := Fin.ofNat 64 (field w 0 6)
    let tag : BitVec 32 := BitVec.ofNat 32 (field w 32 32)
    let (id, u) := s.fresh
    let u := u.markInst fun i => { i with sent := true }
    let op := u.newFop id (.send peer tag k)
    let r := read id u
    if r.2.evt.isHub then (s.notYet r.2).blockBundle
    else
    match r with
    | (.error t, s) => s.addFop { op with complete := true, fault := some t }
    | (.ok bs, s) =>
      if !s.reachable peer.val then
        let (t, s) := s.lostTrap peer.val
        s.addFop { op with complete := true, fault := some t }
      else
        let s := s.addFop op
        let own : Fin 64 := Fin.ofNat 64 s.device
        let (num, s) := s.numberMessage peer
        if peer = own then s.enqueue (.messageHeaderArrival ⟨own, own, 0, s.cid, num, tag, bs.map (·.1), flitPoison bs, some id⟩)
        else s.send (.message peer id s.cid num tag (bs.map (·.1)) (flitPoison bs))

/-- Elements of a handle in logical row-major order, for an engine. -/
def State.rowElems (s : State) (w : Who) (r : Fin 16) (h : Handle) (n : Nat) (wr : Bool) : List Addr :=
  (List.range n).map fun k => Elem.addr h r wr (s.element w h ((unravel (Desc.exts h.desc) k).map Int.ofNat) wr)

/-- The elements of a handle's tensor, and their bytes. -/
def Handle.count (h : Handle) : Nat := prod (Desc.exts h.desc)
def Handle.bytes (h : Handle) : Nat := typeSize (Desc.type h.desc) * h.count

/-- An engine of the current context reads a tensor. -/
def State.readTensor (s : State) (w : Who) (r : Fin 16) (h : Handle) : Except Trap (List EngBytes) × State :=
  let s := s.touchDone w h
  s.readElems w PeerView.none (typeSize (Desc.type h.desc)) (s.rowElems w r h h.count false)

/-- A handle that a send or receive accepts (R339, R345, R348). -/
def State.withTensor (s : State) (r : Fin 16) (wr : Bool) (go : Handle → State) : State :=
  let h := s.readH r
  match descCause h.desc with
  | some c => s.handleFault r 0 wr c
  | none =>
    if isMx (Desc.type h.desc) then s.handleFault r 0 wr 0x0F
    else if wr && Desc.ro h.desc then s.handleFault r 0 wr 0x0B
    else go h

/-- A length out of range (R339). -/
def badLength (l : Nat) : Bool := l == 0 || 2 ^ 30 < l

def execFsend (g h : Fin 16) (a : Src) (e : Bool) (s : State) : Host.Outcome State Fault Refusal :=
  s.syl (EngSyl.info s (.fsend g h a e)) fun s =>
    let w := s.readSrc a
    if badPeerWord w then s.illegalNow 0x3C
    else s.withTensor h false fun x =>
      if badLength x.bytes then s.illegalNow 0x3C
      else s.startSend w .tensor fun id s =>
        match s.readTensor ⟨s.cid, s.system, some id⟩ h x with
        | (.error t, s) => (.error t, s)
        | (.ok bs, s) => (.ok bs.flatten, s)

def execFsendV (g v : Fin 16) (a : Src) (e : Bool) (s : State) : Host.Outcome State Fault Refusal :=
  s.syl (EngSyl.info s (.fsendV g v a e)) fun s =>
    let w := s.readSrc a
    if badPeerWord w then s.illegalNow 0x3C
    else
      let bs := (vecBytes (s.readV v)).map fun b => (b, false)
      s.startSend w .vector fun _ s => (.ok bs, s)

def execFsendM (g : Fin 16) (a : Src) (b : Fin 8) (e f : Bool) (s : State) : Host.Outcome State Fault Refusal :=
  s.syl (EngSyl.info s (.fsendM g a b e f)) fun s =>
    let w := s.readSrc a
    let ea := s.readS (evenP b)
    let n := (s.readS (oddP b)).toNat
    if badPeerWord w || badLength n then s.illegalNow 0x3C
    else s.startSend w .memory fun id s => s.engRead ⟨s.cid, s.system, some id⟩ PeerView.none .g ea n

/-- `fdrn` joins the sends and collectives of the context (R340). -/
def execFdrn (g : Fin 16) (s : State) : Host.Outcome State Fault Refusal :=
  s.syl (EngSyl.info s (.fdrn g)) fun s => s.joinOps s.fabricJoins fun s => s

/-- A send or collective is complete (R340, R348). One that has reached outside the own unit store is an outbound effect (R64): a send is,
for its payload lands elsewhere. -/
def State.endFop (s : State) (id : Nat) (t : Option Trap) (flags : FFlags) (outward : Bool) : State :=
  let s := s.dropKept id
  match s.fab.fops.find? fun o => o.id == id && !o.complete with
  | none => s
  | some o =>
    let upd := fun (x : FOp) =>
      if x.id = id then { x with complete := true, outward := outward, fault := x.fault.or t, flags := flags } else x
    if noCtx ≤ o.ctx then s.mapFops (List.filter fun (x : FOp) => x.id != id)
    else
      let s := s.mapFops (List.map upd)
      if outward then s.markOutboundOf o.ctx else s

def execSendComplete (id : Nat) (lost : Bool) (s : State) : Host.Outcome State Fault Refusal :=
  s.event fun s =>
    match (s.fab.fops.find? fun o => o.id == id && !o.complete).map FOp.kind with
    | some (FKind.send peer _ _) =>
      if lost then
        let (t, s) := s.lostTrap peer.val
        s.endFop id (some t) 0 false
      else s.endFop id none 0 true
    | _ => s

/-! ## Posting (R342, R343, R345) -/

/-- The free posted-list entry that a free value chooses, counted among the numbers that do not stand in a rising list. -/
def freeEntry (k : Nat) : List Nat → Nat
  | [] => k
  | u :: l => if u ≤ k then freeEntry (k + 1) l else k

/-- The posted list has 4,096 entries. -/
def State.listFull (s : State) : Bool := 4096 ≤ s.fab.posted.length

/-- The first element for which a test holds leaves a list. -/
def removeFirst {α : Type} (p : α → Bool) : List α → List α
  | [] => []
  | x :: l => if p x then l else x :: removeFirst p l

/-- Posts a receive: the oldest laid-by message that it matches lands in it. Which free entry it takes is not stated. -/
def State.post (s : State) (r : Fin 16) (h : Handle) (mw kw cw : Word) : Posted × State :=
  let used := s.fab.posted.foldl (fun l (p : Posted) => insertNat p.entry l) []
  let (w, s) := s.freeValue
  let e := freeEntry (w.toNat % (4096 - used.length)) used
  let (id, s) := s.fresh
  let counter : Option (Fin 64) := if flag cw 6 then some (Fin.ofNat 64 (field cw 0 6)) else none
  let p : Posted := ⟨e, look 0 e s.fab.postGen, s.cid, s.system, r, h, mw, kw, counter, none, false, false, id, none, 0, false⟩
  let s := { s with fab := { s.fab with posted := s.fab.posted ++ [p] } }
  let fits := fun (x : Laid) => matches_ mw kw x.msg
  match s.fab.layby.find? fits with
  | some x =>
    let (m, s) := { s with fab := { s.fab with layby := removeFirst fits s.fab.layby } }.laidMessage x
    (p, (s.landIn id m true).reoffer)
  | none => (p, s.reoffer)

/-- The ticket of a posted receive (R342). -/
def Posted.ticket (p : Posted) : Word := fieldsWord [(0, 12, p.entry), (12, 20, p.gen)]

/-- The operands of a receive, checked; then the rest of the instruction. -/
def State.withReceive (s : State) (r : Fin 16) (a : Fin 8) (b : Src) (go : Handle → Word → Word → Word → State) : State :=
  let mw := s.readS (evenP a)
  let kw := s.readS (oddP a)
  let cw := s.readSrc b
  if badPeerWord mw || badPeerWord kw || field cw 7 57 != 0 then s.illegalNow 0x3C
  else s.withTensor r true fun h => go h mw kw cw

def execRpost (g h : Fin 16) (a : Fin 8) (b : Src) (e f : Bool) (s : State) : Host.Outcome State Fault Refusal :=
  s.syl (EngSyl.info s (.rpost g h a b e f)) fun s =>
    s.withReceive h a b fun x mw kw cw =>
      if s.listFull then s.push .long .queue (word (2 ^ 63))
      else
        let (p, s) := s.post h x mw kw cw
        s.push .long .queue p.ticket

/-- The status of a landing (R346). -/
def Posted.status (p : Posted) : Word :=
  match p.msg with
  | none => 0
  | some m =>
    fieldsWord [(32, 32, m.tag.toNat), (31, 1, (p.handle.bytes < m.payload.length : Bool).toNat),
      (30, 1, (m.payload.length < p.handle.bytes : Bool).toNat), (29, 1, p.fromLayby.toNat), (0, 6, m.src.val)]

/-- Waits for a landing, joins it, frees its entry and pushes its status. -/
def State.receiveWait (s : State) (p : Posted) (d : Dst) : State :=
  s.joinOps [p.join] fun s =>
    let s := { s with fab := s.fab.freePosts fun x => x.order == p.order }
    ({ s with cx := { s.cx with joinMark := 0 } }).push .s1 d p.status

/-- `rpost.w` posts once and then waits; `joinMark` numbers its post while it waits. -/
def execRpostW (g h : Fin 16) (a : Fin 8) (b : Src) (e f : Bool) (s : State) : Host.Outcome State Fault Refusal :=
  s.syl (EngSyl.info s (.rpostW g h a b e f)) fun s =>
    match s.fab.posted.find? fun p => p.order == s.cx.joinMark && s.cx.joinMark != 0 with
    | some p => s.receiveWait p .queue
    | none =>
      s.withReceive h a b fun x mw kw cw =>
        if s.listFull then s.blockBundle
        else
          let (p, s) := s.arrives.post h x mw kw cw
          let s := { s with cx := { s.cx with joinMark := p.order } }
          match s.fab.posted.find? fun q => q.order == p.order with
          | some p => s.receiveWait p .queue
          | none => s

/-! ## Tickets (R345) -/

/-- The receive that a ticket of this instance names, or cause 0x3D. -/
def State.withTicket (s : State) (t : Word) (go : Posted → State) : State :=
  match s.fab.posted.find? fun p => p.ticket == t && p.ctx == s.cid with
  | some p => go p
  | none => s.illegalNow 0x3D

def execRcancel (g : Fin 16) (d : Dst) (a : Src) (e : Bool) (s : State) : Host.Outcome State Fault Refusal :=
  s.syl (EngSyl.info s (.rcancel g d a e)) fun s =>
    s.withTicket (s.readSrc a) fun p =>
      if p.msg.isSome then s.push .long d 0
      else ({ s with fab := s.fab.freePosts fun x => x.order == p.order }).push .long d 1

/-- `rprobe`: a counter, zeroed in the same step when asked. -/
def execRprobe (g : Fin 16) (d : Dst) (a : Src) (e : Bool) (s : State) : Host.Outcome State Fault Refusal :=
  s.syl (EngSyl.info s (.rprobe g d a e)) fun s =>
    let w := s.readSrc a
    if w &&& ~~~ 0x13F#64 != 0 then s.illegalNow 0x3C
    else
      let k := field w 0 6
      let v := look 0 k s.fab.counters
      let s := s.push .long d (v.setWidth 64)
      if flag w 8 then { s with fab := { s.fab with counters := put k 0 s.fab.counters } } else s

def execRwait (g : Fin 16) (d : Dst) (a : Src) (e : Bool) (s : State) : Host.Outcome State Fault Refusal :=
  s.syl (EngSyl.info s (.rwait g d a e)) fun s => s.withTicket (s.readSrc a) fun p => s.receiveWait p d

def execRlbQ (g : Fin 16) (d : Dst) (a : Fin 8) (e : Bool) (s : State) : Host.Outcome State Fault Refusal :=
  s.syl (EngSyl.info s (.rlbQ g d a e)) fun s =>
    let mw := s.readS (evenP a)
    let kw := s.readS (oddP a)
    if badPeerWord mw || badPeerWord kw then s.illegalNow 0x3C
    else s.push .long d (word (s.fab.layby.filter fun x => matches_ mw kw x.msg).length)

/-! ## Arrivals and landings (R343, R344) -/

/-- A message arrives, or a withheld one is offered again. -/
def execMessageHeaderArrival (m : MsgArrival) (s : State) : Host.Outcome State Fault Refusal :=
  s.event fun s => if s.fab.withheldMsgs.contains m then s.reoffer else s.arriveMsg m

/-- The bytes that land, each with its poison, cut into elements. -/
def landingBytes (m : MsgArrival) (size n : Nat) : List EngBytes :=
  let bs : EngBytes := (m.payload.take (size * n)).zipIdx.map fun x => (x.1, m.poison.contains x.2)
  chunksOf size bs.length bs

/-- A landing is complete: its counter is incremented, a release of the bytes it has written (R344); nobody joins the landing of a context
that has ended. -/
def State.landed (s : State) (p : Posted) (m : MsgArrival) (outward : Bool) (t : Option Trap) : State :=
  let s := s.dropKept p.order
  let upd := fun (x : Posted) => if x.order = p.order then { x with landed := true, fault := t } else x
  let s := if p.ctx = noCtx then { s with fab := s.fab.freePosts fun x => x.order == p.order } else s.mapPosted (List.map upd)
  let s := match p.counter with
    | some k => { s with fab := { s.fab with counters := put k.val (look 0 k.val s.fab.counters + 1) s.fab.counters } }
    | none => s
  let s := if outward && p.ctx < noCtx then s.markOutboundOf p.ctx else s
  if p.fromLayby then s else s.delivered m m.payload.length

def Posted.who (p : Posted) : Who := ⟨p.ctx, p.system, some p.order⟩

/-- The writes of a landing, element by element. -/
def State.landingItems (s : State) (p : Posted) (m : MsgArrival) : List (Addr × EngBytes) :=
  let bs := landingBytes m (typeSize (Desc.type p.handle.desc)) p.handle.count
  (s.rowElems p.who p.reg p.handle bs.length true).zip bs

/-- A landing whose writes are done, or stopped by a fault, is complete once those at peers are acknowledged. -/
def State.endLanding (s : State) (p : Posted) (m : MsgArrival) (total : Nat) (went : Bool) : State :=
  if (p.fault.isSome || p.pos = total) && !s.engAwaits p.order then s.landed p m (p.outward && p.fault.isNone) p.fault
  else if went then { s.mapPosted (List.map fun (x : Posted) => if x.order = p.order then p else x) with evt := .done }
  else { s with evt := .stall }

/-- The landing in entry e writes its bytes. It waits while the tile of an element is being converted (R87), and where a write has to
wait it goes on from there. -/
def execLandingComplete (e : Nat) (s : State) : Host.Outcome State Fault Refusal :=
  s.event fun s =>
    match s.fab.posted.find? fun p => p.entry == e && p.msg.isSome && !p.landed with
    | none => s
    | some p =>
      match p.msg with
      | none => s
      | some m =>
        let s := s.touchDone p.who p.handle
        let l := s.landingItems p m
        if p.fault.isSome || p.pos = l.length then s.endLanding p m l.length false
        else
          let (w, s) := s.writeItems p.who (l.drop p.pos)
          s.endLanding { p with pos := p.pos + w.count, outward := p.outward || w.outward, fault := w.fault } m l.length
            (w.count != 0 || w.fault.isSome)

end Sys2Proof.Machine
end

