-- ==== Sys2Proof/Machine/Rings.lean ====
section
/-! DEFINITION. Rings and collectives (R347 to R352, R390, R391): control words, the contribution of this member, the reductions in ring
order, `coll.bar`, and the noise registers. -/

namespace Sys2Proof.Machine

/-! ## Element arithmetic (R349) -/

/-- The greater or lesser integer code of a type. -/
def pickInt (t : Nat) (max : Bool) (a b : Nat) : Nat := if (typeInt t a < typeInt t b) = max then b else a

/-- One step of a reduction on FP32 codes: sum, max, min. -/
def floatStep (op : Nat) (r : Rounding) (a b : Nat) : Nat × FFlags :=
  if op = 0 then fpAdd Fmt.f32 r a b else if op = 1 then fpMax Fmt.f32 r a b else fpMin Fmt.f32 r a b

def intStep (t op a b : Nat) : Nat :=
  if op = 0 then (a + b) % 2 ^ (8 * typeSize t) else pickInt t (op == 1) a b

/-- The element that a reduction gives, from the members' values in the order of `red_element`. -/
def reduceElem (t op : Nat) (rm : BitVec 2) (sat8 : Bool) (xs : List Nat) : Nat × FFlags :=
  match typeFmt t with
  | some f =>
    let cs := xs.map fun c => (Fmt.f32.encode Rounding.rne (f.decode c)).1
    let acc := cs.tail.foldl (fun (a : Nat × FFlags) c =>
      let y := floatStep op ⟨rm, false⟩ a.1 c
      (y.1, a.2 ||| y.2)) (cs.headD 0, 0)
    let y := f.encode ⟨rm, sat8⟩ (Fmt.f32.decode acc.1)
    (y.1, acc.2 ||| y.2)
  | none => (xs.tail.foldl (intStep t op) (xs.headD 0), 0)

/-- An element as a binary64 code (R352). -/
def toF64 (t code : Nat) : Nat :=
  match typeFmt t with
  | some f => (Fmt.f64.encode Rounding.rne (f.decode code)).1
  | none => (Fmt.f64.encode Rounding.rne (Fp.ofInt (typeInt t code))).1

def addF64 (a b : Nat) : Nat := (fpAdd Fmt.f64 Rounding.rne a b).1

/-- The sum of the squares of elements, in increasing index. -/
def sumSquares (t : Nat) (xs : List Nat) : Nat :=
  xs.foldl (fun acc c => let x := toF64 t c; addF64 acc (fpMul Fmt.f64 Rounding.rne x x).1) 0

/-! ## Rings (R347) -/

def State.ring (s : State) (r : Fin 16) : Option Ring := (s.fab.rings.find? (·.1 == r.val)).map Prod.snd

def FKind.ringOf : FKind → Option (Fin 16)
  | .coll r _ _ _ _ _ _ _ _ _ => some r
  | .bar r _ => some r
  | .send _ _ _ => none

def FKind.isColl : FKind → Bool
  | .coll _ _ _ _ _ _ _ _ _ _ => true
  | _ => false

/-- Collectives of the device on a ring that are not complete. -/
def State.ringBusy (s : State) (r : Fin 16) : Nat :=
  (s.fab.fops.filter fun o => o.kind.isColl && o.kind.ringOf == some r && !o.complete).length

/-- The members that a ring descriptor names; none when it is invalid. -/
def State.ringMembers (s : State) (bs : List Byte) : Option (List (Fin 64)) :=
  let ms := bs.takeWhile (· != 0xFF)
  let ns := ms.map BitVec.toNat
  if ms.length < 2 || (bs.drop ms.length).any (· != 0xFF) || ns.any (64 ≤ ·) || !ns.Nodup || !ns.contains s.device then none
  else some (ns.map (Fin.ofNat 64))

/-- Sets or clears a ring, and its claim to circuits (R375). -/
def State.setRing (s : State) (r : Fin 16) (x : Option Ring) : State :=
  let others := s.fab.rings.filter (·.1 != r.val)
  let pinned := match x with
    | some x => x.pinned
    | none => false
  let claim := if pinned then some r else if s.fab.circuitRing = some r then none else s.fab.circuitRing
  { s with fab := { s.fab with rings := (match x with | some x => (r.val, x) :: others | none => others), circuitRing := claim } }

def execCollRing (g : Fin 16) (a b : Src) (e f : Bool) (s : State) : Host.Outcome State Fault Refusal :=
  s.syl (EngSyl.info s (.collRing g a b e f)) fun s =>
    let w := s.readSrc a
    let r : Fin 16 := Fin.ofNat 16 (field w 0 4)
    if w &&& ~~~ 0x30F#64 != 0 then s.illegalNow 0x3E
    else if s.ringBusy r ≠ 0 then s.blockBundle
    else if flag w 9 then s.setRing r none
    else
      match s.readBlocking s.who true [] .g (s.readSrc b) 64 with
      | .error s => s
      | .ok (bs, s) =>
        let taken := match s.fab.circuitRing with
          | some q => q != r
          | none => false
        match s.ringMembers bs with
        | none => s.illegalNow 0x3E
        | some ms => if flag w 8 && taken then s.illegalNow 0x3E else s.setRing r (some ⟨ms, flag w 8⟩)

/-! ## Issuing a collective (R348) -/

/-- Every element of a tensor can be written. -/
def State.checkWrites (s : State) (w : Who) (size : Nat) : List Addr → Except Trap Unit × State
  | [] => (.ok (), s)
  | .at_ x0 ea :: l =>
    match s.engResolve w x0 ea size .write with
    | (.error t, s) => (.error t, s)
    | (.ok _, s) => s.checkWrites w size l
  | .fault t :: _ => (.error t, s)
  | .wait :: l => s.checkWrites w size l

/-- The elements of this member's tensor, read and checked for writing. -/
def State.collTensor (s : State) (w : Who) (r : Fin 16) (h : Handle) : Except Trap (List EngBytes) × State :=
  match s.readTensor w r h with
  | (.error t, s) => (.error t, s)
  | (.ok bs, s) =>
    match s.checkWrites w (typeSize (Desc.type h.desc)) (s.rowElems w r h h.count true) with
    | (.error t, s) => (.error t, s)
    | (.ok _, s) => (.ok bs, s)

/-- Some member of a ring that cannot be reached. -/
def State.unreachedOf (s : State) (ms : List (Fin 64)) : Option (Fin 64) := ms.find? fun p => !s.reachable p.val

/-- The device's own position in a ring. -/
def State.ringPos (s : State) (ms : List (Fin 64)) : Nat := ms.findIdx (·.val == s.device)

/-- The ring's circuits are in force (R375). -/
def State.onCircuits (s : State) (r : Fin 16) : Bool :=
  s.fab.profile == 1 && s.fab.circuits.isSome && s.fab.circuitRing == some r

/-- The members to whom this device sends what it has of a member's part: on circuits the next member of the ring, if the part is not its
own, which hands it on; else, of its own part, every other member (R375, R390; assumption 102). -/
def State.ringNext (s : State) (r : Fin 16) (ms : List (Fin 64)) (c : CollPeer) : List (Fin 64) :=
  let others := ms.filter (·.val != s.device)
  if s.onCircuits r then
    let next := ms.getD ((s.ringPos ms + 1) % ms.length) 0
    others.filter fun p => p == next && p != c.dev
  else if c.dev.val = s.device then others else []

/-- This device tells other members a part. -/
def State.tellRing (s : State) (r : Fin 16) (ms : List (Fin 64)) (c : CollPeer) : State :=
  (s.ringNext r ms c).foldl (fun s p => s.send (.collective p r c)) s

/-- On circuits the parts of the other members go on to the next one. -/
def State.passParts (s : State) (r : Fin 16) (ms : List (Fin 64)) (xs : List CollPeer) : State :=
  xs.foldl (fun s c => if c.dev.val = s.device then s else s.tellRing r ms c) s

/-- A control word is refused for a kind of collective. -/
def badControl (kind : Nat) (w : Word) : Bool :=
  let op := field w 4 2
  field w 7 25 != 0 || op == 3 || (op != 0 && !(kind == 0x0A || kind == 0x0C)) || (flag w 6 && kind != 0x0A)

/-- The contribution of an operation of this device. -/
def State.contribution (s : State) (ms : List (Fin 64)) (o : FOp) : CollPeer :=
  match o.kind with
  | .coll _ kind op _ tag _ h xs bad failed =>
    ⟨Fin.ofNat 64 s.device, s.ringPos ms, kind, tag, op, Desc.type h.desc, h.count, ms, xs, bad, failed, o.rm, o.sat8,
      word (sumSquares (Desc.type h.desc) (xs.map BitVec.toNat))⟩
  | .bar _ tag => ⟨Fin.ofNat 64 s.device, s.ringPos ms, 0x0E, tag, 0, 0, 0, ms, [], [], false, 0, false, 0⟩
  | .send _ _ _ => ⟨Fin.ofNat 64 s.device, 0, 0, 0, 0, 0, 0, ms, [], [], false, 0, false, 0⟩

/-- A collective or `coll.bar` begins: it fails at once when a member is lost. -/
def State.beginColl (s : State) (r : Fin 16) (ms : List (Fin 64)) (o : FOp) : State :=
  match s.unreachedOf ms with
  | some p =>
    let (t, s) := s.lostTrap p.val
    s.addFop { o with complete := true, fault := o.fault.or (some t) }
  | none => (s.addFop o).tellRing r ms (s.contribution ms o)

/-- Issues a collective of a kind on the tensor in h_k. -/
def State.collective (s : State) (kind : Nat) (k : Fin 16) (w : Word) : State :=
  let r : Fin 16 := Fin.ofNat 16 (field w 0 4)
  match s.ring r with
  | none => s.illegalNow 0x3E
  | some ring =>
    if badControl kind w then s.illegalNow 0x3E
    else s.withTensor k true fun h =>
      if s.fabricFull || 4 ≤ s.ringBusy r then s.blockBundle
      else
        let (id, u) := s.fresh
        let u := u.markInst fun i => { i with sent := true }
        let mk := fun (xs : List Word) (bad : List Nat) (failed : Bool) =>
          FKind.coll r kind (field w 4 2) (flag w 6) (BitVec.ofNat 32 (field w 32 32)) k h xs bad failed
        let x := u.collTensor ⟨u.cid, u.system, some id⟩ k h
        if x.2.evt.isHub then (s.notYet x.2).blockBundle
        else match x with
        | (.error t, s) => s.beginColl r ring.members { s.newFop id (mk [] [] true) with fault := some t }
        | (.ok bs, s) =>
          let xs := bs.map fun b => word (ofBytes (b.map (·.1)))
          let bad := (bs.zipIdx.filter fun x => x.1.any (·.2)).map Prod.snd
          s.beginColl r ring.members (s.newFop id (mk xs bad false))

def execCollRed (g h : Fin 16) (a : Src) (e : Bool) (s : State) : Host.Outcome State Fault Refusal :=
  s.syl (EngSyl.info s (.collRed g h a e)) fun s => s.collective 0x0A h (s.readSrc a)

def execCollAg (g h : Fin 16) (a : Src) (e : Bool) (s : State) : Host.Outcome State Fault Refusal :=
  s.syl (EngSyl.info s (.collAg g h a e)) fun s => s.collective 0x0B h (s.readSrc a)

def execCollRs (g h : Fin 16) (a : Src) (e : Bool) (s : State) : Host.Outcome State Fault Refusal :=
  s.syl (EngSyl.info s (.collRs g h a e)) fun s => s.collective 0x0C h (s.readSrc a)

def execCollA2a (g h : Fin 16) (a : Src) (e : Bool) (s : State) : Host.Outcome State Fault Refusal :=
  s.syl (EngSyl.info s (.collA2a g h a e)) fun s => s.collective 0x0D h (s.readSrc a)

/-! ## `coll.bar` and `coll.st` (R351) -/

/-- The wait for the other members' arrivals. -/
def State.barWait (s : State) (o : FOp) : State :=
  s.joinOps [o.join] fun s => { s with cx := { s.cx with joinMark := 0 } }

/-- The arrival: everything that an `mls` does before its count (R122). `joinMark` numbers the arrival while it waits. -/
def State.barArrive (s : State) (r : Fin 16) (ms : List (Fin 64)) (w : Word) : State :=
  s.release fun s => s.joinOps s.allJoins fun s =>
    if s.ownRelayouts.any fun x => x.state == .active then s.blockBundle
    else if s.draining then s.blockBundle
    else
      let s := s.arrives.commitHere.markInst fun i => { i with arrived := true }
      let (id, s) := s.fresh
      let s := s.beginColl r ms (s.newFop id (.bar r (BitVec.ofNat 32 (field w 32 32))))
      let s := { s with cx := { s.cx with joinMark := id } }
      match s.fab.fops.find? fun o => o.id == id with
      | some o => s.barWait o
      | none => s

def execCollBar (g : Fin 16) (a : Src) (e : Bool) (s : State) : Host.Outcome State Fault Refusal :=
  s.syl (EngSyl.info s (.collBar g a e)) fun s =>
    match s.fab.fops.find? fun o => o.id == s.cx.joinMark && s.cx.joinMark != 0 with
    | some o => s.barWait o
    | none =>
      let w := s.readSrc a
      let r : Fin 16 := Fin.ofNat 16 (field w 0 4)
      match s.ring r with
      | none => s.illegalNow 0x3E
      | some ring => if field w 4 28 ≠ 0 then s.illegalNow 0x3E else s.barArrive r ring.members w

def execCollSt (g : Fin 16) (d : Dst) (s : State) : Host.Outcome State Fault Refusal :=
  s.syl (EngSyl.info s (.collSt g d)) fun s =>
    let mine := s.fab.fops.filter fun o => o.ctx == s.cid && o.kind.isColl
    let open_ := (mine.filter fun o => !o.complete).length
    let bad := mine.any fun o => o.complete && o.fault.isSome
    s.push .s1 d (fieldsWord [(0, 16, open_), (16, 1, bad.toNat)])

/-! ## Executing a collective (R349, R350) -/

/-- Chunk c of N elements among G members: its first element and the one past its last. -/
def chunkOf (n g c : Nat) : Nat × Nat := (c * n / g, (c + 1) * n / g)

/-- The chunk that element i lies in. -/
def chunkAt (n g i : Nat) : Nat := ((List.range g).find? fun c => i < (chunkOf n g c).2).getD 0

/-- Element i at member q, and whether it is poisoned. -/
def memberElem (c : CollPeer) (i : Nat) : Nat × Bool := ((c.elems.getD i 0).toNat, c.poison.contains i)

/-- The reduction of element i over the members in position order, rounded as its owner rounds. -/
def reducedAt (xs : List CollPeer) (i : Nat) (blank : CollPeer) : (Nat × Bool) × FFlags :=
  let g := xs.length
  let o := xs.getD (chunkAt blank.count g i) blank
  let c := chunkAt blank.count g i
  let terms := (List.range g).map fun t => memberElem (xs.getD ((c + t + 1) % g) blank) i
  let y := reduceElem blank.ety blank.op o.rm o.sat8 (terms.map Prod.fst)
  ((y.1, terms.any Prod.snd), y.2)

/-- The element that member p ends with, if the collective gives it one; `free` stands for a value that is not stated. -/
def collElem (xs : List CollPeer) (mine : CollPeer) (free : Nat → Word) (i : Nat) : Option ((Nat × Bool) × FFlags) :=
  let g := xs.length
  let p := mine.pos
  let c := chunkAt mine.count g i
  match mine.kind with
  | 0x0A => some (reducedAt xs i mine)
  | 0x0B => if c = p then none else some (memberElem (xs.getD c mine) i, 0)
  | 0x0C => if c = p then some (reducedAt xs i mine) else none
  | _ =>
    if c = p then none
    else
      let j := (chunkOf mine.count g p).1 + (i - (chunkOf mine.count g c).1)
      if j < (chunkOf mine.count g p).2 then some (memberElem (xs.getD c mine) j, 0)
      else some (((free i).toNat % 2 ^ (8 * typeSize mine.ety), false), 0)

/-- The members agree (R348). -/
def membersAgree (a b : CollPeer) : Bool :=
  a.kind == b.kind && a.tag == b.tag && a.op == b.op && a.ety == b.ety && a.count == b.count && a.ring == b.ring

/-- The fault of members that disagree. The address that EADDR holds is not stated. -/
def State.disagree (s : State) : Trap × State :=
  let (a, s) := s.freeValue
  (⟨0x01, a, bundleInfo 0 7 false 0x3F⟩, s)

/-- The noise registers of a context take a collective's sums (R352). -/
def State.addNoise (s : State) (c : Nat) (xs : List CollPeer) (mine : CollPeer) (out : List Nat) : State :=
  let group := (xs.drop 1).foldl (fun acc (x : CollPeer) => addF64 acc x.localSq.toNat) ((xs.headD mine).localSq.toNat)
  let red := sumSquares mine.ety out
  let add := fun (w : Word) (v : Nat) => word (addF64 w.toNat v)
  s.modCtx c fun x => { x with regs := { x.regs with
    noise := gen 4 fun k =>
      let w := at_ x.regs.noise k 0
      if k = 0 then add w mine.localSq.toNat else if k = 1 then add w group else if k = 2 then add w red else w + 1 } }

/-- A fabric operation as it goes on. -/
def State.setFop (s : State) (o : FOp) : State := s.mapFops (List.map fun (x : FOp) => if x.id = o.id then o else x)

/-- The members have met and agree: the tensor takes its final values. It waits while a tile is being converted (R87), and where a write
has to wait it goes on from there; it is complete once its writes at peers are acknowledged. -/
def State.runColl (s : State) (o : FOp) (xs : List CollPeer) (mine : CollPeer) (noise : Bool) (r : Fin 16) (h : Handle) : State :=
  let k := s.freeCount
  let es := (List.range h.count).map fun i => collElem xs mine (fun j => Config.freeWord (k + j)) i
  let w : Who := ⟨o.ctx, o.system, some o.id⟩
  let t := { s with freeCount := k + h.count }.touchDone w h
  let size := typeSize (Desc.type h.desc)
  let outs := ((t.rowElems w r h h.count true).zip es).filterMap fun x =>
    match x.2 with
    | some v => some (x.1, (bytesOf size v.1.1).map fun b => (b, v.1.2))
    | none => none
  let (done, t) := t.writeItems w (outs.drop o.pos)
  let o := { o with pos := o.pos + done.count, outward := o.outward || done.outward, fault := o.fault.or done.fault, met := some xs }
  if (o.fault.isSome || o.pos = outs.length) && !t.engAwaits o.id then
    match o.fault with
    | some f => t.endFop o.id (some f) 0 false
    | none =>
      let fl := es.foldl (fun acc e => match e with | some v => acc ||| v.2 | none => acc) 0
      let t := if noise && o.ctx < noCtx then t.addNoise o.ctx xs mine (es.map fun e => (e.map fun v => v.1.1).getD 0) else t
      t.endFop o.id none fl (o.outward || 1 < xs.length)
  else if done.count = 0 ∧ done.fault = none then { s.setFop o with evt := .stall }
  else { t.setFop o with evt := .done }

/-- The oldest operation on a ring that an execution concerns: one of the kind that the other members name. -/
def State.ringOp (s : State) (r : Fin 16) (peers : List CollPeer) : Option FOp :=
  let bar := peers.all fun (c : CollPeer) => c.kind == 0x0E
  s.fab.fops.find? fun o => o.kind.ringOf == some r && !o.complete && (peers.isEmpty || o.kind.isColl == !bar)

/-- The members of a ring in position order, this device's contribution among them; none while one is missing. -/
def memberList (ms : List (Fin 64)) (mine : CollPeer) (peers : List CollPeer) : Option (List CollPeer) :=
  ms.mapM fun d => if d = mine.dev then some mine else peers.find? fun c => c.dev == d

/-- Flits of a member's part of a collective: a header and its elements. -/
def partFlits (c : CollPeer) : Nat := messageFlits (c.elems.length * typeSize c.ety)

/-- The parts of the other members leave their bays. -/
def State.freeParts (s : State) (xs : List CollPeer) : State :=
  (xs.filter (·.dev.val != s.device)).foldl (fun s c => s.freeFlits c.dev 0 (partFlits c)) s

/-- The members, in position order, differ in what R348 compares, or stand at other positions. -/
def membersDiffer (mine : CollPeer) (xs : List CollPeer) : Bool :=
  xs.zipIdx.any fun x => x.1.failed || !membersAgree x.1 mine || x.1.pos != x.2

/-- The member that is lost: one that cannot be reached, else the first other one. -/
def State.lostMember (s : State) (ms : List (Fin 64)) : Nat :=
  match (s.unreachedOf ms).or (ms.find? fun p => p.val != s.device) with
  | some p => p.val
  | none => 0

/-- The members of a ring have issued their i-th collective, or one of them is lost. -/
def execCollectiveExecute (r : Fin 16) (peers : List CollPeer) (lost : Bool) (s : State) : Host.Outcome State Fault Refusal :=
  s.event fun s =>
    match s.ringOp r peers, s.ring r with
    | some o, some ring =>
      if lost then
        let (t, s) := s.lostTrap (s.lostMember ring.members)
        s.endFop o.id (some t) 0 false
      else
        let mine := s.contribution ring.members o
        match o.met.or (memberList ring.members mine peers) with
        | none => s
        | some xs =>
          let s := if o.met.isSome then s else (s.freeParts xs).passParts r ring.members xs
          match o.kind with
          | .coll _ _ _ noise _ k h _ _ failed =>
            if failed then s.endFop o.id o.fault 0 false
            else if membersDiffer mine xs then
              let (t, s) := s.disagree
              s.endFop o.id (some t) 0 false
            else s.runColl o xs mine noise k h
          | _ => ({ s with fab := { s.fab with barPhase := s.fab.barPhase ^^^ (1#16 <<< r.val) } }).endFop o.id none 0 false
    | _, _ => s

/-! ## Noise registers (R352) -/

def execNoiseRd (g : Fin 16) (d : Dst) (n : Fin 4) (s : State) : Host.Outcome State Fault Refusal :=
  s.syl (EngSyl.info s (.noiseRd g d n)) fun s => s.push .s1 d s.cx.regs.noise[n]

def execNoiseClr (g : Fin 16) (s : State) : Host.Outcome State Fault Refusal :=
  s.syl (EngSyl.info s (.noiseClr g)) fun s => s.modRegs fun r => { r with noise := Vector.replicate 4 0 }

end Sys2Proof.Machine
end

