-- ==== Sys2Proof/Machine/Optics.lean ====
section
/-! DEFINITION. Webenlight (R353, R354, R366 to R389): the fabric's queries and controls, links with their flits, allowance, bays and
replay, relays, the rotor's slots and periods, drift and reserve lines, profiles, lost members, and draining. -/

namespace Sys2Proof.Machine

/-! ## Queries (R353) -/

/-- The relay of the first detoured position toward a shift. -/
def Fabric.detourOf (f : Fabric) (w : Nat) : Option Nat :=
  (List.range 32).findSome? fun k => (List.range f.plen).findSome? fun t => (List.range 8).findSome? fun l =>
    let e := f.entry k t l
    if entrySends e && entryShift e == w && entryDetour e then some (entryRelay e) else none

def execFpeer (g : Fin 16) (d : Dst) (a : Src) (e : Bool) (s : State) : Host.Outcome State Fault Refusal :=
  s.syl (EngSyl.info s (.fpeer g d a e)) fun s =>
    let p := (s.readSrc a).toNat
    if 64 ≤ p then s.illegalNow 0x2C
    else
      let w := (p + 64 - s.device) % 64
      let detour := match s.fab.detourOf w with
        | some r => [(62, 1, 1), (8, 6, r)]
        | none => []
      s.push .s3 d (fieldsWord ([(63, 1, (flag s.fab.podmask p).toNat), (0, 6, w)] ++ detour))

/-- An entry as read: the SHIFT of a spare position of the ring profile is not stated. -/
def State.shownEntry (s : State) (plane slot lane : Nat) : Nat × State :=
  let e := s.fab.entry plane slot lane
  if s.fab.profile = 1 ∧ e = slotEntry 3 0 then
    let (w, s) := s.freeValue
    (3 * 2 ^ 14 + field w 8 6 * 2 ^ 8, s)
  else (e.toNat, s)

def execFslot (g : Fin 16) (d : Dst) (a : Src) (e : Bool) (s : State) : Host.Outcome State Fault Refusal :=
  s.syl (EngSyl.info s (.fslot g d a e)) fun s =>
    let w := s.readSrc a
    if 2 ^ 16 ≤ w.toNat || s.fab.plen ≤ field w 8 8 then s.illegalNow 0x2C
    else
      let (x, s) := s.shownEntry (field w 0 5) (field w 8 8) (field w 5 3)
      s.push .s3 d (fieldsWord [(0, 16, x), (16, 8, s.fab.plen)])

/-- A link of this device. -/
def Fabric.link (f : Fabric) (plane : Nat) (peer : Fin 64) : Option Link :=
  f.links.find? fun x => x.plane == plane && x.peer == peer

/-- The allowance of a link (R379). -/
def Link.allowance (x : Link) : BitVec 32 := x.peerFreed - x.sent + 64

def execFbays (g : Fin 16) (d : Dst) (a : Src) (e : Bool) (s : State) : Host.Outcome State Fault Refusal :=
  s.syl (EngSyl.info s (.fbays g d a e)) fun s =>
    let w := s.readSrc a
    if w &&& ~~~ 0x3F1F#64 != 0 then s.illegalNow 0x2C
    else
      let v : BitVec 32 := match s.fab.link (field w 0 5) (Fin.ofNat 64 (field w 8 6)) with
        | some x => x.allowance
        | none => 64
      s.push .s3 d (v.setWidth 64)

/-! ## Controls (R354) -/

def execFevt (g : Fin 16) (d : Dst) (s : State) : Host.Outcome State Fault Refusal :=
  s.syl (EngSyl.info s (.fevt g d)) fun s =>
    ({ s with fab := { s.fab with log := s.fab.log.drop 1 } }).push .long d (s.fab.log.headD 0)

def execFretune (g : Fin 16) (a : Src) (e : Bool) (s : State) : Host.Outcome State Fault Refusal :=
  s.syl (EngSyl.info s (.fretune g a e)) fun s =>
    let w := s.readSrc a
    if w &&& ~~~ 0x103#64 != 0 || 2 ≤ field w 0 2 then s.illegalNow 0x2C
    else { s with fab := { s.fab with windowPend := s.fab.windowPend ++ [(field w 0 2, flag w 8)] } }

/-- The period at whose start a change named for period n is installed: the next one if it has passed. -/
def Fabric.installAt (f : Fabric) (n : Nat) : Nat :=
  let now := f.periodno.toNat
  let ahead := (n + 2 ^ 32 - now % 2 ^ 32) % 2 ^ 32
  if ahead = 0 ∨ 2 ^ 31 ≤ ahead then now + 1 else now + ahead

/-- Adds a change of an entry, to wait for its period (R371). -/
def State.installEntry (s : State) (plane slot lane : Nat) (e : BitVec 16) (period : Nat) : State :=
  { s with fab := { s.fab with changes := s.fab.changes ++ [⟨plane, lane, slot, e, period⟩] } }

def mapLink (plane : Nat) (peer : Fin 64) (f : Link → Link) (l : List Link) : List Link :=
  l.map fun (x : Link) => if x.plane = plane ∧ x.peer = peer then f x else x

def State.modLink (s : State) (plane : Nat) (peer : Fin 64) (f : Link → Link) : State :=
  { s with fab := { s.fab with links := mapLink plane peer f s.fab.links } }

/-- `frepair` installs an entry, and clears the failure of the link that it names (R380). -/
def execFrepair (g : Fin 16) (a b : Src) (e f : Bool) (s : State) : Host.Outcome State Fault Refusal :=
  s.syl (EngSyl.info s (.frepair g a b e f)) fun s =>
    let x := s.readSrc a
    let y := s.readSrc b
    if 2 ^ 16 ≤ x.toNat || field y 16 16 != 0 || s.fab.plen ≤ field x 8 8 then s.illegalNow 0x2C
    else
      let ent : BitVec 16 := BitVec.ofNat 16 (field y 0 16)
      let s := s.installEntry (field x 0 5) (field x 8 8) (field x 5 3) ent (s.fab.installAt (field y 32 32))
      s.modLink (field x 0 5) (Fin.ofNat 64 (s.shiftPeer (entryShift ent))) fun (l : Link) => { l with failed := false }

/-- Grants or revokes a line to a lane (R366, R367). -/
def State.grant (s : State) (line plane lane : Nat) (on : Bool) : State :=
  let k := (line, plane, lane)
  if line < 64 then
    let l := s.fab.withheld.filter (· != k)
    { s with fab := { s.fab with withheld := if on then l else k :: l } }
  else
    let l := s.fab.granted.filter (· != k)
    { s with fab := { s.fab with granted := if on then k :: l else l } }

/-- A reserve line has room for another lane: 4 on the line, 16 on the device. -/
def Fabric.reserveRoom (f : Fabric) (line : Nat) : Bool := (f.holders line).length < 4 && f.granted.length < 16

def execFgrant (g : Fin 16) (a : Src) (e : Bool) (s : State) : Host.Outcome State Fault Refusal :=
  s.syl (EngSyl.info s (.fgrant g a e)) fun s =>
    let w := s.readSrc a
    let line := field w 0 7
    let plane := field w 7 5
    let lane := field w 12 3
    if flag w 15 && 64 ≤ line && !s.fab.granted.contains (line, plane, lane) && !s.fab.reserveRoom line then
      s.illegalNow 0x2B
    else if 2 ^ 16 ≤ w.toNat then s.illegalNow 0x2C
    else s.grant line plane lane (flag w 15)

/-! ## Flits (R376, R377) -/

/-- One bit of the CRC-16. -/
def crc16Bit (c : BitVec 16) (b : Bool) : BitVec 16 := if c.msb != b then (c <<< 1) ^^^ 0x1021 else c <<< 1

/-- The CRC-16 over bytes, the highest bit of each first (assumption 95). -/
def crc16Bytes (c : BitVec 16) (bs : List Byte) : BitVec 16 :=
  bs.foldl (fun c b => (List.range 8).foldl (fun c i => crc16Bit c (b.getLsbD (7 - i))) c) c

/-- The CRC of a flit: over its data bytes, then trailer bits [31:16]. -/
def flitCrc (seq : BitVec 12) (kind : BitVec 4) (data : BitVec 128) : BitVec 16 :=
  crc16Bytes 0xFFFF (bytesOf 16 data.toNat ++ [(seq ++ kind).extractLsb' 8 8, (seq ++ kind).extractLsb' 0 8])

def mkFlit (seq : BitVec 12) (kind : BitVec 4) (data : BitVec 128) : Flit := ⟨seq, kind, data, flitCrc seq kind data⟩

def flitGood (f : Flit) : Bool := f.crc == flitCrc f.seq f.kind f.data

/-- The data bytes of a control flit. -/
def ctlBits (c : CtlFlit) : BitVec 128 := c.mark ++ (0 : BitVec 2) ++ c.rate ++ c.ack ++ c.freed ++ c.sent

/-- The fields of a control flit's data bytes. -/
def ctlOf (d : BitVec 128) : CtlFlit :=
  ⟨d.extractLsb' 0 32, d.extractLsb' 32 32, d.extractLsb' 64 12, d.extractLsb' 76 2, d.extractLsb' 80 48⟩

/-! ## Links (R376 to R380) -/

/-- A link that has just trained: sequences start at 0. -/
def Link.fresh (plane : Nat) (peer : Fin 64) (rate : BitVec 2) : Link where
  plane := plane
  peer := peer
  rate := rate
  failed := false
  pause := none
  want := 0
  asked := 0
  initiator := none
  sent := 0
  peerFreed := 0
  freed := 0
  nextSeq := 0
  expected := 0
  queue := []
  replay := []
  bays := []
  cls := 0
  held := none
  stalls := 0
  resync := false

/-- Sequence of the last flit accepted in order. -/
def Link.ack (x : Link) : BitVec 12 := x.expected - 1

/-- Data-flit intervals of a position at a rate: all but the first (R376). -/
def rateFlits (rate : BitVec 2) : Nat :=
  match rate with
  | 0 => 0
  | 1 => 149
  | 2 => 74
  | _ => 36

/-- The operations whose flits are all acknowledged among those that have just been: none of their flits waits or is unacknowledged. -/
def Fabric.doneOps (f : Fabric) (acked : List TxFlit) : List Nat :=
  let ops := (acked.filterMap fun (r : TxFlit) => r.flit.op).eraseDups
  ops.filter fun o =>
    !((f.txq.any fun p => p.op == some o) ||
      (f.links.any fun (x : Link) => (x.queue.any fun q => q.op == some o) || (x.replay.any fun r => r.flit.op == some o)))

/-- Drops the flits up to a sequence number, when it is among them. -/
def dropAcked (ack : BitVec 12) (l : List TxFlit) : List TxFlit × List TxFlit :=
  match l.findIdx? fun r => r.seq == ack with
  | some i => (l.take (i + 1), l.drop (i + 1))
  | none => ([], l)

/-- A flit goes on the wire as a header of a relayed message (R383). -/
def LinkFlit.relayed (f : LinkFlit) : Bool := f.kind == 0x8 || (f.detour && f.head)

/-- What a link takes from a control flit, and the flits that it acknowledges (R377 to R380): FREED is absolute; the replay buffer drops
what ACK covers; a request for a rate begins a retraining pause, and of two requests the lower-numbered device is the initiator; ACK tells
which of the flits that have been taken back the peer has accepted. -/
def Link.hearControl (x : Link) (own : Fin 64) (now : Nat) (c : CtlFlit) : Link × List TxFlit :=
  let (gone, left) := dropAcked c.ack x.replay
  let refused := gone.isEmpty && (match left with
    | r :: _ => r.flit.relayed
    | [] => false)
  let y := { x with peerFreed := c.freed, replay := left, stalls := if refused then x.stalls + 1 else 0 }
  let y := if c.rate = 0 then y
    else { y with
      asked := c.rate, pause := y.pause.or (some now),
      initiator := some (if x.want ≠ 0 ∧ own < x.peer then own else x.peer) }
  let d := c.ack + 1 - y.nextSeq
  (if y.resync then { y with nextSeq := c.ack + 1, sent := y.sent + d.setWidth 32, resync := false } else y, gone)

/-- Marks that are more than 8 ns ahead move the time base on at once; it is held back for marks that lie behind (R385). The mark of a slot
is its start at the keeper (assumption 97). -/
def State.followMark (s : State) (mark : BitVec 48) : State :=
  let d := (mark - BitVec.ofNat 48 (s.now / 128 * 128)).toInt
  if 8 < d then { s with steer := s.steer + d * 378 }.movedFrom s.base
  else if d < -8 then { s with owed := (-d).toNat * 378 }
  else s

/-- A control flit arrives in a slot in which a receive lane listens to its sender. A relayed header that comes back unaccepted twice is
reported (R383). DESIGN CHOICE: R355 and R383 do not state LANE and LINE of that record: they are as for a failed link (assumption 101). -/
def execControlFlitArrival (plane : Fin 32) (peer : Fin 64) (f : Flit) (s : State) : Host.Outcome State Fault Refusal :=
  s.event fun s =>
    match s.fab.link plane.val peer with
    | none => s
    | some x =>
      if !flitGood f || f.kind != 0x1 || f.seq != 0 || !s.hears plane.val peer then s
      else
        let c := ctlOf f.data
        let (y, gone) := x.hearControl (Fin.ofNat 64 s.device) s.tick c
        let s := s.modLink plane.val peer fun _ => y
        let s := s.enqueueAll ((s.fab.doneOps gone).map fun o => .sendComplete o false)
        let keeper := field s.fab.fabctl 58 6
        let s := if peer.val = keeper && keeper != s.device then
          { s with fab := { s.fab with lastMark := s.tick } }.followMark c.mark else s
        if y.stalls = 2 then
          let target := ((y.replay.head?.map fun (r : TxFlit) => r.flit.dest).getD 0).val
          let w := (target + 64 - s.device) % 64
          s.logFabric 0x14 target plane.val ((s.fab.lanesOf plane.val w).headD 0) w
        else s

/-- A relay holds a valid entry for an origin and a target from the current period on (R383). -/
def Fabric.relays (f : Fabric) (origin target : Nat) : Bool :=
  (List.range 16).any fun i =>
    let e := look 0 i f.relaytab
    flag e 63 && field e 50 6 == origin && field e 44 6 == target &&
      (f.periodno.toNat + 2 ^ 32 - field e 0 32) % 2 ^ 32 < 2 ^ 31

/-- Kinds that are sent in data intervals (R376). -/
def dataKind (k : BitVec 4) : Bool := (0x2 ≤ k.toNat && k.toNat ≤ 0x8) || k == 0xE

/-- The header of a relayed message: origin and target in data bytes 14 and 15. -/
def relayFields (d : BitVec 128) : Nat × Nat := (d.toNat / 2 ^ 112 % 64, d.toNat / 2 ^ 120 % 64)

/-- A relayed header for another device that no entry lets through; no new one passes while the device drains (R383, R389). -/
def State.relayRefuses (s : State) (kind : BitVec 4) (data : BitVec 128) : Bool :=
  kind == 0x8 &&
    (let (o, t) := relayFields data
     t != s.device && (!s.fab.relays o t || s.draining))

/-- Flits of a class that have been taken before they came: of the link that brings one, of its peer, else of a device whose flits it
forwards. -/
def Fabric.passFor (f : Fabric) (plane : Nat) (peer : Fin 64) (cls : Nat) : Option (Nat × Nat) :=
  let open_ := f.passes.filter fun e => e.2 != 0
  (open_.find? fun e => e.1 == passKey plane peer cls).or <| (open_.find? fun e => e.1 == passKey 32 peer cls).or
    (open_.find? fun e => e.1 % 8 == cls && passKey 32 0 0 ≤ e.1)

/-- A flit is accepted in order: it takes a bay, or none when its bytes have been taken already (R378, R379). -/
def State.acceptFlit (s : State) (x : Link) (kind : BitVec 4) (data : BitVec 128) : State :=
  let cls := classAfter x.cls kind
  let y := { x with expected := x.expected + 1, held := none, cls := cls }
  match s.fab.passFor x.plane x.peer cls with
  | none => s.modLink x.plane x.peer fun _ => { y with bays := y.bays ++ [(kind, data)] }
  | some (key, n) =>
    let s := { s with fab := { s.fab with passes := put key (n - 1) s.fab.passes } }
    s.modLink x.plane x.peer fun _ => { y with freed := y.freed + 1 }

/-- A data flit arrives in a slot in which a receive lane listens to its sender: accepted with a good CRC, a kind that is sent, the next
sequence and a free bay; else discarded. A relayed header that is refused is kept in a bay and stays unaccepted (R383). -/
def execDataFlitArrival (plane : Fin 32) (peer : Fin 64) (f : Flit) (s : State) : Host.Outcome State Fault Refusal :=
  s.event fun s =>
    match s.fab.link plane.val peer with
    | none => s
    | some x =>
      if !flitGood f || !dataKind f.kind || !s.hears plane.val peer || f.seq != x.expected || 64 ≤ x.bays.length then s
      else if s.relayRefuses f.kind f.data then s.modLink plane.val peer fun (y : Link) => { y with held := some (f.kind, f.data) }
      else s.acceptFlit x f.kind f.data

/-- A header kept in a bay is accepted once an entry lets it through. -/
def State.acceptHeld (s : State) : State :=
  s.fab.links.foldl (fun s (x : Link) =>
    match x.held with
    | some h => if s.relayRefuses h.1 h.2 then s else s.acceptFlit x h.1 h.2
    | none => s) s

/-! ## Relays (R383) -/

/-- The kind that a header had before its detour: data bytes 14 and 15 keep it beside the origin and the target (assumption 95). -/
def relayKind (d : BitVec 128) : BitVec 4 := d.extractLsb' 126 2 ++ d.extractLsb' 118 2

/-- The flits of a relayed message go to the onward queue, its header an ordinary one again; a header that only the detour had is gone. -/
def relayPacket (target : Fin 64) (plane : Nat) (fs : List (BitVec 4 × BitVec 128)) : Packet :=
  match fs with
  | h :: l =>
    if h.1 != 0x8 then ⟨target, fs, none, some plane, false⟩
    else if relayKind h.2 = 0x8 then ⟨target, l, none, some plane, false⟩
    else ⟨target, (if relayKind h.2 = 0 then 0x2 else relayKind h.2, h.2) :: l, none, some plane, true⟩
  | [] => ⟨target, [], none, some plane, false⟩

/-- The flits of a relayed message leave their bays. -/
def State.freeRelayed (s : State) (peer : Fin 64) (fs : List (BitVec 4 × BitVec 128)) : State :=
  (List.range 5).foldl (fun s cls => s.freeFlits peer cls (fs.filter fun x => flitClass x.1 == cls).length) s

/-- Relayed flits are forwarded; those accepted before a drain too (R389). -/
def State.relayOn (s : State) (r : RelayHeld) : State :=
  if s.fab.relays r.origin.val r.target.val then
    { s with fab := { s.fab with txq := s.fab.txq ++ [relayPacket r.target r.plane r.flits] } }.freeRelayed r.peer r.flits
  else { s with fab := { s.fab with relayHeld := s.fab.relayHeld ++ [r] } }

def execRelayedHeaderArrival (plane : Fin 32) (peer origin target : Fin 64) (flits : List (BitVec 4 × BitVec 128)) (s : State) :
    Host.Outcome State Fault Refusal :=
  s.event fun s => s.relayOn ⟨plane.val, peer, origin, target, flits⟩

/-- Held messages go on once an entry lets them. -/
def State.retryRelays (s : State) : State :=
  s.fab.relayHeld.foldl State.relayOn { s with fab := { s.fab with relayHeld := [] } }

/-! ## Messages as flits (R376, R134, R136, R338) -/

/-- The data flits of bytes: one that holds a poisoned byte has the poison kind (R49). What follows the last byte is not stated. -/
def dataFlits (kind : BitVec 4) (fill : BitVec 128) (bs : EngBytes) : List (BitVec 4 × BitVec 128) :=
  (flitsOf bs).map fun c =>
    (if c.any (·.2) then 0xE else kind, BitVec.ofNat 128 (ofBytes (c.map (·.1)) + fill.toNat * 2 ^ (8 * c.length)))

/-- The four data flits of a line; one that holds a poisoned byte has the poison kind. -/
def lineFlits (kind : BitVec 4) (l : BitVec 512) (poison : BitVec 64) : List (BitVec 4 × BitVec 128) :=
  (List.range 4).map fun i => (if poison.extractLsb' (16 * i) 16 = 0 then kind else 0xE, l.extractLsb' (128 * i) 128)

/-- Bytes with the places among them that are poisoned. -/
def withPoison (bs : List Byte) (bad : List Nat) : EngBytes := bs.zipIdx.map fun x => (x.1, bad.contains x.2)

/-- The elements of a part as bytes. -/
def partBytes (c : CollPeer) : EngBytes :=
  (c.elems.zipIdx.map fun x => (bytesOf (typeSize c.ety) x.1.toNat).map fun b => (b, c.poison.contains x.2)).flatten

/-- The flits of message i that leaves the device, its header first. The layout of the headers is not stated (assumption 95). -/
def packetOf (i : Nat) (m : OutMsg) : Option Packet :=
  let hdr := Config.flitBits i 0
  let fill := Config.flitBits i 1
  let packet := fun (dev : Fin 64) (kind : BitVec 4) (l : List (BitVec 4 × BitVec 128)) (op : Option Nat) =>
    some (⟨dev, (kind, hdr) :: l, op, none, true⟩ : Packet)
  match m with
  | .request dev r => packet dev 0x4 ((lineFlits 0x4 r.data r.pois).take (requestFlits r.kind)) none
  | .reply dev _ d bad => packet dev 0x5 (lineFlits 0x5 d bad) none
  | .refusal dev _ _ => packet dev 0x5 [] none
  | .delta dev d => packet dev 0x6 (lineFlits 0x6 d.xor 0) none
  | .parityAck dev _ => packet dev 0x7 [] none
  | .message dev op _ _ _ bs bad => packet dev 0x2 (dataFlits 0x3 fill (withPoison bs bad)) (some op)
  | .collective dev _ c => packet dev 0x2 (dataFlits 0x3 fill (partBytes c)) none
  | .flit _ _ _ => none
  | .msix _ => none
  | .hostData _ => none
  | .busData _ => none
  | .rekey _ _ _ => none
  | .podCopy _ _ => none

/-- The device that a parity acknowledgement goes to. -/
def OutMsg.ackDev : OutMsg → Option (Fin 64)
  | .parityAck dev _ => some dev
  | _ => none

/-- Cuts messages into packets; up to eight parity acknowledgements for one device share a flit (R136). `acks` lists the devices with a flit
that has room, and for how many more. -/
def packetsFrom (i : Nat) (acks : List (Nat × Nat)) : List OutMsg → List Packet
  | [] => []
  | m :: l =>
    match m.ackDev with
    | some d =>
      let room := look 0 d.val acks
      if 0 < room then packetsFrom (i + 1) (put d.val (room - 1) acks) l
      else (packetOf i m).toList ++ packetsFrom (i + 1) (put d.val 7 acks) l
    | none => (packetOf i m).toList ++ packetsFrom (i + 1) acks l

/-- The messages that have left since the last slot become packets, but for those to members that the pod has lost. -/
def State.packetize (s : State) : State :=
  let ps := packetsFrom s.fab.flitted [] (s.outbox.drop s.fab.flitted)
  { s with fab := { s.fab with
      flitted := s.outbox.length, txq := s.fab.txq ++ ps.filter fun p => flag s.fab.podmask p.dest.val } }

/-! ## Sending in a slot (R376 to R379, R383, R440) -/

/-- The header flit of a detoured message names its origin and target. -/
def State.relayHeader (s : State) (target : Fin 64) (kind : BitVec 4) (d : BitVec 128) : BitVec 128 :=
  kind.extractLsb' 2 2 ++ BitVec.ofNat 6 target.val ++ kind.extractLsb' 0 2 ++ BitVec.ofNat 6 s.device ++ d.extractLsb' 0 112

/-- A flit as it goes on the wire. -/
def State.onWire (s : State) (f : LinkFlit) : BitVec 4 × BitVec 128 :=
  if f.relayed then (0x8, s.relayHeader f.dest f.kind f.data) else (f.kind, f.data)

/-- The flits of a packet on a link; on a detour the rest of a packet gets a header of its own. -/
def Packet.onLink (p : Packet) (bits : BitVec 128) (detour : Bool) : List LinkFlit :=
  let added := detour && !p.whole
  let body := p.flits.zipIdx.map fun (x : (BitVec 4 × BitVec 128) × Nat) =>
    (⟨x.1.1, x.1.2, p.dest, p.op, p.relay, x.2 == 0 && !added, x.2 == 0 && p.whole, detour⟩ : LinkFlit)
  if added then ⟨0x8, bits, p.dest, p.op, p.relay, true, true, detour⟩ :: body.map fun f => { f with first := f.first } else body

/-- The link can carry new flits. -/
def Link.usable (x : Link) : Bool := x.rate != 0 && !x.failed && x.pause.isNone

/-- A plane has a lit position toward a peer in slot t, over a usable link. -/
def State.planeAt (s : State) (t : Nat) (peer : Fin 64) (k : Nat) : Bool :=
  (match s.fab.link k peer with
   | some x => x.usable
   | none => false) &&
    (List.range 8).any fun l => s.litPosition k t l && s.shiftPeer (entryShift (s.fab.entry k t l)) == peer.val

/-- The lowest plane with such a position. -/
def State.directPlane (s : State) (t : Nat) (peer : Fin 64) : Option Nat := (List.range 32).find? (s.planeAt t peer)

/-- The plane of a leg (R383): a given one if the line is lit there, else the lowest on which it is lit. -/
def State.legPlane (s : State) (k peer : Nat) : Option Nat :=
  if s.litPlane k peer then some k else (List.range 32).find? fun j => s.litPlane j peer

/-- The relays through which the table sends the traffic of a peer, with the plane of the first leg. -/
def State.firstLegs (s : State) (peer : Fin 64) : List (Nat × Nat) :=
  let w := (peer.val + 64 - s.device) % 64
  (List.range 32).filterMap fun k =>
    let r := (List.range s.fab.plen).findSome? fun t => (List.range 8).findSome? fun l =>
      let e := s.fab.entry k t l
      if entrySends e && entryShift e == w && entryDetour e then some (entryRelay e) else none
    match r with
    | none => none
    | some r => (s.legPlane k r).map fun j => (j, r)

/-- The links to a packet's peer with a position that begins with slot t, each with whether it is the first leg of a detour. A relay sends on
the plane of the second leg alone. -/
def State.linksAt (s : State) (t : Nat) (p : Packet) : List (Nat × Fin 64 × Bool) :=
  match p.relay with
  | some k =>
    match s.legPlane k p.dest.val with
    | some j => if s.planeAt t p.dest j then [(j, p.dest, false)] else []
    | none => []
  | none =>
    ((s.directPlane t p.dest).toList.map fun k => (k, p.dest, false)) ++
      ((s.firstLegs p.dest).filter fun x => s.planeAt t (Fin.ofNat 64 x.2) x.1).map fun x => (x.1, Fin.ofNat 64 x.2, true)

/-- Of links, the one on the lowest plane, the first on a tie. -/
def lowestLink : List (Nat × Fin 64 × Bool) → Option (Nat × Fin 64 × Bool)
  | [] => none
  | x :: l =>
    match lowestLink l with
    | some y => if y.1 < x.1 then some y else some x
    | none => some x

/-- The link that a packet whose header is ready takes (R440): the one whose next position begins first, from slot t on, on the lowest plane
of those that begin at once. -/
def State.chooseLink (s : State) (t : Nat) (p : Packet) : Option (Nat × Fin 64 × Bool) :=
  (List.range s.fab.plen).findSome? fun i => lowestLink (s.linksAt ((t + i) % s.fab.plen) p)

/-- Every packet that waits is put on its link before slot t begins; it stays there (R440). One without a link waits on. -/
def State.assign (s : State) (t : Nat) : State :=
  s.fab.txq.foldl (fun s p =>
    match s.chooseLink t p with
    | some (k, peer, detour) =>
      let fs := p.onLink (Config.flitBits s.fab.flitted 2) detour
      s.modLink k peer fun (x : Link) => { x with queue := x.queue ++ fs }
    | none => { s with fab := { s.fab with txq := s.fab.txq ++ [p] } }) { s with fab := { s.fab with txq := [] } }

/-- Flits in the replay buffer of a lane of a plane (R378). -/
def Fabric.laneReplay (f : Fabric) (plane lane : Nat) : Nat :=
  (f.links.map fun (x : Link) => if x.plane = plane then (x.replay.filter fun r => r.lane == lane).length else 0).sum

/-- New flits of a link: at most n, while the allowance and the room in the lane's replay buffer last. -/
def Link.takeNew (x : Link) (lane room : Nat) : Nat → Link × List TxFlit
  | 0 => (x, [])
  | n + 1 =>
    match x.queue with
    | [] => (x, [])
    | f :: q =>
      if x.allowance = 0 ∨ room = 0 then (x, [])
      else
        let r : TxFlit := ⟨x.nextSeq, lane, f⟩
        let (y, rs) := Link.takeNew { x with
          queue := q, replay := x.replay ++ [r], nextSeq := x.nextSeq + 1, sent := x.sent + 1 } lane (room - 1) n
        (y, r :: rs)

/-- What a link sends in a position: its control flit, the unacknowledged flits again, then new ones. In a retraining pause it sends its
control flit alone; no new flit while a relayed header has not been accepted (R383), or before what has been taken back is known. -/
def State.sendPosition (s : State) (plane lane : Nat) (peer : Fin 64) : State :=
  match s.fab.link plane peer with
  | none => s
  | some x =>
    if x.rate = 0 || x.failed then s
    else
      let n := rateFlits x.rate
      let again := if x.pause.isSome then [] else x.replay.take n
      let (y, new) := if x.pause.isSome || x.resync || 2 ≤ x.stalls then (x, [])
        else x.takeNew lane (512 - s.fab.laneReplay plane lane) (n - again.length)
      let keeper := field s.fab.fabctl 58 6 == s.device
      let c : CtlFlit := ⟨x.sent, x.freed, x.ack, x.want, if keeper then BitVec.ofNat 48 (s.now / 128 * 128) else 0⟩
      let s := (s.modLink plane peer fun _ => y).send (.flit plane peer (mkFlit 0 0x1 (ctlBits c)))
      (again ++ new).foldl (fun s r =>
        let w := s.onWire r.flit
        s.send (.flit plane peer (mkFlit r.seq w.1 w.2))) s

/-- Everything that is sent in slot t of a period. -/
def State.transmit (s : State) (t : Nat) : State :=
  let s := ((s.acceptHeld.retryRelays).packetize).assign t
  slotPositions.foldl (fun s p =>
    if s.litPosition p.1 t p.2 then
      s.sendPosition p.1 p.2 (Fin.ofNat 64 (s.shiftPeer (entryShift (s.fab.entry p.1 t p.2))))
    else s) s

/-! ## Flits that go back to the transfer engine (R371, R380, R388) -/

/-- The packets of flits, in order, and whether the first of them is the rest of one that flits before it belong to. -/
def regroup : List LinkFlit → Bool × List Packet
  | [] => (false, [])
  | f :: l =>
    match regroup l with
    | (more, ps) =>
      if f.kind = 0x8 then (false, ps)
      else
        match more, ps with
        | true, p :: ps => (!f.first, { p with flits := (f.kind, f.data) :: p.flits, whole := f.head } :: ps)
        | _, ps => (!f.first, ⟨f.dest, [(f.kind, f.data)], f.op, f.relay, f.head⟩ :: ps)

/-- What a link has not had acknowledged, in order. -/
def Link.unsent (x : Link) : List LinkFlit := (x.replay.map fun (r : TxFlit) => r.flit) ++ x.queue

/-- The packets that a link gives back. -/
def Link.packets (x : Link) : List Packet := (regroup x.unsent).2

/-- A link starts its sequences anew (R378, R380): what it has not had acknowledged is numbered from 0. Its totals stand (R379). -/
def Link.restart (x : Link) (rate : BitVec 2) : Link :=
  { x with
    rate := rate, pause := none, want := 0, asked := 0, initiator := none, expected := 0, resync := false,
    replay := x.replay.zipIdx.map fun (r : TxFlit × Nat) => { r.1 with seq := BitVec.ofNat 12 r.2 },
    nextSeq := BitVec.ofNat 12 x.replay.length }

/-- A link whose flits have been taken back: its sequence goes back too, and the peer's next control flit tells what it has accepted. -/
def Link.emptied (x : Link) : Link :=
  { x with queue := [], replay := [], stalls := 0, resync := x.resync || !x.replay.isEmpty,
           nextSeq := x.nextSeq - BitVec.ofNat 12 x.replay.length, sent := x.sent - BitVec.ofNat 32 x.replay.length }

/-- Links without a position take their flits back (R371, R383). -/
def State.takeBack (s : State) : State :=
  let dark := fun (x : Link) => (s.fab.lanesOf x.plane ((x.peer.val + 64 - s.device) % 64)).isEmpty
  let back := (s.fab.links.filter dark).flatMap Link.packets
  { s with fab := { s.fab with
      links := s.fab.links.map fun x => if dark x then x.emptied else x, txq := back ++ s.fab.txq } }

/-! ## Slots (R2, R371, R385) -/

/-- Nothing of the device's is outstanding on the fabric (R389): every flit it has sent is acknowledged, and every relayed one that it may
forward has gone on. -/
def State.quiet (s : State) : Bool :=
  s.fab.txq.isEmpty && (packetsFrom 0 [] (s.outbox.drop s.fab.flitted)).isEmpty && s.remotes.isEmpty && s.prot.unacked.isEmpty &&
    (s.fab.relayHeld.all fun r => !s.fab.relays r.origin.val r.target.val) &&
    (s.fab.links.all fun (x : Link) => x.queue.isEmpty && x.replay.isEmpty && x.bays.all fun b => b.1 != 0x8) &&
    (s.fab.fops.all fun o => o.complete)

/-- 10 ms have passed since the keeper's last mark. -/
def State.markLost (s : State) : Bool :=
  field s.fab.fabctl 58 6 != s.device && s.fab.lastMark + 10000000 * 378 ≤ s.tick && !s.fab.muted

/-- Mutes that are at least 200 ns old wait for reserve lines. -/
def State.mutesDue (s : State) : Bool := s.fab.muteTimes.any fun m => m.2 + 200 * 378 ≤ s.tick

/-- A retraining pause longer than 4 µs (R380). -/
def State.pauseOver (s : State) (x : Link) : Bool :=
  match x.pause with
  | some t => t + 4000 * 378 < s.tick && !x.failed
  | none => false

/-- What comes due at a slot boundary. -/
def State.slotEvents (s : State) : List Event :=
  (if s.markLost then [.keeperMarkLoss] else []) ++ (if s.mutesDue then [.reserveSubstitution] else []) ++
    ((s.fab.links.filter s.pauseOver).map fun (x : Link) => .retrainTimeout (Fin.ofNat 32 x.plane) x.peer) ++
    (if s.draining && !flag s.fab.fabctl 3 && s.quiet then [.fabricDrained] else [])

/-! ## The steps of a vacate (R426) -/

/-- STATE of VACATE. -/
def State.vacateState (s : State) : Nat := field s.mgmt.vacate 60 3

/-- A vacate moves to a step at the present time. -/
def State.vacateTo (s : State) (step : Nat) : State :=
  { s with mgmt := { s.mgmt with vacate := setField s.mgmt.vacate 60 3 step, vacateStart := s.tick } }

/-- A failure stops the vacate. -/
def State.vacateFail (s : State) (err : Nat) : State :=
  { s with mgmt := { s.mgmt with vacate := setField (setField s.mgmt.vacate 60 3 7) 56 4 err } }

def State.spare (s : State) : Fin 64 := Fin.ofNat 64 (field s.mgmt.vacate 0 6)

/-- The lines of memory that hold something: a byte that is not stored as zero, or a poisoned unit. -/
def Memory.lines (m : Memory) : List Nat :=
  (m.cells.map Prod.fst ++ m.poison).foldr (fun a l => insertNat (lineOf a) l) []

/-- What the copy reads: errors that a read corrects are corrected, others poison their unit (R48, R49). -/
def State.readAll (s : State) : State := s.mem.lines.foldl (fun s a => s.touch a (BitVec.allOnes 64)) s

/-- What the source copies. Lines that hold nothing are not carried (assumption 13). -/
def State.podCopy (s : State) : PodCopy where
  lines := s.mem.lines.map fun a => (a, s.readLine 0 a)
  poison := s.mem.poison
  relayouts := s.relayouts
  ctxs := (s.knownCtxs.filter fun c => (s.ctx c).status == .saved).map fun c => (c, s.ctx c)
  pool := s.pool
  queues := s.dies.map fun (d : Nat × Die) => (d.1, d.2.queue)
  kickstat := s.regs.kickstat
  coreRecs := s.coreRecs
  nextId := s.nextId

/-- From DRAIN to COPY; the copy's end is on the agenda. -/
def State.vacateDrained (s : State) : State :=
  if s.vacateState = 1 then
    if s.reachable s.spare.val then
      let s := s.readAll
      ((s.vacateTo 2).send (.podCopy s.spare s.podCopy)).enqueue .vacateCopyDone
    else s.vacateFail 2
  else s

/-- The health word of the FRU (R425). -/
def State.writeHealth (s : State) : State :=
  { s with mgmt := { s.mgmt with health := setField (s.mgmt.bootstat &&& (ones 62 2 ||| ones 16 32)) 0 16 s.mgmt.vacates } }

/-- From REKEY to VACATED, at the period at which the changes apply. -/
def State.vacateRekeyed (s : State) : State :=
  if s.vacateState = 3 ∧ s.mgmt.rekeyAt.toNat ≤ s.fab.periodno.toNat then
    let s := s.vacateTo 4
    ({ s with mgmt := { s.mgmt with latchPermit := true, vacates := s.mgmt.vacates + 1 } }).writeHealth
  else s

/-- A rotor slot begins. A period that ends hands the slot to the period's boundary. -/
def execRotorSlotBoundary (s : State) : Host.Outcome State Fault Refusal :=
  s.event fun s =>
    if !flag s.fab.fabctl 0 then s
    else
      let s := s.enqueueAll s.slotEvents
      if s.fab.plen ≤ s.fab.slot + 1 then ({ s with fab := { s.fab with slot := 0 } }).enqueue .periodBoundary
      else
        let t := s.fab.slot + 1
        ({ s with fab := { s.fab with slot := t } }).transmit t

/-! ## Lost members (R387, R388) -/

/-- Operations of the device with a lost peer record cause 0x46. -/
def State.loseOps (s : State) (q : Fin 64) : State :=
  let sends := s.fab.fops.filter fun o => !o.complete && (match o.kind with
    | .send p _ _ => p == q
    | _ => false)
  let onRing := fun (o : FOp) => match o.kind.ringOf with
    | some r => (match s.ring r with
      | some x => x.members.contains q
      | none => false)
    | none => false
  let colls := s.fab.fops.filter fun o => !o.complete && onRing o
  (sends ++ colls).foldl (fun s (o : FOp) =>
    let (t, s) := s.lostTrap q.val
    s.endFop o.id (some t) 0 false) s

/-- A link without the flits for a lost member that it has not sent yet. -/
def Link.without (q : Fin 64) (x : Link) : Link := { x with queue := x.queue.filter (·.dest != q) }

/-- What the fabric has of a lost member goes: its links, whose flits for other devices go back to the transfer engine, its packets, and the
numbers of its messages. -/
def Fabric.forget (f : Fabric) (q : Fin 64) : Fabric :=
  let mine := fun (e : Nat × Nat) => e.1 % 64 == q.val
  let back := (f.links.filter (·.peer == q)).flatMap Link.packets
  let drop := fun (e : Nat × Ring) => (e.1, { e.2 with members := e.2.members.filter (· != q) })
  { f with
    links := (f.links.filter (·.peer != q)).map (Link.without q), txq := (back ++ f.txq).filter (·.dest != q),
    passes := f.passes.filter (fun e => e.1 / 8 % 64 != q.val), rings := f.rings.map drop,
    msgNums := f.msgNums.filter (!mine ·), msgNext := f.msgNext.filter (!mine ·), early := f.early.filter (·.src != q) }

/-- A member that the pod has lost: its links and its packets go, rings drop it, operations end, detours through it are reported. -/
def State.loseMember (s : State) (q : Fin 64) : State :=
  let s := s.loseOps q
  let s := s.enqueueAll ((s.remotes.filter fun (r : RemotePend) => r.dev == q).map fun (r : RemotePend) => .remoteRefusal r.id q 0x46)
  let s := { s with fab := s.fab.forget q,
                    prot := { s.prot with lateAcks := s.prot.lateAcks.filter fun e => e.1 != q.val && e.2.1 != q.val } }
  let through := s.fab.table.filter fun e => entrySends e.2 && entryDetour e.2 && entryRelay e.2 == q.val
  (through.map fun e => (e.1 / 128, e.1 % 8, entryShift e.2)).foldl (fun s (x : Nat × Nat × Nat) =>
    s.logFabric 0x14 (s.shiftPeer x.2.2) x.1 x.2.1 x.2.2) s

/-! ## Periods (R371, R374, R375, R386) -/

/-- The circuits of the ring that asks for them, while the ring profile is in force. Formed anew, they replace what was installed on
lanes 0 and 1 (R371, R375, R387). -/
def State.formCircuits (s : State) : State :=
  let c := match s.fab.circuitRing with
    | some r =>
      match s.ring r with
      | some x =>
        let g := x.members.length
        let q := s.ringPos x.members
        let shift := fun (p : Fin 64) => BitVec.ofNat 6 (p.val + 64 - s.device)
        if s.fab.profile = 1 ∧ q < g then
          some (shift (x.members.getD ((q + 1) % g) 0), shift (x.members.getD ((q + g - 1) % g) 0))
        else none
      | none => none
    | none => none
  let lanes := fun (e : Nat × BitVec 16) => 2 ≤ e.1 % 8
  { s with fab := { s.fab with
      circuits := c, table := if s.fab.profile = 1 ∧ s.fab.circuits ≠ c then s.fab.table.filter lanes else s.fab.table } }

/-- A profile whose period has come is loaded: it replaces the table. -/
def State.loadProfile (s : State) : State :=
  match s.fab.profilePend with
  | some p =>
    if field s.fab.periodno 0 24 = field s.fab.fabctl 8 24 then
      let slots := s.fab.origin.1 + (s.fab.periodno.toNat - s.fab.origin.2) * s.fab.plen
      { s with fab := { s.fab with
          origin := (slots, s.fab.periodno.toNat), profile := p, profilePend := none, table := [],
          fabctl := setField s.fab.fabctl 32 8 (if p = 0 then 8 else 11) } }
    else s
  | none => s

/-- The changes whose period has come are installed. -/
def State.installChanges (s : State) : State :=
  let due := s.fab.changes.filter fun c => c.period ≤ s.fab.periodno.toNat
  let table := due.foldl (fun tb (c : SlotChange) => put (entryKey c.plane c.slot c.lane) c.entry tb) s.fab.table
  { s with fab := { s.fab with table := table, changes := s.fab.changes.filter fun c => s.fab.periodno.toNat < c.period } }

/-- OFFSET of a line. -/
def Fabric.offset (f : Fabric) (comb w : Nat) : Int := signed 8 (field (look 0 (lineKey comb w) f.linestat) 40 8)

/-- The plane and lane that a record about a line of a comb names: the lowest plane whose table carries the shift (R381). With no position
of the shift they are not stated. -/
def State.firstLane (s : State) (comb w : Nat) : Nat × Nat × State :=
  let first := (List.range 32).findSome? fun k => (List.range s.fab.plen).findSome? fun t => (List.range 8).findSome? fun l =>
    let e := s.fab.entry k t l
    if entrySends e && entryShift e == w then some (k, l) else none
  match first with
  | some p => (p.1, p.2, s)
  | none =>
    let (x, s) := s.freeValue
    (16 * comb + field x 0 4, field x 4 3, s)

/-- Logs an event about a line. -/
def State.logLine (s : State) (code comb w : Nat) : State :=
  let (k, l, s) := s.firstLane comb w
  s.logFabric code (s.shiftPeer w) k l w

/-- A retune window opens: every line of the comb goes dark and waits for reserve lines. -/
def State.openWindow (s : State) (comb : Nat) : State :=
  let s := { s with fab := { s.fab with windows := s.fab.windows ||| (1#2 <<< comb) } }
  (List.range 64).foldl (fun s w =>
    let s := s.setLine comb w 2
    { s with fab := { s.fab with muteTimes := put (lineKey comb w) s.tick s.fab.muteTimes } }) s

/-- An open window closes: lines within ±6 GHz are lit again, the others have failed. -/
def State.closeWindow (s : State) (comb : Nat) : State :=
  if !s.fab.windows.getLsbD comb then s
  else
  let s := { s with fab := { s.fab with windows := s.fab.windows &&& ~~~ (1#2 <<< comb) } }
  (List.range 64).foldl (fun s w =>
    if (s.fab.offset comb w).natAbs ≤ 6 then s.setLine comb w 0 else (s.setLine comb w 3).logLine 0x13 comb w) s

def State.moveWindows (s : State) : State :=
  s.fab.windowPend.foldl (fun s (x : Nat × Bool) => if x.2 then s.openWindow x.1 else s.closeWindow x.1)
    { s with fab := { s.fab with windowPend := [] } }

/-- The members of PODMASK take effect; bits that were cleared are lost members. -/
def State.takePodmask (s : State) : State :=
  let gone := (List.finRange 64).filter fun q => flag s.fab.podmask q.val && !flag s.fab.podmaskNext q.val
  gone.foldl State.loseMember { s with fab := { s.fab with podmask := s.fab.podmaskNext } }

/-- The number of the shift of the member of a stripe that a vacate replaces, in STRIPEMAP (R128). -/
def rebindStripe (v : Word) (src spare : Fin 64) : Word :=
  (List.range 8).foldl (fun v m => if field v (6 * m) 6 = src.val then setField v (6 * m) 6 spare.val else v) v

/-- The changes that a vacated source has sent (R393): the spare takes its place in the rings and the stripe, and in PODMASK. -/
def State.rebind (s : State) (k : Rekey) : State :=
  let swap := fun (e : Nat × Ring) => (e.1, { e.2 with members := e.2.members.map fun p => if p = k.src then k.spare else p })
  let next := setFlag (setFlag s.fab.podmaskNext k.spare.val true) k.src.val false
  { s with
    fab := { s.fab with rings := s.fab.rings.map swap, podmaskNext := next },
    prot := { s.prot with stripemap := rebindStripe s.prot.stripemap k.src k.spare } }

/-- Those whose period has come are made. -/
def State.takeRekeys (s : State) : State :=
  let due := s.fab.rekeys.filter fun k => k.period ≤ s.fab.periodno.toNat
  due.foldl State.rebind
    { s with fab := { s.fab with rekeys := s.fab.rekeys.filter fun k => s.fab.periodno.toNat < k.period } }

/-- A period begins: the changes that wait for it take effect, then its first slot is sent. While the lasers are dark PODMASK alone is
taken: no period can be waited for (assumption 97). -/
def execPeriodBoundary (s : State) : Host.Outcome State Fault Refusal :=
  s.event fun s =>
    if !flag s.fab.fabctl 0 then s.takePodmask
    else
      let s := { s with fab := { s.fab with periodno := s.fab.periodno + 1 } }
      let s := ((((s.takeRekeys).takePodmask).loadProfile).formCircuits).installChanges
      (((s.moveWindows).takeBack).transmit 0).vacateRekeyed

/-! ## Drift and reserve (R381, R382) -/

/-- A reserve line drifts: it is muted, and each lane that it serves needs a repair (R442). DESIGN CHOICE: the records name the reserve line,
and there is no record 0x12, which R381 gives of band-0 lines (assumption 101). -/
def State.muteReserve (s : State) (w : Nat) : State :=
  let lanes := (List.range 32).flatMap fun k => ((List.range 8).filter fun l =>
    s.fab.granted.contains (64 + w, k, l) && s.fab.replaced k l w).map fun l => (k, l)
  lanes.foldl (fun s x => s.logFabric 0x14 (s.shiftPeer w) x.1 x.2 (64 + w)) (s.setLine 2 w 1)

/-- A line's offset is measured; a lit line beyond ±12 GHz is muted. -/
def execLineDrift (comb : Fin 3) (w : Fin 64) (offset : BitVec 8) (s : State) : Host.Outcome State Fault Refusal :=
  s.event fun s =>
    let off : BitVec 8 := if offset = 0x80 then 0x81 else offset
    let k := lineKey comb.val w.val
    let s := { s with fab := { s.fab with linestat := put k (setField (look 0 k s.fab.linestat) 40 8 off.toNat) s.fab.linestat } }
    if off.toInt.natAbs ≤ 12 || s.fab.lineState comb.val w.val != 0 then s
    else if comb = 2 then s.muteReserve w.val
    else
      let s := s.setLine comb.val w.val 1
      let s := { s with fab := { s.fab with muteTimes := put k s.tick s.fab.muteTimes } }
      s.logLine 0x12 comb.val w.val

/-- The lanes of a comb with positions on a line, not on its reserve, in plane order. -/
def Fabric.usersOf (f : Fabric) (comb w : Nat) : List (Nat × Nat) :=
  (List.range 16).flatMap fun i =>
    ((f.lanesOf (16 * comb + i) w).filter fun l => (List.range f.plen).any fun t =>
      let e := f.entry (16 * comb + i) t l
      entrySends e && entryShift e == w && !entryDetour e && !entryReserve e).map fun l => (16 * comb + i, l)

/-- One lane takes the reserve line: a grant, which it may hold already, and RESERVE in every position of the shift from the next period
on. -/
def State.substituteLane (s : State) (w plane lane : Nat) : State :=
  let s := s.grant (64 + w) plane lane true
  (List.range s.fab.plen).foldl (fun s t =>
    let e := s.fab.entry plane t lane
    if entrySends e && entryShift e == w && !entryDetour e then
      s.installEntry plane t lane (e ||| 0x80) (s.fab.periodno.toNat + 1)
    else s) s

/-- The lanes that a muted line leaves dark take the reserve line while it has room; what is left is reported once. -/
def State.substitute (s : State) (comb w : Nat) : State :=
  let s := { s with fab := { s.fab with muteTimes := s.fab.muteTimes.filter (·.1 != lineKey comb w) } }
  if w = 0 then s
  else
    let s := (s.fab.usersOf comb w).foldl (fun s (x : Nat × Nat) =>
      if s.fab.granted.contains (64 + w, x.1, x.2) || s.fab.reserveRoom (64 + w) then s.substituteLane w x.1 x.2 else s) s
    match (s.fab.usersOf comb w).find? fun x => !s.fab.granted.contains (64 + w, x.1, x.2) with
    | some x => if flag s.fab.podmask (s.shiftPeer w) then s.logFabric 0x14 (s.shiftPeer w) x.1 x.2 w else s
    | none => s

/-- The first slot boundary at least 200 ns after a mute: lines in order of comb, then number. -/
def execReserveSubstitution (s : State) : Host.Outcome State Fault Refusal :=
  s.event fun s =>
    let due := (List.range 128).filter fun k => s.fab.muteTimes.any fun m => m.1 == k && m.2 + 200 * 378 ≤ s.tick
    due.foldl (fun s k => s.substitute (k / 64) (k % 64)) s

/-! ## Training (R380) -/

/-- Of two rates, the lower; 00 asks for none. -/
def lowerRate (a b : BitVec 2) : BitVec 2 := if a < b then b else a

/-- A retraining pause ends: the link runs at the lowest of the rate that the optics allow and those that its ends have asked for. -/
def Link.retrained (x : Link) (rate : BitVec 2) : Link := x.restart (lowerRate rate (lowerRate x.want x.asked))

/-- This end of a running link asks for a rate. -/
def Link.request (x : Link) (rate : BitVec 2) (own : Fin 64) (now : Nat) : Link :=
  { x with want := rate, pause := some now, initiator := some own }

/-- A link that is dark trains at the rate that the optics and fibre allow; on one that runs already this end asks for the rate, and the
training that follows ends the pause; one that has failed stays dark. -/
def execLinkTraining (plane : Fin 32) (peer : Fin 64) (rate : BitVec 2) (s : State) : Host.Outcome State Fault Refusal :=
  s.event fun s =>
    if !flag s.fab.fabctl 0 || rate == 0 || peer.val == s.device then s
    else
      match s.fab.link plane.val peer with
      | some x =>
        if x.failed then s
        else s.modLink plane.val peer fun (y : Link) =>
          if y.pause.isSome then y.retrained rate
          else if y.rate = 0 then y.restart rate
          else y.request rate (Fin.ofNat 64 s.device) s.tick
      | none => { s with fab := { s.fab with links := s.fab.links ++ [Link.fresh plane.val peer rate] } }

/-- A link that has failed: its flits have been taken back; its totals and its bays stand. -/
def Link.fail (x : Link) : Link := { x.emptied with failed := true, pause := none, want := 0, asked := 0 }

/-- The pause has lasted more than 4 µs: the link has failed and its flits go back to the transfer engine. DESIGN CHOICE: R355 and R380 do
not state LANE and LINE of the record: the lowest lane that carries the shift, 0 if none does, and the band-0 line (assumption 101). -/
def execRetrainTimeout (plane : Fin 32) (peer : Fin 64) (s : State) : Host.Outcome State Fault Refusal :=
  s.event fun s =>
    match s.fab.link plane.val peer with
    | none => s
    | some x =>
      if !s.pauseOver x then s
      else
        let back := x.packets
        let s := s.modLink plane.val peer Link.fail
        let s := { s with fab := { s.fab with txq := back ++ s.fab.txq } }
        let w := (peer.val + 64 - s.device) % 64
        s.logFabric 0x13 peer.val plane.val ((s.fab.lanesOf plane.val w).headD 0) w

/-- The rotor keeper's marks have stopped for 10 ms (R385): every lane goes dark, and event 0x13 is logged for each plane. The fields
of these records but CODE, PLANE and TIME are not stated. -/
def execKeeperMarkLoss (s : State) : Host.Outcome State Fault Refusal :=
  s.event fun s =>
    if !flag s.fab.fabctl 0 || !s.markLost then s
    else
      (List.range 32).foldl (fun s k =>
        let (x, s) := s.freeValue
        s.logFabric 0x13 (field x 0 6) k (field x 6 3) (field x 9 7)) { s with fab := { s.fab with muted := true } }

/-! ## FABCTL (R372, R389) -/

/-- The slot and PERIODNO that the time base gives, counted from where the profile in force came into force: so every member counts as the
keeper does, whose base its own follows (R385, assumption 97). -/
def State.alignPeriods (s : State) : State :=
  let n := s.now / 128 - s.fab.origin.1
  { s with fab := { s.fab with
      slot := n % Nat.max s.fab.plen 1, periodno := BitVec.ofNat 64 (s.fab.origin.2 + n / Nat.max s.fab.plen 1) } }

/-- The links train when EN becomes 1: to every live member on every plane, at the rate found then, which is a free value (R380). -/
def State.trainLinks (s : State) : State :=
  let n := s.freeCount
  let peers := (List.finRange 64).filter fun p => flag s.fab.podmask p.val && p.val != s.device
  let events := (List.finRange 32).flatMap fun k => peers.map fun p =>
    Event.linkTraining k p ((Config.freeWord (n + 64 * k.val + p.val)).setWidth 2)
  { s with freeCount := n + 2048 }.enqueueAll events

/-- EN changes: the lasers are lit, the links train and the periods are those that the time base counts; or every lane goes dark. A link that
is dark keeps its flits, which move only when it fails (R440), and its totals (R379); a failed one stays failed (R380). -/
def execFabricEnable (on : Bool) (s : State) : Host.Outcome State Fault Refusal :=
  s.event fun s =>
    let s := { s with fab := { s.fab with fabctl := setFlag s.fab.fabctl 0 on } }
    if on then { s.takePodmask.alignPeriods with fab := { s.takePodmask.alignPeriods.fab with lastMark := s.tick, muted := false } }.trainLinks
    else { s with fab := { s.fab with links := s.fab.links.map fun (x : Link) => { x with rate := 0, pause := none, want := 0, asked := 0 } } }

def execFabricDrain (s : State) : Host.Outcome State Fault Refusal :=
  s.event fun s => { s with fab := { s.fab with fabctl := setField s.fab.fabctl 2 2 1 } }

/-- DRAINED, once everything that was outstanding is complete; a vacate goes on to its copy. -/
def execFabricDrained (s : State) : Host.Outcome State Fault Refusal :=
  s.event fun s =>
    if s.draining && s.quiet then ({ s with fab := { s.fab with fabctl := setFlag s.fab.fabctl 3 true } }).vacateDrained else s

/-- PROFILE and PSW are written; 10 and 11 are ignored. -/
def execProfileSelect (profile : BitVec 2) (psw : BitVec 24) (s : State) : Host.Outcome State Fault Refusal :=
  s.event fun s =>
    if 2 ≤ profile.toNat then s
    else
      let c := setField (setField s.fab.fabctl 48 2 profile.toNat) 8 24 psw.toNat
      { s with fab := { s.fab with fabctl := c, profilePend := some profile.toNat } }

end Sys2Proof.Machine
end

