-- ==== Sys2Proof/Machine/Pool.lean ====
section
/-! DEFINITION. The ready pool (R148 to R169, R357): the graph object read and checked, KICK, expansion and eligibility, gangs, die
queues, dispatch onto a context, `spawn` and the retirement of an instance. -/

namespace Sys2Proof.Machine

/-! ## Reading the graph object (R148, R159) -/

/-- What a step of LOADING gives: a value, or ERR and NODE. -/
abbrev Load (α : Type) := Except (Nat × Nat) α × State

/-- The next step, when the one before has passed. -/
def Load.then {α β : Type} (x : Load α) (f : α → State → Load β) : Load β :=
  match x with
  | (.ok a, s) => f a s
  | (.error e, s) => (.error e, s)

def Load.check (p : Bool) (err node : Nat) (s : State) : Load Unit := (if p then .ok () else .error (err, node), s)

/-- The pool accesses memory as a system context would; it is number 0 for the TLBs and its operation has number op. -/
def poolWho (op : Nat) : Who := ⟨0, true, some op⟩

/-- Reads n bytes; a fault, a refusal or poison is ERR 0x0A. -/
def State.poolRead (s : State) (v : PeerView) (a : Word) (n : Nat) : Load (List Byte) :=
  match s.engRead (poolWho 0) v .g a n with
  | (.error _, s) => (.error (0x0A, 0), s)
  | (.ok bs, s) => if bs.any (·.2) then (.error (0x0A, 0), s) else (.ok (bs.map (·.1)), s)

/-- The n bytes from byte `off` as a number. -/
def le (bs : List Byte) (off n : Nat) : Nat := ofBytes ((bs.drop off).take n)

/-- Reads n items, from number k on. -/
def loadItems {α : Type} (f : Nat → State → Load α) : Nat → Nat → State → Load (List α)
  | 0, _, s => (.ok [], s)
  | n + 1, k, s => (f k s).then fun a s => (loadItems f n (k + 1) s).then fun l s => (.ok (a :: l), s)

/-- The header fields. -/
structure Header where
  nnode : Nat
  nedge : Nat
  launch : Nat
  nodes : Nat
  edges : Nat
  param : Nat
  psize : Nat
  handles : Nat
  nhandle : Nat
  code : Nat
  csize : Nat
  deriving DecidableEq, Repr

/-- A section starts at a multiple of 64 and lies within TOTAL. -/
def sectionOk (total off len : Nat) : Bool := off % 64 == 0 && off + len ≤ total

/-- Offsets, sizes and zero fields (R148). -/
def headerOk (b : List Byte) : Bool :=
  let total := le b 56 4
  1 ≤ le b 6 2 && le b 6 2 ≤ 4096 && le b 8 4 ≤ 65535 && le b 36 2 ≤ 4096 && le b 38 2 == 0 && le b 60 4 == 0
    && sectionOk total (le b 12 4) 64 && sectionOk total (le b 16 4) (128 * le b 6 2)
    && sectionOk total (le b 20 4) (8 * le b 8 4) && sectionOk total (le b 24 4) (le b 28 4)
    && sectionOk total (le b 32 4) (64 * le b 36 2) && sectionOk total (le b 40 4) (le b 44 4)
    && sectionOk total (le b 48 4) (le b 52 4)

/-- Steps 1 and 2. -/
def State.loadHeader (s : State) (v : PeerView) (g : Word) : Load Header :=
  if field g 56 8 ≠ 0 ∨ field g 0 6 ≠ 0 then (.error (0x02, 0), s)
  else (s.poolRead v g 64).then fun b s =>
    (Load.check (le b 0 4 == 0x4F474A4B && le b 4 2 == 1) 0x01 0 s).then fun _ s =>
    (Load.check (headerOk b) 0x02 0 s).then fun _ s =>
      (.ok ⟨le b 6 2, le b 8 4, le b 12 4, le b 16 4, le b 20 4, le b 24 4, le b 28 4, le b 32 4, le b 36 2, le b 40 4,
        le b 44 4⟩, s)

/-! ## The launch record (R150, R151) -/

/-- Physical units of domain d in one unit of the domain before it, from domain 1 on. -/
def domainUnits : List Nat := [64, 24, 2, 96, 4, 4, 16]

/-- Units of domain d in one unit of domain `up`. -/
def unitsIn (up d : Nat) : Nat := prod ((domainUnits.drop up).take (d - up))

/-- The largest FANOUT of level k whose domain is d, under a level of domain `up` if there is one. -/
def fanoutLimit (up : Option Nat) (d : Nat) : Nat :=
  match up with
  | none => if d = 0 then 64 else unitsIn 1 d
  | some u => if u = 0 ∧ d = 1 then 1 else unitsIn u d

/-- The least SCOPE that covers a domain. -/
def scopeFloor (d : Nat) : Nat := [4, 3, 2, 1].getD d 0

/-- A level entry under the one before it. -/
def levelOk (up : Option LevelEntry) (l : LevelEntry) : Bool :=
  (match up with
   | some u => u.domain < l.domain
   | none => true)
    && l.scope ≤ 4 && scopeFloor l.domain ≤ l.scope && 1 ≤ l.fanout
    && l.fanout ≤ fanoutLimit (up.map (·.domain)) l.domain

def levelsOk : Option LevelEntry → List LevelEntry → Bool
  | _, [] => true
  | up, l :: ls => levelOk up l && levelsOk (some l) ls

/-- Step 3: the levels of a launch record, if it is valid. -/
def launchLevels (es : List Word) : Option (List LevelEntry) :=
  let here := es.takeWhile fun e => flag e 63
  let ls := here.map fun e => LevelEntry.mk (field e 60 3) (field e 56 3) (field e 0 16)
  if here.isEmpty || (es.drop here.length).any (fun e => flag e 63) || es.any (fun e => flag e 59 || field e 16 40 != 0)
      || !levelsOk none ls then none
  else some ls

/-! ## Nodes (R152 to R155) -/

/-- The fan-out that counts instances: 1 at a pod level (R152). -/
def LevelEntry.count (l : LevelEntry) : Nat := if l.domain = 0 then 1 else l.fanout

/-- The cores of a class in one unit of a domain. -/
def classCores (d : Nat) (sClass : Bool) : Nat :=
  let n := if sClass then 12 else 84
  if d = 0 then 64 * 48 * n else if d = 1 then 48 * n else if d = 2 then 2 * n else n

/-- The contexts of a class in one unit of a domain. -/
def classContexts (d : Nat) (sClass : Bool) : Nat :=
  if d ≤ 3 then 4 * classCores d sClass else if d = 4 then 4 else 1

/-- Core levels down to the grain stay within the cores of the class. -/
def coreLevelsOk (sClass : Bool) : Nat → List LevelEntry → Bool
  | _, [] => true
  | up, l :: ls => (l.domain != 4 || l.fanout ≤ classCores up sClass) && coreLevelsOk sClass l.domain ls

/-- A tile operand (R154), given the RANK of each handle. -/
def operOk (nhandle : Nat) (rank : Nat → Nat) (b : List Byte) : Bool :=
  let hidx := le b 0 2
  let mode := le b 2 1
  let dims := le b 3 1
  hidx < nhandle && mode < 3 && dims < 64 && dims % 8 < rank hidx && dims / 8 < rank hidx

def operOf (b : List Byte) : Nat × Nat × Nat × Nat × Nat × Nat :=
  (le b 0 2, le b 2 1, le b 3 1 % 8, le b 3 1 / 8 % 8, le b 4 4, le b 8 4)

/-- The operand slots of a node entry. -/
def operBytes (b : List Byte) : List (List Byte) := (List.range 8).map fun k => (b.drop (32 + 12 * k)).take 12

/-- The declared barriers of BARLVL: number and level. -/
def barriersOf (v : Nat) : List (Nat × Nat) :=
  (List.range 16).filterMap fun b => if (v / 2 ^ (4 * b + 3)) % 2 = 1 then some (b, v / 2 ^ (4 * b) % 8) else none

/-- The level of the coarsest barrier. -/
def coarsest (bs : List (Nat × Nat)) : Option Nat :=
  match bs with
  | [] => none
  | b :: l => some (l.foldl (fun m x => Nat.min m x.2) b.2)

def countOf (ls : List LevelEntry) : Nat := prod (ls.map LevelEntry.count)

/-- A node entry of 128 bytes: none when it fails step 4. -/
def nodeEntry (h : Header) (g : Word) (ls : List LevelEntry) (rank : Nat → Nat) (b : List Byte) : Option NodeEntry :=
  let ctrl := le b 10 1
  let noper := le b 11 1
  let grain := ctrl % 8
  let sClass := ctrl / 8 % 2 == 1
  let entry := le b 0 4
  let bars := barriersOf (le b 16 8)
  let opers := operBytes b
  let dom := fun k => ((ls[k]?).map (·.domain)).getD 8
  let own := ls.take (grain + 1)
  if 64 * (entry / 64) < h.csize && le b 4 4 % 64 == 0 && le b 4 4 + le b 8 2 ≤ h.psize && noper ≤ 8
      && le b 12 4 == 0 && le b 24 8 == 0 && (opers.drop noper).all (fun o => o.all (· == 0))
      && (opers.take noper).all (operOk h.nhandle rank) && grain < ls.length && dom grain ≤ 5
      && bars.all (fun x => x.2 ≤ grain && 1 ≤ dom x.2) && coreLevelsOk sClass 1 own then
    let gang := match coarsest bars with
      | some k => prod (((ls.drop (k + 1)).take (grain - k)).map LevelEntry.count)
      | none => 1
    some ⟨g + word (h.code + 64 * (entry / 64)) + word (entry % 64), le b 4 4, ctrl / 128 == 1, ctrl / 16 % 8, sClass, grain,
      (opers.take noper).map operOf, bars, countOf own, gang⟩
  else none

/-- The RANK of handle k, read when an operand names it. -/
def State.loadRanks (s : State) (v : PeerView) (h : Header) (g : Word) : List Nat → Load (List (Nat × Nat))
  | [] => (.ok [], s)
  | k :: ks =>
    if h.nhandle ≤ k then s.loadRanks v h g ks
    else (s.poolRead v (g + word (h.handles + 64 * k)) 64).then fun b s =>
      (s.loadRanks v h g ks).then fun l s => (.ok ((k, Desc.rank (BitVec.ofNat 512 (ofBytes b))) :: l), s)

def State.loadNode (v : PeerView) (g : Word) (h : Header) (ls : List LevelEntry) (k : Nat) (s : State) : Load NodeEntry :=
  (s.poolRead v (g + word (h.nodes + 128 * k)) 128).then fun b s =>
    (s.loadRanks v h g (((operBytes b).take (le b 11 1)).map fun o => le o 0 2)).then fun ranks s =>
      match nodeEntry h g ls (fun i => look 0 i ranks) b with
      | some n => (.ok n, s)
      | none => (.error (0x04, k), s)

/-! ## Edges (R156) -/

/-- An edge entry, if it passes step 5. -/
def edgeOf (ns : List NodeEntry) (e : Word) : Option EdgeEntry :=
  let src := field e 16 16
  let dst := field e 0 16
  let stage := field e 62 2 == 1
  let depth := field e 32 16
  match ns[src]?, ns[dst]? with
  | some a, some b =>
    if field e 62 2 < 2 && field e 48 14 == 0 && src != dst && !a.spawn && !b.spawn
        && (if stage then 1 ≤ depth && depth ≤ 64 && a.count == b.count else depth == 0) then
      some ⟨stage, depth, src, dst⟩
    else none
  | _, _ => none

def State.loadEdge (v : PeerView) (g : Word) (h : Header) (ns : List NodeEntry) (k : Nat) (s : State) : Load EdgeEntry :=
  (s.poolRead v (g + word (h.edges + 8 * k)) 8).then fun b s =>
    let e := word (ofBytes b)
    match edgeOf ns e with
    | some x => (.ok x, s)
    | none => (.error (0x05, field e 16 16), s)

/-- The nodes that lie after a set of nodes: n rounds. -/
def reach (es : List EdgeEntry) : Nat → List Nat → List Nat
  | 0, l => l
  | n + 1, l => reach es n (es.foldl (fun acc e => if l.contains e.src then insertNat e.dst acc else acc) l)

/-- The lowest-numbered node that lies on a cycle. -/
def cycleNode (n : Nat) (es : List EdgeEntry) : Option Nat :=
  (List.range n).find? fun k =>
    (reach es n ((es.filter (·.src == k)).foldl (fun acc e => insertNat e.dst acc) [])).contains k

/-! ## Handles, gangs, depths (steps 6 and 7) -/

def State.loadHandle (v : PeerView) (g : Word) (h : Header) (k : Nat) (s : State) : Load Line :=
  (s.poolRead v (g + word (h.handles + 64 * k)) 64).then fun b s =>
    let d : Line := BitVec.ofNat 512 (ofBytes b)
    if (descCause d).isSome || Desc.rly d then (.error (0x06, k), s) else (.ok d, s)

/-- A gang fits into the contexts of its class in one instance of its domain. -/
def gangOk (ls : List LevelEntry) (n : NodeEntry) : Bool :=
  match coarsest n.barriers with
  | some k => n.gang ≤ classContexts (((ls[k]?).map (·.domain)).getD 1) n.sClass
  | none => true

/-- The depth of a stage edge is at least both gang sizes. -/
def depthOk (ns : List NodeEntry) (e : EdgeEntry) : Bool :=
  !e.stage || [e.src, e.dst].all fun k => ((ns[k]?).map (·.gang)).getD 1 ≤ e.depth

/-- Steps 1 to 8. `kick` are the KICK fields as GO found them. No step checks RANK: the model takes any of its 16 bits, and `lvl.idx` of
the pod level returns it (DESIGN CHOICE, assumption 85). -/
def State.loadGraph (s : State) (v : PeerView) (kick : List Word) : Load (Graph × Header) :=
  let g := kick.getD 0 0
  (s.loadHeader v g).then fun h s =>
  (s.poolRead v (g + word h.launch) 64).then fun lb s =>
  match launchLevels ((List.range 8).map fun k => word (le lb (8 * k) 8)) with
  | none => (.error (0x03, 0), s)
  | some ls =>
    (loadItems (State.loadNode v g h ls) h.nnode 0 s).then fun ns s =>
    (loadItems (State.loadEdge v g h ns) h.nedge 0 s).then fun es s =>
    match cycleNode h.nnode es with
    | some k => (.error (0x05, k), s)
    | none =>
      (loadItems (State.loadHandle v g h) h.nhandle 0 s).then fun hs s =>
      match ns.findIdx? fun n => !gangOk ls n with
      | some k => (.error (0x07, k), s)
      | none =>
        match es.find? fun e => !depthOk ns e with
        | some e => (.error (0x07, e.src), s)
        | none =>
          if flag s.regs.ctxarea 0 then
            (.ok (⟨g, (g + word h.param).toNat, (g + word h.handles).toNat, field (kick.getD 2 0) 32 16, ls, ns, es, hs,
              kick.getD 3 0⟩, h), s)
          else (.error (0x08, 0), s)

/-! ## The parameter patch (R160, step 9) -/

def State.loadPatch (s : State) (v : PeerView) (a : Word) (psize k : Nat) : Load (Nat × List Byte) :=
  (s.poolRead v (a + word (16 * k)) 16).then fun b s =>
    if le b 0 8 % 8 ≠ 0 ∨ psize < le b 0 8 + 8 then (.error (0x09, k), s) else (.ok (le b 0 8, b.drop 8), s)

/-- Checks the patch table: the entries to write. -/
def State.patches (s : State) (v : PeerView) (kick : List Word) (h : Header) : Load (List (Nat × List Byte)) :=
  let a := kick.getD 1 0
  let n := field (kick.getD 2 0) 0 32
  if a.toNat % 16 ≠ 0 ∨ 4096 < n then (.error (0x09, 0), s)
  else if a = 0 then (.ok [], s)
  else loadItems (fun k s => s.loadPatch v a h.psize k) n 0 s

/-! ## Readiness and expansion (R162, R166) -/

/-- Live spawned instances counted under a node. -/
def Pool.liveOf (p : Pool) (n : Nat) : Nat := look 0 n p.live

/-- A node is complete: every instance has retired, and every instance spawned under it. -/
def Pool.complete (p : Pool) (n : Nat) (e : NodeEntry) : Bool :=
  (p.retired.filter (·.1 == n)).length == e.count && p.liveOf n == 0

/-- A node that every completion predecessor has left ready. -/
def Pool.ready (p : Pool) (g : Graph) (n : Nat) : Bool :=
  g.edges.all fun e => e.stage || e.dst != n ||
    (match g.nodes[e.src]? with
     | some a => p.complete e.src a
     | none => false)

/-- The digits of u over fan-outs, coarsest first. -/
def indexDigits (fs : List Nat) (u : Nat) : List Nat :=
  (fs.foldr (fun f acc => (acc.1 / f, acc.1 % f :: acc.2)) (u, ([] : List Nat))).2

/-- The level indices of instance u of a node (R152). -/
def Graph.levelsOf (g : Graph) (n : NodeEntry) (u : Nat) : List Nat :=
  let ls := g.levels.take (n.grain + 1)
  (ls.zip (indexDigits (ls.map LevelEntry.count) u)).map fun x => if x.1.domain = 0 then g.rank else x.2

/-- The instances of a node. -/
def Graph.instances (g : Graph) (k : Nat) (n : NodeEntry) (pblock : Word) (root : Nat) (spawned : Bool) (id : Nat) : List Inst :=
  (List.range n.count).map fun u =>
    ⟨k, u, g.levelsOf n u, pblock, root, spawned, id, n.prio, 0, 0, 0, false, false, false, none⟩

/-- Expands the nodes that have become ready. -/
def Pool.expand (p : Pool) (g : Graph) : Pool :=
  g.nodes.zipIdx.foldl (fun p x =>
    let (n, k) := x
    if n.spawn || p.expanded.contains k || !p.ready g k then p
    else { p with expanded := k :: p.expanded,
                  waiting := p.waiting ++ g.instances k n (word (g.param + n.pbOff)) k false 0 }) p

/-- The stage edges let an instance go. -/
def Pool.eligible (p : Pool) (g : Graph) (i : Inst) : Bool :=
  i.spawned || g.edges.all fun e =>
    !e.stage || ((e.dst != i.node || p.retired.contains (e.src, i.u))
      && (e.src != i.node || i.u < e.depth || p.retired.contains (e.dst, i.u - e.depth)))

/-- Marks the instances that have become eligible, in order. -/
def Pool.mark (p : Pool) (g : Graph) (now : Nat) : Pool :=
  let r := p.waiting.foldl (fun (acc : Nat × List Inst) i =>
    if i.seq = 0 ∧ p.eligible g i = true then (acc.1 + 1, acc.2 ++ [{ i with seq := acc.1 + 1, since := now }])
    else (acc.1, acc.2 ++ [i])) (p.seq, [])
  { p with seq := r.1, waiting := r.2 }

/-- What follows from what has retired: ready nodes expand, instances become eligible. -/
def State.settlePool (s : State) : State :=
  match s.pool.graph with
  | some g => { s with pool := (s.pool.expand g).mark g s.now }
  | none => s

/-- Every node and every spawned instance is complete. -/
def Pool.done (p : Pool) (g : Graph) : Bool :=
  (g.nodes.zipIdx.all fun x => x.1.spawn || p.complete x.2 x.1) && p.live.all (·.2 == 0)

/-- The replay reaches DONE when all of it is complete (R161). -/
def State.finishReplay (s : State) : State :=
  match s.pool.graph with
  | some g =>
    if field s.regs.kickstat 0 4 = 3 ∧ s.pool.done g = true then
      let ks := setField s.regs.kickstat 0 4 4
      let s := { s with regs := { s.regs with kickstat := ks, kickdone := g.tag },
                        pool := { Pool.reset with stopped := s.pool.stopped } }
      if flag ks 4 then s.interrupt 0 else s
    else s
  | none => s

/-! ## KICK (R157 to R159) -/

/-- STATE, ERR and NODE after a failed check. -/
def State.kickError (s : State) (tag : Word) (err node : Nat) : State :=
  let ks := fieldsWord [(56, 8, err), (32, 16, node), (4, 2, field s.regs.kickstat 4 2), (0, 4, 5)]
  let s := { s with regs := { s.regs with kickstat := ks, kickdone := tag } }
  if flag ks 4 then s.interrupt 0 else s

/-- Every step has passed: the replay runs. -/
def State.enterRunning (s : State) (g : Graph) : State :=
  let ks := fieldsWord [(4, 2, field s.regs.kickstat 4 2), (0, 4, 3)]
  let pool := { Pool.reset with graph := some g, dead := s.deadCores, stopped := s.pool.stopped }
  let s := { s with regs := { s.regs with kickstat := ks }, pool := pool,
                    clusters := s.clusters.map fun (c : Nat × Cluster) => (c.1, { c.2 with events := [] }) }
  s.settlePool.finishReplay

/-- Writes the patches in table order, each once the one before it is acknowledged, and then enters RUNNING (R160). A write at a peer waits
while the device drains (R389). -/
def State.runPatches (g : Graph) (op : Nat) : List (Nat × List Byte) → State → State
  | [], s => if s.engAwaits op then { s with pool := { s.pool with patching := some ⟨g, op, [], false⟩ } } else s.enterRunning g
  | (off, bs) :: ps, s =>
    if s.engAwaits op then { s with pool := { s.pool with patching := some ⟨g, op, (off, bs) :: ps, false⟩ } }
    else
      match s.engStore (poolWho op) .g (word (g.param + off)) (bs.map fun b => (b, false)) with
      | (.error _, s) => ({ s with pool := { s.pool with patching := none } }).kickError g.tag 0x0A 0
      | (.ok none, s) => { s with pool := { s.pool with patching := some ⟨g, op, (off, bs) :: ps, false⟩ } }
      | (.ok (some _), s) => State.runPatches g op ps s

/-- Step 9 goes on: a refused write ends the replay with 0x0A. -/
def State.goOnPatching (s : State) (x : Patching) : State :=
  if x.refused then ({ s with pool := { s.pool with patching := none } }).kickError x.graph.tag 0x0A 0
  else
    let t := State.runPatches x.graph x.op x.left s
    if t.pool = s.pool then { s with evt := .stall } else t

/-- LOADING, PATCHING, and the entry to RUNNING. -/
def State.startReplay (s : State) (v : PeerView) (kick : List Word) : State :=
  let s := { s with regs := { s.regs with kickPend := none } }
  match (s.loadGraph v kick).then fun x s => (s.patches v kick x.2).then fun ps s => (.ok (x.1, ps), s) with
  | (.error e, s) => s.kickError (kick.getD 3 0) e.1 e.2
  | (.ok (g, ps), s) =>
    let (op, s) := s.fresh
    State.runPatches g op ps { s with regs := { s.regs with kickstat := setField s.regs.kickstat 0 4 2 } }

/-- A GO: nothing in HOLD; OVR while a replay runs or the device vacates (R158, R422, R426); it waits while the device is not in
RUN (R397), and a second one that comes while it waits is a stray GO too (assumption 84). The fields are those of the write of GO (R157). -/
def execKickGo (s : State) : Host.Outcome State Fault Refusal :=
  s.event fun s =>
    let st := field s.regs.kickstat 0 4
    let k := s.regs.kickGos.headD s.regs.kick
    let s := { s with regs := { s.regs with kickGos := s.regs.kickGos.drop 1 } }
    if field s.mgmt.bootstat 62 2 ≠ 2 then s
    else if (1 ≤ st ∧ st ≤ 3) ∨ s.vacating ∨ s.regs.kickPend.isSome then
      { s with regs := { s.regs with kickstat := setFlag s.regs.kickstat 5 true } }
    else if field s.pwr.pwrstat 45 2 ≠ 0 then { s with regs := { s.regs with kickPend := some k } }
    else s.startReplay s.regs.kickView k

/-! ## Binding and contexts (R152, R163, R357) -/

/-- The numbers of a range [lo, hi). -/
def span (r : Nat × Nat) : List Nat := (List.range (r.2 - r.1)).map (r.1 + ·)

/-- The cores of a class in a range that core indices bind to: those that were not DEAD when the replay was bound (R152). -/
def State.boundIn (s : State) (sClass : Bool) (r : Nat × Nat) : List Nat :=
  (span r).filter fun g => isMCore g != sClass && !s.pool.dead.contains g

/-- The cores of a class in a range that an instance may be placed on: none that is DEAD now (R357). -/
def State.usableIn (s : State) (sClass : Bool) (r : Nat × Nat) : List Nat :=
  (span r).filter fun g => isMCore g != sClass && !flag (s.coreAt g).slotmap 0

/-- The unit that an index of a level binds to, inside a range of cores: dies and clusters in order, cores by their place among
those of the class (assumption 21). Under a pod level R151 admits more dies or clusters than the device has: their numbers go round
(assumption 92). -/
def State.bindUnit (s : State) (sClass : Bool) (r : Nat × Nat) (d i : Nat) : Nat × Nat :=
  match d with
  | 2 => let k := i % ((r.2 - r.1) / 192); (r.1 + 192 * k, r.1 + 192 * (k + 1))
  | 3 => let k := i % ((r.2 - r.1) / 96); (r.1 + 96 * k, r.1 + 96 * (k + 1))
  | 4 =>
    let l := s.boundIn sClass r
    match l[i % l.length]? with
    | some g => (g, g + 1)
    | none => (0, 0)
  | _ => r

/-- The cores that level indices bind to. -/
def State.bindCores (s : State) (sClass : Bool) (ls : List LevelEntry) (idx : List Nat) : Nat × Nat :=
  (ls.zip idx).foldl (fun r x => s.bindUnit sClass r x.1.domain x.2) (0, 4608)

/-- Contexts kept for members of gangs that have not reached their context yet. -/
def State.keptCtxs (s : State) : List Nat :=
  (s.pool.waiting ++ (s.dies.map (·.2.queue)).flatten).filterMap (·.bound)

/-- A FREE context of core g that a test lets pass: the lowest. -/
def State.freeCtx (s : State) (ok : Nat → Bool) (g : Nat) : Option Nat :=
  ((List.range 4).map (4 * g + ·)).find? fun c => (s.ctx c).status == .free && ok c

/-- The contexts of core g in use. -/
def State.busyCtxs (s : State) (g : Nat) : Nat := ((List.range 4).filter fun k => (s.ctx (4 * g + k)).status != .free).length

/-- The lighter layer of a die (R404). -/
def State.lightCluster (s : State) (g : Nat) : Bool := g / 96 % 2 == field (s.dieAt (g / 192)).balance 5 1

/-- A context of one of the cores: on the lighter layer, then the core with fewest contexts in use, then the lowest core. -/
def State.pickCtx (s : State) (ok : Nat → Bool) (cores : List Nat) : Option Nat :=
  let rank := fun g => (if s.lightCluster g then 0 else 8) + s.busyCtxs g
  (cores.foldl (fun (best : Option (Nat × Nat)) g =>
    match s.freeCtx ok g with
    | none => best
    | some c =>
      match best with
      | none => some (rank g, c)
      | some b => if rank g < b.1 then some (rank g, c) else best) none).map (·.2)

/-! ## The order of the pool (R162) -/

/-- Goes before in the pool's order: the higher priority; a restarted instance; the one eligible first. Where a node's higher u has become
eligible first R162 asks both for the order of eligibility and for increasing u: the model takes the order of eligibility, and u orders
those that become eligible at once (DESIGN CHOICE, assumption 88). -/
def Inst.before (a b : Inst) : Bool :=
  b.prio < a.prio || (a.prio == b.prio &&
    ((a.restarts != 0 && b.restarts == 0) || (a.restarts == 0 && b.restarts == 0 && a.seq < b.seq)))

def insertInst (i : Inst) : List Inst → List Inst
  | [] => [i]
  | j :: l => if i.before j then i :: j :: l else j :: insertInst i l

/-- The eligible instances in order. -/
def Pool.order (p : Pool) : List Inst := (p.waiting.filter (·.seq != 0)).foldl (fun l i => insertInst i l) []

/-- The same instance. -/
def Inst.same (a b : Inst) : Bool := a.node == b.node && a.u == b.u && a.spawnId == b.spawnId

/-- The members of an instance's gang that wait and are eligible. -/
def Pool.gangOf (p : Pool) (n : NodeEntry) (i : Inst) : List Inst :=
  p.waiting.filter fun j => j.node == i.node && j.spawnId == i.spawnId && j.u / n.gang == i.u / n.gang && j.seq != 0
    && j.restarts == 0 && j.bound.isNone

def Pool.update (p : Pool) (i : Inst) : Pool := { p with waiting := updateFirst (Inst.same i) (fun _ => i) p.waiting }

/-! ## One cycle of the pool (R162, R163, R357) -/

/-- The cores an instance may run on. -/
def State.instCores (s : State) (g : Graph) (n : NodeEntry) (i : Inst) : Nat × Nat :=
  s.bindCores n.sClass (g.levels.take (n.grain + 1)) i.levels

/-- The cores of the domain of its gang. -/
def State.gangCores (s : State) (g : Graph) (n : NodeEntry) (i : Inst) : Nat × Nat :=
  match coarsest n.barriers with
  | some k => s.bindCores n.sClass (g.levels.take (k + 1)) i.levels
  | none => (0, 4608)

/-- The cores whose contexts are kept for it first, when it comes back after a restart: of its gang's domain, or of its unit. -/
def State.homeCores (s : State) (g : Graph) (n : NodeEntry) (i : Inst) : Nat × Nat :=
  if n.barriers.isEmpty then s.instCores g n i else s.gangCores g n i

def Reserve.covers (r : Reserve) (sClass : Bool) (core : Nat) : Bool := r.sClass == sClass && r.lo ≤ core && core < r.hi

/-- What is reserved, ahead of an instance, for those that a restart has returned to the pool: of their own priority and below no other
takes it, of them only those of a lower priority do not (R163). -/
def State.aheadOf (s : State) (g : Graph) (i : Inst) : List Reserve :=
  s.pool.waiting.filterMap fun j =>
    if j.restarts ≠ 0 ∧ j.seq ≠ 0 ∧ j.bound = none ∧ (if i.restarts = 0 then i.prio ≤ j.prio else i.prio < j.prio) then
      (g.nodes[j.node]?).map fun n => ⟨(s.homeCores g n j).1, (s.homeCores g n j).2, n.sClass, j.prio⟩
    else none

/-- A context is set aside: it is kept for someone, or its core is reserved. -/
def setAside (kept : List Nat) (rs : List Reserve) (sClass : Bool) (c : Nat) : Bool :=
  kept.contains c || rs.any (·.covers sClass (c / 4))

/-- The context of die d that an instance in its queue takes now: its own or one that is not set aside. Contexts reserved for a gang of a
higher priority it leaves, unless its unit has no others there: it is in front of that gang (DESIGN CHOICE, assumption 113). -/
def State.queuePlace (s : State) (g : Graph) (kept : List Nat) (d : Nat) (n : NodeEntry) (i : Inst) : Option Nat :=
  let cores := (s.usableIn n.sClass (s.instCores g n i)).filter fun c => c / 192 == d
  let rs := (s.pool.reserve.toList.filter fun r => i.prio < r.prio && cores.any fun c => !r.covers n.sClass c) ++ s.aheadOf g i
  s.pickCtx (fun c => i.bound == some c || !setAside kept rs n.sClass c) cores

/-- The contexts kept for members, and with them one for each instance that waits in a die queue and can be placed: no gang takes these
(DESIGN CHOICE, assumption 113). -/
def State.promised (s : State) (g : Graph) : List Nat :=
  s.dies.foldl (fun kept (d : Nat × Die) => d.2.queue.foldl (fun kept i =>
    match i.bound, g.nodes[i.node]? with
    | none, some n => (s.queuePlace g kept d.1 n i).toList ++ kept
    | _, _ => kept) kept) s.keptCtxs

/-- The box origin of operand 0 (R154): its handle, the dimensions and the origin along each. -/
def boxOrigin (g : Graph) (n : NodeEntry) (u : Nat) : Option (Handle × Nat × Nat × Nat × Nat) :=
  match n.opers with
  | [] => none
  | (hidx, _, a, b, boxA, boxB) :: _ =>
    let d := g.hdescs.getD hidx 0
    let ba := if boxA = 0 then Desc.ext d a else boxA
    let bb := if boxB = 0 then Desc.ext d b else boxB
    let nb := if Desc.ext d b = 0 then 1 else ceilDiv (Desc.ext d b) bb
    some (⟨d, BitVec.ofNat 56 (g.handles + 64 * hidx)⟩, a, b, u / nb * ba, u % nb * bb)

/-- The die of the HBM stack that holds the origin element of operand 0 (R154). With a = b, which a handle of rank 1 forces, the rule gives
two origins for one coordinate: the model takes origin_b (DESIGN CHOICE, assumption 86). -/
def State.originDie (s : State) (g : Graph) (n : NodeEntry) (u : Nat) : Option Nat × State :=
  match boxOrigin g n u with
  | none => (none, s)
  | some (h, a, b, oa, ob) =>
    let xs := (List.range (Desc.rank h.desc)).map fun k => if k = b then (ob : Int) else if k = a then (oa : Int) else 0
    let s := s.touchDone (poolWho 0) h
    match s.element (poolWho 0) h xs false with
    | .at_ va =>
      match s.translateNow (poolWho 0) va .read with
      | (.ok p, s) => (if p.dev = s.device ∧ p.loc < 2 ^ 40 then some (dieOfStack (stackOf p.loc)) else none, s)
      | (.error _, s) => (none, s)
    | _ => (none, s)

def State.originsOf (g : Graph) (n : NodeEntry) : List Inst → State → List (Inst × Option Nat) × State
  | [], s => ([], s)
  | i :: is, s =>
    let (o, s) := s.originDie g n i.u
    let (l, s) := State.originsOf g n is s
    ((i, o) :: l, s)

/-- Of the dies of some cores, the one that rules 3 to 5 of R357 leave: with the origin element, with the shortest queue, the lowest. -/
def State.preferDie (s : State) (origin : Option Nat) (cores : List Nat) : Option Nat :=
  let dies := cores.foldl (fun l c => insertNat (c / 192) l) []
  let dies := match origin with
    | some d => if dies.contains d then [d] else dies
    | none => dies
  dies.foldl (fun (best : Option Nat) d =>
    match best with
    | none => some d
    | some b => if (s.dieAt d).queue.length < (s.dieAt b).queue.length then some d else best) none

/-- The die that R357 gives an instance. It stays in the pool when all that its unit has there is reserved for one that goes before it. -/
def State.chooseDie (s : State) (g : Graph) (n : NodeEntry) (rs : List Reserve) (i : Inst) (origin : Option Nat) : Option Nat :=
  let cores := s.usableIn n.sClass (s.instCores g n i)
  match s.preferDie origin cores with
  | some d => if cores.all fun c => c / 192 != d || rs.any (·.covers n.sClass c) then none else some d
  | none => none

/-- The context kept for an instance: on the die that R357 gives it, of those with a context that is free and not set aside. -/
def State.keptCtx (s : State) (g : Graph) (n : NodeEntry) (rs : List Reserve) (kept : List Nat) (i : Inst) (origin : Option Nat) :
    Option Nat :=
  let okay := fun c => !setAside kept rs n.sClass c
  let cores := (s.usableIn n.sClass (s.instCores g n i)).filter fun c => (s.freeCtx okay c).isSome
  match s.preferDie origin cores with
  | some d => s.pickCtx okay (cores.filter fun c => c / 192 == d)
  | none => none

/-- Keeps a context for each of some instances; none when they do not all find one. -/
def State.keepAll (s : State) (g : Graph) (n : NodeEntry) (rs : List Reserve) (kept : List Nat) :
    List (Inst × Option Nat) → Option State
  | [] => some s
  | (i, o) :: is =>
    match s.keptCtx g n rs kept i o with
    | some c => ({ s with pool := s.pool.update { i with bound := some c } }).keepAll g n rs (c :: kept) is
    | none => none

/-- A gang is started, when contexts are kept for all its members, or the cores of its domain are reserved unless an older one has them; a
restarted instance is given a context alone (R163). -/
def State.keepFor (s : State) (g : Graph) (n : NodeEntry) (resv : Option Reserve) (i : Inst) : State × Option Reserve :=
  let alone := i.restarts != 0
  let team := if alone then [i] else s.pool.gangOf n i
  if !alone && team.length != n.gang then (s, resv)
  else
    let (team, s) := State.originsOf g n team s
    let rs := (if alone then [] else resv.toList) ++ s.aheadOf g i
    match s.keepAll g n rs (if alone then s.keptCtxs else s.promised g) team with
    | some s => (s, resv)
    | none =>
      let r := s.gangCores g n i
      (s, if alone then resv else resv.or (some ⟨r.1, r.2, n.sClass, i.prio⟩))

/-- An instance with a kept context is given its die and context anew as it goes to a die queue, of what is not kept for another. -/
def State.rebound (s : State) (g : Graph) (n : NodeEntry) (i : Inst) (origin : Option Nat) : Inst :=
  match i.bound with
  | some c => { i with bound := (s.keptCtx g n (s.aheadOf g i) ((s.promised g).filter (· != c)) i origin).or i.bound }
  | none => i

/-- A spawned node's place is free once its last instance has gone to a die queue (R167). -/
def Pool.leftQueue (p : Pool) (i : Inst) : Pool :=
  if i.spawned ∧ i.restarts = 0 then
    { p with spawnQ := (p.spawnQ.map fun e => if e.1 = i.spawnId then (e.1, e.2.1, e.2.2 - 1) else e).filter (·.2.2 != 0) }
  else p

/-- The instance goes to the queue of die d, unless it is full. One that comes back after a restart goes ahead of all others, and is not held
up by a full queue (R163, R168; DESIGN CHOICE, assumption 113). -/
def State.toDie (s : State) (i : Inst) (d : Nat) : Option State :=
  if i.restarts = 0 ∧ 64 ≤ (s.dieAt d).queue.length then none
  else
    let s := { s with pool := { s.pool with waiting := s.pool.waiting.filter fun j => !i.same j }.leftQueue i }
    some (s.modDie d fun k => { k with queue := if i.restarts = 0 then k.queue ++ [i] else i :: k.queue })

/-- Members of a gang that has been started are still in the pool. -/
def Pool.starting (p : Pool) : Bool := p.waiting.any fun i => i.bound.isSome && i.restarts == 0

/-- What one instance of the order does in this cycle: contexts are kept for its gang, or for it alone after a restart; it goes to a die
queue. A gang that is started goes whole before any other instance (R163; DESIGN CHOICE, assumption 113). -/
def State.placeOne (g : Graph) (acc : State × Option Reserve × Nat) (i : Inst) : State × Option Reserve × Nat :=
  let (s, resv, moved) := acc
  match g.nodes[i.node]?, s.pool.waiting.find? (Inst.same i) with
  | some n, some i =>
    let keeps := !n.barriers.isEmpty || i.restarts != 0
    if i.bound.isNone && i.restarts == 0 && s.pool.starting then acc
    else
      let (s, resv) := if keeps && i.bound.isNone then s.keepFor g n resv i else (s, resv)
      match s.pool.waiting.find? (Inst.same i) with
      | some i =>
        if 4 ≤ moved then (s, resv, moved)
        else
          let (origin, s) := s.originDie g n i.u
          let i := s.rebound g n i origin
          let die := match i.bound with
            | some c => some (dieOf c)
            | none => if keeps then none else s.chooseDie g n (resv.toList ++ s.aheadOf g i) i origin
          match die.bind (s.toDie i) with
          | some s' => (s', resv, moved + 1)
          | none => (s, resv, moved)
      | none => (s, resv, moved)
  | _, _ => acc

/-- The pool dispatches: a replay is RUNNING and no save holds it. -/
def State.poolRuns (s : State) : Bool := field s.regs.kickstat 0 4 == 3 && !s.pool.stopped

/-- What the pool does in a cycle. -/
def State.poolCycle (s : State) (g : Graph) : State :=
  let s := s.settlePool
  let r : State × Option Reserve × Nat :=
    (s.pool.order.filter (·.bound.isSome) ++ s.pool.order.filter (·.bound.isNone)).foldl (State.placeOne g) (s, none, 0)
  { r.1 with pool := { r.1.pool with reserve := r.2.1 } }

/-- One die-0 cycle of the pool. It waits when nothing changes. -/
def execPoolPlace (s : State) : Host.Outcome State Fault Refusal :=
  s.event fun s =>
    match s.pool.patching, s.pool.graph with
    | some x, _ => s.goOnPatching x
    | none, some g =>
      if !s.poolRuns then { s with evt := .stall }
      else
        let t := s.poolCycle g
        if t.evt.isHub ∨ (t.pool = s.pool ∧ t.dies = s.dies) then s.notYet t else t
    | none, none => { s with evt := .stall }

/-- The priority of an instance after its time in the pool (R162). -/
def Inst.aged (now : Nat) (base : Nat) (i : Inst) : Inst :=
  if i.seq = 0 then i else { i with prio := Nat.min 7 (base + (now - i.since) / 1000000) }

/-- An instance that has been eligible for 1 ms without being dispatched rises one priority level, and one more for each further 1 ms. -/
def execPriorityAging (s : State) : Host.Outcome State Fault Refusal :=
  s.event fun s =>
    match s.pool.graph with
    | some g =>
      let age := fun (i : Inst) => i.aged s.now (((g.nodes[i.node]?).map (·.prio)).getD i.prio)
      { s with pool := { s.pool with waiting := s.pool.waiting.map age } }
    | none => s

/-! ## Dispatch onto a context (R164) -/

/-- h0 to h7: the descriptors that step 6 read and checked. R164 does not say whether a table entry that has changed since KICK, as the join
of a relayout changes one, is read again (DESIGN CHOICE, assumption 89). -/
def startHandles (g : Graph) (n : NodeEntry) : Vector Handle 16 :=
  gen 16 fun k =>
    match n.opers[k]? with
    | some (hidx, mode, _) =>
      let d := g.hdescs.getD hidx 0
      ⟨if mode = 0 then setDField d 510 1 1 else d, BitVec.ofNat 56 (g.handles + 64 * hidx)⟩
    | none => Handle.reset

/-- s0 to s3. An origin that does not fit its half of s3 gives its low 32 bits (DESIGN CHOICE, assumption 87). -/
def startScalars (g : Graph) (n : NodeEntry) (i : Inst) : Vector Word 16 :=
  let depth := match g.edges.find? fun e => e.stage && !i.spawned && (e.src == i.node || e.dst == i.node) with
    | some e => e.depth
    | none => 0
  let box := match boxOrigin g n i.u with
    | some (_, _, _, oa, ob) => fieldsWord [(32, 32, oa), (0, 32, ob)]
    | none => 0
  gen 16 fun k => [i.pblock, word i.u, word (if depth = 0 then 0 else i.u % depth), box].getD k 0

/-- The context as dispatch leaves it. -/
def State.startState (s : State) (g : Graph) (n : NodeEntry) (i : Inst) (c : Nat) : Ctx :=
  let base := field s.regs.ctxarea 22 20
  let spill := (base * 2 ^ 22 + 72 * 2 ^ 30 + c * 2 ^ 12) / 2 ^ 12
  let regs := { Regs.reset with
    s := startScalars g n i, h := startHandles g n, pc := n.entry, spillptr := fieldsWord [(12, 44, spill)] }
  { Ctx.reset with
    regs := regs, dsbjournal := fieldsWord [(22, 20, base + c), (0, 1, 1)], status := .ready, inst := some { i with bound := none },
    ckpt := some ⟨regs, false, false, 0, s.nextId⟩, parityGen := (s.ctx c).parityGen }

/-- The dispatcher of die d takes the instance at the head of its queue (R357). It waits when no context is free for it. -/
def execDieDispatch (d : Nat) (s : State) : Host.Outcome State Fault Refusal :=
  s.event fun s =>
    match s.pool.graph, (s.dieAt d).queue with
    | some g, i :: rest =>
      match g.nodes[i.node]? with
      | some n =>
        match s.queuePlace g s.keptCtxs d n i, s.poolRuns with
        | some c, true => (s.setCtx c (s.startState g n i c)).modDie d fun k => { k with queue := rest }
        | _, _ => { s with evt := .stall }
      | none => { s with evt := .stall }
    | _, _ => { s with evt := .stall }

/-! ## `spawn` (R167, R229) -/

/-- Offers a node to the spawn queue: the result is 1 when nothing was enqueued. -/
def State.enqueueSpawn (s : State) (n : Nat) (a : Word) : Bool × State :=
  match s.pool.graph with
  | some g =>
    match g.nodes[n]? with
    | some e =>
      if field s.regs.kickstat 0 4 ≠ 3 ∨ 1024 ≤ s.pool.spawnQ.length then (true, s)
      else
        let root := match s.cx.inst with
          | some i => i.root
          | none => g.nodes.length
        let id := s.pool.spawnSeq + 1
        let p := { s.pool with
          spawnSeq := id, spawnQ := s.pool.spawnQ ++ [(id, n, e.count)], live := put root (s.pool.liveOf root + e.count) s.pool.live,
          waiting := s.pool.waiting ++ g.instances n e a root true id }
        (false, (({ s with pool := p }).markInst fun i => { i with didSpawn := true }).settlePool)
    | none => (true, s)
  | none => (true, s)

/-- `spawn`. R229 names no latency class for its predicates: the model writes them as S1 does (DESIGN CHOICE, assumption 91). -/
def execSpawn (g : Fin 16) (x0 : Src) (p : Fin 8) (n : Fin 4096) (s : State) : Host.Outcome State Fault Refusal :=
  s.syl (Instr.info s (.spawn g x0 p n)) fun s =>
    let a := s.readSrc x0
    if field a 0 6 ≠ 0 ∨ field a 56 8 ≠ 0 then s.misaligned
    else s.release fun s =>
      let (full, s) := s.enqueueSpawn n.val a
      s.writePair p full

/-! ## `end.node` (R124, R166, R227) -/

/-- The instance leaves its barriers (R124). -/
def State.leaveBarriers (s : State) (i : Inst) : State :=
  match s.pool.graph with
  | some g =>
    match g.nodes[i.node]? with
    | some n => n.barriers.foldl (fun s b => s.setBarrier (s.barrierOf g n i b.1).dropOut) s
    | none => s
  | none => s

/-- The pool learns that an instance has retired. -/
def State.countRetired (s : State) (i : Inst) : State :=
  let p := s.pool
  let p := if i.spawned then { p with live := put i.root (p.liveOf i.root - 1) p.live }
    else { p with retired := p.retired ++ [(i.node, i.u)] }
  ({ s with pool := p }).settlePool.finishReplay

/-- The context is FREE; its core goes on to another when the bundle is done. -/
def State.freeContext (s : State) : State :=
  let s := if s.cx.stopReq.isSome then s.enqueue (.contextSaved s.cid) else s
  let x := s.cx
  let s := { s with fab := s.fab.orphan s.cid, core := { s.core with mx := s.core.mx.orphan s.cid },
                    remotes := s.remotes.map fun (r : RemotePend) => if r.ctx = s.cid then { r with ctx := noCtx } else r }
  { s with cx := { x with
             status := .free, wait := .none, inst := none, inflight := [], fresh := [], ckpt := none, pending := [], held := [],
             boostReq := 0, stopReq := none, exempt := false, joinMark := 0, synced := false, part := none, marks := [],
             moves := [], parity := 0, parityGen := x.parityGen + 1 },
           issue := { s.issue with ended := true } }

/-- The instance retires. A context that runs none becomes FREE alike. -/
def State.retire (s : State) : State :=
  match s.cx.inst with
  | some i => ((s.leaveBarriers i).freeContext).countRetired i
  | none => s.freeContext

/-- Performs `rlay.wt` for each entry the instance started, in order. -/
def State.joinRelayouts (s : State) (after : State → State) : State :=
  match s.ownRelayouts with
  | [] => after s
  | rs =>
    match rs.find? fun r => rs.all fun q => r.order ≤ q.order with
    | some r => s.waitRelayout r fun s => if s.ownRelayouts.isEmpty then after s else s.blockBundle
    | none => s

/-- `end.node`: results land, operations and relayout entries are joined, stores published, and the instance retires; a store that was
refused is taken first (R445). -/
def execEndNode (g : Fin 16) (s : State) : Host.Outcome State Fault Refusal :=
  s.syl (Instr.info s (.endNode g)) fun s =>
    let s := s.mergeFresh
    if s.cx.inflight.any fun f => f.land.isNone then s.blockBundle
    else s.joinOps s.allJoins fun s => s.joinRelayouts fun s => s.release fun s =>
      if s.cx.pending.isEmpty then s.landAll.retire else s.blockBundle

end Sys2Proof.Machine
end

