-- ==== Sys2Proof/Machine/Preempt.lean ====
section
/-! DEFINITION. Pre-emption (R418 to R420) and the store to FATAL (R411): a context stops, its routines end or are aborted, its copies
are joined, its parity count falls to 0, its record is written. -/

namespace Sys2Proof.Machine

/-! ## Targets (R418) -/

/-- Context c lies in SCOPE of PREEMPT. -/
def State.inScope (s : State) (c : Nat) : Bool :=
  match field s.mgmt.preempt 60 2 with
  | 0 => true
  | 1 => clusterOf c == field s.mgmt.preempt 54 6
  | 2 => c == field s.mgmt.preempt 38 15
  | _ => false

/-- A target still has to be saved. -/
def State.saving (s : State) : Bool := s.knownCtxs.any fun c => s.inScope c && (s.ctx c).stopReq.isSome

/-! ## Records -/

def State.saveArea (s : State) : Nat := field s.mgmt.savebase 32 10 * 2 ^ 32

/-- The place of a state in the table of R165. -/
def Status.place : Status → Nat
  | .free => 0
  | .ready => 1
  | .running => 2
  | .blocked => 3
  | .parked => 4
  | .saved => 5

/-- The first line of a context's record: CTXID, the state in which the save found it, PC, time base; the rest is opaque (assumption 13). -/
def State.recordLine (s : State) (c : Nat) : List Byte :=
  let free := fun i => Config.savedByte s.freeCount i
  let x := s.ctx c
  bytesOf 2 c ++ Config.stateCode x.preSave.place :: ((List.range 5).map fun i => free (3 + i)) ++ bytesOf 8 x.regs.pc.toNat ++ bytesOf 8 s.now ++
    (List.range 40).map fun i => free (24 + i)

/-- The record of context c can be written: the area is set up, and the rows of R133 do not keep the device out (assumption 80). -/
def State.canRecord (s : State) (c : Nat) : Bool := flag s.mgmt.savebase 0 && (s.protRow (s.saveArea + c * 2 ^ 16) false).isNone

/-- Writes the record of context c. -/
def State.writeRecord (s : State) (c : Nat) : State :=
  if flag s.mgmt.savebase 0 then
    { s.putBytes (s.saveArea + c * 2 ^ 16) (s.recordLine c) with freeCount := s.freeCount + 1 }
  else s

/-- Writes the record of core g's matrix engine: opaque bytes. What they hold is kept as `coreRecs` (assumption 13). -/
def State.writeCoreRecord (s : State) (g : Nat) : State :=
  let bs := (List.range 64).map fun i => Config.savedByte s.freeCount i
  { s.putBytes (s.saveArea + 1152 * 2 ^ 20 + g * 2 ^ 18) bs with
      freeCount := s.freeCount + 1, coreRecs := (g, (s.coreAt g).mx) :: s.coreRecs.filter (·.1 != g) }

/-- Reloads the matrix engine of a core from its record: planes, queues, segment log, routine table and microprogram store (R418). -/
def State.reloadCore (s : State) (r : Nat × Matrix) : State :=
  s.modMx r.1 fun m => { m with
    store := r.2.store, table := r.2.table, ia := r.2.ia, fa := r.2.fa, aq := r.2.aq, bq := r.2.bq, aStage := r.2.aStage,
    bStage := r.2.bStage, log := r.2.log, logovf := r.2.logovf }

/-- PC as the record of context c holds it, in its bytes 8-15 (R418); of a poisoned record a free value. -/
def State.recordPc (s : State) (c : Nat) : Word × State :=
  let line := s.saveArea + c * 2 ^ 16
  let s := s.touch line (byteMask 8 8)
  if s.poisonMask line &&& byteMask 8 8 = 0 then (word (ofBytes (lineBytes (s.readLine 0 line) 8 8)), s) else s.freeValue

/-- The M-cores that the state knows. -/
def State.knownMCores (s : State) : List Nat :=
  (s.cores.foldl (fun l (e : Nat × Core) => insertNat e.1 l) [s.gcore]).filter isMCore

/-- A save or restore has completed. -/
def State.endPreempt (s : State) : State :=
  ({ s with mgmt := { s.mgmt with preempt := setField s.mgmt.preempt 0 2 2 } }).interrupt 7

/-- The save is complete when every target is SAVED. -/
def State.checkSaved (s : State) : State :=
  if flag s.mgmt.preempt 0 && !s.saving then
    let s := if field s.mgmt.preempt 60 2 = 0 then s.knownMCores.foldl State.writeCoreRecord s else s
    s.endPreempt
  else s

/-! ## Saving (R419) -/

/-- A save starts: BUSY, the pool stops for SCOPE device, every target is asked to stop. -/
def execPreemptSave (s : State) : Host.Outcome State Fault Refusal :=
  s.event fun s =>
    if flag s.mgmt.preempt 0 || !flag s.mgmt.savebase 0 then s
    else
      let dev := field s.mgmt.preempt 60 2 = 0
      let s := { s with
        mgmt := { s.mgmt with preempt := setField s.mgmt.preempt 0 2 1, saveStart := s.tick },
        pool := { s.pool with stopped := s.pool.stopped || decide dev } }
      let targets := s.knownCtxs.filter fun c => s.inScope c && s.live c
      (targets.foldl State.requestStop s).checkSaved

/-- A routine that context c called runs or is queued. -/
def State.routineOf (s : State) (c : Nat) : Bool :=
  let m := (s.coreAt (c / 4)).mx
  (match m.routine with
   | some r => r.ctx == c
   | none => false) ||
    m.ops.any fun o => o.ctx == c && !o.complete && (match o.kind with
      | .routine _ _ => true
      | _ => false)

/-- The copies of context c. -/
def State.copiesOf (s : State) (c : Nat) : List Copy := (s.coreAt (c / 4)).ch.toList.flatten.filter fun y => y.ctx == c && !y.cancelled

/-- A join of the save has something to do in context c: copies, or the parity counts of tile moves. -/
def State.toJoin (s : State) (c : Nat) : Bool := !(s.copiesOf c).isEmpty || (s.ctx c).moves.any fun m => look 0 m.id s.prot.opCounts != 0

/-- Context c has stopped, its routines, copies and tile moves have ended, and it has some to join or nothing of its parity count is
outstanding. -/
def State.saveReady (s : State) (c : Nat) : Bool :=
  let x := s.ctx c
  x.stopReq.isSome && x.status == .blocked && !s.routineOf c && (s.copiesOf c).all (·.finished) &&
    (x.moves.all fun m => !s.engAwaits m.id) && (x.parity == 0 || s.toJoin c)

/-- Faults by the number of the operation that recorded them. -/
def byIssue (l : List (Nat × Trap)) : List (Nat × Trap) :=
  l.foldl (fun (l : List (Nat × Trap)) j => l.filter (·.1 < j.1) ++ j :: l.filter (j.1 < ·.1)) []

/-- The save joins the copies and tile moves of the current context and holds their faults, in the order they were issued. The bundle of a
joined move goes on after the restore. -/
def State.joinForSave (s : State) : State :=
  let js := s.copyJoins
  let faults := (js.filterMap fun (j : JoinOp) => j.fault.map fun t => (j.id, t)) ++
    s.cx.moves.filterMap fun m => m.fault.map fun t => (m.id, t)
  let s := s.cx.moves.foldl (fun s m => s.joinParity s.cid m.id) (js.foldl State.joined s)
  { s with cx := { s.cx with
      held := s.cx.held ++ (byIssue faults).map (·.2), moves := s.cx.moves.map fun m => { m with fault := none } } }

/-- The context leaves the sync round it waits in: it arrives again after the restore. -/
def State.leaveRounds (s : State) (c : Nat) : State :=
  s.modCluster (clusterOf c) fun k => { k with
    rounds := k.rounds.map fun (r : SyncRound) => { r with arrived := r.arrived.filter (· != c) } }

/-- The copies are joined; once the parity count, with what they added to it (R136), is 0 the record is written and the context is SAVED. -/
def State.saveCtx (s : State) (c : Nat) : State :=
  let s := s.inCtx c State.joinForSave
  if (s.ctx c).parity ≠ 0 then s
  else
  let s := s.writeRecord c
  let s := (s.modCtx c fun x => { x with status := .saved, recorded := s.canRecord c, wait := .none, stopReq := none, synced := false }).dropWaits c
  (s.leaveRounds c).checkSaved

/-- The save of context c goes on; where the context has ended, and so is no target any more, the save may be complete. -/
def execContextSaved (c : Nat) (s : State) : Host.Outcome State Fault Refusal :=
  s.event fun s => if s.saveReady c then s.saveCtx c else if (s.ctx c).stopReq.isNone then s.checkSaved else s

/-- 200 µs have passed since the save of context c began, and a routine it called is unfinished. -/
def State.saveLate (s : State) (c : Nat) : Bool :=
  let x := s.ctx c
  match x.stopReq with
  | some t => x.status == .blocked && s.routineOf c && t + 200000 * 378 ≤ s.tick
  | none => false

/-- The routine is aborted and the context rolled back with no trap and no count (R413, R414). -/
def State.saveRollback (s : State) : State :=
  let rolled := match s.cx.ckpt with
    | some c => if c.committed && !c.outbound then some c else none
    | none => none
  match rolled with
  | some c =>
    let s := s.rollBack c
    { s with cx := { s.cx with fetched := [] } }
  | none =>
    let (v, s) := s.freeValue
    let code : BitVec 8 := v.setWidth 8
    match s.cx.inst with
    | some i =>
      if i.arrived || i.didSpawn || i.sent then s.fatal code
      else if s.rollLimit ≤ i.restarts then (s.fatal code).interrupt 8
      else s.restart i
    | none => s.fatal code

def execSaveRoutineTimeout (s : State) : Host.Outcome State Fault Refusal :=
  s.event fun s =>
    let late := s.knownCtxs.filter s.saveLate
    (late.foldl (fun s c => s.inCtx c State.saveRollback) s).checkSaved

/-! ## Restoring (R420) -/

/-- An instance under the rank of a graph. -/
def Inst.ranked (g : Graph) (i : Inst) : Inst :=
  match g.nodes[i.node]? with
  | some n => { i with levels := g.levelsOf n i.u }
  | none => i

/-- The instances of a replay go on under its rank. -/
def State.rerank (s : State) (g : Graph) : State :=
  let f := fun (x : Ctx) => { x with inst := x.inst.map (Inst.ranked g) }
  { s with
    pool := { s.pool with graph := some g, waiting := s.pool.waiting.map (Inst.ranked g) },
    dies := s.dies.map fun (d : Nat × Die) => (d.1, { d.2 with queue := d.2.queue.map (Inst.ranked g) }),
    cx := f s.cx, ctxs := s.ctxs.map fun (e : Nat × Ctx) => (e.1, f e.2) }

/-- The pool dispatches again; a replay that has come from a source goes on under the rank that KICK.RANK holds (R393). -/
def State.resumeReplay (s : State) : State :=
  let moved := s.pool.vacated
  let s := { s with pool := { s.pool with stopped := false, vacated := false } }
  match s.pool.graph, moved with
  | some g, true => s.rerank { g with rank := field (s.regs.kick.getD 2 0) 32 16 }
  | _, _ => s

/-- A SAVED target is READY: its PC is that of its record, the rest, which is opaque, as the save left it (assumption 13). -/
def State.restoreCtx (s : State) (c : Nat) : State :=
  let (pc, s) := if (s.ctx c).recorded && flag s.mgmt.savebase 0 then s.recordPc c else ((s.ctx c).regs.pc, s)
  s.modCtx c fun x => { x with status := .ready, recorded := false, regs := { x.regs with pc := pc } }

/-- A restore: with SCOPE device the core records are reloaded first and the pool dispatches again; each SAVED target is READY. -/
def execPreemptRestore (s : State) : Host.Outcome State Fault Refusal :=
  s.event fun s =>
    if flag s.mgmt.preempt 0 then s
    else
      let dev := field s.mgmt.preempt 60 2 = 0
      let targets := s.knownCtxs.filter fun c => s.inScope c && (s.ctx c).status == .saved
      let s := if dev then { s.coreRecs.foldl State.reloadCore s with coreRecs := [] } else s
      let s := targets.foldl State.restoreCtx s
      let s := if dev then s.resumeReplay else s
      s.endPreempt

/-! ## FATAL (R411) -/

def execFatalStore (c : Nat) (v : BitVec 64) (s : State) : Host.Outcome State Fault Refusal :=
  s.event fun s => if (s.ctx c).status == .free then s else s.fatalBy c v

end Sys2Proof.Machine
end

