-- ==== Sys2Proof/Machine/HostMgmt.lean ====
section
/-! DEFINITION. Host, bring-up and management (R5, R37, R422 to R429): the self-test, loss of power, the host port, the FRU, vacating
to a spare, attestation and keys. -/

namespace Sys2Proof.Machine

/-! ## Power-on (R422) and loss of power (R37, R397) -/

/-- Every register at its reset value; what outlives the power stays: fuses, the FRU, the count of power-ons. What has left the
device, and the numbers that are never used twice, stay as well. -/
def State.cleared (s : State) : State :=
  let r := State.reset
  { r with outbox := s.outbox, nextId := s.nextId, freeCount := s.freeCount,
           mgmt := { r.mgmt with powerOns := s.mgmt.powerOns, signatures := s.mgmt.signatures, health := s.mgmt.health,
                                 vacates := s.mgmt.vacates } }

/-- Step 3 leaves the core an ALU, a lane group and a branch unit, and its matrix array passes (R422). -/
def coreGood (t : CoreTest) : Bool := t.lgs != 0 && t.alus != 0 && t.bus != 0 && (t.array || !isMCore t.core)

/-- The instances of a core that are excluded. -/
def coreExcluded (t : CoreTest) : Nat :=
  ((List.range 5).filter fun i => !t.lgs.getLsbD i).length + ((List.range 3).filter fun i => !t.alus.getLsbD i).length +
    ((List.range 2).filter fun i => !t.bus.getLsbD i).length

/-- The instances of a kind that pass, from the lowest. -/
def passed (n w : Nat) : List Nat := (List.range n).filter w.testBit

/-- The OK bits of a core. -/
def coreOkBits (t : CoreTest) : Word := fieldsWord [(31, 5, t.lgs.toNat), (28, 3, t.alus.toNat), (22, 2, t.bus.toNat)]

/-- The map of a core around the instances that fail (R360): the one that the test gives where it is legal, else from the lowest
instances on (assumption 3). -/
def coreBound (t : CoreTest) : Word :=
  let w := coreOkBits t ||| (t.map &&& (ones 36 12 ||| ones 24 4 ||| 1))
  if flag w 0 || slotmapLegal w then w
  else
    let lg := fun i => (passed 5 t.lgs.toNat).getD i 7
    let alu := fun i => (passed 3 t.alus.toNat).getD i ((passed 3 t.alus.toNat).getD 0 0)
    coreOkBits t ||| fieldsWord [(45, 3, lg 3), (42, 3, lg 2), (39, 3, lg 1), (36, 3, lg 0), (26, 2, alu 0), (24, 2, alu 1)]

/-- One test for each core, the first. -/
def oncePerCore : List CoreTest → List CoreTest
  | [] => []
  | x :: l => x :: (oncePerCore l).filter (·.core != x.core)

/-- The cores that step 3 tests. -/
def coresTested (r : SelfTest) : List CoreTest :=
  if r.image.isSome || r.bank.isSome then [] else (oncePerCore r.cores).filter (·.core < 4608)

/-- The first failing step and its unit, of the steps in order. -/
def testFailure (r : SelfTest) : Option (Nat × BitVec 16) :=
  (r.image.map fun u => (1, u)).or <| (r.bank.map fun u => (2, u)).or <|
  (((coresTested r).find? fun t => !coreGood t).map fun t => (3, BitVec.ofNat 16 t.core)).or <|
  (r.line.map fun u => (4, u)).or (r.plane.map fun u => (5, u))

/-- The cores whose tests have left them usable before the self-test ends. -/
def coresKept (r : SelfTest) : List CoreTest := (coresTested r).takeWhile coreGood

/-- BOOTSTAT after a self-test (R423). -/
def bootstatOf (r : SelfTest) : Word :=
  let excl := Nat.min (((coresKept r).map coreExcluded).sum) (2 ^ 24 - 1)
  match testFailure r with
  | none => fieldsWord [(62, 2, 2), (16, 24, excl)]
  | some f => fieldsWord [(62, 2, 1), (40, 8, f.1), (16, 24, excl), (0, 16, f.2.toNat)]

/-- The map of one core as the self-test leaves it (R360). -/
def State.bindMap (s : State) (t : CoreTest) : State := s.modCore t.core fun k => { k with slotmap := coreBound t }

/-- The self-test ends: HOLD at a failure, else READY with every register at its reset value and a new boot key. -/
def State.selfTest (s : State) (r : SelfTest) : State :=
  let good := (testFailure r).isNone
  let s := if good then s.cleared else s
  let n := s.mgmt.powerOns
  let keys := if good then [(0, Config.bootKey n)] else s.mgmt.keys
  let s := { s with mgmt := { s.mgmt with bootstat := bootstatOf r, powerOns := n + 1, keys := keys } }
  ((coresKept r).foldl State.bindMap s).writeHealth

def execPowerOn (r : SelfTest) (s : State) : Host.Outcome State Fault Refusal := s.event fun s => s.cleared.selfTest r

/-- Loss of power: state and keys are gone, and the device is OFF. The mailbox stays up in every state (R396), so its registers stand. -/
def execPowerLoss (s : State) : Host.Outcome State Fault Refusal :=
  s.event fun s => { s.cleared with pwr := { s.pwr with pwrstat := setField s.pwr.pwrstat 44 3 6 } }

/-- RETEST, in HOLD alone (R423). -/
def execSelftestRetest (r : SelfTest) (s : State) : Host.Outcome State Fault Refusal :=
  s.event fun s => if field s.mgmt.bootstat 62 2 = 1 then s.selfTest r else s

/-! ## The host port and the management buses (R424, R425) -/

/-- The port trains at the highest generation of 7.0, 6.0 and 5.0 that the host supports too. -/
def execPcieLinkTraining (hostMax : Fin 8) (s : State) : Host.Outcome State Fault Refusal :=
  s.event fun s => { s with mgmt := { s.mgmt with pcieGen := if hostMax.val < 5 then 0 else hostMax.val } }

/-- Byte a of the FRU. -/
def State.fruAt (s : State) (a : Nat) : Byte :=
  if 64 ≤ a then 0xFF
  else if 56 ≤ a then (bytesOf 8 s.mgmt.health.toNat).getD (a - 56) 0
  else if 16 ≤ a ∧ a < 24 then
    (bytesOf 8 ((0x4B4A624A * 2 ^ 32 + Config.stepping.toNat * 2 ^ 8) / 2 ^ 8)).getD (a - 16) 0
  else Config.fruByte a

/-- A read of the FRU, with or without power. -/
def execFruRead (addr size : Nat) (s : State) : Host.Outcome State Fault Refusal :=
  s.event fun s =>
    if addr + size ≤ 8192 then s.send (.busData ((List.range size).map fun i => s.fruAt (addr + i))) else s

/-- A write of the host to a system register; the host is no context. -/
def execRegisterWrite (addr size : Nat) (v : BitVec 64) (s : State) : Host.Outcome State Fault Refusal :=
  s.event fun s =>
    if sysBase ≤ addr ∧ addr < 2 ^ 42 ∧ addr % 8 + size ≤ 8 then
      s.regWriteLine none true (lineOf addr) (byteMask (addr % 64) size) (lineAt (addr % 64) (v.toNat % 2 ^ (8 * size)))
    else s

/-- Number of the data unit's owner when the host writes: no context. -/
def hostWriter (s : State) : Writer := ⟨s.device, noCtx, none, 0, true⟩

/-- The host writes the bytes of one line of HBM, under the checks of R133. -/
def State.hostWriteLine (s : State) (line : Nat) (mask : BitVec 64) (data : Line) : State :=
  match s.protRow line false with
  | some _ => s
  | none => s.perform (hostWriter s) line 0 false mask data 0

/-- What the host reads of a line: a poisoned byte is a free value. -/
def State.hostReadLine (s : State) (line : Nat) (mask : BitVec 64) : Line × State :=
  let s := s.touch line mask
  let bad := s.poisonMask line &&& mask
  if bad = 0 then (s.plainLine 0 line, s)
  else
    let (v, s) := s.freeValue
    (mergeLine (s.plainLine 0 line) (BitVec.ofNat 512 ((List.range 8).foldl (fun acc i => acc + v.toNat * 2 ^ (64 * i)) 0)) bad, s)

/-- The bytes of an access of the host, line by line. -/
def State.hostRead (s : State) (a : Nat) : List (Nat × Nat) → List Byte × State
  | [] => ([], s)
  | p :: ps =>
    let b := a + p.1
    let (l, s) := s.hostReadLine (lineOf b) (byteMask (b % 64) p.2)
    let (rest, s) := s.hostRead a ps
    (lineBytes l (b % 64) p.2 ++ rest, s)

def State.hostWrite (s : State) (a : Nat) (data : Line) (ps : List (Nat × Nat)) : State :=
  ps.foldl (fun s p =>
    let b := a + p.1
    let mask := byteMask (b % 64) p.2
    let d := lineAt (b % 64) (data.toNat / 2 ^ (8 * p.1) % 2 ^ (8 * p.2))
    if sysBase ≤ b then s.regWriteLine none true (lineOf b) mask d else s.hostWriteLine (lineOf b) mask d) s

/-- A host access: BAR0 is the system-register range, BAR2 is HBM through key slot 0; at most 64 bytes. The port stays up in OFF, where
there is no HBM behind BAR2 (R396). -/
def execHostBarAccess (h : HostAccess) (s : State) : Host.Outcome State Fault Refusal :=
  s.event fun s =>
    let base := if h.bar2 then 0 else sysBase
    let limit := if h.bar2 then 2 ^ 40 else 2 ^ 36
    if field s.pwr.pwrstat 45 2 = 3 ∧ h.bar2 then s
    else if h.size ≤ 64 ∧ h.off + h.size ≤ limit then
      let ps := lineParts (base + h.off) h.size
      if h.write then s.hostWrite (base + h.off) h.data ps
      else
        let (bs, s) := s.hostRead (base + h.off) ps
        s.send (.hostData bs)
    else s

def execDevnumWrite (v : BitVec 64) (s : State) : Host.Outcome State Fault Refusal :=
  s.event fun s => s.writeDevnum (field v 0 6)

/-! ## Vacating (R426) -/

/-- No context of the device is live but saved ones. -/
def State.allSaved (s : State) : Bool := s.knownCtxs.all fun c => (s.ctx c).status == .free || (s.ctx c).status == .saved

/-- The spare's memory becomes what the source's was, through the spare's own key slot 0. -/
def State.takeLines (s : State) (l : List (Nat × Line)) (poison : List Nat) : State :=
  let put := fun (m : Memory) (x : Nat × Line) => m.setStored x.1 (BitVec.allOnes 64) (s.encrypt 0 x.1 x.2)
  { s with mem := { l.foldl put ⟨[], [], [], [], []⟩ with poison := poison } }

/-- The spare takes a relayout table; each operation is numbered anew (R92). -/
def State.takeRelayouts (s : State) (l : List Relayout) : State :=
  l.foldl (fun s (r : Relayout) =>
    let (id, s) := s.fresh
    { s with relayouts := s.relayouts.filter (·.slot != r.slot) ++ [{ r with order := id, conv := false, outward := false, raised := [] }] }) s

/-- The spare takes the saved contexts, on which its own clocks have no claim yet. -/
def State.takeCtxs (s : State) (l : List (Nat × Ctx)) : State :=
  l.foldl (fun s (e : Nat × Ctx) => s.setCtx e.1 { e.2 with lastIssue := 0, resumeAt := 0, fetched := [] }) s

/-- The spare takes the state of the pool, which stays stopped until the restore, with the instances on the queues of the dies (R169). -/
def State.takePool (s : State) (p : Pool) (queues : List (Nat × List Inst)) (kickstat : Word) : State :=
  let s := queues.foldl (fun s (q : Nat × List Inst) => s.modDie q.1 fun k => { k with queue := q.2 }) s
  { s with pool := { p with stopped := true, vacated := true, dead := s.deadCores },
           regs := { s.regs with kickstat := setField s.regs.kickstat 0 4 (field kickstat 0 4) } }

/-- The spare takes what the source has copied. -/
def State.takeCopy (s : State) (c : PodCopy) : State :=
  let s := (({ s with nextId := Nat.max s.nextId c.nextId, coreRecs := c.coreRecs }).takeLines c.lines c.poison).takeRelayouts c.relayouts
  (s.takeCtxs c.ctxs).takePool c.pool c.queues c.kickstat

/-- GO at the source: it is saved and the spare can be reached; the fabric drains. A second GO is ignored. -/
def State.vacateGo (s : State) : State :=
  if s.vacating then s
  else
    let s := { s with mgmt := { s.mgmt with vacate := setField s.mgmt.vacate 56 4 0 } }
    if !s.allSaved then s.vacateFail 1
    else if !s.reachable s.spare.val || s.spare.val == s.device then s.vacateFail 2
    else if flag s.fab.fabctl 3 then (s.vacateTo 1).vacateDrained
    else (s.vacateTo 1).enqueue .fabricDrain

/-- What a device does in a vacate: the source begins it, the spare takes the copy, a member keeps the changes until their period (R393). -/
def State.takePart (s : State) (part : VacatePart) : State :=
  match part with
  | .go => s.vacateGo
  | .copied c => s.takeCopy c
  | .rekey src spare period => { s with fab := { s.fab with rekeys := s.fab.rekeys ++ [⟨src, spare, period⟩] } }

/-- The oldest part that waits is taken; with none it is GO. -/
def execVacateGo (s : State) : Host.Outcome State Fault Refusal :=
  s.event fun s => ({ s with fab := { s.fab with vacateIn := s.fab.vacateIn.drop 1 } }).takePart (s.fab.vacateIn.headD .go)

/-- The step in progress has exceeded its budget. -/
def State.vacateLate (s : State) : Bool :=
  let limit := match s.vacateState with
    | 1 => some 2
    | 2 => some 20
    | 3 => some 1
    | _ => none
  match limit with
  | some n => s.mgmt.vacateStart + n * 1000000000 * 378 < s.tick
  | none => false

def execVacateBudgetTimeout (s : State) : Host.Outcome State Fault Refusal :=
  s.event fun s => if s.vacateLate then s.vacateFail 3 else s

/-- The copy to the spare has ended: every other live member is told the changes, which apply 16 periods on. -/
def execVacateCopyDone (s : State) : Host.Outcome State Fault Refusal :=
  s.event fun s =>
    if s.vacateState = 2 then
      let at_ := s.fab.periodno + 16
      let s := s.vacateTo 3
      let s := { s with mgmt := { s.mgmt with rekeyAt := at_ } }
      (List.range 64).foldl (fun s d =>
        if flag s.fab.podmask d ∧ d ≠ s.device then s.send (.rekey (Fin.ofNat 64 d) s.spare at_.toNat) else s) s
    else s

/-! ## Signing and keys (R427 to R429) -/

/-- GO: the state counter advances before the signature; after 2^20 signatures nothing more is signed. -/
def execAttestGo (s : State) : Host.Outcome State Fault Refusal :=
  s.event fun s =>
    if flag s.mgmt.attest 62 then s
    else if 2 ^ 20 ≤ s.mgmt.signatures then { s with mgmt := { s.mgmt with attest := setFlag s.mgmt.attest 61 true } }
    else
      ({ s with mgmt := { s.mgmt with attest := setFlag s.mgmt.attest 62 true, signatures := s.mgmt.signatures + 1 } }).enqueue .attestDone

/-- The quote is at ADDR + 64, over the 32 bytes of the nonce at ADDR, the firmware and DEVID. The spec gives neither its length nor its
bytes: a line of free values (assumption 12). -/
def execAttestDone (s : State) : Host.Outcome State Fault Refusal :=
  s.event fun s =>
    if flag s.mgmt.attest 62 then
      let a := field s.mgmt.attest 0 42 / 64 * 64 + 64
      let exh := flag s.mgmt.attest 61 || decide (2 ^ 20 ≤ s.mgmt.signatures)
      let s := { s with mgmt := { s.mgmt with attest := setFlag (setFlag s.mgmt.attest 62 false) 61 exh } }
      if a < 2 ^ 40 then
        let s := s.touch (a - 64) (byteMask 0 32)
        let nonce := lineBytes (s.readLine 0 (a - 64)) 0 32
        s.putBytes a ((List.range 64).map fun i => Config.quoteByte s.mgmt.signatures (ofBytes nonce) (s.regRead 0x100) i)
      else s
    else s

/-- LOAD and ERASE of KEYCTL. -/
def execKeyLoad (s : State) : Host.Outcome State Fault Refusal := s.event State.keyLoad
def execKeyErase (s : State) : Host.Outcome State Fault Refusal := s.event State.keyErase

end Sys2Proof.Machine
end

