-- ==== Sys2Proof/Machine/Power.lean ====
section
/-! DEFINITION. Power, current and boost (R395 to R405): the mailbox and the decisions of a toll boundary. What the sensors show is a
free value (assumption 11). -/

namespace Sys2Proof.Machine

/-! ## The mailbox (R395, R399) -/

def execMailboxWrite (therm : Bool) (v : BitVec 64) (s : State) : Host.Outcome State Fault Refusal :=
  s.event fun s => s.mailbox therm v

def execPermitsWrite (n : Nat) (v : BitVec 64) (s : State) : Host.Outcome State Fault Refusal :=
  s.event fun s => if n < 48 then s.writePermits n v else s

/-- The writes that wait for this boundary take effect. -/
def State.applyMailbox (s : State) : State :=
  let p := s.pwr
  { s with pwr := { p with pwrctl := p.pwrctlPend.getD p.pwrctl, thermctl := p.thermctlPend.getD p.thermctl,
                           pwrstat := p.pwrstat &&& ~~~ p.pwrstatClr, pwrctlPend := none, thermctlPend := none, pwrstatClr := 0 } }

/-! ## Sensors -/

/-- What the sensors show for the interval that has ended. -/
structure Sensed where
  watts : Nat
  temps : List Nat
  amps : List (Nat × Nat)
  deriving DecidableEq, Repr

/-- Readings of module power, of each die's temperature and of its layer currents. -/
def State.sense (s : State) : Sensed × State :=
  let r := fun k => (Config.sensor s.freeCount k).toNat
  (⟨r 0, (List.range 24).map fun d => r (1 + d), (List.range 24).map fun d => (r (32 + 2 * d), r (33 + 2 * d))⟩,
    { s with freeCount := s.freeCount + 1 })

/-! ## The limit (R403) -/

/-- OVER or TSTOP becomes 1, with its interrupt. -/
def State.raisePower (s : State) (bit : Nat) : State :=
  let was := flag s.pwr.pwrstat bit
  let s := { s with pwr := { s.pwr with pwrstat := setFlag s.pwr.pwrstat bit true } }
  if !was && flag s.pwr.pwrctl 0 then s.interrupt 4 else s

/-- MEAS, TMAX and STEP. -/
def State.throttleStep (s : State) (x : Sensed) : State :=
  let meas := Nat.min x.watts 16383
  let tmax := Nat.min (x.temps.foldl Nat.max 0) 255
  let limit := field s.pwr.pwrctl 50 14
  let step := s.throttle
  let st := setField (setField s.pwr.pwrstat 50 14 meas) 0 8 tmax
  let p : Power := { s.pwr with pwrstat := st }
  if limit < meas then
    if step < 5 then { s with pwr := { p with pwrstat := setField st 47 3 (step + 1), underCount := 0 } }
    else ({ s with pwr := { p with underCount := 0 } }).raisePower 42
  else if 100 * meas < 95 * limit then
    if step = 0 then { s with pwr := { p with underCount := 0 } }
    else if p.underCount + 1 = 4 then { s with pwr := { p with pwrstat := setField st 47 3 (step - 1), underCount := 0 } }
    else { s with pwr := { p with underCount := p.underCount + 1 } }
  else { s with pwr := { p with underCount := 0 } }

/-! ## Temperature (R402) -/

/-- The threshold of row q of R402. -/
def rowThreshold (thermctl : Word) (q : Nat) : Nat :=
  match q with
  | 0 => 0
  | 1 => field thermctl 16 8
  | 2 => field thermctl 8 8
  | _ => field thermctl 0 8

/-- The row of a die at t °C that was in row r: it enters the hottest row it reaches, and stays in a row until it is 3 °C below. -/
def nextRow (thermctl : Word) (r t : Nat) : Nat :=
  ([1, 2, 3] : List Nat).foldl (fun best q =>
    let th := rowThreshold thermctl q
    if th ≤ t ∨ (q ≤ r ∧ th < t + 3) then q else best) 0

/-- The time of the boundary: the last at which the time base was a multiple of 4,000 ns (R398). -/
def State.boundary (s : State) : Nat := s.tick - s.base % (4000 * 378)

/-- R402 stops the cluster's clock at time t, or lets it run again. -/
def Cluster.setStopped (k : Cluster) (b : Bool) (t : Nat) : Cluster :=
  if b = k.stopped then k else { k.rebase t with stopped := b, since := t }

/-- The power state stops the cluster's clock at time t, or lets it run again. -/
def Cluster.setGated (k : Cluster) (b : Bool) (t : Nat) : Cluster :=
  if b = k.gated then k else { k.rebase t with gated := b, since := t }

/-- A die's row, and the stop of its cluster clocks: from TC until it is below TH. -/
def State.thermalDie (s : State) (d t : Nat) : State :=
  let c := s.pwr.thermctl
  let s := s.modDie d fun k => { k with thermal := nextRow c k.thermal t }
  let stop := fun (b : Bool) (s : State) =>
    (s.modCluster (2 * d) fun k => k.setStopped b s.boundary).modCluster (2 * d + 1) fun k => k.setStopped b s.boundary
  if rowThreshold c 3 ≤ t then (stop true s).raisePower 41
  else if t < rowThreshold c 2 then stop false s
  else s

def State.thermalAction (s : State) (x : Sensed) : State :=
  x.temps.zipIdx.foldl (fun s y => s.thermalDie y.2 y.1) s

/-! ## Series pairs (R404) -/

/-- The balance governor of a die, from its layer currents. -/
def Die.rebalance (k : Die) (i0 i1 : Nat) : Die :=
  let big := Nat.max i0 i1
  let gap := Nat.max i0 i1 - Nat.min i0 i1
  let wide := 10 * big < 100 * gap
  let under5 := 100 * gap < 5 * big ∨ big = 0
  let under10 := 100 * gap < 10 * big ∨ big = 0
  let light := if i0 < i1 then 0 else if i1 < i0 then 1 else field k.balance 5 1
  let bal := (flag k.balance 7 || k.balPend) && !under5
  let count := if wide && flag k.balance 7 then k.overCount + 1 else 0
  let masked := (flag k.balance 6 || 8 ≤ count) && !under10
  let imb := if big = 0 then 0 else Nat.min (100 * gap / big) 255
  { k with balance := fieldsWord [(8, 8, imb), (7, 1, bal.toNat), (6, 1, masked.toNat), (5, 1, light)], overCount := count,
           balPend := decide wide }

def State.balanceCheck (s : State) (x : Sensed) : State :=
  x.amps.zipIdx.foldl (fun s y => s.modDie y.2 fun k => k.rebalance y.1.1 y.1.2) s

/-! ## The power state (R396, R397) -/

/-- A context holds the device in RUN: RUNNING, READY or BLOCKED. -/
def Status.active (x : Status) : Bool :=
  match x with
  | .running => true
  | .ready => true
  | .blocked => true
  | _ => false

def Core.quiet (k : Core) : Bool :=
  k.ch.toList.all (fun l => l.all (·.finished)) && k.mx.routine.isNone && k.mx.ops.all (·.complete)

/-- No context runs and no engine operation is outstanding. -/
def State.atRest (s : State) : Bool :=
  !s.cx.status.active && (s.ctxs.all fun (e : Nat × Ctx) => e.1 == s.cid || !e.2.status.active)
    && s.core.quiet && (s.cores.all fun (e : Nat × Core) => e.1 == s.gcore || e.2.quiet)
    && s.fab.fops.all (·.complete) && s.fab.posted.all (fun p => p.msg.isNone || p.landed)
    && s.relayouts.all fun r => r.state != .active

/-- The entry condition of R397 for a state. -/
def State.mayEnter (s : State) (target : Nat) : Bool :=
  (target == 0 || s.atRest)
    && (target < 2 || ((!flag s.fab.fabctl 0 || flag s.fab.fabctl 3) && !flag s.protstat 0))

/-- The power state of the interval that begins: TARGET when its entry condition holds, else STATE as it is. -/
def State.nextPower (s : State) : Nat :=
  if s.mayEnter (field s.pwr.pwrctl 40 2) then field s.pwr.pwrctl 40 2 else field s.pwr.pwrstat 45 2

/-! ## Levels and permits (R398 to R401) -/

def permitCost (l : Nat) : Nat := l

/-- What a boundary decides about one cluster: F, V, COUNT, CAP, E, the new F, whether its fall is forced, FORCED, and whether the clock
stands still in the interval to come, at nominal voltage (R396). -/
structure Level where
  f : Nat
  v : Nat
  count : Nat
  cap : Nat
  e : Nat
  nf : Nat
  forced : Bool
  forcedBit : Bool
  rest : Bool
  deriving DecidableEq, Repr

def Level.affordable (x : Level) (l : Nat) : Bool := permitCost l ≤ x.count

/-- The highest level that a context of cluster n requests (R253). -/
def State.requestOf (s : State) (n : Nat) : Nat :=
  let own := if clusterOf s.cid = n then s.cx.boostReq else 0
  s.ctxs.foldl (fun m (e : Nat × Ctx) => if e.1 ≠ s.cid ∧ clusterOf e.1 = n then Nat.max m e.2.boostReq else m) own

/-- The first loop for one cluster: refill, the second step of a fall, forced and voluntary falls. -/
def State.openLevel (s : State) (n : Nat) : Level :=
  let k := s.clusterAt n
  let p := k.permitsPend.getD k.permits
  let cap := field p 8 7
  let f := field k.boostlvl 6 2
  let v := field k.boostlvl 4 2
  let idle := f = 0 ∧ v = 0 ∧ k.issued = false
  let count := if idle ∧ field p 0 7 < cap then field p 0 7 + 1 else field p 0 7
  let hot := if (s.dieAt (n / 2)).thermal = 0 then 2 else 0
  let press := if s.throttle = 0 then 2 else if s.throttle = 1 then f else 0
  let rest := s.nextPower != 0
  let e := if rest then 0 else Nat.min (Nat.min (s.requestOf n) (field s.pwr.pwrctl 48 2)) (Nat.min hot press)
  let x : Level := ⟨f, Nat.min v f, count, cap, e, f, false, flag k.boostlvl 2, rest⟩
  if 0 < f ∧ x.affordable f = false then { x with nf := 0, forced := true, forcedBit := true }
  else if e < f then { x with nf := e, forcedBit := false }
  else x

/-- The cap on clusters at B2 is kept when one runs at level l and the other at m. -/
def capKept (cap2 l m : Nat) : Bool := l < 2 || (if m = 2 then 1 else 0) < cap2

/-- The levels that y can reach while x is being decided. -/
def Level.reachable (y : Level) (decided : Bool) (cap2 l : Nat) : List Nat :=
  if decided || y.forced || y.e ≤ y.nf then [y.nf]
  else ((List.range 3).filter fun m => y.nf ≤ m && m ≤ y.e && y.affordable m && capKept cap2 m l)

/-- The second loop for x, its partner y decided before it or not. -/
def Level.raise (x y : Level) (decided : Bool) (cap2 : Nat) : Level :=
  if x.forced || x.e ≤ x.nf then x
  else
    let ok := fun l => x.nf ≤ l && l ≤ x.e && x.affordable l && capKept cap2 l y.nf
      && (y.reachable decided cap2 l).any fun m => l ≤ m + 1 && m ≤ l + 1
    { x with nf := (([2, 1, 0] : List Nat).find? ok).getD x.nf }

/-- The third loop: the charge, and the registers. At time t the clock takes the pace of its level. -/
def Level.close (x : Level) (t : Nat) (k : Cluster) : Cluster :=
  let v := if x.nf < x.f ∧ x.rest = false then x.f else x.nf
  { (if x.nf = x.f then k else k.rebase t) with
    permits := fieldsWord [(8, 7, x.cap), (0, 7, x.count - permitCost x.nf)], permitsPend := none, issued := false,
    boostlvl := fieldsWord [(8, 2, x.e), (6, 2, x.nf), (4, 2, v), (3, 1, (decide (x.nf < x.e)).toNat), (2, 1, x.forcedBit.toNat)] }

/-- The boundary of one die. -/
def State.tollDie (s : State) (d : Nat) : State :=
  let cap2 := field s.pwr.pwrctl 46 2
  let lo := s.openLevel (2 * d)
  let hi := s.openLevel (2 * d + 1)
  let (lo, hi) :=
    if lo.count < hi.count then
      let hi := hi.raise lo false cap2
      (lo.raise hi true cap2, hi)
    else
      let lo := lo.raise hi false cap2
      (lo, hi.raise lo true cap2)
  (s.modCluster (2 * d) (lo.close s.boundary)).modCluster (2 * d + 1) (hi.close s.boundary)

/-! ## The move to TARGET (R396, R397) -/

/-- The vector banks of the live contexts go into retention, or are switched off: every register of theirs is invalid (R195, R397). -/
def State.sleepBanks (s : State) (keep : Bool) : State :=
  let f := fun (x : Ctx) =>
    if x.status = .free then x
    else if keep then { x with retained := true }
    else { x with regs := { x.regs with vinvalid := BitVec.allOnes 16 } }
  { s with cx := f s.cx, ctxs := s.ctxs.map fun (e : Nat × Ctx) => (e.1, f e.2) }

/-- The cluster clocks run in RUN alone (R396). -/
def State.gateClocks (s : State) (b : Bool) : State :=
  (List.range 48).foldl (fun s n => s.modCluster n fun k => k.setGated b s.boundary) s

/-- The device moves to TARGET, or PEND is set. In RUN a waiting GO starts; in RETENTION the vector banks are retained or
lost; OFF is a loss of power. -/
def State.powerMove (s : State) : State :=
  let target := field s.pwr.pwrctl 40 2
  let now := field s.pwr.pwrstat 45 2
  let setPend := fun (b : Bool) (s : State) => { s with pwr := { s.pwr with pwrstat := setFlag s.pwr.pwrstat 44 b } }
  if target = now then setPend false s
  else if !s.mayEnter target then setPend true s
  else if target = 3 then (setPend false s).enqueue .powerLoss
  else
    let s := setPend false { s with pwr := { s.pwr with pwrstat := setField s.pwr.pwrstat 45 2 target } }
    let s := s.gateClocks (target != 0)
    let s := if target = 2 then s.sleepBanks (flag s.pwr.pwrctl 39) else s
    match target, s.regs.kickPend with
    | 0, some k => s.startReplay s.regs.kickView k
    | _, _ => s

/-- What every cluster has drawn enters its counter (R405). -/
def State.drawAll (s : State) : State := (List.range 48).foldl State.drawEnergy s

/-- A toll boundary (R398). -/
def execTollBoundary (s : State) : Host.Outcome State Fault Refusal :=
  s.event fun s =>
    let s := s.drawAll.applyMailbox
    let (x, s) := s.sense
    let s := ((s.throttleStep x).thermalAction x).balanceCheck x
    ((List.range 24).foldl State.tollDie s).powerMove

end Sys2Proof.Machine
end

