-- ==== Sys2Proof/Machine/Remote.lean ====
section
/-! DEFINITION. Remote accesses (R38 to R44, R119): what the home does with one, the remote-fault log, and what a reply or a refusal
does at the sender; the end of a translation walk (R22, R28); errors in memory (R48 to R51, R413). -/

namespace Sys2Proof.Machine

/-! ## The inbound frame map (R38, R39) -/

/-- The code of a frame as the map in memory has it; an error of its line is corrected, or poisons it, and is counted (R48). DESIGN CHOICE: R49
names no such reader: the bits of a poisoned line are used as they are stored (assumption 104). -/
def State.frameEntry (s : State) (f : Nat) : Nat × State :=
  let a := field s.regs.framemap 24 18 * 2 ^ 24 + f / 4
  let s := s.touch (lineOf a) (byteMask (a % 64) 1)
  ((lineByte (s.plainLine 0 (lineOf a)) (a % 64)).toNat / 2 ^ (2 * (f % 4)) % 4, s)

/-- The code an inbound access meets: a cached one, else the map's, which is then cached. -/
def State.frameCode (s : State) (f : Nat) : Nat × State :=
  if !flag s.regs.framemap 0 then (0, s)
  else
    match s.regs.frameCache.find? (·.1 == f) with
    | some e => (e.2, s)
    | none =>
      let (c, s) := s.frameEntry f
      (c, { s with regs := { s.regs with frameCache := put f c s.regs.frameCache } })

def execFramemapSync (s : State) : Host.Outcome State Fault Refusal :=
  s.event fun s =>
    ({ s with regs := { s.regs with framemap := setFlag s.regs.framemap 1 true, frameCache := [] } }).enqueue .framemapSyncDone

def execFramemapSyncDone (s : State) : Host.Outcome State Fault Refusal :=
  s.event fun s => { s with regs := { s.regs with framemap := setFlag s.regs.framemap 1 false } }

/-! ## At the home (R40) -/

/-- What a remote access is, for the columns of the table of R40. -/
inductive Column where
  | load | store | atomic
  deriving DecidableEq, Repr

def columnOf : RemoteKind → Column
  | .load => .load
  | .rebuild => .load
  | .store => .store
  | .amo _ _ _ _ => .atomic
  | .fx .rd _ => .load
  | .fx _ _ => .atomic

/-- It reads the bytes at the home: a load, an atomic, or a cell operation but `fxinit`. -/
def readsHome : RemoteKind → Bool
  | .store => false
  | .fx .init _ => false
  | _ => true

/-- Writes an entry of the remote-fault log (R42). -/
def State.logStore (s : State) (r : RemoteReq) (cause : Nat) : State :=
  let tail := field s.regs.rfltail 0 32
  let a := field s.regs.rflbase 19 23 * 2 ^ 19 + tail % 4096 * 128
  let src := fieldsWord [(15, 1, r.eng.isSome.toNat), (0, 15, r.ctx)]
  let bs := bytesOf 8 (fieldsWord [(48, 8, cause), (42, 6, r.src.val), (0, 42, r.line)]).toNat ++ bytesOf 8 r.mask.toNat ++
    bytesOf 8 src.toNat ++ bytesOf 8 s.now ++ List.replicate 32 0 ++ bytesOf 64 (mergeLine 0 r.data r.mask).toNat
  let s := s.putBytes a bs
  ({ s with regs := { s.regs with rfltail := setField s.regs.rfltail 0 32 (tail + 1) } }).recheck

/-- What the home answers: done with the data of a reply and its poison, or a refusal. -/
inductive Answer where
  | done (data : Line) (poison : BitVec 64) | refuse (cause : BitVec 8)
  deriving DecidableEq, Repr

/-- A store to a frame that is closed or read-only is logged or refused. -/
def State.logOrRefuse (s : State) (r : RemoteReq) (cause : Nat) : Answer × State :=
  if r.prot then (.refuse 0x47, s)
  else if !flag s.regs.rflbase 0 then (.refuse 0x49, s)
  else if 4096 ≤ s.logFill then (.refuse 0x44, { s with regs := { s.regs with rflctl := setFlag s.regs.rflctl 2 true } })
  else (.done 0 0, s.logStore r cause)

/-- The frame-map rows. -/
def State.frameRow (s : State) (r : RemoteReq) (code : Nat) : Option (Answer × State) :=
  match code, columnOf r.kind with
  | 0, _ => none
  | 1, .load => none
  | 1, .store => some (s.logOrRefuse r 0x41)
  | 1, .atomic => some (.refuse 0x41, s)
  | _, .store => some (s.logOrRefuse r 0x40)
  | _, _ => some (.refuse 0x40, s)

/-- The access is performed at the home. -/
def State.performRemote (s : State) (r : RemoteReq) : Answer × State :=
  let w : Writer := ⟨r.src.val, r.ctx, r.eng, r.gen, true⟩
  let line := s.plainLine r.key r.line
  let old := ofBytes (lineBytes line r.off 32)
  let write := fun (n v : Nat) => s.perform w r.line r.key r.prot (byteMask r.off n) (lineAt r.off v) 0
  match r.kind with
  | .load => (.done line (s.poisonMask r.line &&& r.mask), s)
  | .rebuild => (.done (s.mem.stored r.line) (s.poisonMask r.line &&& r.mask), s)
  | .store => (.done 0 0, s.perform w r.line r.key r.prot r.mask r.data r.pois)
  | .amo op w8 x c =>
    let n := if w8 then 8 else 4
    let v := old % 2 ^ (8 * n)
    (.done (lineAt r.off v) 0, write n (amoNew op (8 * n) v x.toNat c.toNat))
  | .fx .rd _ => (.done (lineAt 0 (fxRead old)) 0, s)
  | .fx op x => (.done 0 0, write 32 (fxNew op old x))

/-- The bytes an access reads. -/
def readMask (r : RemoteReq) : BitVec 64 :=
  match r.kind with
  | .load => r.mask
  | .rebuild => r.mask
  | .store => 0
  | .amo _ w8 _ _ => byteMask r.off (if w8 then 8 else 4)
  | .fx _ _ => byteMask r.off 32

/-- A read of the rebuild engine: the frame map does not apply to it, and it uses no key (R145). -/
def bypasses : RemoteKind → Bool
  | .rebuild => true
  | _ => false

/-- The rows of R40 and R133 in order. A lost member, or a device at which the lanes are dark, is refused before all of them. -/
def State.answer (s : State) (r : RemoteReq) : Answer × State :=
  let writes := columnOf r.kind != .load
  if ((List.range 8).any fun m => s.lost m && s.member m == r.src.val) ∨ field s.pwr.pwrstat 45 2 = 2 then (.refuse 0x46, s)
  else if regionOf r.line = .hole then (.refuse 0x42, s)
  else if sysBase ≤ r.line then (.refuse 0x43, s)
  else if r.line < 2 ^ 40 ∧ !bypasses r.kind ∧ (s.key r.key).isNone then (.refuse 0x48, s)
  else
    match (if writes then s.protRow r.line r.prot else none) with
    | some (_, cause) => (.refuse (BitVec.ofNat 8 cause), s)
    | none =>
      let (code, s) := if bypasses r.kind then (0, s) else s.frameCode (r.line / 2 ^ 16)
      match s.frameRow r code with
      | some a => a
      | none =>
        let s := if readsHome r.kind then s.touch r.line (readMask r) else s
        if readsHome r.kind && r.eng.isNone && !bypasses r.kind && (s.poisonMask r.line &&& readMask r) != 0 then (.refuse 0x45, s)
        else if field s.mgmt.bootstat 62 2 ≠ 2 then (.refuse 0x46, s)
        else s.performRemote r

/-- An event that would start fabric work waits until the device no longer drains (R389; that an inbound write does so in its bays is DEDUCED,
assumption 115). -/
def State.holdBack (s : State) (e : Event) : State := { s with fab := { s.fab with heldBack := s.fab.heldBack ++ [e] } }

/-- An inbound remote access: performed, logged or refused, and the sender is told. While the device drains, a protected write that would
start a delta waits in its bays (R389). -/
def execRemoteAccessArrival (r : RemoteReq) (s : State) : Host.Outcome State Fault Refusal :=
  s.event fun s =>
    let (a, t) := (s.freeFlits r.src 1 (1 + requestFlits r.kind)).answer r
    if s.draining && s.prot.unacked.length < t.prot.unacked.length then s.holdBack (.remoteAccessArrival r)
    else
      match a with
      | .done d p => t.send (.reply r.src r.id d p)
      | .refuse c => t.send (.refusal r.src r.id c)

/-! ## At the sender (R59, R119) -/

/-- The line of a drain is acknowledged: the drain goes on with the lines that waited for it. -/
def State.ackLine (s : State) (c id : Nat) : State :=
  let s := { s with remotes := s.remotes.filter fun (r : RemotePend) => !(r.ctx == c && r.dline == some id) }
  s.modCtx c fun x => { x with awaiting := x.awaiting.filter (·.id != id) }

def execLineAck (c id : Nat) (s : State) : Host.Outcome State Fault Refusal :=
  s.event fun s => (s.ackLine c id).retry c

/-- A context that parked for replies is READY when none is outstanding (R165). -/
def State.endPark (s : State) (c : Nat) : State :=
  if s.remotes.any fun (r : RemotePend) => r.ctx == c && !r.write then s
  else
    match (s.ctx c).wait with
    | .remote => s.makeReady c
    | _ => s.retry c

/-- A value with the bytes of a line put in their places. -/
def pickBytes (data : Line) (place : List (Nat × Nat)) (v : Word) : Word :=
  place.foldl (fun v x => setField v (8 * x.2) 8 (lineByte data x.1).toNat) v

/-- The value of a flight with the bytes of a reply. -/
def Val.placed (data : Line) (place : List (Nat × Nat)) : Val → Val
  | .word x => .word (pickBytes data place x)
  | .vec x =>
    .vec (gen 64 fun l => place.foldl (fun (v : Word32) y =>
      if y.2 / 4 = l then (setField (v.setWidth 64) (8 * (y.2 % 4)) 8 (lineByte data y.1).toNat).setWidth 32 else v) (at_ x l 0))
  | v => v

/-- A finished value is sign-extended from n bits. -/
def Val.extended (n : Nat) : Val → Val
  | .word x => if n = 0 then .word x else .word (BitVec.ofInt 64 (signed n x.toNat))
  | v => v

/-- Puts a reply's bytes into the flights of its operation; the last reply completes them. -/
def State.fillFlight (s : State) (r : RemotePend) (data : Line) : State :=
  if r.flight = 0 then s
  else
    let put := fun (x : Flight) =>
      if x.land.isNone && !x.ready && x.tag == r.flight then { x with val := x.val.placed data r.place } else x
    let s := s.modCtx r.ctx fun x => { x with inflight := x.inflight.map put, fresh := x.fresh.map put }
    if s.remotes.any fun (q : RemotePend) => q.flight == r.flight then s
    else s.deliver r.ctx r.flight (Val.extended r.sext)

/-- A reply: its destination is filled, a line asked for by a waiting bundle is kept, or a write is acknowledged. -/
def execRemoteReply (id : Nat) (data : BitVec 512) (s : State) : Host.Outcome State Fault Refusal :=
  s.event fun s =>
    match s.remotes.find? (·.id == id) with
    | none => s
    | some r =>
      let s := { s.freeFlits r.dev 2 5 with remotes := s.remotes.filter fun (q : RemotePend) => q.id != id }
      if r.eng.isSome then s
      else
      let s := s.fillFlight r data
      let pod := r.dev.val * 2 ^ 42 + r.line
      let s := if r.keep then s.modCtx r.ctx fun x => { x with fetched := put pod data x.fetched } else s
      let s := match r.dline with
        | some l => s.ackLine r.ctx l
        | none => s
      s.endPark r.ctx

/-- The value of a refused scalar load or atomic: zero in the whole destination (R40). -/
def Val.zeroed : Val → Val
  | .word _ => .word 0
  | v => v

/-- The access whose part r is was one of the lanes of a vector (R276). -/
def State.isVector (s : State) (r : RemotePend) : Bool :=
  ((s.ctx r.ctx).inflight ++ (s.ctx r.ctx).fresh).any fun f => f.tag == r.flight && f.land.isNone && !f.ready && (match f.val with
    | .vec _ => true
    | _ => false)

/-- A vector without some lanes. -/
def Val.without (lanes : List Nat) : Val → Val
  | .vec x => .vec (gen 64 fun l => if lanes.contains l then 0 else at_ x l 0)
  | v => v

/-- Lanes of the operation of a flight are refused: they are zero, whatever else is to come for them (R276). -/
def State.zeroLanes (s : State) (r : RemotePend) (lanes : List Nat) : State :=
  let cut := fun (x : Flight) => if x.land.isNone && !x.ready && x.tag == r.flight then { x with val := x.val.without lanes } else x
  let s := s.modCtx r.ctx fun x => { x with inflight := x.inflight.map cut, fresh := x.fresh.map cut }
  let s := { s with remotes := s.remotes.map fun (q : RemotePend) =>
    if q.flight = r.flight then { q with place := q.place.filter fun y => !lanes.contains (y.2 / 4) } else q }
  if s.remotes.any fun (q : RemotePend) => q.flight == r.flight then s else s.deliver r.ctx r.flight (Val.extended r.sext)

/-- Zero in the destination of a refused load or atomic: the refused lanes of a vector, which is full when the other lanes have come; a
scalar at once. -/
def State.zeroFlight (s : State) (r : RemotePend) : State :=
  if r.flight = 0 then s
  else if s.isVector r then s.zeroLanes r (r.place.map (·.2 / 4))
  else s.deliver r.ctx r.flight Val.zeroed

/-- Zero in the registers that a bundle blocked to load. -/
def State.zeroDest (s : State) (c : Nat) (l : List Reg) : State :=
  s.inCtx c fun s => l.foldl (fun s r => s.landOne ⟨r, (match r with
    | .h _ => .handle Handle.reset
    | _ => .word 0), none, 0, true, 0⟩) s

/-- A refused write of an engine is the engine operation's fault, raised at its join (R22, R40). -/
def State.engFault (s : State) (c o : Nat) (t : Trap) : State :=
  let mark := fun (y : Copy) => if y.id = o then { y with fault := y.fault.or (some t) } else y
  let move := fun (m : Move) => if m.id = o then { m with fault := m.fault.or (some t) } else m
  let s := if c < noCtx then
      (s.modCore (c / 4) fun k => { k with ch := k.ch.map (List.map mark) }).modCtx c fun x => { x with moves := x.moves.map move }
    else s
  { s with
    pool := { s.pool with patching := s.pool.patching.map fun (x : Patching) => if x.op = o then { x with refused := true } else x },
    relayouts := s.relayouts.map (fun (r : Relayout) =>
      if r.order = o then { r with state := .failed, fault := r.fault.or (some t), conv := false } else r),
    fab := { s.fab with
      posted := s.fab.posted.map (fun (p : Posted) => if p.order = o then { p with fault := p.fault.or (some t) } else p),
      fops := s.fab.fops.map fun (f : FOp) => if f.id = o then { f with fault := f.fault.or (some t) } else f } }

/-- A refusal that a peer has sent frees its bay; one of a peer that cannot be reached came from no peer. -/
def State.freeRefusal (s : State) (dev : Fin 64) : State := if s.reachable dev.val then s.freeFlits dev 2 1 else s

/-- A refusal: fault 0x0A becomes pending, the destination is zero and full, and a protected write is no longer counted. -/
def execRemoteRefusal (id : Nat) (dev : Fin 64) (cause : BitVec 8) (s : State) : Host.Outcome State Fault Refusal :=
  s.event fun s =>
    match s.remotes.find? (·.id == id) with
    | none => s
    | some r =>
      let s := { s.freeRefusal r.dev with remotes := s.remotes.filter fun (q : RemotePend) => q.id != id }
      let s := if r.prot then s.settleCounted r.ctx (s.parityGen r.ctx) r.eng .applied 0 else s
      match r.eng with
      | some o => s.engFault r.ctx o ⟨0x0A, r.va, setField (setField r.info 24 6 dev.val) 0 8 cause.toNat⟩
      | none =>
        let s := (s.zeroFlight r).zeroDest r.ctx r.dest
        let s := match r.dline with
          | some l => s.ackLine r.ctx l
          | none => s
        (s.pendRemote r.ctx r.va r.info dev.val cause.toNat).endPark r.ctx

/-! ## The end of a walk (R22, R28, R165) -/

/-- The walk of a parked context ends: the TLBs are filled, or the fault is kept for the bundle; the context is READY. -/
def execWalkComplete (c : Nat) (s : State) : Host.Outcome State Fault Refusal :=
  s.event fun s =>
    let x := s.ctx c
    match x.status, x.wait with
    | .parked, .walk va wr sys =>
      match s.walk ⟨c, sys || flag x.estat 0, none⟩ va (if wr then .write else .read) with
      | (.ok _, s) => (s.makeReady c).endWalk c va
      | (.error t, s) => ((s.modCtx c fun x => { x with walkFault := some (va, t) }).makeReady c).endWalk c va
    | _, _ => s

/-! ## Errors in memory (R48 to R51, R413) -/

/-- A context that is neither FREE nor SAVED consumes uncorrectable data. -/
def execPoisonConsumed (c addr : Nat) (space : Space) (slot : Fin 8) (s : State) : Host.Outcome State Fault Refusal :=
  s.event fun s =>
    if (s.ctx c).status == .free || (s.ctx c).status == .saved then s
    else
      s.inCtx c fun s =>
        let s := s.consume ⟨0x0F, word addr, rollbackInfo space.code 0 slot.val⟩
        let waits := s.cx.status == .blocked || s.cx.status == .parked
        { s with cx := if waits then { s.cx with status := .ready, wait := .none } else s.cx, evt := .done }

/-- The address names a byte of memory. -/
def isMemory (a : Nat) : Bool :=
  match regionOf a with
  | .sys => false
  | .hole => false
  | _ => true

/-- The scrubber reads a unit: it corrects or poisons it (R50). -/
def execPatrolScrub (addr : Nat) (s : State) : Host.Outcome State Fault Refusal :=
  s.event fun s => if isMemory addr then s.detect (unitOf addr) else s

/-- The symbol of a unit's code that a bit lies in: one bit of a scratchpad word, eight of an HBM line (R48). -/
def eccSymbol (u bit : Nat) : Nat := if u < 2 ^ 40 then bit / 8 else bit

/-- The symbols of a unit that errors have changed. -/
def Memory.badSymbols (m : Memory) (u : Nat) : List Nat :=
  ((m.flips.filter (·.1 == u)).map fun e => eccSymbol u e.2).eraseDups

/-- A stored bit of a unit flips: the unit is correctable with one wrong symbol, uncorrectable with more, sound with none. -/
def Memory.flip (m : Memory) (u bit : Nat) : Memory :=
  let fs := if m.flips.contains (u, bit) then m.flips.filter (· != (u, bit)) else m.flips ++ [(u, bit)]
  let m := { m with flips := fs }
  let k := (m.badSymbols u).length
  { m with soft := (if k = 1 then insertNat u m.soft else m.soft.filter (· != u)),
           hard := (if 2 ≤ k then insertNat u m.hard else m.hard.filter (· != u)) }

/-- A soft error strikes: the unit holds an error that the next read finds, or an element of a plane is changed. A unit that is poisoned
already stays so. -/
def execSoftError (e : SoftErr) (s : State) : Host.Outcome State Fault Refusal :=
  s.event fun s =>
    match e with
    | .memory a bit =>
      let u := unitOf a
      if !isMemory a || s.mem.poison.contains u then s else { s with mem := s.mem.flip u bit }
    | .plane g ia row col flip =>
      s.modMx g fun m =>
        let p := m.ia[ia]
        let v := p.e[row]
        { m with ia := m.ia.set ia { p with e := p.e.set row (v.set col (v[col] ^^^ flip)) } }

end Sys2Proof.Machine
end

