-- ==== Sys2Proof/Machine/Protect.lean ====
section
/-! DEFINITION. The holder's part of the parity path and the rebuild engine (R131, R135 to R138, R143 to R145). -/

namespace Sys2Proof.Machine

/-! ## Deltas at the holder (R135, R138) -/

/-- The device is a member that is recorded as lost. -/
def State.lostDevice (s : State) (d : Nat) : Bool := (List.range 8).any fun m => s.lost m && s.member m == d

/-- The number of the next delta of a home. -/
def State.nextDelta (s : State) (home : Nat) : BitVec 16 := look 0 home s.prot.recvSeq

/-- Acknowledges a delta to the writer's device. -/
def State.ackDelta (s : State) (d : Delta) (k : AckKind) : State :=
  let a : ParityAck := ⟨d.writer, d.ctx, d.op, d.gen, d.home, d.seq, Fin.ofNat 64 s.device, k⟩
  if d.writer.val = s.device then s.enqueue (.parityAckArrival [a]) else s.send (.parityAck d.writer a)

/-- The frame is a parity frame of this device. -/
def State.parityFrame (s : State) (f : Nat) : Bool := s.protEnabled && s.inRegion f && parityHolder f == s.selfMember

/-- A delta that is due: applied to the parity line, or discarded with an error. Its sequence number is used up, and its bays are freed. -/
def State.applyDelta (s : State) (d : Delta) : State :=
  let s := { s.freeFlits d.home 3 5 with prot := { s.prot with recvSeq := put d.home.val (d.seq + 1) s.prot.recvSeq } }
  if !s.parityFrame (d.line / 2 ^ 16) then (s.protError 0x03 d.home.val d.line).ackDelta d .noPar
  else
    let s := s.touch d.line (BitVec.allOnes 64)
    if s.mem.poison.contains d.line then (s.protError 0x02 d.home.val d.line).ackDelta d .noPar
    else
      ({ s with mem := s.mem.setStored d.line (BitVec.allOnes 64) (s.mem.stored d.line ^^^ d.xor) }).ackDelta d .applied

/-- Applies the held deltas of a home that have come up: at most n. -/
def State.applyHeld (home : Nat) : Nat → State → State
  | 0, s => s
  | n + 1, s =>
    match s.prot.heldDeltas.find? fun d => d.home.val == home && d.seq == s.nextDelta home with
    | some d =>
      let s := { s with prot := { s.prot with heldDeltas := s.prot.heldDeltas.erase d } }
      State.applyHeld home n (s.applyDelta d)
    | none => s

/-- A delta arrives: discarded when its home is lost, held for its predecessors, or applied with those that waited for it. -/
def execDeltaArrival (d : Delta) (s : State) : Host.Outcome State Fault Refusal :=
  s.event fun s =>
    if s.lostDevice d.home.val then s.freeFlits d.home 3 5
    else
      let s := { s with prot := { s.prot with heldDeltas := s.prot.heldDeltas ++ [d] } }
      s.applyHeld d.home.val s.prot.heldDeltas.length

/-- The flit of acknowledgements leaves its bay; this device sends itself none. -/
def State.freeAcks (s : State) (l : List ParityAck) : State :=
  match l with
  | [] => s
  | a :: _ => if a.dev.val = s.device then s else s.freeFlits a.dev 4 1

/-- Parity acknowledgements: up to eight in a flit (R136). -/
def execParityAckArrival (l : List ParityAck) (s : State) : Host.Outcome State Fault Refusal :=
  s.event fun s => l.foldl State.parityAcked (s.freeAcks l)

def execProtctlWrite (v : BitVec 64) (s : State) : Host.Outcome State Fault Refusal := s.event fun s => s.writeProtctl v

/-! ## The rebuild engine (R145) -/

/-- The engine's read of a line of a member. -/
def State.rebuildReq (s : State) (line : Nat) : RemoteReq :=
  ⟨0, Fin.ofNat 64 s.device, noCtx, none, .rebuild, line, 0, BitVec.allOnes 64, 0, 0, 0, false, 0⟩

/-- The lines of the other members, each read over the fabric: their bytes and whether each is poisoned, or none when one is refused. -/
def State.peerLines (v : PeerView) (line : Nat) : List Nat → State → Option (List (Nat × Line × Bool)) × State
  | [], s => (some [], s)
  | m :: ms, s =>
    let dev := s.member m
    let pod := dev * 2 ^ 42 + line
    match s.refusedBy v pod with
    | some _ => (none, s)
    | none =>
      let bs := (List.range 64).map fun i => s.peerByte v (pod + i)
      let t := s.engAsk (Fin.ofNat 64 dev) (s.rebuildReq line)
      match State.peerLines v line ms { t with freeCount := s.freeCount + 1 } with
      | (none, s) => (none, s)
      | (some l, s) => (some ((dev, BitVec.ofNat 512 (ofBytes (bs.map (·.1))), bs.any (·.2)) :: l), s)

/-- Rebuilds one line of the own memory, as it is stored; the answer says whether no read was refused. -/
def State.rebuildLine (s : State) (v : PeerView) (line : Nat) : Bool × State :=
  match State.peerLines v line ((List.range 8).filter (· != s.selfMember)) s with
  | (none, s) => (false, s)
  | (some ls, s) =>
    let x := ls.foldl (fun (acc : Line) l => acc ^^^ l.2.1) 0
    let mem := s.mem.setStored line (BitVec.allOnes 64) x
    let clean := mem.poison.filter (· != line)
    let bad := ls.find? (·.2.2)
    let mem := { mem with poison := if bad.isSome then insertNat line clean else clean,
                          soft := mem.soft.filter (· != line), hard := mem.hard.filter (· != line), flips := mem.flips.filter (·.1 != line) }
    let s := { s with mem := mem }
    match bad with
    | some b => (true, s.protError 0x04 b.1 line)
    | none => (true, s)

/-- Rebuilds n lines from an address on, up to the first whose read is refused; the answer says whether all were rebuilt. -/
def State.rebuildLines (v : PeerView) : Nat → Nat → State → Bool × State
  | 0, _, s => (true, s)
  | n + 1, a, s =>
    match s.rebuildLine v a with
    | (true, s) => State.rebuildLines v n (a + 64) s
    | (false, s) => (false, s)

/-- The frames a run covers, in order. -/
def State.rebuildFrames (s : State) (mode : Nat) : List Nat :=
  let base := field s.prot.protregion 0 26
  let all := (List.range (field s.prot.protregion 32 26)).map (base + ·)
  match mode with
  | 0 => all
  | 1 => let f := field s.prot.rebuild 26 26; if s.inRegion f then [f] else []
  | _ => all.filter fun f => parityHolder f == s.selfMember

def State.setRebuild (s : State) (v : Word) : State := { s with prot := { s.prot with rebuild := v } }

/-- One frame of a run: the first starts it, a refused read stops it with FAIL, the last ends it. Its reads wait while the device drains
(R389). -/
def State.rebuildStep (s : State) (mode : Nat) (again : PeerView → Event) (v : PeerView) : State :=
  let frames := s.rebuildFrames mode
  let s := if flag s.prot.rebuild 63 then s
    else s.setRebuild (setField (setFlag (setFlag s.prot.rebuild 63 true) 62 false) 0 26 0)
  let k := field s.prot.rebuild 0 26
  match frames[k]? with
  | none => s.enqueue .rebuildDone
  | some f =>
    if s.draining then s.holdBack (again v)
    else match State.rebuildLines v 1024 (f * 2 ^ 16) s with
    | (false, s) => (s.setRebuild (setFlag s.prot.rebuild 62 true)).enqueue .rebuildDone
    | (true, s) =>
      let s := s.setRebuild (setField s.prot.rebuild 0 26 (k + 1))
      if k + 1 = frames.length then s.enqueue .rebuildDone else s.enqueue (again v)

/-- Mode 00: every frame of the region. -/
def execRebuildAll (view : PeerView) (s : State) : Host.Outcome State Fault Refusal :=
  s.event fun s => s.rebuildStep 0 .rebuildAll view

/-- Mode 01: the frame FRAME; GO is ignored when it does not lie in the region. -/
def execRebuildFrame (view : PeerView) (s : State) : Host.Outcome State Fault Refusal :=
  s.event fun s => if s.inRegion (field s.prot.rebuild 26 26) then s.rebuildStep 1 .rebuildFrame view else s

/-- Mode 10: every parity frame of this device's region. -/
def execRebuildParity (view : PeerView) (s : State) : Host.Outcome State Fault Refusal :=
  s.event fun s => s.rebuildStep 2 .rebuildParity view

def execRebuildDone (s : State) : Host.Outcome State Fault Refusal :=
  s.event fun s => s.setRebuild (setFlag s.prot.rebuild 63 false)

end Sys2Proof.Machine
end

