-- ==== Sys2Proof/Machine/Scalar.lean ====
section
/-! DEFINITION. Scalar arithmetic, predicates, bit operations, matrix parameters, system registers, clocks, translation and levels
(R232 to R237, R249 to R255). -/

namespace Sys2Proof.Machine

/-! ## The functions of R232 to R236 -/

/-- Bits [127:64] of the signed and the unsigned product. -/
def mulHigh (a b : Word) : Word := BitVec.ofInt 64 (a.toInt * b.toInt / 2 ^ 64)
def mulHighU (a b : Word) : Word := word (a.toNat * b.toNat / 2 ^ 64)

/-- A shift amount is b[5:0]. -/
def amount (b : Word) : Nat := b.toNat % 64

def rotl (a b : Word) : Word := a.rotateLeft (amount b)

def minS (a b : Word) : Word := if a.slt b then a else b
def maxS (a b : Word) : Word := if a.slt b then b else a
def minU (a b : Word) : Word := if a.ult b then a else b
def maxU (a b : Word) : Word := if a.ult b then b else a

/-- Quotient truncated toward zero; −2^63 / −1 gives −2^63. -/
def divS (a b : Word) : Word := BitVec.ofInt 64 (a.toInt.tdiv b.toInt)

/-- a − b·div(a, b). -/
def remS (a b : Word) : Word := a - b * divS a b

/-- Leading zeros, trailing zeros, set bits of n bits. -/
def leadingZeros (n v : Nat) : Nat := if v = 0 then n else n - 1 - Nat.log2 v

def trailingZeros (n v : Nat) : Nat := ((List.range n).find? fun i => v.testBit i).getD n

def setBits (n v : Nat) : Nat := ((List.range n).filter fun i => v.testBit i).length

/-- lo := b[5:0], w := min(b[14:8], 64 − lo). -/
def bfLo (b : Word) : Nat := b.toNat % 64
def bfWidth (b : Word) : Nat := Nat.min (field b 8 7) (64 - bfLo b)

/-- `bfx`: the field of a, zero- or sign-extended from its top bit; a width of 0 gives 0. -/
def bfx (a b : Word) (sgn : Bool) : Word :=
  let v := field a (bfLo b) (bfWidth b)
  if sgn && bfWidth b != 0 then BitVec.ofInt 64 (signed (bfWidth b) v) else word v

/-- `bfi`. -/
def bfi (old a b : Word) : Word := setField old (bfLo b) (bfWidth b) (field a 0 (bfWidth b))

def sextTo (x : SextW) (a : Word) : Word :=
  match x with
  | .b => (a.setWidth 8).signExtend 64
  | .h => (a.setWidth 16).signExtend 64
  | .w => (a.setWidth 32).signExtend 64

/-- One byte of the CRC (R255). -/
def crcBit (c : Word32) : Word32 := if c.getLsbD 0 then (c >>> 1) ^^^ 0x82F63B78 else c >>> 1

def crcByte (c : Word32) (b : Byte) : Word32 := (List.range 8).foldl (fun c _ => crcBit c) (c ^^^ b.setWidth 32)

/-- CRC-32C of the low n bytes of b. -/
def crc (a b : Word) (n : Nat) : Word := ((bytesOf n b.toNat).foldl crcByte (a.setWidth 32)).setWidth 64

/-! ## Shapes -/

/-- dst := f(a, b) (R232). -/
def State.alu (s : State) (l : Lat) (d : Dst) (a b : Src) (f : Word → Word → Word) : State :=
  s.push l d (f (s.readSrc a) (s.readSrc b))

/-- dst := f(a, imm) (R234). -/
def State.alui (s : State) (d : Dst) (a : Src) (i : BitVec 9) (f : Word → Word → Word) : State :=
  s.push .s1 d (f (s.readSrc a) (s.imm i))

/-- A quotient or remainder: long-latency; a divisor of 0 raises the arithmetic fault before the bundle issues (R233). -/
def State.divide (s : State) (d : Dst) (a b : Src) (f : Word → Word → Word) : State :=
  if s.readSrc b = 0 then s.silentTrap 0x16 (some s.slotInfo) else s.alu .long d a b f

/-- A compare writes a predicate pair (R235). -/
def State.compare (s : State) (p : Fin 8) (a b : Src) (f : Word → Word → Bool) : State :=
  s.writePair p (f (s.readSrc a) (s.readSrc b))

def State.comparei (s : State) (p : Fin 8) (a : Src) (i : BitVec 9) (f : Word → Word → Bool) : State :=
  s.writePair p (f (s.readSrc a) (s.imm i))

/-! ## Register-layout arithmetic (R232, R233) -/

def execAdd (g : Fin 16) (d : Dst) (a b : Src) (e f : Bool) (s : State) : Host.Outcome State Fault Refusal :=
  s.syl (Instr.info s (.add g d a b e f)) fun s => s.alu .s1 d a b (fun u v => u + v)

def execSub (g : Fin 16) (d : Dst) (a b : Src) (e f : Bool) (s : State) : Host.Outcome State Fault Refusal :=
  s.syl (Instr.info s (.sub g d a b e f)) fun s => s.alu .s1 d a b (fun u v => u - v)

def execMul (g : Fin 16) (d : Dst) (a b : Src) (e f : Bool) (s : State) : Host.Outcome State Fault Refusal :=
  s.syl (Instr.info s (.mul g d a b e f)) fun s => s.alu .s3 d a b (fun u v => u * v)

def execMulh (g : Fin 16) (d : Dst) (a b : Src) (e f : Bool) (s : State) : Host.Outcome State Fault Refusal :=
  s.syl (Instr.info s (.mulh g d a b e f)) fun s => s.alu .s3 d a b mulHigh

def execMulhu (g : Fin 16) (d : Dst) (a b : Src) (e f : Bool) (s : State) : Host.Outcome State Fault Refusal :=
  s.syl (Instr.info s (.mulhu g d a b e f)) fun s => s.alu .s3 d a b mulHighU

def execAnd (g : Fin 16) (d : Dst) (a b : Src) (e f : Bool) (s : State) : Host.Outcome State Fault Refusal :=
  s.syl (Instr.info s (.and g d a b e f)) fun s => s.alu .s1 d a b (fun u v => u &&& v)

def execOr (g : Fin 16) (d : Dst) (a b : Src) (e f : Bool) (s : State) : Host.Outcome State Fault Refusal :=
  s.syl (Instr.info s (.or g d a b e f)) fun s => s.alu .s1 d a b (fun u v => u ||| v)

def execXor (g : Fin 16) (d : Dst) (a b : Src) (e f : Bool) (s : State) : Host.Outcome State Fault Refusal :=
  s.syl (Instr.info s (.xor g d a b e f)) fun s => s.alu .s1 d a b (fun u v => u ^^^ v)

def execAndn (g : Fin 16) (d : Dst) (a b : Src) (e f : Bool) (s : State) : Host.Outcome State Fault Refusal :=
  s.syl (Instr.info s (.andn g d a b e f)) fun s => s.alu .s1 d a b (fun u v => u &&& ~~~ v)

def execShl (g : Fin 16) (d : Dst) (a b : Src) (e f : Bool) (s : State) : Host.Outcome State Fault Refusal :=
  s.syl (Instr.info s (.shl g d a b e f)) fun s => s.alu .s1 d a b (fun u v => u <<< amount v)

def execShr (g : Fin 16) (d : Dst) (a b : Src) (e f : Bool) (s : State) : Host.Outcome State Fault Refusal :=
  s.syl (Instr.info s (.shr g d a b e f)) fun s => s.alu .s1 d a b (fun u v => u >>> amount v)

def execSra (g : Fin 16) (d : Dst) (a b : Src) (e f : Bool) (s : State) : Host.Outcome State Fault Refusal :=
  s.syl (Instr.info s (.sra g d a b e f)) fun s => s.alu .s1 d a b (fun u v => u.sshiftRight (amount v))

def execRotl (g : Fin 16) (d : Dst) (a b : Src) (e f : Bool) (s : State) : Host.Outcome State Fault Refusal :=
  s.syl (Instr.info s (.rotl g d a b e f)) fun s => s.alu .s1 d a b rotl

def execMin (g : Fin 16) (d : Dst) (a b : Src) (e f : Bool) (s : State) : Host.Outcome State Fault Refusal :=
  s.syl (Instr.info s (.min g d a b e f)) fun s => s.alu .s1 d a b minS

def execMax (g : Fin 16) (d : Dst) (a b : Src) (e f : Bool) (s : State) : Host.Outcome State Fault Refusal :=
  s.syl (Instr.info s (.max g d a b e f)) fun s => s.alu .s1 d a b maxS

def execMinu (g : Fin 16) (d : Dst) (a b : Src) (e f : Bool) (s : State) : Host.Outcome State Fault Refusal :=
  s.syl (Instr.info s (.minu g d a b e f)) fun s => s.alu .s1 d a b minU

def execMaxu (g : Fin 16) (d : Dst) (a b : Src) (e f : Bool) (s : State) : Host.Outcome State Fault Refusal :=
  s.syl (Instr.info s (.maxu g d a b e f)) fun s => s.alu .s1 d a b maxU

def execDiv (g : Fin 16) (d : Dst) (a b : Src) (e f : Bool) (s : State) : Host.Outcome State Fault Refusal :=
  s.syl (Instr.info s (.div g d a b e f)) fun s => s.divide d a b divS

def execDivu (g : Fin 16) (d : Dst) (a b : Src) (e f : Bool) (s : State) : Host.Outcome State Fault Refusal :=
  s.syl (Instr.info s (.divu g d a b e f)) fun s => s.divide d a b (fun u v => u / v)

def execRem (g : Fin 16) (d : Dst) (a b : Src) (e f : Bool) (s : State) : Host.Outcome State Fault Refusal :=
  s.syl (Instr.info s (.rem g d a b e f)) fun s => s.divide d a b remS

def execRemu (g : Fin 16) (d : Dst) (a b : Src) (e f : Bool) (s : State) : Host.Outcome State Fault Refusal :=
  s.syl (Instr.info s (.remu g d a b e f)) fun s => s.divide d a b (fun u v => u % v)

/-! ## Immediate-layout arithmetic (R234) -/

def execAddi (g : Fin 16) (d : Dst) (a : Src) (e : Bool) (i : BitVec 9) (s : State) : Host.Outcome State Fault Refusal :=
  s.syl (Instr.info s (.addi g d a e i)) fun s => s.alui d a i (fun u v => u + v)

def execAndi (g : Fin 16) (d : Dst) (a : Src) (e : Bool) (i : BitVec 9) (s : State) : Host.Outcome State Fault Refusal :=
  s.syl (Instr.info s (.andi g d a e i)) fun s => s.alui d a i (fun u v => u &&& v)

def execOri (g : Fin 16) (d : Dst) (a : Src) (e : Bool) (i : BitVec 9) (s : State) : Host.Outcome State Fault Refusal :=
  s.syl (Instr.info s (.ori g d a e i)) fun s => s.alui d a i (fun u v => u ||| v)

def execXori (g : Fin 16) (d : Dst) (a : Src) (e : Bool) (i : BitVec 9) (s : State) : Host.Outcome State Fault Refusal :=
  s.syl (Instr.info s (.xori g d a e i)) fun s => s.alui d a i (fun u v => u ^^^ v)

def execShli (g : Fin 16) (d : Dst) (a : Src) (e : Bool) (i : BitVec 9) (s : State) : Host.Outcome State Fault Refusal :=
  s.syl (Instr.info s (.shli g d a e i)) fun s => s.alui d a i (fun u v => u <<< amount v)

def execShri (g : Fin 16) (d : Dst) (a : Src) (e : Bool) (i : BitVec 9) (s : State) : Host.Outcome State Fault Refusal :=
  s.syl (Instr.info s (.shri g d a e i)) fun s => s.alui d a i (fun u v => u >>> amount v)

def execSrai (g : Fin 16) (d : Dst) (a : Src) (e : Bool) (i : BitVec 9) (s : State) : Host.Outcome State Fault Refusal :=
  s.syl (Instr.info s (.srai g d a e i)) fun s => s.alui d a i (fun u v => u.sshiftRight (amount v))

def execMovhi (g : Fin 16) (d : Dst) (a : Src) (e : Bool) (i : BitVec 9) (s : State) : Host.Outcome State Fault Refusal :=
  s.syl (Instr.info s (.movhi g d a e i)) fun s => s.alui d a i (fun u v => (v <<< 32) ||| (u &&& 0xFFFFFFFF))

def execMovi (g : Fin 16) (d : Dst) (i : BitVec 9) (s : State) : Host.Outcome State Fault Refusal :=
  s.syl (Instr.info s (.movi g d i)) fun s => s.push .s1 d (s.imm i)

/-! ## Compares (R235) -/

def execCmpEq (g : Fin 16) (p : Fin 8) (a b : Src) (e f : Bool) (s : State) : Host.Outcome State Fault Refusal :=
  s.syl (Instr.info s (.cmpEq g p a b e f)) fun s => s.compare p a b (fun u v => u == v)

def execCmpNe (g : Fin 16) (p : Fin 8) (a b : Src) (e f : Bool) (s : State) : Host.Outcome State Fault Refusal :=
  s.syl (Instr.info s (.cmpNe g p a b e f)) fun s => s.compare p a b (fun u v => u != v)

def execCmpLt (g : Fin 16) (p : Fin 8) (a b : Src) (e f : Bool) (s : State) : Host.Outcome State Fault Refusal :=
  s.syl (Instr.info s (.cmpLt g p a b e f)) fun s => s.compare p a b (fun u v => u.slt v)

def execCmpGe (g : Fin 16) (p : Fin 8) (a b : Src) (e f : Bool) (s : State) : Host.Outcome State Fault Refusal :=
  s.syl (Instr.info s (.cmpGe g p a b e f)) fun s => s.compare p a b (fun u v => !u.slt v)

def execCmpLtu (g : Fin 16) (p : Fin 8) (a b : Src) (e f : Bool) (s : State) : Host.Outcome State Fault Refusal :=
  s.syl (Instr.info s (.cmpLtu g p a b e f)) fun s => s.compare p a b (fun u v => u.ult v)

def execCmpGeu (g : Fin 16) (p : Fin 8) (a b : Src) (e f : Bool) (s : State) : Host.Outcome State Fault Refusal :=
  s.syl (Instr.info s (.cmpGeu g p a b e f)) fun s => s.compare p a b (fun u v => !u.ult v)

def execCmpiEq (g : Fin 16) (p : Fin 8) (a : Src) (e : Bool) (i : BitVec 9) (s : State) : Host.Outcome State Fault Refusal :=
  s.syl (Instr.info s (.cmpiEq g p a e i)) fun s => s.comparei p a i (fun u v => u == v)

def execCmpiLt (g : Fin 16) (p : Fin 8) (a : Src) (e : Bool) (i : BitVec 9) (s : State) : Host.Outcome State Fault Refusal :=
  s.syl (Instr.info s (.cmpiLt g p a e i)) fun s => s.comparei p a i (fun u v => u.slt v)

def execCmpiLtu (g : Fin 16) (p : Fin 8) (a : Src) (e : Bool) (i : BitVec 9) (s : State) : Host.Outcome State Fault Refusal :=
  s.syl (Instr.info s (.cmpiLtu g p a e i)) fun s => s.comparei p a i (fun u v => u.ult v)

/-! ## Bit and selection instructions (R236) -/

def execClz (g : Fin 16) (d : Dst) (a : Src) (e : Bool) (s : State) : Host.Outcome State Fault Refusal :=
  s.syl (Instr.info s (.clz g d a e)) fun s => s.push .s1 d (word (leadingZeros 64 (s.readSrc a).toNat))

def execCtz (g : Fin 16) (d : Dst) (a : Src) (e : Bool) (s : State) : Host.Outcome State Fault Refusal :=
  s.syl (Instr.info s (.ctz g d a e)) fun s => s.push .s1 d (word (trailingZeros 64 (s.readSrc a).toNat))

def execPopc (g : Fin 16) (d : Dst) (a : Src) (e : Bool) (s : State) : Host.Outcome State Fault Refusal :=
  s.syl (Instr.info s (.popc g d a e)) fun s => s.push .s1 d (word (setBits 64 (s.readSrc a).toNat))

def execBfx (g : Fin 16) (d : Dst) (a b : Src) (e f x : Bool) (s : State) : Host.Outcome State Fault Refusal :=
  s.syl (Instr.info s (.bfx g d a b e f x)) fun s => s.alu .s1 d a b fun u v => bfx u v x

/-- The old value of a destination. -/
def State.oldDst (s : State) (d : Dst) : Word :=
  match d with
  | .s i => s.readS i
  | .a i => s.readA i
  | .queue => 0

def execBfi (g : Fin 16) (d : Dst) (a b : Src) (e f : Bool) (s : State) : Host.Outcome State Fault Refusal :=
  s.syl (Instr.info s (.bfi g d a b e f)) fun s => s.alu .s1 d a b fun u v => bfi (s.oldDst d) u v

def execSext (g : Fin 16) (d : Dst) (a : Src) (e : Bool) (x : SextW) (s : State) : Host.Outcome State Fault Refusal :=
  s.syl (Instr.info s (.sext g d a e x)) fun s => s.push .s1 d (sextTo x (s.readSrc a))

def execSel (g : Fin 16) (d : Dst) (a b : Src) (e f : Bool) (x : Fin 8) (s : State) : Host.Outcome State Fault Refusal :=
  s.syl (Instr.info s (.sel g d a b e f x)) fun s => s.alu .s1 d a b fun u v => if s.readP (evenP x) then u else v

def execLea (g : Fin 16) (d : Dst) (a b : Src) (e f : Bool) (x : Fin 8) (s : State) : Host.Outcome State Fault Refusal :=
  s.syl (Instr.info s (.lea g d a b e f x)) fun s => s.alu .s1 d a b fun u v => u + (v <<< x.val)

/-! ## Predicates (R237) -/

def State.predOp (s : State) (p : Fin 8) (a b : Fin 16) (n : Bool) (f : Bool → Bool → Bool) : State :=
  s.writePair p (f (s.readP a) (s.readP b ^^ n))

def execPand (g : Fin 16) (p : Fin 8) (a b : Fin 16) (n : Bool) (s : State) : Host.Outcome State Fault Refusal :=
  s.syl (Instr.info s (.pand g p a b n)) fun s => s.predOp p a b n and

def execPor (g : Fin 16) (p : Fin 8) (a b : Fin 16) (n : Bool) (s : State) : Host.Outcome State Fault Refusal :=
  s.syl (Instr.info s (.por g p a b n)) fun s => s.predOp p a b n or

def execPxor (g : Fin 16) (p : Fin 8) (a b : Fin 16) (n : Bool) (s : State) : Host.Outcome State Fault Refusal :=
  s.syl (Instr.info s (.pxor g p a b n)) fun s => s.predOp p a b n xor

/-! ## Matrix parameters (R238) -/

def execMova (g : Fin 16) (d : Dst) (k : Fin 8) (s : State) : Host.Outcome State Fault Refusal :=
  s.syl (Instr.info s (.mova g d k)) fun s => s.push .s1 d (s.readA k)

/-- Writes a0-a7 from 64 bytes, byte 8k the low byte of ak. -/
def State.writeParams (s : State) (bs : List Byte) : State :=
  (List.finRange 8).foldl (fun s k => s.write .s1 (.a k) (.word (word (ofBytes ((bs.drop (8 * k.val)).take 8))))) s

def execMpar (g : Fin 16) (a : Src) (e : Bool) (x0 : Space) (s : State) : Host.Outcome State Fault Refusal :=
  s.syl (Instr.info s (.mpar g a e x0)) fun s =>
    match s.readBlocking s.who true (List.ofFn fun k : Fin 8 => Reg.a k) x0 (s.readSrc a) 64 with
    | .error s => s
    | .ok (bs, s) => s.writeParams bs

/-! ## System registers and clocks (R249 to R251) -/

def execSysrd (g : Fin 16) (d : Dst) (n : SysReg) (s : State) : Host.Outcome State Fault Refusal :=
  s.syl (Instr.info s (.sysrd g d n)) fun s => s.push .s1 d (s.readSys n)

def execSyswr (g : Fin 16) (n : SysReg) (b : Src) (s : State) : Host.Outcome State Fault Refusal :=
  s.syl (Instr.info s (.syswr g n b)) fun s => s.write .s1 (.sys n) (.word (s.readSrc b))

def execTime (g : Fin 16) (d : Dst) (s : State) : Host.Outcome State Fault Refusal :=
  s.syl (Instr.info s (.time g d)) fun s => s.push .s1 d (word s.now)

def execEnergy (g : Fin 16) (d : Dst) (s : State) : Host.Outcome State Fault Refusal :=
  s.syl (Instr.info s (.energy g d)) fun s => s.push .s1 d (s.cx.energy + BitVec.ofNat 64 (s.accrued s.gcore / 96))

def execCycle (g : Fin 16) (d : Dst) (s : State) : Host.Outcome State Fault Refusal :=
  s.syl (Instr.info s (.cycle g d)) fun s => s.push .s1 d (word s.core.cycle)

/-! ## Translation (R22, R31, R252) -/

def execTlbPf (g : Fin 16) (a : Src) (e : Bool) (s : State) : Host.Outcome State Fault Refusal :=
  s.syl (Instr.info s (.tlbPf g a e)) fun s =>
    let r := s.translateNow s.who (s.readSrc a) .read
    if r.2.evt.isHub then { r.2 with evt := .done }
    else match r with
      | (.ok _, t) => t
      | (.error _, _) => s

/-- A TLB entry's page overlaps the range of n bytes from a on; n = 0 is the whole range. -/
def TlbEntry.overlaps (t : TlbEntry) (a n : Nat) : Bool :=
  n == 0 || (t.vpn * 2 ^ pageShift t.lvl < a + n && a < (t.vpn + 1) * 2 ^ pageShift t.lvl)

/-- The virtual bytes that the entry at which a walk has failed stands for: the size of its range as a power of two, the least page where no
entry is named. -/
def failShift (t : Trap) : Nat :=
  match walkLevels.find? fun l => (t.code == 0x07 || t.code == 0x11) && l.1 == field t.einfo 8 3 with
  | some l => l.2.1
  | none => 16

/-- The result of a walk that has read an entry of the range is discarded. -/
def Ctx.discardWalk (a n : Nat) (x : Ctx) : Ctx :=
  match x.walkFault with
  | some (va, t) =>
    let k := failShift t
    if n == 0 || (va.toNat / 2 ^ k * 2 ^ k < a + n && a < (va.toNat / 2 ^ k + 1) * 2 ^ k) then { x with walkFault := none } else x
  | none => x

/-- Removes every matching entry from every TLB of the device, and what walks have found in the range; engine operations keep what they
have been translated through (R31). -/
def State.invalidate (s : State) (a n : Nat) : State :=
  let keep := fun (l : List TlbEntry) => l.filter fun t => !t.overlaps a n
  { s with cx := s.cx.discardWalk a n, ctxs := s.ctxs.map (fun (x : Nat × Ctx) => (x.1, x.2.discardWalk a n)),
           core := { s.core with tlb := keep s.core.tlb },
           cores := s.cores.map (fun k => (k.1, { k.2 with tlb := keep k.2.tlb })),
           dies := s.dies.map (fun d => (d.1, { d.2 with tlb := keep d.2.tlb })) }

def execPgInv (g : Fin 16) (a b : Src) (e f : Bool) (s : State) : Host.Outcome State Fault Refusal :=
  s.syl (Instr.info s (.pgInv g a b e f)) fun s =>
    let x := field (s.readSrc a) 0 56
    let n := (s.readSrc b).toNat
    s.release fun s => s.invalidate x n

/-! ## Boost requests (R253) -/

def execPwrReq (g : Fin 16) (a : Src) (e : Bool) (s : State) : Host.Outcome State Fault Refusal :=
  s.syl (Instr.info s (.pwrReq g a e)) fun s =>
    let v := (s.readSrc a).toNat
    if 2 < v then s.illegalNow 0x26 else { s with cx := { s.cx with boostReq := v } }

def execPwrRel (g : Fin 16) (s : State) : Host.Outcome State Fault Refusal :=
  s.syl (Instr.info s (.pwrRel g)) fun s => { s with cx := { s.cx with boostReq := 0 } }

/-! ## Levels (R152, R254) -/

/-- What a context that runs no instance reads is not stated: a free value (assumption 9). -/
def State.levelValue (s : State) (d : Dst) (v : Inst → Graph → Nat) : State :=
  match s.cx.inst, s.pool.graph with
  | some i, some gr => s.push .s1 d (word (v i gr))
  | _, _ => let (x, s) := s.freeValue; s.push .s1 d x

def execLvlIdx (g : Fin 16) (d : Dst) (k : Fin 8) (s : State) : Host.Outcome State Fault Refusal :=
  s.syl (Instr.info s (.lvlIdx g d k)) fun s => s.levelValue d fun i _ => i.levels.getD k.val 0

def execLvlCnt (g : Fin 16) (d : Dst) (k : Fin 8) (s : State) : Host.Outcome State Fault Refusal :=
  s.syl (Instr.info s (.lvlCnt g d k)) fun s =>
    s.levelValue d fun _ gr => ((gr.levels[k.val]?).map (·.fanout)).getD 0

/-! ## CRC (R255) -/

def execCrc (g : Fin 16) (d : Dst) (a b : Src) (e f : Bool) (x : Fin 4) (s : State) : Host.Outcome State Fault Refusal :=
  s.syl (Instr.info s (.crc g d a b e f x)) fun s => s.alu .s3 d a b fun u v => crc u v (2 ^ x.val)

end Sys2Proof.Machine
end

