-- ==== Sys2Proof/Machine/Dispatch.lean ====
section
/-! DEFINITION. One arm for each instruction. -/

namespace Sys2Proof.Machine

def exec (i : Instr) (s : State) : Host.Outcome State Fault Refusal :=
  match i with
  | .br g d k => Sys2Proof.Machine.execBr g d k s
  | .brL g d k => Sys2Proof.Machine.execBrL g d k s
  | .brx g x0 e => Sys2Proof.Machine.execBrx g x0 e s
  | .brxL g x0 e => Sys2Proof.Machine.execBrxL g x0 e s
  | .ret g => Sys2Proof.Machine.execRet g s
  | .loopPin g x0 e n => Sys2Proof.Machine.execLoopPin g x0 e n s
  | .loopEnd g => Sys2Proof.Machine.execLoopEnd g s
  | .loopBrk g d k => Sys2Proof.Machine.execLoopBrk g d k s
  | .segAlt g d k => Sys2Proof.Machine.execSegAlt g d k s
  | .mpush g a => Sys2Proof.Machine.execMpush g a s
  | .mpop g a => Sys2Proof.Machine.execMpop g a s
  | .mjoin g a b => Sys2Proof.Machine.execMjoin g a b s
  | .endNode g => Sys2Proof.Machine.execEndNode g s
  | .yield g => Sys2Proof.Machine.execYield g s
  | .parkT g x0 e => Sys2Proof.Machine.execParkT g x0 e s
  | .waitEv g v => Sys2Proof.Machine.execWaitEv g v s
  | .sigEv g v => Sys2Proof.Machine.execSigEv g v s
  | .spawn g x0 p n => Sys2Proof.Machine.execSpawn g x0 p n s
  | .trap g n => Sys2Proof.Machine.execTrap g n s
  | .eret g => Sys2Proof.Machine.execEret g s
  | .brk g n => Sys2Proof.Machine.execBrk g n s
  | .katArm g x0 e => Sys2Proof.Machine.execKatArm g x0 e s
  | .haltCtx g x0 e => Sys2Proof.Machine.execHaltCtx g x0 e s
  | .illegal g => Sys2Proof.Machine.execIllegal g s
  | .add g d a b e f => Sys2Proof.Machine.execAdd g d a b e f s
  | .sub g d a b e f => Sys2Proof.Machine.execSub g d a b e f s
  | .mul g d a b e f => Sys2Proof.Machine.execMul g d a b e f s
  | .mulh g d a b e f => Sys2Proof.Machine.execMulh g d a b e f s
  | .mulhu g d a b e f => Sys2Proof.Machine.execMulhu g d a b e f s
  | .div g d a b e f => Sys2Proof.Machine.execDiv g d a b e f s
  | .divu g d a b e f => Sys2Proof.Machine.execDivu g d a b e f s
  | .rem g d a b e f => Sys2Proof.Machine.execRem g d a b e f s
  | .remu g d a b e f => Sys2Proof.Machine.execRemu g d a b e f s
  | .and g d a b e f => Sys2Proof.Machine.execAnd g d a b e f s
  | .or g d a b e f => Sys2Proof.Machine.execOr g d a b e f s
  | .xor g d a b e f => Sys2Proof.Machine.execXor g d a b e f s
  | .andn g d a b e f => Sys2Proof.Machine.execAndn g d a b e f s
  | .shl g d a b e f => Sys2Proof.Machine.execShl g d a b e f s
  | .shr g d a b e f => Sys2Proof.Machine.execShr g d a b e f s
  | .sra g d a b e f => Sys2Proof.Machine.execSra g d a b e f s
  | .rotl g d a b e f => Sys2Proof.Machine.execRotl g d a b e f s
  | .min g d a b e f => Sys2Proof.Machine.execMin g d a b e f s
  | .max g d a b e f => Sys2Proof.Machine.execMax g d a b e f s
  | .minu g d a b e f => Sys2Proof.Machine.execMinu g d a b e f s
  | .maxu g d a b e f => Sys2Proof.Machine.execMaxu g d a b e f s
  | .addi g d a e y0 => Sys2Proof.Machine.execAddi g d a e y0 s
  | .andi g d a e y0 => Sys2Proof.Machine.execAndi g d a e y0 s
  | .ori g d a e y0 => Sys2Proof.Machine.execOri g d a e y0 s
  | .xori g d a e y0 => Sys2Proof.Machine.execXori g d a e y0 s
  | .shli g d a e y0 => Sys2Proof.Machine.execShli g d a e y0 s
  | .shri g d a e y0 => Sys2Proof.Machine.execShri g d a e y0 s
  | .srai g d a e y0 => Sys2Proof.Machine.execSrai g d a e y0 s
  | .movi g d y0 => Sys2Proof.Machine.execMovi g d y0 s
  | .movhi g d a e y0 => Sys2Proof.Machine.execMovhi g d a e y0 s
  | .cmpEq g p a b e f => Sys2Proof.Machine.execCmpEq g p a b e f s
  | .cmpNe g p a b e f => Sys2Proof.Machine.execCmpNe g p a b e f s
  | .cmpLt g p a b e f => Sys2Proof.Machine.execCmpLt g p a b e f s
  | .cmpGe g p a b e f => Sys2Proof.Machine.execCmpGe g p a b e f s
  | .cmpLtu g p a b e f => Sys2Proof.Machine.execCmpLtu g p a b e f s
  | .cmpGeu g p a b e f => Sys2Proof.Machine.execCmpGeu g p a b e f s
  | .cmpiEq g p a e y0 => Sys2Proof.Machine.execCmpiEq g p a e y0 s
  | .cmpiLt g p a e y0 => Sys2Proof.Machine.execCmpiLt g p a e y0 s
  | .cmpiLtu g p a e y0 => Sys2Proof.Machine.execCmpiLtu g p a e y0 s
  | .clz g d a e => Sys2Proof.Machine.execClz g d a e s
  | .ctz g d a e => Sys2Proof.Machine.execCtz g d a e s
  | .popc g d a e => Sys2Proof.Machine.execPopc g d a e s
  | .bfx g d a b e f x => Sys2Proof.Machine.execBfx g d a b e f x s
  | .bfi g d a b e f => Sys2Proof.Machine.execBfi g d a b e f s
  | .sext g d a e x => Sys2Proof.Machine.execSext g d a e x s
  | .sel g d a b e f x => Sys2Proof.Machine.execSel g d a b e f x s
  | .lea g d a b e f x => Sys2Proof.Machine.execLea g d a b e f x s
  | .hcoord g d a b e f x => Sys2Proof.Machine.execHcoord g d a b e f x s
  | .pand g p a b n => Sys2Proof.Machine.execPand g p a b n s
  | .por g p a b n => Sys2Proof.Machine.execPor g p a b n s
  | .pxor g p a b n => Sys2Proof.Machine.execPxor g p a b n s
  | .mpar g a e x0 => Sys2Proof.Machine.execMpar g a e x0 s
  | .mova g d k => Sys2Proof.Machine.execMova g d k s
  | .hld g h a e x0 => Sys2Proof.Machine.execHld g h a e x0 s
  | .hst g h a e x0 => Sys2Proof.Machine.execHst g h a e x0 s
  | .hset g h a b e f => Sys2Proof.Machine.execHset g h a b e f s
  | .ldB g d a b e f x0 x => Sys2Proof.Machine.execLdB g d a b e f x0 x s
  | .ldH g d a b e f x0 x => Sys2Proof.Machine.execLdH g d a b e f x0 x s
  | .ldW g d a b e f x0 x => Sys2Proof.Machine.execLdW g d a b e f x0 x s
  | .ldD g d a b e f x0 => Sys2Proof.Machine.execLdD g d a b e f x0 s
  | .ldsB g d a x0 r e c => Sys2Proof.Machine.execLdsB g d a x0 r e c s
  | .ldsH g d a x0 r e c => Sys2Proof.Machine.execLdsH g d a x0 r e c s
  | .ldsW g d a x0 r e c => Sys2Proof.Machine.execLdsW g d a x0 r e c s
  | .ldsD g d a x0 r e c => Sys2Proof.Machine.execLdsD g d a x0 r e c s
  | .stB g x0 a b e f => Sys2Proof.Machine.execStB g x0 a b e f s
  | .stH g x0 a b e f => Sys2Proof.Machine.execStH g x0 a b e f s
  | .stW g x0 a b e f => Sys2Proof.Machine.execStW g x0 a b e f s
  | .stD g x0 a b e f => Sys2Proof.Machine.execStD g x0 a b e f s
  | .stsB g x0 r a b e f c => Sys2Proof.Machine.execStsB g x0 r a b e f c s
  | .stsH g x0 r a b e f c => Sys2Proof.Machine.execStsH g x0 r a b e f c s
  | .stsW g x0 r a b e f c => Sys2Proof.Machine.execStsW g x0 r a b e f c s
  | .stsD g x0 r a b e f c => Sys2Proof.Machine.execStsD g x0 r a b e f c s
  | .amoAdd g x0 w o a b e f c => Sys2Proof.Machine.execAmoAdd g x0 w o a b e f c s
  | .amoAnd g x0 w o a b e f c => Sys2Proof.Machine.execAmoAnd g x0 w o a b e f c s
  | .amoOr g x0 w o a b e f c => Sys2Proof.Machine.execAmoOr g x0 w o a b e f c s
  | .amoXor g x0 w o a b e f c => Sys2Proof.Machine.execAmoXor g x0 w o a b e f c s
  | .amoMin g x0 w o a b e f c => Sys2Proof.Machine.execAmoMin g x0 w o a b e f c s
  | .amoMax g x0 w o a b e f c => Sys2Proof.Machine.execAmoMax g x0 w o a b e f c s
  | .amoMinu g x0 w o a b e f c => Sys2Proof.Machine.execAmoMinu g x0 w o a b e f c s
  | .amoMaxu g x0 w o a b e f c => Sys2Proof.Machine.execAmoMaxu g x0 w o a b e f c s
  | .amoSwap g x0 w o a b e f c => Sys2Proof.Machine.execAmoSwap g x0 w o a b e f c s
  | .amoCas g x0 w o a b e f c => Sys2Proof.Machine.execAmoCas g x0 w o a b e f c s
  | .fxinit g a b e f x0 => Sys2Proof.Machine.execFxinit g a b e f x0 s
  | .fxaddF32 g a b e f x0 => Sys2Proof.Machine.execFxaddF32 g a b e f x0 s
  | .fxaddH g a b e f x0 => Sys2Proof.Machine.execFxaddH g a b e f x0 s
  | .fxrd g d a e x0 => Sys2Proof.Machine.execFxrd g d a e x0 s
  | .fence g o c => Sys2Proof.Machine.execFence g o c s
  | .fenceSurv g => Sys2Proof.Machine.execFenceSurv g s
  | .mls g b => Sys2Proof.Machine.execMls g b s
  | .mlsArr g b => Sys2Proof.Machine.execMlsArr g b s
  | .mlsWt g b => Sys2Proof.Machine.execMlsWt g b s
  | .mlsQ g d b => Sys2Proof.Machine.execMlsQ g d b s
  | .sysrd g d n => Sys2Proof.Machine.execSysrd g d n s
  | .syswr g n b => Sys2Proof.Machine.execSyswr g n b s
  | .time g d => Sys2Proof.Machine.execTime g d s
  | .energy g d => Sys2Proof.Machine.execEnergy g d s
  | .cycle g d => Sys2Proof.Machine.execCycle g d s
  | .tlbPf g a e => Sys2Proof.Machine.execTlbPf g a e s
  | .pgInv g a b e f => Sys2Proof.Machine.execPgInv g a b e f s
  | .pwrReq g a e => Sys2Proof.Machine.execPwrReq g a e s
  | .pwrRel g => Sys2Proof.Machine.execPwrRel g s
  | .lvlIdx g d k => Sys2Proof.Machine.execLvlIdx g d k s
  | .lvlCnt g d k => Sys2Proof.Machine.execLvlCnt g d k s
  | .crc g d a b e f x => Sys2Proof.Machine.execCrc g d a b e f x s
  | .vfadd g d a b m e f t => Sys2Proof.Machine.execVfadd g d a b m e f t s
  | .vfsub g d a b m e f t => Sys2Proof.Machine.execVfsub g d a b m e f t s
  | .vfmul g d a b m e f t => Sys2Proof.Machine.execVfmul g d a b m e f t s
  | .vfma g d a b m e f t => Sys2Proof.Machine.execVfma g d a b m e f t s
  | .vfms g d a b m e f t => Sys2Proof.Machine.execVfms g d a b m e f t s
  | .vfnma g d a b m e f t => Sys2Proof.Machine.execVfnma g d a b m e f t s
  | .vfmin g d a b m e f t => Sys2Proof.Machine.execVfmin g d a b m e f t s
  | .vfmax g d a b m e f t => Sys2Proof.Machine.execVfmax g d a b m e f t s
  | .vfabs g d a m e t => Sys2Proof.Machine.execVfabs g d a m e t s
  | .vfneg g d a m e t => Sys2Proof.Machine.execVfneg g d a m e t s
  | .vfcpys g d a b m e f t => Sys2Proof.Machine.execVfcpys g d a b m e f t s
  | .vrcp g d a m e t => Sys2Proof.Machine.execVrcp g d a m e t s
  | .vrsq g d a m e t => Sys2Proof.Machine.execVrsq g d a m e t s
  | .vsqrt g d a m e t => Sys2Proof.Machine.execVsqrt g d a m e t s
  | .vexp2 g d a m e t => Sys2Proof.Machine.execVexp2 g d a m e t s
  | .vlog2 g d a m e t => Sys2Proof.Machine.execVlog2 g d a m e t s
  | .vtanh g d a m e t => Sys2Proof.Machine.execVtanh g d a m e t s
  | .vsig g d a m e t => Sys2Proof.Machine.execVsig g d a m e t s
  | .vdiv g d a b m e f t => Sys2Proof.Machine.execVdiv g d a b m e f t s
  | .vfcmpEq g p a b m e f t => Sys2Proof.Machine.execVfcmpEq g p a b m e f t s
  | .vfcmpLt g p a b m e f t => Sys2Proof.Machine.execVfcmpLt g p a b m e f t s
  | .vfcmpLe g p a b m e f t => Sys2Proof.Machine.execVfcmpLe g p a b m e f t s
  | .vfcmpUn g p a b m e f t => Sys2Proof.Machine.execVfcmpUn g p a b m e f t s
  | .vadd g d a b m e f t => Sys2Proof.Machine.execVadd g d a b m e f t s
  | .vsub g d a b m e f t => Sys2Proof.Machine.execVsub g d a b m e f t s
  | .vmul g d a b m e f t => Sys2Proof.Machine.execVmul g d a b m e f t s
  | .vmulh g d a b m e f t => Sys2Proof.Machine.execVmulh g d a b m e f t s
  | .vmin g d a b m e f t => Sys2Proof.Machine.execVmin g d a b m e f t s
  | .vmax g d a b m e f t => Sys2Proof.Machine.execVmax g d a b m e f t s
  | .vminu g d a b m e f t => Sys2Proof.Machine.execVminu g d a b m e f t s
  | .vmaxu g d a b m e f t => Sys2Proof.Machine.execVmaxu g d a b m e f t s
  | .vand g d a b m e f => Sys2Proof.Machine.execVand g d a b m e f s
  | .vor g d a b m e f => Sys2Proof.Machine.execVor g d a b m e f s
  | .vxor g d a b m e f => Sys2Proof.Machine.execVxor g d a b m e f s
  | .vshl g d a b m e f t => Sys2Proof.Machine.execVshl g d a b m e f t s
  | .vshr g d a b m e f t => Sys2Proof.Machine.execVshr g d a b m e f t s
  | .vsra g d a b m e f t => Sys2Proof.Machine.execVsra g d a b m e f t s
  | .vabs g d a m e t => Sys2Proof.Machine.execVabs g d a m e t s
  | .vcmpEq g p a b m e f t => Sys2Proof.Machine.execVcmpEq g p a b m e f t s
  | .vcmpLt g p a b m e f t => Sys2Proof.Machine.execVcmpLt g p a b m e f t s
  | .vcmpLtu g p a b m e f t => Sys2Proof.Machine.execVcmpLtu g p a b m e f t s
  | .vmov g d a m e => Sys2Proof.Machine.execVmov g d a m e s
  | .vsplat g d a m e t => Sys2Proof.Machine.execVsplat g d a m e t s
  | .vins g d a b m e f t => Sys2Proof.Machine.execVins g d a b m e f t s
  | .vext g d a b e f t => Sys2Proof.Machine.execVext g d a b e f t s
  | .vsel g d a b m e f => Sys2Proof.Machine.execVsel g d a b m e f s
  | .vperm g d a b m e f => Sys2Proof.Machine.execVperm g d a b m e f s
  | .vrot g d a b m e f => Sys2Proof.Machine.execVrot g d a b m e f s
  | .vzip g d a b x0 e f t => Sys2Proof.Machine.execVzip g d a b x0 e f t s
  | .vidx g d a b m e f => Sys2Proof.Machine.execVidx g d a b m e f s
  | .vrsum g d a m e t => Sys2Proof.Machine.execVrsum g d a m e t s
  | .vrmax g d a m e t => Sys2Proof.Machine.execVrmax g d a m e t s
  | .vrmin g d a m e t => Sys2Proof.Machine.execVrmin g d a m e t s
  | .vrmaxi g d a m e t => Sys2Proof.Machine.execVrmaxi g d a m e t s
  | .vrpop g d m => Sys2Proof.Machine.execVrpop g d m s
  | .vtopk g d a b m e f t => Sys2Proof.Machine.execVtopk g d a b m e f t s
  | .vtopkI g d a b m e f t => Sys2Proof.Machine.execVtopkI g d a b m e f t s
  | .vsort g d a m e t => Sys2Proof.Machine.execVsort g d a m e t s
  | .vrank g d a m e t => Sys2Proof.Machine.execVrank g d a m e t s
  | .vqnt g d a b e f t => Sys2Proof.Machine.execVqnt g d a b e f t s
  | .vdqnt g d a b j e f t => Sys2Proof.Machine.execVdqnt g d a b j e f t s
  | .vcvt g d a m e t => Sys2Proof.Machine.execVcvt g d a m e t s
  | .vpack g d a b m e f t => Sys2Proof.Machine.execVpack g d a b m e f t s
  | .vunpk g d a h m e t => Sys2Proof.Machine.execVunpk g d a h m e t s
  | .vsrnd g a m e => Sys2Proof.Machine.execVsrnd g a m e s
  | .vld g d a b m e f x0 => Sys2Proof.Machine.execVld g d a b m e f x0 s
  | .vst g d a b m e f x0 => Sys2Proof.Machine.execVst g d a b m e f x0 s
  | .vldT g d h b m f c => Sys2Proof.Machine.execVldT g d h b m f c s
  | .vstT g d h b m f c => Sys2Proof.Machine.execVstT g d h b m f c s
  | .vgat g d a b m e f k x0 => Sys2Proof.Machine.execVgat g d a b m e f k x0 s
  | .vsca g d a b m e f k x0 => Sys2Proof.Machine.execVsca g d a b m e f k x0 s
  | .vldB g d a b m e f x0 => Sys2Proof.Machine.execVldB g d a b m e f x0 s
  | .mand g d a b => Sys2Proof.Machine.execMand g d a b s
  | .mor g d a b => Sys2Proof.Machine.execMor g d a b s
  | .mxor g d a b => Sys2Proof.Machine.execMxor g d a b s
  | .mnot g d a => Sys2Proof.Machine.execMnot g d a s
  | .mfirst g d a => Sys2Proof.Machine.execMfirst g d a s
  | .mset g d a e => Sys2Proof.Machine.execMset g d a e s
  | .msetRd g d a => Sys2Proof.Machine.execMsetRd g d a s
  | .vaccRd g d n b m f c => Sys2Proof.Machine.execVaccRd g d n b m f c s
  | .vaccPk g d n b m f c => Sys2Proof.Machine.execVaccPk g d n b m f c s
  | .vaccWr g n a b m e f c => Sys2Proof.Machine.execVaccWr g n a b m e f c s
  | .vclamp g d a b m e f t => Sys2Proof.Machine.execVclamp g d a b m e f t s
  | .vdot4 g d a b m e f t => Sys2Proof.Machine.execVdot4 g d a b m e f t s
  | .vfrnd g d a m e t => Sys2Proof.Machine.execVfrnd g d a m e t s
  | .vfexp g d a m e t => Sys2Proof.Machine.execVfexp g d a m e t s
  | .vscl g d a b m e f t => Sys2Proof.Machine.execVscl g d a b m e f t s
  | .vcompress g d a m e t => Sys2Proof.Machine.execVcompress g d a m e t s
  | .vexpand g d a m e t => Sys2Proof.Machine.execVexpand g d a m e t s
  | .vscan g d a m e t => Sys2Proof.Machine.execVscan g d a m e t s
  | .vlut g d a b m e f t => Sys2Proof.Machine.execVlut g d a b m e f t s
  | .vclz g d a m e t => Sys2Proof.Machine.execVclz g d a m e t s
  | .vpopc g d a m e t => Sys2Proof.Machine.execVpopc g d a m e t s
  | .vbfx g d a b m e f t => Sys2Proof.Machine.execVbfx g d a b m e f t s
  | .vrev g d a m e t => Sys2Proof.Machine.execVrev g d a m e t s
  | .vhist g d a m e t => Sys2Proof.Machine.execVhist g d a m e t s
  | .vbcast g d a b m e f t => Sys2Proof.Machine.execVbcast g d a b m e f t s
  | .mcall g k => Sys2Proof.Machine.execMcall g k s
  | .mcallB g k => Sys2Proof.Machine.execMcallB g k s
  | .mwait g => Sys2Proof.Machine.execMwait g s
  | .mscale g f y0 => Sys2Proof.Machine.execMscale g f y0 s
  | .mdrain g y0 => Sys2Proof.Machine.execMdrain g y0 s
  | .mclr g y0 f => Sys2Proof.Machine.execMclr g y0 f s
  | .mldMs g a e => Sys2Proof.Machine.execMldMs g a e s
  | .mstMs g a b e f => Sys2Proof.Machine.execMstMs g a b e f s
  | .mqClr g a b l => Sys2Proof.Machine.execMqClr g a b l s
  | .mqSt g d => Sys2Proof.Machine.execMqSt g d s
  | .mhalf g n => Sys2Proof.Machine.execMhalf g n s
  | .mchk g d y0 => Sys2Proof.Machine.execMchk g d y0 s
  | .mfix g f y0 x => Sys2Proof.Machine.execMfix g f y0 x s
  | .mmov g d x0 => Sys2Proof.Machine.execMmov g d x0 s
  | .mstat g d => Sys2Proof.Machine.execMstat g d s
  | .mabort g => Sys2Proof.Machine.execMabort g s
  | .nop n => Sys2Proof.Machine.execNop n s
  | .ldc n c v => Sys2Proof.Machine.execLdc n c v s
  | .decc n c => Sys2Proof.Machine.execDecc n c s
  | .jmp nt k => Sys2Proof.Machine.execJmp nt k s
  | .jcnd nt nf k b => Sys2Proof.Machine.execJcnd nt nf k b s
  | .pulla n => Sys2Proof.Machine.execPulla n s
  | .pullb n => Sys2Proof.Machine.execPullb n s
  | .mac n x => Sys2Proof.Machine.execMac n x s
  | .macb n x => Sys2Proof.Machine.execMacb n x s
  | .segcut n => Sys2Proof.Machine.execSegcut n s
  | .ckacc n => Sys2Proof.Machine.execCkacc n s
  | .ckcmp n => Sys2Proof.Machine.execCkcmp n s
  | .postp n tag => Sys2Proof.Machine.execPostp n tag s
  | .halfp n => Sys2Proof.Machine.execHalfp n s
  | .waitq n a b k => Sys2Proof.Machine.execWaitq n a b k s
  | .endRoutine => Sys2Proof.Machine.execEndRoutine s
  | .cpyGo g a e c => Sys2Proof.Machine.execCpyGo g a e c s
  | .cpyGq g a b e f c => Sys2Proof.Machine.execCpyGq g a b e f c s
  | .cpyDrn g c => Sys2Proof.Machine.execCpyDrn g c s
  | .cpySt g d c => Sys2Proof.Machine.execCpySt g d c s
  | .cpyPb g a e => Sys2Proof.Machine.execCpyPb g a e s
  | .cpyInv g a e => Sys2Proof.Machine.execCpyInv g a e s
  | .cpyZero g h c => Sys2Proof.Machine.execCpyZero g h c s
  | .cpyFill g a b e f c => Sys2Proof.Machine.execCpyFill g a b e f c s
  | .cpyCvt g a e c => Sys2Proof.Machine.execCpyCvt g a e c s
  | .cpyCancel g c => Sys2Proof.Machine.execCpyCancel g c s
  | .tmov g d x0 a b => Sys2Proof.Machine.execTmov g d x0 a b s
  | .tmovH g d x0 a b => Sys2Proof.Machine.execTmovH g d x0 a b s
  | .rlay g h a b e f => Sys2Proof.Machine.execRlay g h a b e f s
  | .rlayWt g h => Sys2Proof.Machine.execRlayWt g h s
  | .rlaySt g h => Sys2Proof.Machine.execRlaySt g h s
  | .bcDrv g d a e => Sys2Proof.Machine.execBcDrv g d a e s
  | .bcLat g d a e => Sys2Proof.Machine.execBcLat g d a e s
  | .bcSync g a b e f => Sys2Proof.Machine.execBcSync g a b e f s
  | .bufArm g c k a b e f => Sys2Proof.Machine.execBufArm g c k a b e f s
  | .bufSwp g k => Sys2Proof.Machine.execBufSwp g k s
  | .bufSt g d k => Sys2Proof.Machine.execBufSt g d k s
  | .pfG g a b e f => Sys2Proof.Machine.execPfG g a b e f s
  | .fsend g h a e => Sys2Proof.Machine.execFsend g h a e s
  | .fsendV g v a e => Sys2Proof.Machine.execFsendV g v a e s
  | .fsendM g a b e f => Sys2Proof.Machine.execFsendM g a b e f s
  | .rpost g h a b e f => Sys2Proof.Machine.execRpost g h a b e f s
  | .rpostW g h a b e f => Sys2Proof.Machine.execRpostW g h a b e f s
  | .rcancel g d a e => Sys2Proof.Machine.execRcancel g d a e s
  | .rprobe g d a e => Sys2Proof.Machine.execRprobe g d a e s
  | .rwait g d a e => Sys2Proof.Machine.execRwait g d a e s
  | .rlbQ g d a e => Sys2Proof.Machine.execRlbQ g d a e s
  | .fdrn g => Sys2Proof.Machine.execFdrn g s
  | .collRed g h a e => Sys2Proof.Machine.execCollRed g h a e s
  | .collAg g h a e => Sys2Proof.Machine.execCollAg g h a e s
  | .collRs g h a e => Sys2Proof.Machine.execCollRs g h a e s
  | .collA2a g h a e => Sys2Proof.Machine.execCollA2a g h a e s
  | .collBar g a e => Sys2Proof.Machine.execCollBar g a e s
  | .collSt g d => Sys2Proof.Machine.execCollSt g d s
  | .collRing g a b e f => Sys2Proof.Machine.execCollRing g a b e f s
  | .noiseRd g d n => Sys2Proof.Machine.execNoiseRd g d n s
  | .noiseClr g => Sys2Proof.Machine.execNoiseClr g s
  | .fpeer g d a e => Sys2Proof.Machine.execFpeer g d a e s
  | .fslot g d a e => Sys2Proof.Machine.execFslot g d a e s
  | .fbays g d a e => Sys2Proof.Machine.execFbays g d a e s
  | .fevt g d => Sys2Proof.Machine.execFevt g d s
  | .fretune g a e => Sys2Proof.Machine.execFretune g a e s
  | .frepair g a b e f => Sys2Proof.Machine.execFrepair g a b e f s
  | .fgrant g a e => Sys2Proof.Machine.execFgrant g a e s
  | .resultLand c k => Sys2Proof.Machine.execResultLand c k s
  | .blockCleared c => Sys2Proof.Machine.execBlockCleared c s
  | .contextSwitch g => Sys2Proof.Machine.execContextSwitch g s
  | .quantum g => Sys2Proof.Machine.execQuantum g s
  | .stopSpacing c => Sys2Proof.Machine.execStopSpacing c s
  | .fetchRefill c => Sys2Proof.Machine.execFetchRefill c s
  | .parkTExpiry c => Sys2Proof.Machine.execParkTExpiry c s
  | .syncRoundRelease n id => Sys2Proof.Machine.execSyncRoundRelease n id s
  | .katInject g inst fails => Sys2Proof.Machine.execKatInject g inst fails s
  | .kickGo => Sys2Proof.Machine.execKickGo s
  | .poolPlace => Sys2Proof.Machine.execPoolPlace s
  | .priorityAging => Sys2Proof.Machine.execPriorityAging s
  | .dieDispatch d => Sys2Proof.Machine.execDieDispatch d s
  | .lineAck c id => Sys2Proof.Machine.execLineAck c id s
  | .walkComplete c => Sys2Proof.Machine.execWalkComplete c s
  | .remoteAccessArrival r => Sys2Proof.Machine.execRemoteAccessArrival r s
  | .remoteReply id data => Sys2Proof.Machine.execRemoteReply id data s
  | .remoteRefusal id dev cause => Sys2Proof.Machine.execRemoteRefusal id dev cause s
  | .poisonConsumed c addr space slot => Sys2Proof.Machine.execPoisonConsumed c addr space slot s
  | .patrolScrub addr => Sys2Proof.Machine.execPatrolScrub addr s
  | .deltaArrival d => Sys2Proof.Machine.execDeltaArrival d s
  | .parityAckArrival l => Sys2Proof.Machine.execParityAckArrival l s
  | .relayoutTile d view => Sys2Proof.Machine.execRelayoutTile d view s
  | .copyExecute g ch view => Sys2Proof.Machine.execCopyExecute g ch view s
  | .copyComplete g ch => Sys2Proof.Machine.execCopyComplete g ch s
  | .routineStart g => Sys2Proof.Machine.execRoutineStart g s
  | .scalePerform g => Sys2Proof.Machine.execScalePerform g s
  | .mdrainPerform g => Sys2Proof.Machine.execMdrainPerform g s
  | .mclrPerform g => Sys2Proof.Machine.execMclrPerform g s
  | .mmovPerform g => Sys2Proof.Machine.execMmovPerform g s
  | .vaccRdPerform g => Sys2Proof.Machine.execVaccRdPerform g s
  | .rotorSlotBoundary => Sys2Proof.Machine.execRotorSlotBoundary s
  | .periodBoundary => Sys2Proof.Machine.execPeriodBoundary s
  | .controlFlitArrival plane peer f => Sys2Proof.Machine.execControlFlitArrival plane peer f s
  | .dataFlitArrival plane peer f => Sys2Proof.Machine.execDataFlitArrival plane peer f s
  | .messageHeaderArrival m => Sys2Proof.Machine.execMessageHeaderArrival m s
  | .relayedHeaderArrival plane peer origin target flits => Sys2Proof.Machine.execRelayedHeaderArrival plane peer origin target flits s
  | .landingComplete e => Sys2Proof.Machine.execLandingComplete e s
  | .sendComplete id lost => Sys2Proof.Machine.execSendComplete id lost s
  | .collectiveExecute r peers lost => Sys2Proof.Machine.execCollectiveExecute r peers lost s
  | .lineDrift comb w offset => Sys2Proof.Machine.execLineDrift comb w offset s
  | .reserveSubstitution => Sys2Proof.Machine.execReserveSubstitution s
  | .linkTraining plane peer rate => Sys2Proof.Machine.execLinkTraining plane peer rate s
  | .retrainTimeout plane peer => Sys2Proof.Machine.execRetrainTimeout plane peer s
  | .keeperMarkLoss => Sys2Proof.Machine.execKeeperMarkLoss s
  | .fabricDrained => Sys2Proof.Machine.execFabricDrained s
  | .tollBoundary => Sys2Proof.Machine.execTollBoundary s
  | .mailboxWrite therm v => Sys2Proof.Machine.execMailboxWrite therm v s
  | .permitsWrite n v => Sys2Proof.Machine.execPermitsWrite n v s
  | .framemapSync => Sys2Proof.Machine.execFramemapSync s
  | .framemapSyncDone => Sys2Proof.Machine.execFramemapSyncDone s
  | .protctlWrite v => Sys2Proof.Machine.execProtctlWrite v s
  | .rebuildAll view => Sys2Proof.Machine.execRebuildAll view s
  | .rebuildFrame view => Sys2Proof.Machine.execRebuildFrame view s
  | .rebuildParity view => Sys2Proof.Machine.execRebuildParity view s
  | .rebuildDone => Sys2Proof.Machine.execRebuildDone s
  | .devnumWrite v => Sys2Proof.Machine.execDevnumWrite v s
  | .fabricEnable on => Sys2Proof.Machine.execFabricEnable on s
  | .fabricDrain => Sys2Proof.Machine.execFabricDrain s
  | .profileSelect profile psw => Sys2Proof.Machine.execProfileSelect profile psw s
  | .preemptSave => Sys2Proof.Machine.execPreemptSave s
  | .preemptRestore => Sys2Proof.Machine.execPreemptRestore s
  | .saveRoutineTimeout => Sys2Proof.Machine.execSaveRoutineTimeout s
  | .contextSaved c => Sys2Proof.Machine.execContextSaved c s
  | .fatalStore c v => Sys2Proof.Machine.execFatalStore c v s
  | .powerOn r => Sys2Proof.Machine.execPowerOn r s
  | .powerLoss => Sys2Proof.Machine.execPowerLoss s
  | .selftestRetest r => Sys2Proof.Machine.execSelftestRetest r s
  | .pcieLinkTraining hostMax => Sys2Proof.Machine.execPcieLinkTraining hostMax s
  | .fruRead addr size => Sys2Proof.Machine.execFruRead addr size s
  | .vacateGo => Sys2Proof.Machine.execVacateGo s
  | .vacateBudgetTimeout => Sys2Proof.Machine.execVacateBudgetTimeout s
  | .attestGo => Sys2Proof.Machine.execAttestGo s
  | .attestDone => Sys2Proof.Machine.execAttestDone s
  | .keyLoad => Sys2Proof.Machine.execKeyLoad s
  | .keyErase => Sys2Proof.Machine.execKeyErase s
  | .registerWrite addr size v => Sys2Proof.Machine.execRegisterWrite addr size v s
  | .softError e => Sys2Proof.Machine.execSoftError e s
  | .hostBarAccess h => Sys2Proof.Machine.execHostBarAccess h s
  | .vacateCopyDone => Sys2Proof.Machine.execVacateCopyDone s

end Sys2Proof.Machine
end

