-- ==== Sys2Proof/Machine/Run.lean ====
section
/-! DEFINITION. The meanings of the instructions that the machine itself produces while it runs: C and F syllables, micro-ops and
events (Engine.lean says why they have types of their own). Each arm is the meaning of the instruction it stands for, as in
`exec`; Laws/Run.lean proves that they agree. -/

namespace Sys2Proof.Machine

/-- A C or F syllable. -/
def execEng (x : EngSyl) (s : State) : Host.Outcome State Fault Refusal :=
  match x with
  | .cpyGo g a e c => Sys2Proof.Machine.execCpyGo g a e c s
  | .cpyGq g a b e f c => Sys2Proof.Machine.execCpyGq g a b e f c s
  | .cpyDrn g c => Sys2Proof.Machine.execCpyDrn g c s
  | .cpySt g d c => Sys2Proof.Machine.execCpySt g d c s
  | .cpyPb g a e => Sys2Proof.Machine.execCpyPb g a e s
  | .cpyInv g a e => Sys2Proof.Machine.execCpyInv g a e s
  | .cpyZero g h c => Sys2Proof.Machine.execCpyZero g h c s
  | .cpyFill g a b e f c => Sys2Proof.Machine.execCpyFill g a b e f c s
  | .cpyCvt g a e c => Sys2Proof.Machine.execCpyCvt g a e c s
  | .cpyCancel g c => Sys2Proof.Machine.execCpyCancel g c s
  | .tmov g d x0 a b => Sys2Proof.Machine.execTmov g d x0 a b s
  | .tmovH g d x0 a b => Sys2Proof.Machine.execTmovH g d x0 a b s
  | .rlay g h a b e f => Sys2Proof.Machine.execRlay g h a b e f s
  | .rlayWt g h => Sys2Proof.Machine.execRlayWt g h s
  | .rlaySt g h => Sys2Proof.Machine.execRlaySt g h s
  | .bcDrv g d a e => Sys2Proof.Machine.execBcDrv g d a e s
  | .bcLat g d a e => Sys2Proof.Machine.execBcLat g d a e s
  | .bcSync g a b e f => Sys2Proof.Machine.execBcSync g a b e f s
  | .bufArm g c k a b e f => Sys2Proof.Machine.execBufArm g c k a b e f s
  | .bufSwp g k => Sys2Proof.Machine.execBufSwp g k s
  | .bufSt g d k => Sys2Proof.Machine.execBufSt g d k s
  | .pfG g a b e f => Sys2Proof.Machine.execPfG g a b e f s
  | .fsend g h a e => Sys2Proof.Machine.execFsend g h a e s
  | .fsendV g v a e => Sys2Proof.Machine.execFsendV g v a e s
  | .fsendM g a b e f => Sys2Proof.Machine.execFsendM g a b e f s
  | .rpost g h a b e f => Sys2Proof.Machine.execRpost g h a b e f s
  | .rpostW g h a b e f => Sys2Proof.Machine.execRpostW g h a b e f s
  | .rcancel g d a e => Sys2Proof.Machine.execRcancel g d a e s
  | .rprobe g d a e => Sys2Proof.Machine.execRprobe g d a e s
  | .rwait g d a e => Sys2Proof.Machine.execRwait g d a e s
  | .rlbQ g d a e => Sys2Proof.Machine.execRlbQ g d a e s
  | .fdrn g => Sys2Proof.Machine.execFdrn g s
  | .collRed g h a e => Sys2Proof.Machine.execCollRed g h a e s
  | .collAg g h a e => Sys2Proof.Machine.execCollAg g h a e s
  | .collRs g h a e => Sys2Proof.Machine.execCollRs g h a e s
  | .collA2a g h a e => Sys2Proof.Machine.execCollA2a g h a e s
  | .collBar g a e => Sys2Proof.Machine.execCollBar g a e s
  | .collSt g d => Sys2Proof.Machine.execCollSt g d s
  | .collRing g a b e f => Sys2Proof.Machine.execCollRing g a b e f s
  | .noiseRd g d n => Sys2Proof.Machine.execNoiseRd g d n s
  | .noiseClr g => Sys2Proof.Machine.execNoiseClr g s
  | .fpeer g d a e => Sys2Proof.Machine.execFpeer g d a e s
  | .fslot g d a e => Sys2Proof.Machine.execFslot g d a e s
  | .fbays g d a e => Sys2Proof.Machine.execFbays g d a e s
  | .fevt g d => Sys2Proof.Machine.execFevt g d s
  | .fretune g a e => Sys2Proof.Machine.execFretune g a e s
  | .frepair g a b e f => Sys2Proof.Machine.execFrepair g a b e f s
  | .fgrant g a e => Sys2Proof.Machine.execFgrant g a e s

/-- A micro-op. -/
def execMicro (x : Micro) (s : State) : Host.Outcome State Fault Refusal :=
  match x with
  | .nop n => Sys2Proof.Machine.execNop n s
  | .ldc n c v => Sys2Proof.Machine.execLdc n c v s
  | .decc n c => Sys2Proof.Machine.execDecc n c s
  | .jmp nt k => Sys2Proof.Machine.execJmp nt k s
  | .jcnd nt nf k b => Sys2Proof.Machine.execJcnd nt nf k b s
  | .pulla n => Sys2Proof.Machine.execPulla n s
  | .pullb n => Sys2Proof.Machine.execPullb n s
  | .mac n x => Sys2Proof.Machine.execMac n x s
  | .macb n x => Sys2Proof.Machine.execMacb n x s
  | .segcut n => Sys2Proof.Machine.execSegcut n s
  | .ckacc n => Sys2Proof.Machine.execCkacc n s
  | .ckcmp n => Sys2Proof.Machine.execCkcmp n s
  | .postp n tag => Sys2Proof.Machine.execPostp n tag s
  | .halfp n => Sys2Proof.Machine.execHalfp n s
  | .waitq n a b k => Sys2Proof.Machine.execWaitq n a b k s
  | .endRoutine => Sys2Proof.Machine.execEndRoutine s

/-- An event. -/
def execEvent (e : Event) (s : State) : Host.Outcome State Fault Refusal :=
  match e with
  | .resultLand c k => Sys2Proof.Machine.execResultLand c k s
  | .blockCleared c => Sys2Proof.Machine.execBlockCleared c s
  | .contextSwitch g => Sys2Proof.Machine.execContextSwitch g s
  | .quantum g => Sys2Proof.Machine.execQuantum g s
  | .stopSpacing c => Sys2Proof.Machine.execStopSpacing c s
  | .fetchRefill c => Sys2Proof.Machine.execFetchRefill c s
  | .parkTExpiry c => Sys2Proof.Machine.execParkTExpiry c s
  | .syncRoundRelease n id => Sys2Proof.Machine.execSyncRoundRelease n id s
  | .katInject g inst fails => Sys2Proof.Machine.execKatInject g inst fails s
  | .kickGo => Sys2Proof.Machine.execKickGo s
  | .poolPlace => Sys2Proof.Machine.execPoolPlace s
  | .priorityAging => Sys2Proof.Machine.execPriorityAging s
  | .dieDispatch d => Sys2Proof.Machine.execDieDispatch d s
  | .lineAck c id => Sys2Proof.Machine.execLineAck c id s
  | .walkComplete c => Sys2Proof.Machine.execWalkComplete c s
  | .remoteAccessArrival r => Sys2Proof.Machine.execRemoteAccessArrival r s
  | .remoteReply id data => Sys2Proof.Machine.execRemoteReply id data s
  | .remoteRefusal id dev cause => Sys2Proof.Machine.execRemoteRefusal id dev cause s
  | .poisonConsumed c addr space slot => Sys2Proof.Machine.execPoisonConsumed c addr space slot s
  | .patrolScrub addr => Sys2Proof.Machine.execPatrolScrub addr s
  | .deltaArrival d => Sys2Proof.Machine.execDeltaArrival d s
  | .parityAckArrival l => Sys2Proof.Machine.execParityAckArrival l s
  | .relayoutTile d view => Sys2Proof.Machine.execRelayoutTile d view s
  | .copyExecute g ch view => Sys2Proof.Machine.execCopyExecute g ch view s
  | .copyComplete g ch => Sys2Proof.Machine.execCopyComplete g ch s
  | .routineStart g => Sys2Proof.Machine.execRoutineStart g s
  | .scalePerform g => Sys2Proof.Machine.execScalePerform g s
  | .mdrainPerform g => Sys2Proof.Machine.execMdrainPerform g s
  | .mclrPerform g => Sys2Proof.Machine.execMclrPerform g s
  | .mmovPerform g => Sys2Proof.Machine.execMmovPerform g s
  | .vaccRdPerform g => Sys2Proof.Machine.execVaccRdPerform g s
  | .rotorSlotBoundary => Sys2Proof.Machine.execRotorSlotBoundary s
  | .periodBoundary => Sys2Proof.Machine.execPeriodBoundary s
  | .controlFlitArrival plane peer f => Sys2Proof.Machine.execControlFlitArrival plane peer f s
  | .dataFlitArrival plane peer f => Sys2Proof.Machine.execDataFlitArrival plane peer f s
  | .messageHeaderArrival m => Sys2Proof.Machine.execMessageHeaderArrival m s
  | .relayedHeaderArrival plane peer origin target flits => Sys2Proof.Machine.execRelayedHeaderArrival plane peer origin target flits s
  | .landingComplete e => Sys2Proof.Machine.execLandingComplete e s
  | .sendComplete id lost => Sys2Proof.Machine.execSendComplete id lost s
  | .collectiveExecute r peers lost => Sys2Proof.Machine.execCollectiveExecute r peers lost s
  | .lineDrift comb w offset => Sys2Proof.Machine.execLineDrift comb w offset s
  | .reserveSubstitution => Sys2Proof.Machine.execReserveSubstitution s
  | .linkTraining plane peer rate => Sys2Proof.Machine.execLinkTraining plane peer rate s
  | .retrainTimeout plane peer => Sys2Proof.Machine.execRetrainTimeout plane peer s
  | .keeperMarkLoss => Sys2Proof.Machine.execKeeperMarkLoss s
  | .fabricDrained => Sys2Proof.Machine.execFabricDrained s
  | .tollBoundary => Sys2Proof.Machine.execTollBoundary s
  | .mailboxWrite therm v => Sys2Proof.Machine.execMailboxWrite therm v s
  | .permitsWrite n v => Sys2Proof.Machine.execPermitsWrite n v s
  | .framemapSync => Sys2Proof.Machine.execFramemapSync s
  | .framemapSyncDone => Sys2Proof.Machine.execFramemapSyncDone s
  | .protctlWrite v => Sys2Proof.Machine.execProtctlWrite v s
  | .rebuildAll view => Sys2Proof.Machine.execRebuildAll view s
  | .rebuildFrame view => Sys2Proof.Machine.execRebuildFrame view s
  | .rebuildParity view => Sys2Proof.Machine.execRebuildParity view s
  | .rebuildDone => Sys2Proof.Machine.execRebuildDone s
  | .devnumWrite v => Sys2Proof.Machine.execDevnumWrite v s
  | .fabricEnable on => Sys2Proof.Machine.execFabricEnable on s
  | .fabricDrain => Sys2Proof.Machine.execFabricDrain s
  | .profileSelect profile psw => Sys2Proof.Machine.execProfileSelect profile psw s
  | .preemptSave => Sys2Proof.Machine.execPreemptSave s
  | .preemptRestore => Sys2Proof.Machine.execPreemptRestore s
  | .saveRoutineTimeout => Sys2Proof.Machine.execSaveRoutineTimeout s
  | .contextSaved c => Sys2Proof.Machine.execContextSaved c s
  | .fatalStore c v => Sys2Proof.Machine.execFatalStore c v s
  | .powerOn r => Sys2Proof.Machine.execPowerOn r s
  | .powerLoss => Sys2Proof.Machine.execPowerLoss s
  | .selftestRetest r => Sys2Proof.Machine.execSelftestRetest r s
  | .pcieLinkTraining hostMax => Sys2Proof.Machine.execPcieLinkTraining hostMax s
  | .fruRead addr size => Sys2Proof.Machine.execFruRead addr size s
  | .vacateGo => Sys2Proof.Machine.execVacateGo s
  | .vacateBudgetTimeout => Sys2Proof.Machine.execVacateBudgetTimeout s
  | .attestGo => Sys2Proof.Machine.execAttestGo s
  | .attestDone => Sys2Proof.Machine.execAttestDone s
  | .keyLoad => Sys2Proof.Machine.execKeyLoad s
  | .keyErase => Sys2Proof.Machine.execKeyErase s
  | .registerWrite addr size v => Sys2Proof.Machine.execRegisterWrite addr size v s
  | .softError e => Sys2Proof.Machine.execSoftError e s
  | .hostBarAccess h => Sys2Proof.Machine.execHostBarAccess h s
  | .vacateCopyDone => Sys2Proof.Machine.execVacateCopyDone s

end Sys2Proof.Machine
end

