-- ==== Sys2Proof/Machine/Bundle.lean ====
section
/-! DEFINITION. A bundle issues (R197, R199 to R207, R214, R215, R362, R363, R408): what is due at its stop point, the joins it makes,
the checks, its syllables in program order, and what follows it. -/

namespace Sys2Proof.Machine

/-! ## Running syllables -/

def Syl.run (x : Syl) (s : State) : Host.Outcome State Fault Refusal :=
  match x with
  | .core i => exec i s
  | .eng y => execEng y s

/-- A syllable in its slot. -/
abbrev Placed := Fin 8 × Syl

def State.inSlot (s : State) (k : Fin 8) : State := { s with issue := { s.issue with slot := k } }

def State.slotted (s : State) (xs : List Placed) : List Slotted := xs.map fun x => (x.1, x.2.info s)

/-- The guard of a syllable reads 1. -/
def State.on (s : State) (x : Placed) : Bool := s.readP (x.2.info s).guard

/-- BA transfers control or ends the instance, so that BB has no effect (R206). -/
def State.baEnds (s : State) (xs : List Placed) : Bool :=
  xs.any fun x => x.1 == 0 && s.on x && (x.2.info s).ends

/-- The syllables that take effect. -/
def State.effective (s : State) (xs : List Placed) : List Placed :=
  xs.filter fun x => s.on x && !(x.1 == 1 && s.baEnds xs)

/-- The syllables that the other syllables of their bundle run before: `end.node`, by which the instance retires after its last bundle,
and those that change LCOUNT or ESTAT at once, which the others may read (R206). -/
def Syl.late : Syl → Bool
  | .core i =>
    match i with
    | .endNode _ | .eret _ | .loopPin _ _ _ _ | .loopEnd _ | .loopBrk _ _ _ => true
    | _ => false
  | .eng _ => false

/-- The syllables that run before the others of their bundle: they read what the others may change at once (R206). -/
def Syl.early : Syl → Bool
  | .core i =>
    match i with
    | .sysrd _ _ _ => true
    | _ => false
  | .eng _ => false

/-- Syllables that are a block point whether or not they wait (R76, R110, R140, R227, R228, R238, R252, R302, R307, R308, R328, R329, R330,
R334,
R340, R345, R347). -/
def Syl.blockPoint : Syl → Bool
  | .core i =>
    match i with
    | .endNode _ | .yield _ | .parkT _ _ _ | .waitEv _ _ | .haltCtx _ _ _ | .fence _ _ _ | .fenceSurv _ | .mwait _ | .mpar _ _ _ _
    | .hld _ _ _ _ _ | .mldMs _ _ _ | .mstMs _ _ _ _ _ | .pgInv _ _ _ _ _ => true
    | _ => false
  | .eng x =>
    match x with
    | .cpyDrn _ _ | .cpyPb _ _ _ | .tmov _ _ _ _ _ | .tmovH _ _ _ _ _ | .bcSync _ _ _ _ _ | .rpostW _ _ _ _ _ _ | .fdrn _
    | .collRing _ _ _ _ _ => true
    | _ => false

/-- Syllables that access memory, or release what accesses have written: they take their places after the reads before them (R103). -/
def Syl.accesses : Syl → Bool
  | .core i =>
    match i with
    | .ldB _ _ _ _ _ _ _ _ | .ldH _ _ _ _ _ _ _ _ | .ldW _ _ _ _ _ _ _ _ | .ldD _ _ _ _ _ _ _ | .ldsB _ _ _ _ _ _ _
    | .ldsH _ _ _ _ _ _ _ | .ldsW _ _ _ _ _ _ _ | .ldsD _ _ _ _ _ _ _ | .stB _ _ _ _ _ _ | .stH _ _ _ _ _ _ | .stW _ _ _ _ _ _
    | .stD _ _ _ _ _ _ | .stsB _ _ _ _ _ _ _ _ | .stsH _ _ _ _ _ _ _ _ | .stsW _ _ _ _ _ _ _ _ | .stsD _ _ _ _ _ _ _ _
    | .amoAdd _ _ _ _ _ _ _ _ _ | .amoAnd _ _ _ _ _ _ _ _ _ | .amoOr _ _ _ _ _ _ _ _ _ | .amoXor _ _ _ _ _ _ _ _ _
    | .amoMin _ _ _ _ _ _ _ _ _ | .amoMax _ _ _ _ _ _ _ _ _ | .amoMinu _ _ _ _ _ _ _ _ _ | .amoMaxu _ _ _ _ _ _ _ _ _
    | .amoSwap _ _ _ _ _ _ _ _ _ | .amoCas _ _ _ _ _ _ _ _ _ | .fxinit _ _ _ _ _ _ | .fxaddF32 _ _ _ _ _ _ | .fxaddH _ _ _ _ _ _
    | .fxrd _ _ _ _ _ | .fence _ _ _ | .fenceSurv _ | .mls _ _ | .mlsArr _ _ | .mlsWt _ _ | .hld _ _ _ _ _ | .hst _ _ _ _ _
    | .mpar _ _ _ _ | .pgInv _ _ _ _ _ | .sigEv _ _ | .waitEv _ _ | .spawn _ _ _ _ | .endNode _ | .vld _ _ _ _ _ _ _ _
    | .vst _ _ _ _ _ _ _ _ | .vldT _ _ _ _ _ _ _ | .vstT _ _ _ _ _ _ _ | .vgat _ _ _ _ _ _ _ _ _ | .vsca _ _ _ _ _ _ _ _ _
    | .vldB _ _ _ _ _ _ _ _ | .mldMs _ _ _ | .mstMs _ _ _ _ _ => true
    | _ => false
  | .eng x =>
    match x with
    | .noiseClr _ => false
    | _ => true

/-- The order in which syllables run. All of them read what stood before the bundle (R206), so only accesses, which take their places in
program order (R95, R363), and what changes the machine at once need an order: first what reads the machine, then what makes no access, then
the accesses, then the late ones. -/
def runOrder (xs : List Placed) : List Placed :=
  xs.filter (·.2.early) ++ xs.filter (fun x => !(x.2.early || x.2.late || x.2.accesses)) ++
    xs.filter (fun x => x.2.accesses && !x.2.late) ++ xs.filter (·.2.late)

/-- QP as the pushes of the syllables in the slots below k leave it: entries are taken in slot order (R192). -/
def State.atPush (s : State) (all : List Placed) (k : Nat) : State :=
  let n := ((all.filter fun x => x.1.val < k).map fun x => (x.2.info s).pushes).sum
  s.modRegs fun r => { r with qp := s.issue.qp + BitVec.ofNat 4 n }

/-- The bundle is a stop point or a block point (R214): pending faults and saves are taken before it issues. -/
def State.isPoint (s : State) (h : Word32) (xs : List Placed) : Bool :=
  stopOf h || (s.effective xs).any (·.2.blockPoint)

/-- How the syllable ended. -/
def endOf : Host.Outcome State Fault Refusal → End
  | .next s => s.evt
  | _ => .done

def End.isTrap : End → Bool
  | .trap _ | .consumed _ => true
  | _ => false

def End.isIllegal : End → Bool
  | .trap t => t.code == 0x01
  | _ => false

/-- A syllable and how a run of it has ended. -/
abbrev Trial := Placed × Host.Outcome State Fault Refusal

/-- A syllable run by itself in its slot. -/
def State.alone (s : State) (x : Placed) : Host.Outcome State Fault Refusal := x.2.run (s.inSlot x.1)

/-- Tries syllables one after the other; one that does not end as done leaves nothing to those after it. -/
def trialRuns (all : List Placed) : List Placed → State → List Trial
  | [], _ => []
  | x :: xs, s =>
    let o := (s.atPush all x.1.val).alone x
    (x, o) :: trialRuns all xs (match o with
      | .next t => if t.evt = .done then t else s
      | _ => s)

/-- The first trial in slot order that ended in a way that a test names. -/
def firstTrial (p : Trial → Bool) (xs : List Placed) (l : List Trial) : Option Trial :=
  xs.findSome? fun y => l.find? fun z => z.1.1 == y.1 && p z

def refuses : Host.Outcome State Fault Refusal → Bool
  | .next _ => false
  | _ => true

/-- It waits, and not after an arrival of its own. -/
def waitsFirst : Host.Outcome State Fault Refusal → Bool
  | .next t => t.evt == .block && !t.issue.arrived
  | _ => false

/-- The state in which a syllable has stopped its bundle, none of whose syllables take effect: what the syllable by itself leaves, or,
where only the syllables before it in the bundle make it stop, the state before the bundle with the fault or the wait. -/
def State.stopAt (s : State) (x : Trial) : Host.Outcome State Fault Refusal :=
  if endOf (s.alone x.1) = endOf x.2 then s.alone x.1
  else
    match x.2 with
    | .next t =>
      let s := { s with freeCount := t.freeCount }
      match t.evt with
      | .trap f => .next (s.trap f)
      | .consumed f => .next (s.consume f)
      | .walk => .next { s.parkOn t.cx.wait with evt := .walk }
      | _ => .next t
    | o => o

/-- The checks of R207 up to the sources; a word that does not decode shows its cause. -/
def State.staticWords (s : State) : List (Fin 8 × Except Nat Syl) → Verdict
  | [] => .go
  | (k, .error c) :: _ => s.slotTrap k 0x01 0 c
  | (k, .ok x) :: l => (s.checkStatic (k, x.info s)).or (s.staticWords l)

/-- The syllables that decode. -/
def placed (l : List (Fin 8 × Except Nat Syl)) : List Placed :=
  l.filterMap fun x => match x.2 with
    | .ok y => some (x.1, y)
    | .error _ => none

/-! ## A bundle that waits part-way

Every check and every wait that can be known is settled before a bundle issues (R363). What is left are accesses that must follow an
earlier one of their own bundle (R103, R108), and waits that only the bundle's own arrival begins (R122, R334, R345, R351). By then every
syllable that makes no access is done, and the accesses that are left read what stood when the bundle issued. -/

/-- Answers to the context's own accesses are outstanding. -/
def State.ownAnswers (s : State) : Bool :=
  !s.cx.awaiting.isEmpty || !s.cx.dsb.isEmpty || !s.cx.journal.isEmpty ||
    s.remotes.any fun r => r.ctx == s.cid && r.eng.isNone

/-- Replies are outstanding that the context parks for (R119). -/
def State.awaitsReplies (s : State) : Bool := s.remotes.any fun r => r.ctx == s.cid && !r.write

/-- What is left of the bundle. -/
def State.partOf (s : State) (src : Regs) (todo : List Placed) : Part := ⟨s.cx.regs.pc, todo.map (·.1), src, s.issue⟩

/-- The memory path is late: the core holds the bundle, and no other context runs on it (R363). -/
def State.holdAt (s : State) (src : Regs) (todo : List Placed) : State :=
  { s with cx := { s.cx with status := .running, wait := .bundle, part := some (s.partOf src todo) }, evt := .block }

/-- The bundle's arrival is made and it waits for other contexts or devices: a block point (R122, assumption 78). -/
def State.waitAt (s : State) (src : Regs) (todo : List Placed) : State := { s with cx := { s.cx with part := some (s.partOf src todo) } }

/-- The registers as they stood before a syllable that waits. -/
def State.withSources (s old : State) : State :=
  { s with cx := { s.cx with regs := old.cx.regs, inflight := old.cx.inflight } }

/-- An access of a bundle that goes on: its sources are those of the cycle in which the bundle issued; of the registers it changes QP alone,
and a trap goes to its vector. -/
def State.fromIssue (s : State) (src : Regs) (x : Placed) : Host.Outcome State Fault Refusal :=
  match ({ s with cx := { s.cx with regs := { src with qp := s.cx.regs.qp } } } : State).alone x with
  | .next t =>
    let back := fun (r : Regs) => Host.Outcome.next { t with cx := { t.cx with regs := r } }
    match t.evt with
    | .consumed _ => .next t
    | .trap _ => back { s.landAll.cx.regs with pc := t.cx.regs.pc, pin := t.cx.regs.pin }
    | .block => back { s.landOld.cx.regs with qp := t.cx.regs.qp }
    | _ => back { s.cx.regs with qp := t.cx.regs.qp }
  | o => o

/-- A syllable of the bundle takes effect; `again` in a bundle that goes on. -/
def State.runOne (s : State) (all : List Placed) (src : Regs) (again : Bool) (x : Placed) : Host.Outcome State Fault Refusal :=
  let s := s.atPush all x.1.val
  if again && x.2.accesses then s.fromIssue src x else s.alone x

/-- Runs syllables one after the other. An access waits until the reads before it in the bundle are bound. -/
def runSyls (all : List Placed) (src : Regs) (again : Bool) : List Placed → State → Host.Outcome State Fault Refusal
  | [], s => .next (s.atPush all 8)
  | x :: xs, s =>
    if x.2.accesses && s.awaitsReplies then .next ((s.atPush all 8).holdAt src (x :: xs))
    else
      let s := if again then s.waitAt src (x :: xs) else s
      match s.runOne all src again x with
      | .next t =>
        match t.evt with
        | .block =>
          let t := t.atPush all 8
          .next (if t.ownAnswers && !t.issue.arrived then (t.withSources (s.atPush all 8)).holdAt src (x :: xs) else t.waitAt src (x :: xs))
        | .walk => .next ((t.atPush all 8).waitAt src (x :: xs))
        | .done | .stall => runSyls all src again xs t
        | _ => .next t
      | o => o

/-! ## Splitting (R362) -/

/-- The map of slots and lane groups in use: SLOTMAP's fields are not used while DEAD = 1 (R360); a bundle that still issues there is
split as on a whole core (assumption 94). -/
def State.slotMap (s : State) : Word := if flag s.core.slotmap 0 then Core.fullMap else s.core.slotmap

/-- The instance withdrawn from service for its test (R364), numbered as FTGT numbers them. -/
def State.forced (s : State) : Option Nat := if flag s.core.katctl 1 then some (field s.core.katctl 16 8) else none

/-- The physical lane groups that serve the logical ones 0, 1, … (R361); the forced one gives way to the lowest passed group that none
uses, or the others share its work (R364). -/
def State.laneMap (s : State) : List Nat :=
  let m := s.slotMap
  let run := ((List.range 4).map fun k => field m (36 + 3 * k) 3).takeWhile (· != 7)
  match s.forced with
  | some ft =>
    let spare := (List.range 5).find? fun k => flag m (31 + k) && k + 3 != ft && !run.contains k
    let rest := run.filter fun k => k + 3 != ft
    match spare with
    | some k => run.map fun x => if x + 3 = ft then k else x
    | none => if rest.isEmpty then run else rest
  | none => run

/-- The passes a V syllable takes: ⌈4/n⌉ (R361). -/
def State.passes (s : State) : Nat :=
  let n := s.laneMap.length
  if n = 0 then 1 else (4 + n - 1) / n

/-- The logical lane groups of pass p, each with the physical group that performs it: logical group k on LG(k mod n) (R361). -/
def State.passGroups (s : State) (p : Nat) : List (Nat × Nat) :=
  let n := s.laneMap.length
  ((List.range 4).filter fun k => k / n = p).map fun k => (k, s.laneMap.getD (k % n) 0)

/-- The ALU that serves a slot, the forced one replaced by a spare (R364). -/
def State.aluOf (s : State) (u : Nat) : Nat :=
  let m := s.slotMap
  if s.forced = some u then
    ((List.range 3).find? fun k => flag m (28 + k) && k != u && k != field m 26 2 && k != field m 24 2).getD
      (if field m 26 2 = u then field m 24 2 else field m 26 2)
  else u

/-- The branch units in service: with one, BA and BB share it (R360). -/
def State.branchUnits (s : State) : List Nat :=
  let all := (List.range 2).filter fun u => flag s.slotMap (22 + u)
  let rest := all.filter fun u => s.forced != some (8 + u)
  if rest.isEmpty then all else rest

/-- The instance a slot needs, numbered as FTGT numbers them; V's lane groups and the engines of M, C and F have numbers above. -/
def State.instanceOf (s : State) (k : Fin 8) : Nat :=
  let m := s.slotMap
  match k with
  | 0 => 8 + s.branchUnits.getD 0 0
  | 1 => 8 + s.branchUnits.getD 1 (s.branchUnits.getD 0 0)
  | 2 => s.aluOf (field m 26 2)
  | 3 => s.aluOf (field m 24 2)
  | _ => 10 + k.val

/-- The instances that a sub-bundle uses, V being in its pass p (R364). -/
def State.instancesOf (s : State) (p : Nat) (sub : List (Fin 8)) : List Nat :=
  sub.flatMap fun k => if k = 4 then (s.passGroups p).map fun x => 3 + x.2 else [s.instanceOf k]

/-- The instances used in each cycle of a split bundle. -/
def State.usage (s : State) : Nat → List (List (Fin 8)) → List (List Nat)
  | _, [] => []
  | p, sub :: l => s.instancesOf p sub :: s.usage (if sub.contains 4 then p + 1 else p) l

/-- Places the slots, in the order M, V, C, F, SA, SB, BA, BB, into sub-bundles. -/
def State.placeSlots (s : State) : List (Fin 8) → List (Fin 8) → List (List (Fin 8)) → List (List (Fin 8))
  | [], cur, subs => if cur.isEmpty && !subs.isEmpty then subs else subs ++ [cur]
  | y :: ys, cur, subs =>
    if (y == 4 && 1 < s.passes) || (s.gmask s.gcore).testBit (7 - y.val) then
      let subs := if cur.isEmpty then subs else subs ++ [cur]
      s.placeSlots ys [] (subs ++ List.replicate (if y = 4 then s.passes else 1) [y])
    else if cur.any fun z => s.instanceOf z == s.instanceOf y then s.placeSlots ys [y] (subs ++ [cur])
    else s.placeSlots ys (cur ++ [y]) subs

/-- The sub-bundles of the syllables whose guards read 1. -/
def State.splitBundle (s : State) (xs : List Placed) : List (List (Fin 8)) :=
  let on := (xs.filter s.on).map (·.1)
  s.placeSlots (([5, 4, 6, 7, 2, 3, 0, 1] : List (Fin 8)).filter on.contains) [] []

/-- For each slot the sub-bundle it ends in. -/
def slotOffsets (subs : List (List (Fin 8))) : List Nat :=
  (List.finRange 8).map fun k =>
    subs.zipIdx.foldl (fun o x => if x.1.contains k then x.2 else o) 0

/-! ## Before and after -/

/-- The cycle at which a bundle issues (R197, R358). -/
def State.issueCycle (s : State) (h : Word32) : Nat :=
  Nat.max s.core.cycle (Nat.max s.cx.resumeAt (if s.cx.lastIssue = 0 then 0 else s.cx.lastIssue + 1 + waitOf h))

/-- The core's clock reaches the issue cycle, and what is due by then lands. -/
def State.reachCycle (s : State) (c : Nat) : State :=
  let s := if s.core.cycle < c then s.passCycles (c - s.core.cycle) else s
  (s.landDue c s.cx.inflight.length).settle c

/-- The record of the bundle that issues. -/
def State.openBundle (s : State) (h : Word32) (lits : List Word32) (xs : List Placed) : State :=
  { s with issue := {
    stop := stopOf h, nlit := nlitOf h, lits := lits, qp := s.cx.regs.qp, cycle := s.core.cycle,
    split := slotOffsets (s.splitBundle xs), slot := 0, link := s.successor s.cx.regs.pc, jump := none, ended := false,
    trapAfter := none, checked := false, slots := [], committed := false, arrived := false, returned := false, point := false },
           evt := .done }

/-- The sub-bundles of the bundle. -/
def Issue.subs (i : Issue) : Nat := i.split.foldl Nat.max 0 + 1

/-- The pin after control goes to a code address: it ends when control leaves its range (R212, R225). -/
def State.pinAfter (s : State) (pc : Word) : State :=
  match s.cx.regs.pin with
  | some p => if p.suspended || p.holds pc then s else s.endPin
  | none => s

/-- What follows the syllables of a bundle, for which the core's clock counts n cycles more. At a block point the writes of the bundles
before it land (R197, R214). -/
def State.closeBundle (s : State) (pc : Word) (n : Nat) : State :=
  let s := if s.issue.point then s.landOld else s
  let s := { s with cx := { s.cx with part := none, fetched := [], vector := none, walkFault := none } }
  let s := s.mergeFresh
  let x := { s.cx with
    stopCount := (if s.issue.stop || s.issue.returned then 0 else s.cx.stopCount + 1), issued := s.cx.issued + 1,
    exempt := s.cx.exempt && !s.issue.point, lastIssue := s.issue.cycle + s.issue.subs - 1 }
  let s := { s with cx := x }
  let s := (s.passCycles n).modCluster (clusterOf s.cid) fun k => { k with issued := true }
  if s.issue.ended then s.leaveCore
  else
    let s := match s.issue.jump.or s.issue.link with
      | some a =>
        let s := ((s.modRegs fun r => { r with pc := a }).pinAfter a).closeCommit a
        match s.issue.trapAfter with
        | some t => s.take t a
        | none => if s.refillAddr.isSome then s.enqueue (.fetchRefill s.cid) else s
      | none => s.endPin.take (pastEnd pc) pc
    if s.evt.isTrap then s
    else if s.cx.status = .running then
      if s.awaitsReplies then (s.parkOn .remote).leaveCore else s
    else s.landAll.leaveCore

/-- A context that has stopped issuing gives up its core; one that parks for a walk starts it. -/
def State.afterStop (s : State) : State :=
  let s := match s.cx.wait with
    | .walk va _ _ => if s.cx.status = .parked then s.startMiss s.cid va else s
    | _ => s
  if s.cx.status = .running then s else s.leaveCore

/-- A pending remote fault is taken (R40, R408). -/
def State.takePending (s : State) : State :=
  match s.cx.pending with
  | t :: ts => ({ s with cx := { s.cx with pending := ts, status := .running, wait := .none } }).trap t
  | [] => s

/-- A fault held by a save is raised before the first bundle after the restore (R420). -/
def State.takeHeld (s : State) : State :=
  match s.cx.held with
  | t :: ts => ({ s with cx := { s.cx with held := ts } }).raise t
  | [] => s

/-- The context stops for a save at a stop point or block point (R419). -/
def State.stopForSave (s : State) : State :=
  let s := s.landOld
  ({ s with cx := { s.cx with status := .blocked, wait := .bundle } }).enqueue (.contextSaved s.cid)

/-- The bundle blocks: a block point, at which pending faults and saves are taken. -/
def State.atBlock (o : Host.Outcome State Fault Refusal) : Host.Outcome State Fault Refusal :=
  match o with
  | .next s =>
    if s.evt = .block then
      if s.cx.status = .running then .next s
      else if !s.cx.pending.isEmpty then .next s.takePending.afterStop
      else if s.cx.stopReq.isSome then .next s.stopForSave.afterStop
      else .next s.afterStop
    else .next s.afterStop
  | o => o

/-! ## Issue -/

/-- The verdict on the bundle: what stops it before it issues. Each check is made for every present syllable (R207). -/
def State.verdict (s : State) (ws : List (Fin 8 × Except Nat Syl)) : Verdict :=
  let xs := s.slotted (placed ws)
  (s.staticWords ws).or <| (s.checkStacks xs).or <| s.checkSources xs

/-- A BB that a BA makes void: its checks are made all the same (R231). -/
def State.void (s : State) (xs : List Placed) : List Placed := xs.filter fun x => s.on x && x.1 == 1 && s.baEnds xs

/-- What trying the bundle shows (R207, R363): illegal-syllable causes that a source value decides, then the destination clash, then the
other faults, the walks, and the waits that do not follow an arrival of the bundle itself. -/
def State.settleFirst (s : State) (xs : List Placed) : Option (Host.Outcome State Fault Refusal) :=
  let eff := s.effective xs
  let seq := trialRuns eff (runOrder eff) s
  let void := (s.void xs).map fun x => (x, s.alone x)
  let first := fun p => (firstTrial p xs seq).map s.stopAt
  (first fun z => refuses z.2).or <|
  ((firstTrial (fun z => (endOf z.2).isIllegal) xs (seq ++ void)).map s.stopAt).or <|
  match s.checkClash [] (s.slotted xs) with
  | .fault t _ => some (.next (s.trap t))
  | _ =>
    (first fun z => (endOf z.2).isTrap).or <| (first fun z => endOf z.2 == .walk).or <|
      (firstTrial (fun z => endOf z.2 == .block && waitsFirst (s.alone z.1)) xs seq).map fun z => s.alone z.1

/-- The bundle has committed the buffer phase and waits: the checkpoint takes its results, those of the late syllables among them (R63, R64,
R412). -/
def State.closeWaiting (s : State) (all : List Placed) (pc : Word) : State :=
  if s.issue.committed then
    let u := (all.filter (·.2.late)).foldl (fun s x => match s.alone x with
      | .next t => if t.evt = .done then t else s
      | _ => s) { s with evt := .done }
    let regs := { u.landKnown.cx.regs with pc := (u.issue.jump.or s.issue.link).getD pc }
    { s with cx := { s.cx with ckpt := s.cx.ckpt.map fun c => { c with regs := regs } } }
  else s

/-- The bundle's syllables take effect, and what follows. -/
def State.runBundle (s : State) (pc : Word) (all : List Placed) (src : Regs) (again : Bool) (n : Nat) (todo : List Placed) :
    Host.Outcome State Fault Refusal :=
  match runSyls all src again todo s with
  | .next t =>
    match t.evt with
    | .done => .next (t.closeBundle pc n)
    | .block => .next (t.closeWaiting all pc)
    | _ => .next t
  | o => o

/-- The bundle with its checks up to the sources made. -/
def State.checkedOf (s : State) (xs : List Placed) : State :=
  let eff := s.effective xs
  let point := eff.any fun x => x.2.blockPoint && !(s.cx.synced && x.1 == 6)
  { s with issue := { s.issue with checked := true, slots := eff.map Prod.fst, point := point },
           core := { s.core with used := (s.core.cycle, s.usage 0 (s.splitBundle xs)) } }

/-- The checks are made; the bundle issues. -/
def State.issueChecked (s : State) (pc : Word) (xs : List Placed) : Host.Outcome State Fault Refusal :=
  let eff := s.effective xs
  let s := s.checkedOf xs
  match s.settleFirst xs with
  | some o => o
  | none =>
    let s := s.markViol (s.slotted xs)
    s.runBundle pc eff s.cx.regs false s.issue.subs (runOrder eff)

/-! ## Recorded faults before the bundle's own (R408) -/

/-- The operations whose recorded faults a join at the code address `here` can still raise. -/
def State.recorded (s : State) (here : Word) : List Nat :=
  ((s.core.ch.toList.flatten.map Copy.join ++ s.allJoins).filterMap fun (o : JoinOp) => o.fault.map fun _ => o.id) ++
    (s.cx.moves.filterMap fun m => m.fault.map fun _ => m.id) ++
    (s.relayouts.filter fun r => r.fault.isSome && !r.raised.contains (s.cid, here)).map (·.order)

/-- The operation whose recorded fault a syllable raises, and what that leaves. -/
def State.joinFault (s : State) (x : Placed) : Option (Nat × Host.Outcome State Fault Refusal) :=
  let here := s.cx.regs.pc
  match s.alone x with
  | .next t =>
    if t.evt.isTrap then
      ((s.recorded here).filter fun i => !(t.recorded here).contains i).min?.map fun i => (i, .next t)
    else none
  | _ => none

/-- It raises a rollback-class fault. -/
def rollsBack : Host.Outcome State Fault Refusal → Bool
  | .next t => match t.evt with
    | .consumed _ => true
    | _ => false
  | _ => false

/-- The recorded fault that the bundle's joins raise: a rollback-class fault before any other, then the first in the issue order of the
operations (R408). -/
def State.firstJoinFault (s : State) (xs : List Placed) : Option (Host.Outcome State Fault Refusal) :=
  if (s.recorded s.cx.regs.pc).isEmpty then none
  else
    let z := s.checkedOf xs
    let l := (s.effective xs).filterMap z.joinFault
    let l := if l.any fun a => rollsBack a.2 then l.filter fun a => rollsBack a.2 else l
    (l.find? fun a => l.all fun b => a.1 ≤ b.1).map (·.2)

/-- A syllable of the bundle lacks a source, so it waits before its join. -/
def Verdict.waits : Verdict → Bool
  | .block => true
  | .wake => true
  | _ => false

/-- A bundle that waits part-way goes on: its other syllables are done, and its issue cycle stays (R363). -/
def State.resumeBundle (s : State) (p : Part) (xs : List Placed) : Host.Outcome State Fault Refusal :=
  let s := if s.cx.wait = .bundle then s.catchUp else s
  let s := { s with issue := { p.issue with point := p.issue.point && !s.cx.synced }, cx := { s.cx with wait := .none }, evt := .done }
  let all := xs.filter fun x => p.issue.slots.contains x.1
  s.runBundle p.pc all p.src true 1 ((runOrder all).filter fun x => p.todo.contains x.1)

/-- A bundle that comes to issue: what is due at its point, then its checks (R408). -/
def State.issueFresh (s : State) (pc : Word) (h : Word32) (ds : List (Fin 8 × Except Nat Syl)) : Host.Outcome State Fault Refusal :=
  let join := if (s.verdict ds).waits then none else s.firstJoinFault (placed ds)
  if !s.cx.held.isEmpty then .next s.takeHeld.afterStop
  else if let some o := join.filter rollsBack then State.atBlock o
  else if s.isPoint h (placed ds) && !s.cx.pending.isEmpty then .next s.takePending.afterStop
  else if let some o := join then State.atBlock o
  else if s.isPoint h (placed ds) && s.cx.stopReq.isSome then .next s.stopForSave.afterStop
  else if stopOf h && s.quantumDue then .next s.endQuantum
  else if !stopOf h && 63 ≤ s.cx.stopCount then .next s.stopFault
  else if badHeader h then .next (s.trap ⟨0x01, pc, bundleInfo 0 0 true 0x03⟩).afterStop
  else
    match s.verdict ds with
    | .fault t _ => State.atBlock (.next (s.trap t))
    | .block => State.atBlock (.next s.blockBundle)
    | .wake => State.atBlock (.next s.wakeBank)
    | .walk va wr => State.atBlock (.next (s.parkSpill va wr))
    | .go => State.atBlock (s.issueChecked pc (placed ds))

/-- The bundle at the program counter, its header and words known. What comes due before the cycle at which it issues is done first. -/
def State.issueWords (s : State) (pc : Word) (h : Word32) (ws : List Word32) : Host.Outcome State Fault Refusal :=
  let (ds, lits) := decodeWords h ws
  let x := s.reachCycle (s.issueCycle h)
  if x.agenda ≠ s.agenda then .next x
  else
    let x := { x with cx := x.cx.findMarks pc }
    match x.cx.part.filter (·.pc == pc) with
    | some p => State.atBlock (x.resumeBundle p (placed ds))
    | none => (x.openBundle h lits (placed ds)).issueFresh pc h ds

/-- A fault at a bundle whose words cannot be had; one at a vector is fatal (R409). -/
def State.fetchFault (s : State) (t : Trap) : State :=
  match s.cx.vector with
  | some code => s.fatal code
  | none => s.raise t

/-- A peer has refused the code that a context needs next: its pending fault is taken, a fatal one where the code is a vector's (R40, R409). -/
def State.takeRefusal (s : State) : State :=
  match s.cx.vector with
  | some code => s.fatal code
  | none => s.takePending

/-- The RUNNING context issues its next bundle. -/
def State.issueNext (s : State) : Host.Outcome State Fault Refusal :=
  let s := { s with evt := .done }
  let pc := s.cx.regs.pc
  match s.goTo pc with
  | .error t =>
    if !s.cx.pending.isEmpty then .next s.takeRefusal.afterStop
    else
      match t.evt with
      | .hub _ va => .next { t.parkOn (.walk va false false) with evt := .walk }.afterStop
      | _ => .next (t.parkOn .remote).afterStop
  | .ok s =>
    match s.lineAtPc pc with
    | .error t => .next (s.fetchFault t).afterStop
    | .ok (h, ws) => s.issueWords pc h ws

end Sys2Proof.Machine
end

