-- ==== Sys2Proof/Machine/Choose.lean ====
section
/-! DEFINITION. What the device does next. Events that are due come first. Then, of everything that can go on, what lies earliest in
time: a core with a RUNNING context or a routine, a core with a READY context, a result to land, a wait that is over, a blocked
context that would no longer block. The spec leaves the order among cores open (R46): this order is one of those it allows. -/

namespace Sys2Proof.Machine

/-- One thing the device can do: an event of the agenda, or one that an engine's own state calls for. -/
inductive Action where
  | boot | event (e : Event) | engine (g : Option Nat) (e : Event) | microOp (g : Nat) | issue (c : Nat) | switch (g : Nat)
  | land (c k : Nat) | retry (c : Nat) | expire (c : Nat) | idle
  deriving DecidableEq, Repr

/-- The power state (R395, R396): 0 RUN, 3 OFF. -/
def State.powerState (s : State) : Nat := field s.pwr.pwrstat 45 2

/-- Core g runs: the device is in RUN and its cluster's clock is not stopped. -/
def State.clocked (s : State) (g : Nat) : Bool :=
  s.powerState == 0 && field s.mgmt.bootstat 62 2 == 2 && !(s.clusterAt (g / 96)).stopped

/-- The bundle of a blocked context would not block again. -/
def State.wouldGo (s : State) (c : Nat) : Bool :=
  match (s.focus c).issueNext with
  | .next t => !(t.evt == .block)
  | _ => true

/-- The machine did something: it did not wait. -/
def went (o : Host.Outcome State Fault Refusal) : Bool :=
  match o with
  | .next t => !(t.evt == .stall || t.evt.isHub)
  | _ => true

/-- A micro-op of the routine of core g (R289); an invalid microword stops it. -/
def State.microStep (s : State) (g : Nat) : Host.Outcome State Fault Refusal :=
  let s := s.focus (4 * g)
  match s.core.mx.routine with
  | some r =>
    match decodeMicro (look 0 r.addr s.core.mx.store).toNat with
    | some m => execMicro m s
    | none => s.badMicroword
  | none => .next { s with evt := .stall }

/-- What a copy channel of core g can do (R323, R324). -/
def State.channelEvent (s : State) (g : Nat) (c : Fin 4) : Option Event :=
  match ((s.coreAt g).ch[c]).find? fun y => !y.finished with
  | none => none
  | some y =>
    if y.over then (if s.engAwaits y.id then none else some (.copyComplete g c))
    else if went (execCopyExecute g c PeerView.none s) then some (.copyExecute g c PeerView.none)
    else none

/-- The event that performs a matrix operation. -/
def matrixEvent (g : Nat) (k : MKind) : Event :=
  match k with
  | .routine _ _ => .routineStart g
  | .scale _ _ => .scalePerform g
  | .fix _ _ _ => .scalePerform g
  | .drain _ => .mdrainPerform g
  | .clr _ _ => .mclrPerform g
  | .mov _ _ => .mmovPerform g
  | _ => .vaccRdPerform g

/-- What the engines of core g can do: a run of a copy, an operation on planes, a micro-op, in this order. -/
def State.engineAction (s : State) (g : Nat) : Option Action :=
  match (List.finRange 4).findSome? (s.channelEvent g) with
  | some e => some (.engine (some g) e)
  | none =>
    match (s.coreAt g).mx.pick fun _ => true with
    | some o => some (.engine (some g) (matrixEvent g o.kind))
    | none => if (s.coreAt g).mx.routine.isSome && went (s.microStep g) then some (.microOp g) else none

/-- What context c of a clocked core can do, with the time it lies at. -/
def State.ctxActions (s : State) (c : Nat) : List (Nat × Action) :=
  let x := s.ctx c
  let k := s.coreAt (c / 4)
  match x.status, x.wait with
  | .blocked, .time t => if t ≤ s.now then [(k.tick, .expire c)] else []
  | .blocked, .saved d => if (s.ctx d).status == .free || (s.ctx d).status == .saved then [(k.tick, .retry c)] else []
  | .blocked, .acks => if s.remotes.any fun r => r.ctx == c && r.write && r.eng.isNone then [] else [(k.tick, .retry c)]
  | .blocked, .bundle =>
    match x.inflight.findIdx? fun f => f.land.isNone && f.ready with
    | some i => [(Nat.max k.tick (s.tickOf (c / 4) ((x.inflight[i]?.map (·.due)).getD 0)), .land c i)]
    | none => if x.stopReq.isNone && s.wouldGo c then [(k.tick, .retry c)] else []
  | _, _ => []

/-- The time at which the RUNNING context c issues its next bundle, and whether that bundle drives the broadcast bus: drivers come
before latchers of the same cycle (R333). -/
def State.issueTime (s : State) (c : Nat) : Nat × Bool :=
  let t := s.focus c
  match t.lineAtPc t.cx.regs.pc with
  | .ok (h, ws) =>
    let drives := (placed (decodeWords h ws).1).any fun x => match x.2 with
      | .eng (.bcDrv _ _ _ _) => true
      | _ => false
    (Nat.max t.core.tick (t.tickOf t.gcore (t.issueCycle h)), drives)
  | .error _ => (t.core.tick, false)

/-- What the contexts of core g can do on the core. -/
def State.ownAction (s : State) (g : Nat) : Option Action :=
  let k := s.coreAt g
  let ctx := match k.running with
    | some i => if (s.ctx (4 * g + i.val)).wait ≠ .bundle ∨ s.wouldGo (4 * g + i.val) then some (.issue (4 * g + i.val)) else none
    | none => if (s.nextReady g).isSome then some (.switch g) else none
  let eng := s.engineAction g
  if k.engineTurn then eng.or ctx else ctx.or eng

/-- The time of an action, in half units: of two at one time a bus driver comes first. -/
def State.ownActions (s : State) (g : Nat) : List (Nat × Action) :=
  match s.ownAction g with
  | some (.issue c) => let (t, drives) := s.issueTime c; [(2 * t + (if drives then 0 else 1), .issue c)]
  | some (.microOp h) =>
    let a := if (s.coreAt g).engineTurn && (s.coreAt g).running.isSome then 0 else 1
    [(2 * (s.coreAt g).tick + a, .microOp h)]
  | some a => [(2 * (s.coreAt g).tick + 1, a)]
  | none => []

/-- What core g can do. -/
def State.coreActions (s : State) (g : Nat) : List (Nat × Action) :=
  if !s.clocked g then []
  else
    ((List.range 4).flatMap fun i => (s.ctxActions (4 * g + i)).map fun a => (2 * a.1 + 1, a.2)) ++ s.ownActions g

/-- The cores the state knows of, in order. -/
def State.knownCores (s : State) : List Nat :=
  let fromCtxs : List Nat := s.ctxs.map fun (e : Nat × Ctx) => e.1 / 4
  (s.gcore :: (s.cores.map Prod.fst ++ fromCtxs)).foldl (fun l g => insertNat g l) []

/-- Dies with a conversion to go on with (R86). -/
def State.dieActions (s : State) : List (Nat × Action) :=
  if s.powerState != 0 then []
  else s.relayouts.filterMap fun r =>
    if s.canConvert r && went (execRelayoutTile r.die PeerView.none s) then some (0, .engine none (.relayoutTile r.die PeerView.none))
    else none

/-- What the pool and the die dispatchers can do (R157 to R164). -/
def State.poolActions (s : State) : List Event :=
  let aged : Bool := match s.pool.graph with
    | some g => s.pool.waiting.any fun i => decide (i.aged s.now (((g.nodes[i.node]?).map (·.prio)).getD i.prio) ≠ i)
    | none => false
  (if aged then [Event.priorityAging] else []) ++ (if went (execPoolPlace s) then [Event.poolPlace] else []) ++
    ((s.dies.filter fun (e : Nat × Die) => !e.2.queue.isEmpty && went (execDieDispatch e.1 s)).map fun (e : Nat × Die) =>
      Event.dieDispatch e.1)

/-- Messages to land (R344), and collectives whose members have met, or of which this device is the only member (R348). -/
def State.receiveActions (s : State) : List Event :=
  ((s.fab.posted.filter fun p => p.msg.isSome && !p.landed && went (execLandingComplete p.entry s)).map fun p =>
    Event.landingComplete p.entry) ++
  (s.fab.fops.filterMap fun o =>
    match o.kind.ringOf with
    | some r =>
      let alone := ((s.ring r).map (·.members.length)) == some 1
      if !o.complete && (o.met.isSome || alone) && went (execCollectiveExecute r [] false s) then some (.collectiveExecute r [] false)
      else none
    | none => none)

/-- What a save or a vacate in progress can do (R419, R426). -/
def State.manageActions (s : State) : List Event :=
  (s.knownCtxs.filterMap fun c => if s.saveReady c then some (.contextSaved c) else none) ++
    (if s.knownCtxs.any s.saveLate then [.saveRoutineTimeout] else []) ++ (if s.vacateLate then [.vacateBudgetTimeout] else [])

/-- What the device's engines can do: the receive engine works in IDLE-READY too, the pool in RUN alone (R396). -/
def State.deviceActions (s : State) : List (Nat × Action) :=
  let runs := fun (states : Nat) (l : List Event) => if s.powerState < states then l else []
  (runs 3 s.manageActions ++ runs 1 s.poolActions ++ runs 2 s.receiveActions).map fun e => (0, .engine none e)

/-- The first of the earliest actions. -/
def earliest : List (Nat × Action) → Option (Nat × Action)
  | [] => none
  | a :: l =>
    match earliest l with
    | some b => if b.1 < a.1 then some b else some a
    | none => some a

/-- What happens next. -/
def State.nextAction (s : State) : Action :=
  match s.agenda with
  | e :: _ => .event e
  | [] =>
    if field s.mgmt.bootstat 62 2 = 0 then .boot
    else
      match earliest (s.deviceActions ++ s.dieActions ++ s.knownCores.flatMap s.coreActions) with
      | some a => a.2
      | none => .idle

/-- An engine of core g has had its turn; with no context RUNNING a cycle passes. -/
def State.endTurn (s : State) (g : Nat) : State :=
  let s := s.focus (4 * g)
  let s := { s with core := { s.core with engineTurn := false } }
  if s.core.running.isNone then s.passCycles 1 else s

def endEngine (g : Nat) (o : Host.Outcome State Fault Refusal) : Host.Outcome State Fault Refusal :=
  match o with
  | .next t => .next (t.endTurn g)
  | o => o

/-- The RUNNING context c issues, and the turn passes to the core's engines. -/
def State.issueStep (s : State) (c : Nat) : Host.Outcome State Fault Refusal :=
  match (s.focus c).issueNext with
  | .next t => .next (t.modCore (c / 4) fun k => { k with engineTurn := true })
  | o => o

/-- The time of the time base's next multiple of n ns. -/
def State.nextTime (s : State) (n : Nat) : Nat := s.whenBase ((s.base / (n * 378) + 1) * (n * 378))

/-- The first deadline of a `park.t` before time t, or t. -/
def State.deadline (s : State) (t : Nat) : Nat :=
  s.knownCtxs.foldl (fun m c =>
    match (s.ctx c).wait with
    | .time d => if s.base < 378 * d then Nat.min m (s.whenBase (378 * d)) else m
    | _ => m) t

/-- Nothing can go on: the time base runs to the next rotor slot, toll boundary or deadline. -/
def State.idleStep (s : State) : State := s.reachTime (s.deadline (Nat.min (s.nextTime 128) (s.nextTime 4000)))

/-- Does one thing. -/
def State.perform1 (s : State) (a : Action) : Host.Outcome State Fault Refusal :=
  match a with
  | .boot => execEvent (.powerOn .pass) s
  | .event e => execEvent e { s with agenda := s.agenda.drop 1 }
  | .engine (some g) e => endEngine g (execEvent e s)
  | .engine none e => execEvent e s
  | .microOp g => endEngine g (s.microStep g)
  | .issue c => s.issueStep c
  | .switch g => execEvent (.contextSwitch g) s
  | .land c k => execEvent (.resultLand c k) s
  | .retry c => execEvent (.blockCleared c) s
  | .expire c => execEvent (.parkTExpiry c) s
  | .idle => .next s.idleStep

/-- An event that needs no power: the power comes back, and the host port, the management buses and the mailbox stay up in every state
(R396). -/
def needsNoPower (e : Event) : Bool :=
  match e with
  | .powerOn _ => true
  | .fruRead _ _ => true
  | .hostBarAccess _ => true
  | .registerWrite _ _ _ => true
  | .mailboxWrite _ _ => true
  | .devnumWrite _ => true
  | .pcieLinkTraining _ => true
  | _ => false

/-- A step in OFF (R396): the other events of the agenda find a dark device and are lost. -/
def State.stepOff (s : State) : Host.Outcome State Fault Refusal :=
  match s.agenda with
  | [] => .fault .poweredOff
  | e :: l => if needsNoPower e then s.perform1 (.event e) else .next { s with agenda := l }

end Sys2Proof.Machine
end

