-- ==== Sys2Proof/Machine/Place.lean ====
section
/-! DEFINITION. How a single instruction is put where the machine takes its next one: a syllable as the only one of a stop-flagged
bundle in the die store, in a segment that holds this bundle alone and names itself as its successor, for a system context that is
RUNNING with translation disabled; a microword as the next one of a running routine. -/

namespace Sys2Proof.Machine

/-- The word is that of an instruction that only an S-core has (R220). -/
def needsSCore (slot : Fin 8) (w : Nat) : Bool :=
  let op := w / 2 ^ 20 % 256
  (slot == 7 && 3 ≤ op && op ≤ 8) || (slot == 4 && 0x37 ≤ op && op ≤ 0x3A)

/-- The segment of one stop-flagged bundle with one syllable, at the start of die store 0; it names itself as the next segment. -/
def oneBundle (slot : Fin 8) (w : Nat) : List Byte :=
  bytesOf 8 (dieStore 0) ++ List.replicate 8 0 ++ bytesOf 4 (2 ^ 31 + 2 ^ (27 - slot.val)) ++ bytesOf 4 w

/-- The context c, RUNNING at system privilege with its program counter at an address. -/
def State.seat (s : State) (c : Nat) (pc : Word) : State :=
  let s := s.focus c
  let x := { s.cx with status := .running, wait := .none, estat := s.cx.estat ||| 1, regs := { s.cx.regs with pc := pc },
                       half0 := none, half1 := none }
  { s with cx := x, core := { s.core with running := some (Fin.ofNat 4 c) } }

/-- The device has passed its self-test and translation is disabled; nothing else is due. -/
def State.booted (s : State) : State :=
  { s with mgmt := { s.mgmt with bootstat := setField s.mgmt.bootstat 62 2 2 },
           regs := { s.regs with ptroot := 0 }, agenda := [] }

/-- The microword at word 0 of the store of core 0, whose routine executes it next. -/
def State.placeMicro (s : State) (w : Nat) : State :=
  let s := s.booted.focus 0
  let r : Routine := ⟨0, 0, 0, false, s.cx.regs.a, Vector.replicate 4 0, 0, none, 0, 0, 0, false,
    Vector.replicate 64 0, Vector.replicate 64 0⟩
  let mx := { s.core.mx with store := put 0 (word w) s.core.mx.store, routine := some r }
  { s with core := { s.core with mx := mx, engineTurn := true } }

/-- The syllable in a segment at the start of die store 0. -/
def State.placeSyllable (s : State) (w : Nat) : State :=
  let slot := slotOfWord w
  let s := s.booted.seat (if needsSCore slot w then 336 else 0) (word (dieStore 0))
  { s with mem := { s.mem with cells := Cells.setAll (dieStore 0) (oneBundle slot w) s.mem.cells } }

def State.placeWord (s : State) (nbits w : Nat) : State :=
  if nbits ≤ 32 then s.placeSyllable (w % 2 ^ 32) else s.placeMicro (w % 2 ^ 64)

end Sys2Proof.Machine
end

