-- ==== Sys2Proof/Machine/Step.lean ====
section
/-! DEFINITION. One step of the device, and an instruction put where the next step fetches. -/

namespace Sys2Proof.Machine

/-- One step: what the device does next. In power state OFF nothing runs (R396), until an event of the agenda brings the power back. -/
def step (s : State) : Host.Outcome State Fault Refusal :=
  if s.powerState = 3 then s.stepOff else s.perform1 s.nextAction

/-- The state with the instruction of a word where `step` takes its next instruction. -/
def State.withFetchWord (s : State) (nbits w : Nat) : State := s.placeWord nbits w

end Sys2Proof.Machine
end

