-- ==== Sys2Proof/Safety.lean ====
section
/-! DEFINITION. What a safe run is, and the terms the claims use: when a syllable issues, from which state its effect starts, and
what a read of one byte of memory gives. -/

namespace Sys2Proof

open Sys2Proof.Machine

/-- A step that goes on. -/
def Safe.step (s : State) : Prop := ∃ t, Machine.step s = .next t

/-- The state is one the model's own data rules allow: memory in canonical form. -/
def Safe.state (s : State) : Bool := s.mem.wf

/-- n steps from a state all go on. -/
def Safe.run : Nat → State → Prop
  | 0, _ => True
  | n + 1, s => ∃ t, Machine.step s = .next t ∧ Safe.run n t

/-- The state with no syllable's end recorded. -/
def Machine.State.idle (s : State) : State := { s with evt := .done }

/-- Syllable i issues in s (R201, R207): its guard reads 1, and either the checks of its bundle have been made or no check finds
anything against it by itself. -/
def Issues (i : Instr) (s : State) : Prop :=
  s.readP (Instr.info s i).guard = true ∧
    (s.issue.checked = true ∨ s.idle.checks [(s.issue.slot, Instr.info s i)] = .go)

/-- The state from which the effect of syllable i starts: VIOL records a read of a previous value (R198). -/
def Machine.State.begun (s : State) (i : Instr) : State :=
  if s.issue.checked then s.idle else s.idle.markViol [(s.issue.slot, Instr.info s i)]

/-- The byte stored at local address a. -/
def Machine.State.byteAt (s : State) (a : Nat) : Byte := Cells.get a s.mem.cells

end Sys2Proof
end

