-- ==== Sys2Proof/Results.lean ====
section
/-! DEFINITION. What the rules give as the results of instructions that only compute: one table for each kind of destination. The
statements say that `exec` writes these and nothing else. -/

namespace Sys2Proof

open Sys2Proof.Machine

/-! ## Scalar results (R232 to R238, R249 to R255, R266, R267) -/

/-- The latency, destination and value of an instruction that writes one 64-bit scalar. -/
noncomputable def scalarResult (s : State) : Instr → Option (Machine.Lat × Dst × Word)
  | .add _ d a b _ _ => some (.s1, d, s.readSrc a + s.readSrc b)
  | .sub _ d a b _ _ => some (.s1, d, s.readSrc a - s.readSrc b)
  | .mul _ d a b _ _ => some (.s3, d, s.readSrc a * s.readSrc b)
  | .mulh _ d a b _ _ => some (.s3, d, mulHigh (s.readSrc a) (s.readSrc b))
  | .mulhu _ d a b _ _ => some (.s3, d, mulHighU (s.readSrc a) (s.readSrc b))
  | .and _ d a b _ _ => some (.s1, d, s.readSrc a &&& s.readSrc b)
  | .or _ d a b _ _ => some (.s1, d, s.readSrc a ||| s.readSrc b)
  | .xor _ d a b _ _ => some (.s1, d, s.readSrc a ^^^ s.readSrc b)
  | .andn _ d a b _ _ => some (.s1, d, s.readSrc a &&& ~~~ s.readSrc b)
  | .shl _ d a b _ _ => some (.s1, d, s.readSrc a <<< ((s.readSrc b).toNat % 64))
  | .shr _ d a b _ _ => some (.s1, d, s.readSrc a >>> ((s.readSrc b).toNat % 64))
  | .sra _ d a b _ _ => some (.s1, d, (s.readSrc a).sshiftRight ((s.readSrc b).toNat % 64))
  | .rotl _ d a b _ _ => some (.s1, d, rotl (s.readSrc a) (s.readSrc b))
  | .min _ d a b _ _ => some (.s1, d, if (s.readSrc a).toInt < (s.readSrc b).toInt then s.readSrc a else s.readSrc b)
  | .max _ d a b _ _ => some (.s1, d, if (s.readSrc a).toInt < (s.readSrc b).toInt then s.readSrc b else s.readSrc a)
  | .minu _ d a b _ _ => some (.s1, d, if (s.readSrc a).toNat < (s.readSrc b).toNat then s.readSrc a else s.readSrc b)
  | .maxu _ d a b _ _ => some (.s1, d, if (s.readSrc a).toNat < (s.readSrc b).toNat then s.readSrc b else s.readSrc a)
  | .addi _ d a _ i => some (.s1, d, s.readSrc a + s.imm i)
  | .andi _ d a _ i => some (.s1, d, s.readSrc a &&& s.imm i)
  | .ori _ d a _ i => some (.s1, d, s.readSrc a ||| s.imm i)
  | .xori _ d a _ i => some (.s1, d, s.readSrc a ^^^ s.imm i)
  | .shli _ d a _ i => some (.s1, d, s.readSrc a <<< ((s.imm i).toNat % 64))
  | .shri _ d a _ i => some (.s1, d, s.readSrc a >>> ((s.imm i).toNat % 64))
  | .srai _ d a _ i => some (.s1, d, (s.readSrc a).sshiftRight ((s.imm i).toNat % 64))
  | .movi _ d i => some (.s1, d, s.imm i)
  | .movhi _ d a _ i => some (.s1, d, (s.imm i <<< 32) ||| (s.readSrc a &&& 0xFFFFFFFF))
  | .clz _ d a _ => some (.s1, d, word (leadingZeros 64 (s.readSrc a).toNat))
  | .ctz _ d a _ => some (.s1, d, word (trailingZeros 64 (s.readSrc a).toNat))
  | .popc _ d a _ => some (.s1, d, word (setBits 64 (s.readSrc a).toNat))
  | .bfx _ d a b _ _ x => some (.s1, d, bfx (s.readSrc a) (s.readSrc b) x)
  | .bfi _ d a b _ _ => some (.s1, d, bfi (s.oldDst d) (s.readSrc a) (s.readSrc b))
  | .sext _ d a _ x => some (.s1, d, sextTo x (s.readSrc a))
  | .sel _ d a b _ _ x => some (.s1, d, if s.readP (evenP x) then s.readSrc a else s.readSrc b)
  | .lea _ d a b _ _ x => some (.s1, d, s.readSrc a + (s.readSrc b <<< x.val))
  | .mova _ d k => some (.s1, d, s.readA k)
  | .sysrd _ d n => some (.s1, d, s.readSys n)
  | .time _ d => some (.s1, d, word s.now)
  | .energy _ d => some (.s1, d, s.cx.energy + BitVec.ofNat 64 (s.accrued s.gcore / 96))
  | .cycle _ d => some (.s1, d, word s.core.cycle)
  | .crc _ d a b _ _ x => some (.s3, d, crc (s.readSrc a) (s.readSrc b) (2 ^ x.val))
  | .lvlIdx _ d k =>
    match s.cx.inst, s.pool.graph with
    | some i, some _ => some (.s1, d, word (i.levels.getD k.val 0))
    | _, _ => none
  | .lvlCnt _ d k =>
    match s.cx.inst, s.pool.graph with
    | some _, some gr => some (.s1, d, word (((gr.levels[k.val]?).map (·.fanout)).getD 0))
    | _, _ => none
  | .vext _ d a b _ _ t =>
    some (.v2, .s d, extendElem t (seqElem (XTy.width t) (s.readV a) ((s.readS b).toNat % elemCount (XTy.width t))))
  | .vrmaxi _ d a m _ t =>
    some (.long, .s d, ((greatestIndex t (s.readM m) (s.readV a)).map word).getD (BitVec.allOnes 64))
  | .vrpop _ d m => some (.v2, .s d, word (elemSetBits 64 (s.readM m).toNat))
  | .msetRd _ d a => some (.v2, .s d, s.readM a)
  | _ => none

/-- The predicate pair and the value of an instruction that writes one (R235, R237). -/
def pairResult (s : State) : Instr → Option (Fin 8 × Bool)
  | .cmpEq _ p a b _ _ => some (p, s.readSrc a == s.readSrc b)
  | .cmpNe _ p a b _ _ => some (p, s.readSrc a != s.readSrc b)
  | .cmpLt _ p a b _ _ => some (p, decide ((s.readSrc a).toInt < (s.readSrc b).toInt))
  | .cmpGe _ p a b _ _ => some (p, decide ((s.readSrc b).toInt ≤ (s.readSrc a).toInt))
  | .cmpLtu _ p a b _ _ => some (p, decide ((s.readSrc a).toNat < (s.readSrc b).toNat))
  | .cmpGeu _ p a b _ _ => some (p, decide ((s.readSrc b).toNat ≤ (s.readSrc a).toNat))
  | .cmpiEq _ p a _ i => some (p, s.readSrc a == s.imm i)
  | .cmpiLt _ p a _ i => some (p, decide ((s.readSrc a).toInt < (s.imm i).toInt))
  | .cmpiLtu _ p a _ i => some (p, decide ((s.readSrc a).toNat < (s.imm i).toNat))
  | .pand _ p a b n => some (p, s.readP a && (s.readP b ^^ n))
  | .por _ p a b n => some (p, s.readP a || (s.readP b ^^ n))
  | .pxor _ p a b n => some (p, s.readP a ^^ (s.readP b ^^ n))
  | _ => none

/-- The destination, divisor and value of a quotient or remainder (R233): truncated toward zero. -/
def quotient (s : State) : Instr → Option (Dst × Src × Word)
  | .div _ d a b _ _ => some (d, b, BitVec.ofInt 64 ((s.readSrc a).toInt.tdiv (s.readSrc b).toInt))
  | .divu _ d a b _ _ => some (d, b, BitVec.ofNat 64 ((s.readSrc a).toNat / (s.readSrc b).toNat))
  | .rem _ d a b _ _ => some (d, b, BitVec.ofInt 64 ((s.readSrc a).toInt.tmod (s.readSrc b).toInt))
  | .remu _ d a b _ _ => some (d, b, BitVec.ofNat 64 ((s.readSrc a).toNat % (s.readSrc b).toNat))
  | _ => none

/-! ## Vector results (R257 to R274) -/

/-- The elements of width w of lane l of a vector that holds, element by element, f of the elements of va and vb; no flags. -/
def elementwise (w : Nat) (f : Nat → Nat → Nat) (a b : VReg) (l : Nat) : Word32 × FFlags :=
  lift2 w (fun x y => (f x y, 0)) a b l

/-- The latency, destination, lanes and flags of an instruction that writes one vector register. -/
def vecResult (s : State) : Instr → Option (Machine.Lat × Fin 16 × VReg × FFlags)
  | .vfadd _ d a b m _ _ t => some (.v4, d, float2 t d a b m fpAdd)
  | .vfsub _ d a b m _ _ t => some (.v4, d, float2 t d a b m fpSub)
  | .vfmul _ d a b m _ _ t => some (.v4, d, float2 t d a b m fpMul)
  | .vfma _ d a b m _ _ t => some (.v4, d, float3 t d a b m false false)
  | .vfms _ d a b m _ _ t => some (.v4, d, float3 t d a b m false true)
  | .vfnma _ d a b m _ _ t => some (.v4, d, float3 t d a b m true false)
  | .vfmin _ d a b m _ _ t => some (.v4, d, float2 t d a b m fpMin)
  | .vfmax _ d a b m _ _ t => some (.v4, d, float2 t d a b m fpMax)
  | .vfabs _ d a m _ t => some (.v2, d, float1 t d a m fun f _ => fpAbs f)
  | .vfneg _ d a m _ t => some (.v2, d, float1 t d a m fun f _ => fpNeg f)
  | .vfcpys _ d a b m _ _ t => some (.v2, d, float2 t d a b m fun f _ => fpCopySign f)
  | .vfrnd _ d a m _ t => some (.v4, d, float1 t d a m fpRound)
  | .vfexp _ d a m _ t => some (.v4, d, float1 t d a m fpExponent)
  | .vscl _ d a b m _ _ t => some (.v4, d, float2 t d a b m fpScale)
  | .vrcp _ d a m _ t => some (s.slowLat, d, float1 t d a m fun f r x => f.rcp r (f.decode x))
  | .vrsq _ d a m _ t => some (s.slowLat, d, float1 t d a m fun f r x => f.rsq r (f.decode x))
  | .vsqrt _ d a m _ t => some (s.slowLat, d, float1 t d a m fun f r x => f.sqrt r (f.decode x))
  | .vexp2 _ d a m _ t => some (s.slowLat, d, float1 t d a m fun f r x => f.exp2 r (f.decode x))
  | .vlog2 _ d a m _ t => some (s.slowLat, d, float1 t d a m fun f r x => f.log2 r (f.decode x))
  | .vtanh _ d a m _ t => some (s.slowLat, d, float1 t d a m fun f r x => f.tanh r (f.decode x))
  | .vsig _ d a m _ t => some (s.slowLat, d, float1 t d a m fun f r x => f.sig r (f.decode x))
  | .vdiv _ d a b m _ _ t => some (s.slowLat, d, float2 t d a b m fun f r x y => f.div r (f.decode x) (f.decode y))
  | .vadd _ d a b m _ _ t => some (.v2, d, int2 t d a b m fun x y => (x + y) % 2 ^ ITy.width t)
  | .vsub _ d a b m _ _ t => some (.v2, d, int2 t d a b m fun x y => (x + 2 ^ ITy.width t - y) % 2 ^ ITy.width t)
  | .vmul _ d a b m _ _ t => some (.v2, d, int2 t d a b m fun x y => x * y % 2 ^ ITy.width t)
  | .vmulh _ d a b m _ _ t => some (.v4, d, int2 t d a b m (intMulHigh (ITy.width t) (ITy.isSigned t)))
  | .vmin _ d a b m _ _ t => some (.v2, d, int2 t d a b m (intMin (ITy.width t) (ITy.isSigned t)))
  | .vmax _ d a b m _ _ t => some (.v2, d, int2 t d a b m (intMax (ITy.width t) (ITy.isSigned t)))
  | .vminu _ d a b m _ _ t => some (.v2, d, int2 t d a b m Nat.min)
  | .vmaxu _ d a b m _ _ t => some (.v2, d, int2 t d a b m Nat.max)
  | .vshl _ d a b m _ _ t => some (.v2, d, int2 t d a b m (intShl (ITy.width t)))
  | .vshr _ d a b m _ _ t => some (.v2, d, int2 t d a b m (intShr (ITy.width t)))
  | .vsra _ d a b m _ _ t => some (.v2, d, int2 t d a b m (intSra (ITy.width t) (ITy.isSigned t)))
  | .vabs _ d a m _ t => some (.v2, d, int1 t d a m (intAbs (ITy.width t) (ITy.isSigned t)))
  | .vclz _ d a m _ t => some (.v2, d, int1 t d a m (elemLeadingZeros (ITy.width t)))
  | .vpopc _ d a m _ t => some (.v2, d, int1 t d a m (elemSetBits (ITy.width t)))
  | .vbfx _ d a b m _ _ t => some (.v2, d, int1 t d a m fun x => elemField (ITy.width t) (ITy.isSigned t) x (s.readS b))
  | .vand _ d a b m _ _ => some (.v2, d, bits d m fun l => at_ (s.readV a) l 0 &&& at_ (s.readV b) l 0)
  | .vor _ d a b m _ _ => some (.v2, d, bits d m fun l => at_ (s.readV a) l 0 ||| at_ (s.readV b) l 0)
  | .vxor _ d a b m _ _ => some (.v2, d, bits d m fun l => at_ (s.readV a) l 0 ^^^ at_ (s.readV b) l 0)
  | .vclamp _ d a b m _ _ t =>
    match XTy.fmt t with
    | some f => some (.v4, d, mapLanes (s.readM m) (s.readV d) (lift2 (XTy.width t) (fpClamp f s.rounding) (s.readV a) (s.readV b)))
    | none => some (.v2, d, mapLanes (s.readM m) (s.readV d)
        (elementwise (XTy.width t) (intClamp (XTy.width t) (XTy.isSigned t)) (s.readV a) (s.readV b)))
  | .vmov _ d a m _ => some (.v2, d, bits d m fun l => at_ (s.readV a) l 0)
  | .vsel _ d a b m _ _ => some (.v2, d, mapLanes (s.readM m) (s.readV b) fun l => (at_ (s.readV a) l 0, 0))
  | .vperm _ d a b m _ _ => some (.v2, d, bits d m fun l => at_ (s.readV a) ((at_ (s.readV b) l 0).toNat % 64) 0)
  | .vrot _ d a b m _ _ => some (.v2, d, bits d m fun l => at_ (s.readV a) ((l + (s.readS b).toNat % 64) % 64) 0)
  | .vidx _ d a b m _ _ => some (.v2, d, bits d m fun l => BitVec.ofNat 32 ((s.readS a).toNat + l * (s.readS b).toNat))
  | .vexpand _ d a m _ _ => some (.v2, d, bits d m fun l => at_ (s.readV a) ((activeLanes (s.readM m)).idxOf l) 0)
  | .vcompress _ d a m _ _ =>
    some (.v2, d, (gen 64 fun l => (((activeLanes (s.readM m))[l]?).map fun i => at_ (s.readV a) i 0).getD 0), 0)
  | .vsplat _ d a m _ t => some (.v2, d, elems (XTy.width t) d m fun _ => (s.readS a).toNat % 2 ^ XTy.width t)
  | .vins _ d a b m _ _ t => some (.v2, d, elems (XTy.width t) d m fun k =>
      if k = (s.readS b).toNat % elemCount (XTy.width t) then (s.readS a).toNat % 2 ^ XTy.width t
      else seqElem (XTy.width t) (s.readV d) k)
  | .vlut _ d a b m _ _ t => some (.v2, d, elems (if t then 16 else 8) d m fun k =>
      seqElem (if t then 16 else 8) (s.readV b) (seqElem (if t then 16 else 8) (s.readV a) k % elemCount (if t then 16 else 8)))
  | .vrev _ d a m _ t => some (.v2, d, elems (XTy.width t) d m fun k =>
      seqElem (XTy.width t) (s.readV a) (elemCount (XTy.width t) - 1 - k))
  | .vbcast _ d a b m _ _ t => some (.v2, d, elems (XTy.width t) d m fun _ =>
      seqElem (XTy.width t) (s.readV a) ((s.readS b).toNat % elemCount (XTy.width t)))
  | .vzip _ d a b x _ _ t => some (.v2, d, fromSeq (XTy.width t) allLanes (s.readV d)
      (zipElem (XTy.width t) x.val (s.readV a) (s.readV b)), 0)
  | .vdot4 _ d a b m _ _ t => some (.v4, d, mapLanes (s.readM m) (s.readV d) fun l =>
      dotLane t s.rounding (at_ (s.readV a) l 0) (at_ (s.readV b) l 0) (at_ (s.readV d) l 0))
  | .vscan _ d a m _ t => some (.v8, d, fromSeq (XTy.width t) (s.readM m) (s.readV d)
      (fun k => look 0 k (scanSums t s.rounding (s.readM m) (s.readV a)).1), (scanSums t s.rounding (s.readM m) (s.readV a)).2)
  | .vhist _ d a m _ t => some (.v4, d, (gen 64 fun l => at_ (s.readV d) l 0 + BitVec.ofNat 32
      (((activeSeq (ITy.width t) (s.readM m) (s.readV a)).map fun x => intOf (ITy.width t) (ITy.isSigned t) x.2).filter
        fun x => x == (l : Int)).length), 0)
  | .vtopk _ d a b m _ _ t => some (.long, d, chosen a (s.topCandidates t a m (Nat.min (s.readS b).toNat 64)))
  | .vsort _ d a m _ t => some (.long, d, chosen a (s.topCandidates t a m 64))
  | .vtopkI _ d a b m _ _ t => some (.long, d, (gen 64 fun l =>
      (((s.topCandidates t a m (Nat.min (s.readS b).toNat 64))[l]?).map fun c => BitVec.ofNat 32 c.1).getD 0xFFFFFFFF), 0)
  | .vrank _ d a m _ t => some (.long, d, mapLanes (s.readM m) (s.readV d) fun l =>
      (BitVec.ofNat 32 (((candidates t (s.readM m) (s.readV a)).map Prod.fst).idxOf l), 0))
  | _ => none
where
  /-- One operand, two operands, three operands (the third is vd). -/
  float1 (t : FTy) (d a : Fin 16) (m : Fin 8) (f : Fmt → Rounding → Nat → Nat × FFlags) : VReg × FFlags :=
    mapLanes (s.readM m) (s.readV d) (lift1 (FTy.width t) (f (FTy.fmt t) s.rounding) (s.readV a))
  float2 (t : FTy) (d a b : Fin 16) (m : Fin 8) (f : Fmt → Rounding → Nat → Nat → Nat × FFlags) : VReg × FFlags :=
    mapLanes (s.readM m) (s.readV d) (lift2 (FTy.width t) (f (FTy.fmt t) s.rounding) (s.readV a) (s.readV b))
  float3 (t : FTy) (d a b : Fin 16) (m : Fin 8) (negP negC : Bool) : VReg × FFlags :=
    mapLanes (s.readM m) (s.readV d)
      (lift3 (FTy.width t) (fpFma (FTy.fmt t) s.rounding negP negC) (s.readV a) (s.readV b) (s.readV d))
  int1 (t : ITy) (d a : Fin 16) (m : Fin 8) (f : Nat → Nat) : VReg × FFlags :=
    mapLanes (s.readM m) (s.readV d) (lift1 (ITy.width t) (fun x => (f x, 0)) (s.readV a))
  int2 (t : ITy) (d a b : Fin 16) (m : Fin 8) (f : Nat → Nat → Nat) : VReg × FFlags :=
    mapLanes (s.readM m) (s.readV d) (elementwise (ITy.width t) f (s.readV a) (s.readV b))
  bits (d : Fin 16) (m : Fin 8) (f : Nat → Word32) : VReg × FFlags :=
    mapLanes (s.readM m) (s.readV d) fun l => (f l, 0)
  elems (w : Nat) (d : Fin 16) (m : Fin 8) (f : Nat → Nat) : VReg × FFlags := (fromSeq w (s.readM m) (s.readV d) f, 0)
  chosen (a : Fin 16) (cs : List (Nat × Int)) : VReg × FFlags :=
    (gen 64 fun l => (cs[l]?.map fun c => at_ (s.readV a) c.1 0).getD 0, 0)

/-! ## Masks (R264, R279) -/

/-- The mask register and value of an instruction that writes one mask register. -/
def maskResult (s : State) : Instr → Option (Fin 8 × Word)
  | .mand _ d a b => some (d, s.readM a &&& s.readM b)
  | .mor _ d a b => some (d, s.readM a ||| s.readM b)
  | .mxor _ d a b => some (d, s.readM a ^^^ s.readM b)
  | .mnot _ d a => some (d, ~~~ s.readM a)
  | .mfirst _ d a => some (d, s.readM a &&& (0 - s.readM a))
  | .mset _ d a _ => some (d, s.readS a)
  | _ => none

/-- Every element of lane l of va and vb is in the relation. -/
def laneAll (w : Nat) (r : Nat → Nat → Bool) (a b : VReg) (l : Nat) : Bool :=
  (List.range (32 / w)).all fun k => r (laneElem w k (at_ a l 0)) (laneElem w k (at_ b l 0))

/-- The mask pair of a vector compare, the lanes it sets (the active lanes whose every element is in the relation), and its flags. -/
def compareResult (s : State) : Instr → Option (Fin 4 × Word × FFlags)
  | .vfcmpEq _ p a b m _ _ t => some (p, float t a b m Fp.eq)
  | .vfcmpLt _ p a b m _ _ t => some (p, float t a b m Fp.lt)
  | .vfcmpLe _ p a b m _ _ t => some (p, float t a b m Fp.le)
  | .vfcmpUn _ p a b m _ _ t => some (p, float t a b m fun x y => x.isNan || y.isNan)
  | .vcmpEq _ p a b m _ _ t => some (p, int t a b m fun x y => x == y)
  | .vcmpLt _ p a b m _ _ t => some (p, int t a b m fun x y =>
      decide (intOf (ITy.width t) (ITy.isSigned t) x < intOf (ITy.width t) (ITy.isSigned t) y))
  | .vcmpLtu _ p a b m _ _ t => some (p, int t a b m fun x y => decide (x < y))
  | _ => none
where
  float (t : FTy) (a b : Fin 16) (m : Fin 8) (c : Fp → Fp → Bool) : Word × FFlags :=
    let w := FTy.width t
    let one := fun x y => fpCompare (FTy.fmt t) c x y
    (lanesWhere (s.readM m) (laneAll w (fun x y => (one x y).1) (s.readV a) (s.readV b)),
     (List.range 64).foldl (fun acc l =>
       if (s.readM m).getLsbD l then
         (List.range (32 / w)).foldl (fun acc k =>
           acc ||| (one (laneElem w k (at_ (s.readV a) l 0)) (laneElem w k (at_ (s.readV b) l 0))).2) acc
       else acc) 0)
  int (t : ITy) (a b : Fin 16) (m : Fin 8) (r : Nat → Nat → Bool) : Word × FFlags :=
    (lanesWhere (s.readM m) (laneAll (ITy.width t) r (s.readV a) (s.readV b)), 0)

/-- The instruction only computes: one of the tables gives its result. -/
noncomputable def computes (s : State) (i : Instr) : Bool :=
  (scalarResult s i).isSome || (pairResult s i).isSome || (quotient s i).isSome || (vecResult s i).isSome ||
    (maskResult s i).isSome || (compareResult s i).isSome

/-- The instruction of a decoded syllable. -/
noncomputable def Machine.Syl.instr : Syl → Instr
  | .core i => i
  | .eng x => x.toInstr

/-! ## Memory instructions (R241 to R245) -/

/-- A scalar load: strong or ordinary, bytes, destination, address, space, sign extension. -/
structure LoadForm where
  strong : Bool
  n : Nat
  dst : Dst
  ea : Word
  space : Space
  sgn : Bool
  deriving DecidableEq, Repr

def loadForm (s : State) : Instr → Option LoadForm
  | .ldB _ d a b _ _ x0 x => some ⟨false, 1, d, s.readSrc a + s.readSrc b, x0, x⟩
  | .ldH _ d a b _ _ x0 x => some ⟨false, 2, d, s.readSrc a + s.readSrc b, x0, x⟩
  | .ldW _ d a b _ _ x0 x => some ⟨false, 4, d, s.readSrc a + s.readSrc b, x0, x⟩
  | .ldD _ d a b _ _ x0 => some ⟨false, 8, d, s.readSrc a + s.readSrc b, x0, false⟩
  | .ldsB _ d a x0 _ _ _ => some ⟨true, 1, d, s.readSrc a, x0, false⟩
  | .ldsH _ d a x0 _ _ _ => some ⟨true, 2, d, s.readSrc a, x0, false⟩
  | .ldsW _ d a x0 _ _ _ => some ⟨true, 4, d, s.readSrc a, x0, false⟩
  | .ldsD _ d a x0 _ _ _ => some ⟨true, 8, d, s.readSrc a, x0, false⟩
  | _ => none

/-- A scalar store: strong or ordinary, bytes, address, space, data, and whether it is a release. -/
structure StoreForm where
  strong : Bool
  n : Nat
  ea : Word
  space : Space
  data : Word
  rel : Bool
  deriving DecidableEq, Repr

def storeForm (s : State) : Instr → Option StoreForm
  | .stB _ x0 a b _ _ => some ⟨false, 1, s.readSrc a, x0, s.readSrc b, false⟩
  | .stH _ x0 a b _ _ => some ⟨false, 2, s.readSrc a, x0, s.readSrc b, false⟩
  | .stW _ x0 a b _ _ => some ⟨false, 4, s.readSrc a, x0, s.readSrc b, false⟩
  | .stD _ x0 a b _ _ => some ⟨false, 8, s.readSrc a, x0, s.readSrc b, false⟩
  | .stsB _ x0 r a b _ _ _ => some ⟨true, 1, s.readSrc a, x0, s.readSrc b, r⟩
  | .stsH _ x0 r a b _ _ _ => some ⟨true, 2, s.readSrc a, x0, s.readSrc b, r⟩
  | .stsW _ x0 r a b _ _ _ => some ⟨true, 4, s.readSrc a, x0, s.readSrc b, r⟩
  | .stsD _ x0 r a b _ _ _ => some ⟨true, 8, s.readSrc a, x0, s.readSrc b, r⟩
  | _ => none

/-- An atomic: operation, space, 8 bytes or 4, order, address, operand, and what `cas` compares with. -/
structure AmoForm where
  op : AmoOp
  space : Space
  w8 : Bool
  ord : AmoOrd
  ea : Word
  x : Word
  c : Word
  deriving DecidableEq, Repr

def AmoForm.n (f : AmoForm) : Nat := if f.w8 then 8 else 4

def amoForm (s : State) : Instr → Option AmoForm
  | .amoAdd _ x0 w o a b _ _ _ => some ⟨.add, x0, w, o, s.readSrc a, s.readSrc b, 0⟩
  | .amoAnd _ x0 w o a b _ _ _ => some ⟨.and, x0, w, o, s.readSrc a, s.readSrc b, 0⟩
  | .amoOr _ x0 w o a b _ _ _ => some ⟨.or, x0, w, o, s.readSrc a, s.readSrc b, 0⟩
  | .amoXor _ x0 w o a b _ _ _ => some ⟨.xor, x0, w, o, s.readSrc a, s.readSrc b, 0⟩
  | .amoMin _ x0 w o a b _ _ _ => some ⟨.min, x0, w, o, s.readSrc a, s.readSrc b, 0⟩
  | .amoMax _ x0 w o a b _ _ _ => some ⟨.max, x0, w, o, s.readSrc a, s.readSrc b, 0⟩
  | .amoMinu _ x0 w o a b _ _ _ => some ⟨.minu, x0, w, o, s.readSrc a, s.readSrc b, 0⟩
  | .amoMaxu _ x0 w o a b _ _ _ => some ⟨.maxu, x0, w, o, s.readSrc a, s.readSrc b, 0⟩
  | .amoSwap _ x0 w o a b _ _ _ => some ⟨.swap, x0, w, o, s.readSrc a, s.readSrc b, 0⟩
  | .amoCas _ x0 w o a b _ _ _ =>
    some ⟨.cas, x0, w, o, s.readSrc a, s.readS (evenP b), s.readS (oddP b)⟩
  | _ => none

/-- An instruction on a cell: operation, space, address, operand. -/
def cellForm (s : State) : Instr → Option (FxOp × Space × Word × Word)
  | .fxinit _ a b _ _ x0 => some (.init, x0, s.readSrc a, s.readSrc b)
  | .fxaddF32 _ a b _ _ x0 => some (.addF32, x0, s.readSrc a, s.readSrc b)
  | .fxaddH _ a b _ _ x0 => some (.addH, x0, s.readSrc a, s.readSrc b)
  | _ => none

/-- The alignment that a strong access, an atomic or a cell instruction asks of its address: (address, bytes). -/
def strongAddr (s : State) (i : Instr) : Option (Word × Nat) :=
  match loadForm s i, storeForm s i, amoForm s i, cellForm s i with
  | some f, _, _, _ => if f.strong then some (f.ea, f.n) else none
  | _, some f, _, _ => if f.strong then some (f.ea, f.n) else none
  | _, _, some f, _ => some (f.ea, f.n)
  | _, _, _, some f => some (f.2.2.1, 32)
  | _, _, _, _ =>
    match i with
    | .fxrd _ _ a _ _ => some (s.readSrc a, 32)
    | _ => none

/-- The n bytes stored from local address a on. -/
def Machine.State.bytesAt (s : State) (a n : Nat) : List Byte := (List.range n).map fun k => s.byteAt (a + k)

/-- t's memory is that of s with bytes written from local address a on. -/
def Machine.State.Wrote (t s : State) (a : Nat) (bs : List Byte) : Prop :=
  ∀ x, t.byteAt x = if a ≤ x ∧ x < a + bs.length then bs.getD (x - a) 0 else s.byteAt x

/-- No error in memory is waiting to be found and no byte is poisoned; the context defers no store, has no write on its way to a peer, and
its number is one the device has. -/
def Machine.State.plain (s : State) : Prop :=
  s.mem.soft = [] ∧ s.mem.hard = [] ∧ s.mem.poison = [] ∧ s.cx.dsb = [] ∧ s.cx.journal = [] ∧ s.cid < 18432 ∧ s.mem.wf = true ∧
    ∀ r ∈ s.remotes, r.ctx = s.cid → r.write = false

/-! ## Vector memory and conversions (R271, R272, R277, R278) -/

/-- A vector load or store: stored, register, space, the accesses of its lanes, and for a load the places of a byte. -/
structure LaneForm where
  store : Bool
  reg : Fin 16
  space : Space
  lanes : List LaneAccess
  spread : Nat → List Nat

/-- The address forms. -/
def laneForm (s : State) : Instr → Option LaneForm
  | .vld _ d a b m _ _ x0 =>
    some ⟨false, d, x0, wordLanes (s.readM m) fun l => s.readS a + s.readS b + word (4 * l), fun i => [i]⟩
  | .vgat _ d a b m _ _ k x0 => some ⟨false, d, x0, wordLanes (s.readM m) (s.gatherAddr a b k), fun i => [i]⟩
  | .vldB _ d a b m _ _ x0 =>
    some ⟨false, d, x0, if activeLanes (s.readM m) = [] then [] else [⟨0, s.readS a + s.readS b, 4⟩],
      fun i => (activeLanes (s.readM m)).map (4 * · + i)⟩
  | .vst _ d a b m _ _ x0 =>
    some ⟨true, d, x0, wordLanes (s.readM m) fun l => s.readS a + s.readS b + word (4 * l), fun i => [i]⟩
  | .vsca _ d a b m _ _ k x0 => some ⟨true, d, x0, wordLanes (s.readM m) (s.gatherAddr a b k), fun i => [i]⟩
  | _ => none

/-- How a vector access by lanes ends that starts in b (R276): what stops the translation of the lowest lane that has one stops it; a load
writes the loaded bytes over the old register as a long-latency result, consumes poison, asks peers for theirs and waits while that
cannot be (R103, R389); a store to `.u` performs its pieces in lane order, one elsewhere defers them, or faults where that cannot be. -/
def lanesEnd (b : State) (f : LaneForm) (o : Host.Outcome State Fault Refusal) : Prop :=
  let kind : Kind := if f.store then .write else .read
  (∀ x, b.resolveLanes f.space kind f.lanes = .error x → o = .next (b.stopAccess kind x)) ∧
  (∀ ps, b.resolveLanes f.space kind f.lanes = .ok ps →
    let l := (b.loadPieces true ps).1
    let u := (b.loadPieces true ps).2
    let v : Val := .vec (putBytesIn (b.readV f.reg)
      ((placeBytes ps l.bytes).flatMap fun x => (f.spread x.1).map fun k => (k, x.2)))
    (f.store = false → l.poison = none → l.ask = [] → o = .next (u.write .long (.v f.reg) v)) ∧
    (∀ a, f.store = false → l.poison = some a → o = .next (u.consume (u.eccTrap f.space a))) ∧
    (f.store = false → l.poison = none → l.ask ≠ [] → u.askWaits l.ask = true → o = .next u.blockBundle) ∧
    (f.store = false → l.poison = none → l.ask ≠ [] → u.askWaits l.ask = false → ∃ t, o = .next t ∧ t.evt = .done ∧
      t.mem.cells = b.mem.cells ∧ t.cx.fresh = (u.await u.nextId (.v f.reg) v).cx.fresh ∧
      (t.remotes.drop b.remotes.length).map (fun r => (r.ctx, r.dev, r.line, r.mask, r.flight)) =
        l.ask.map fun a => (b.cid, Fin.ofNat 64 a.1.at_.dev, a.1.line, a.2, u.nextId)) ∧
    (f.store = true → f.space = .u → o = .next (b.performPieces (b.writer false) (vecBytes (b.readV f.reg)) ps)) ∧
    (∀ t, f.store = true → f.space ≠ .u → b.deferAll (vecBytes (b.readV f.reg)) ps = .ok t → o = .next t) ∧
    (∀ x, f.store = true → f.space ≠ .u → b.deferAll (vecBytes (b.readV f.reg)) ps = .error x → o = .next (b.trap x)) ∧
    (f.store = true → f.space ≠ .u → b.cx.dsb.length + ps.length ≤ 128 → ∃ t, o = .next t ∧
      b.deferAll (vecBytes (b.readV f.reg)) ps = .ok t ∧ t.mem = b.mem))

/-- The address of lane l of an address form, and its mask. -/
def laneAddr (s : State) : Instr → Option (Word × (Nat → Word))
  | .vld _ _ a b m _ _ _ => some (s.readM m, fun l => s.readS a + s.readS b + word (4 * l))
  | .vgat _ _ a b m _ _ k _ =>
    some (s.readM m, fun l => s.readS a + (at_ (s.readV b) l 0).setWidth 64 * (if k then 4 else 1))
  | .vldB _ _ a b m _ _ _ => some (s.readM m, fun _ => s.readS a + s.readS b)
  | .vst _ _ a b m _ _ _ => some (s.readM m, fun l => s.readS a + s.readS b + word (4 * l))
  | .vsca _ _ a b m _ _ k _ =>
    some (s.readM m, fun l => s.readS a + (at_ (s.readV b) l 0).setWidth 64 * (if k then 4 else 1))
  | _ => none

/-- A conversion to a float format: the format, whether rounding may be stochastic, the elements written and the exact values. -/
structure ConvForm where
  dst : Fmt
  sr : Bool
  reg : Fin 16
  on : Nat → Bool
  src : Nat → Fp

def convForm (s : State) : Instr → Option ConvForm
  | .vcvt _ d a m _ t =>
    match t with
    | 1 => some ⟨.f32, false, d, activeElem 32 (s.readM m), fun k => Fp.ofInt (signed 32 (seqElem 32 (s.readV a) k))⟩
    | 3 => some ⟨.f32, false, d, activeElem 32 (s.readM m), fun k => Fp.ofInt (seqElem 32 (s.readV a) k)⟩
    | 5 => some ⟨.f16, s.stochastic, d, activeElem 16 (s.readM m), fun k => Fp.ofInt (signed 16 (seqElem 16 (s.readV a) k))⟩
    | 6 => some ⟨.e5m2, false, d, activeElem 8 (s.readM m), fun k => Fmt.e4m3.decode (seqElem 8 (s.readV a) k)⟩
    | 7 => some ⟨.e4m3, false, d, activeElem 8 (s.readM m), fun k => Fmt.e5m2.decode (seqElem 8 (s.readV a) k)⟩
    | _ => none
  | .vpack _ d a b m _ _ t =>
    if quarter t then
      some ⟨(packFmts t).2, s.stochastic, d, fun k => activeElem (packFmts t).2.width (s.readM m) k && k / 64 == b.val,
        fun k => (packFmts t).1.decode (seqElem 32 (s.readV a) (k % 64))⟩
    else
      some ⟨(packFmts t).2, s.stochastic, d, activeElem (packFmts t).2.width (s.readM m), fun k => (packFmts t).1.decode
        (if k < elemCount (packFmts t).1.width then seqElem (packFmts t).1.width (s.readV a) k
         else seqElem (packFmts t).1.width (s.readV b) (k - elemCount (packFmts t).1.width))⟩
  | _ => none

/-- A conversion to integers of the format's width: format, signed, register, source, mask. -/
def toIntForm : Instr → Option (Fmt × Bool × Fin 16 × Fin 16 × Fin 8)
  | .vcvt _ d a m _ t =>
    match t with
    | 0 => some (.f32, true, d, a, m)
    | 2 => some (.f32, false, d, a, m)
    | 4 => some (.f16, true, d, a, m)
    | _ => none
  | _ => none

/-- The widening of `vunpk`: the source and destination widths and the value of an element; the floats widen exactly. -/
def unpackForm (t : Fin 8) : Nat × Nat × (Nat → Nat) :=
  let fl := fun (x y : Fmt) => (x.width, y.width, fun e => (fpConvert x y Rounding.rne e).1)
  match t with
  | 0 => fl .bf16 .f32
  | 1 => fl .f16 .f32
  | 2 => fl .e4m3 .f32
  | 3 => fl .e5m2 .f32
  | 4 => fl .e4m3 .bf16
  | 5 => fl .e5m2 .bf16
  | 6 => (16, 32, fun e => codeOf 32 (signed 16 e))
  | _ => (8, 16, fun e => codeOf 16 (signed 8 e))

/-! ## The matrix engine (R288 to R306) -/

/-- The operation that an M syllable forks. -/
def forkKind : Instr → Option MKind
  | .mscale _ f i => some (.scale f i)
  | .mfix _ f i x => some (.fix f i x)
  | .mdrain _ i => some (.drain i)
  | .mclr _ i f => if i = 0 ∧ f = 0 then none else some (.clr i f)
  | .mmov _ d x => if d = x then none else some (.mov d x)
  | .mcall _ k => some (.routine k.val false)
  | .mcallB _ k => some (.routine k.val true)
  | _ => none

/-- The matrix engine as a micro-op sees it: the governor's half-row mode is in it. -/
def Machine.State.mx (s : State) : Matrix := { s.core.mx with gov := s.govAt s.gcore }

/-- The state after a micro-op that leaves matrix m and routine r, which goes on at a microword. -/
def Machine.State.microGo (s : State) (m : Matrix) (r : Routine) (next : Nat) : State :=
  ({ s.idle with core := { s.core with mx := { m with routine := some { r with addr := next } } } }).serveLog m.ops.length

/-- Where a micro-op with a condition goes on. -/
def nextWord (n : MNext) (m : Matrix) (r : Routine) : Nat := if condHolds m r n.cond then n.nt.val else n.nf.val

/-! ## Copies (R317 to R326) -/

/-- An instruction that issues a copy from one block: the block's address, the channel, the use it is checked for, the kind of copy. -/
def copyForm (s : State) : Instr → Option (Word × Fin 4 × BlockUse × CopyKind)
  | .cpyGo _ a _ c => some (s.readSrc a, c, .go, .go)
  | .cpyFill _ a b _ _ c => some (s.readSrc a, c, .fill, .fill (s.readSrc b))
  | .cpyCvt _ a _ c => some (s.readSrc a, c, .cvt, .cvt)
  | _ => none

/-- The block at an address has these bytes (R322): it is cached, or it is read, which leaves state u. -/
def Machine.State.BlockAt (s : State) (a : Word) (bs : List Byte) (u : State) : Prop :=
  field a 56 8 = 0 ∧ a.toNat % 64 = 0 ∧
    match s.core.pbCache.find? (·.1 == a.toNat) with
    | some e => bs = e.2 ∧ u = s
    | none => s.readBlocking s.who true [] .g a 128 = .ok (bs, u)

/-! ## Messages and collectives (R339, R348) -/

/-- A send whose operands are in order: its message word, its kind, and how its payload is read for operation id. -/
def sendForm (s : State) (id : Nat) : Instr → Option (Word × SendKind × (State → Except Trap EngBytes × State))
  | .fsend _ h a _ =>
    if badPeerWord (s.readSrc a) = false ∧ descCause (s.readH h).desc = none ∧ isMx (Desc.type (s.readH h).desc) = false ∧
        badLength (s.readH h).bytes = false then
      some (s.readSrc a, .tensor, fun t =>
        match t.readTensor ⟨t.cid, t.system, some id⟩ h (s.readH h) with
        | (.error e, t) => (.error e, t)
        | (.ok bs, t) => (.ok bs.flatten, t))
    else none
  | .fsendV _ v a _ =>
    if badPeerWord (s.readSrc a) = false then
      some (s.readSrc a, .vector, fun t => (.ok ((vecBytes (s.readV v)).map fun b => (b, false)), t))
    else none
  | .fsendM _ a b _ _ =>
    if badPeerWord (s.readSrc a) = false ∧ badLength (s.readS (oddP b)).toNat = false then
      some (s.readSrc a, .memory, fun t =>
        t.engRead ⟨t.cid, t.system, some id⟩ PeerView.none .g (s.readS (evenP b)) (s.readS (oddP b)).toNat)
    else none
  | _ => none

/-- The state from which a fabric operation starts: it has its number, and its instance has sent (R413). -/
def Machine.State.sending (s : State) : State := ({ s with nextId := s.nextId + 1 }).markInst fun i => { i with sent := true }

/-- The kind, the handle register and the control word of a collective on a tensor. -/
def collForm (s : State) : Instr → Option (Nat × Fin 16 × Word)
  | .collRed _ h a _ => some (0x0A, h, s.readSrc a)
  | .collAg _ h a _ => some (0x0B, h, s.readSrc a)
  | .collRs _ h a _ => some (0x0C, h, s.readSrc a)
  | .collA2a _ h a _ => some (0x0D, h, s.readSrc a)
  | _ => none

end Sys2Proof
end

