-- ==== Sys2Proof/Certificates/Slice0/Obligations.lean ====
section
/-! DEFINITION. The statements for the provers. `Issues i s` says that syllable i issues in s, `s.begun i` is the state its effect
starts from (Safety.lean), and the tables of results are in Results.lean. -/

open Sys2Proof Sys2Proof.Machine

/-- R208, R221, R224 to R231: the decoder of slots BA, BB, SA and SB gives back every well-formed B and S syllable that the encoder
writes, every operand at every value, in either slot (the argument of `decodeS` is the number of literal words of the bundle).

R208, R257, R299: the same of V and M syllables.

R208, R315: the same of C and F syllables.

R288 to R292: the same of microwords. -/
def Obligations.RoundTrip : Prop :=
  (∀ i : Instr, i.wf = true →
     (i.cls = .b → decodeB (encode i) = .ok i) ∧ (i.cls = .s → decodeS 2 (encode i) = .ok i) ∧
     (∀ k : Fin 8, (i.cls = .b ∧ k.val < 2) ∨ (i.cls = .s ∧ (k = 2 ∨ k = 3)) →
       (decodeSlot k 2 (encode i)).map (Syl.instr) = .ok i)) ∧
  (∀ i : Instr, i.wf = true →
     (i.cls = .v → decodeV (encode i) = .ok i) ∧ (i.cls = .m → decodeM (encode i) = .ok i)) ∧
  (∀ i : Instr, i.wf = true →
     (i.cls = .c → (decodeC (encode i)).map EngSyl.toInstr = .ok i) ∧
     (i.cls = .f → (decodeF (encode i)).map EngSyl.toInstr = .ok i)) ∧
  (∀ i : Instr, i.wf = true → i.cls = .micro → (decodeMicro (encode i)).map Micro.toInstr = some i)

/-- Words written out from the encodings of R202, R203, R221, R231, R257, R299 and R315 decode to the instructions they stand for. -/
def Obligations.DecodeWords : Prop :=
  decodeB 0x20000007 = .ok (.br 2 0 7) ∧
  decodeB 0x00510080 = .ok (.loopPin 0 (.s 2) false 1) ∧
  decodeS 2 0x442C3540 = .ok (.stW 4 .d (.s 13) (.s 10) false false) ∧
  decodeS 2 0x06301800 = .ok (.pwrReq 0 (.s 6) false) ∧
  decodeS 2 0x05C68220 = .ok (.sysrd 0 (.s 13) .boostlvl) ∧
  decodeV 0x02A89004 = .ok (.vsplat 0 8 9 0 false .i32) ∧
  decodeV 0x02D645A0 = .ok (.vsel 0 6 4 5 5 false false) ∧
  decodeM 0x000C8000 = .ok (.mcall 0 200) ∧
  decodeM 0x00310000 = .ok (.mscale 0 0 1) ∧
  decodeC 0x00001401 = .ok (.cpyGo 0 (.s 5) false 1) ∧
  decodeF 0x20001000 = .ok (.fsend 2 0 (.s 2) false) ∧
  decodeF 0x40652000 = .ok (.rprobe 4 (.s 10) (.s 8) false) ∧
  decodeMicro 0x7140340230000000 = some (.mac ⟨.c0z, 0x403, 0x402⟩ ⟨false, false, true, true⟩) ∧
  decodeMicro 0xF000000000000000 = some .endRoutine

/-- R232 to R238, R249 to R255: an instruction with one scalar result that issues writes that result, with its latency, to its
destination and to the next queue entry, and does nothing else (what that is: the second clause).

R192, R193, R196: what a scalar result puts in flight: the named register, if the destination names one, and the queue entry at
QP; QP advances; nothing else changes. -/
def Obligations.ScalarResults : Prop :=
  (∀ (i : Instr) (s : State) (l : Machine.Lat) (d : Dst) (x : Word),
     scalarResult (s.begun i) i = some (l, d, x) → Issues i s → exec i s = .next ((s.begun i).push l d x)) ∧
  (∀ (s : State) (n : Nat) (d : Dst) (x : Word),
     let f := fun r => (⟨r, .word x, some (s.slotCycle + n), 0, true, 0⟩ : Flight)
     let q := f (.qr (Fin.ofNat 16 s.cx.regs.qp.toNat))
     s.push (.fixed n) d x =
       { s with cx := { s.cx with
           fresh := s.cx.fresh ++ (match d with
             | .s i => [f (.s i), q]
             | .a i => [f (.a i), q]
             | .queue => [q]),
           regs := { s.cx.regs with qp := s.cx.regs.qp + 1 } } })

/-- R190, R191: p0 reads 1, p1 reads 0, m0 reads all ones, m1 reads zero, whatever lands; a landing on any other predicate or mask
register is read back, and the other registers read as before.

R235, R237: a compare or predicate instruction that issues writes its result and the complement to its predicate pair.

R264: a vector compare that issues writes the lanes in the relation and the complement to its mask pair, and its flags. -/
def Obligations.PairsAndConstants : Prop :=
  (∀ (s : State) (f : Flight),
     let t := s.landOne f
     (t.readP 0 = true ∧ t.readP 1 = false ∧ t.readM 0 = BitVec.allOnes 64 ∧ t.readM 1 = 0) ∧
     (∀ i : Fin 16, 2 ≤ i.val → f.reg = .p i → t.readP i = (f.val.toWord != 0)) ∧
     (∀ i : Fin 8, 2 ≤ i.val → f.reg = .m i → t.readM i = f.val.toWord) ∧
     (∀ i : Fin 16, f.reg ≠ .p i → t.readP i = s.readP i) ∧
     (∀ i : Fin 8, f.reg ≠ .m i → t.readM i = s.readM i) ∧
     (∀ i : Fin 16, t.readS i = if f.reg = .s i then f.val.toWord else s.readS i) ∧
     (∀ i : Fin 8, t.readA i = if f.reg = .a i then f.val.toWord else s.readA i)) ∧
  (∀ (i : Instr) (s : State) (p : Fin 8) (x : Bool),
     pairResult s i = some (p, x) → Issues i s → exec i s = .next ((s.begun i).writePair p x)) ∧
  (∀ (i : Instr) (s : State) (p : Fin 4) (x : Word) (f : FFlags),
     compareResult (s.begun i) i = some (p, x, f) → Issues i s →
       exec i s = .next (((s.begun i).writeMaskPair .v2 p x).writeFlags .v2 f 0))

/-- R259 to R272: a vector instruction with one vector result that issues writes it, with its latency and its flags.

R279: a mask instruction that issues writes its mask register with latency V2. -/
def Obligations.VectorResults : Prop :=
  (∀ (i : Instr) (s : State) (l : Machine.Lat) (d : Fin 16) (x : VReg) (f : FFlags),
     vecResult (s.begun i) i = some (l, d, x, f) → Issues i s → exec i s = .next ((s.begun i).putVec l d (x, f))) ∧
  (∀ (i : Instr) (s : State) (d : Fin 8) (x : Word),
     maskResult s i = some (d, x) → Issues i s → exec i s = .next ((s.begun i).write .v2 (.m d) (.word x)))

/-- R233: a quotient or remainder by a divisor that is not zero is a long-latency result; by zero it takes the arithmetic fault 0x16
at its own bundle, with SLOT in EINFO (EADDR, which the spec does not state, is a free value: assumption 9). -/
def Obligations.Division : Prop :=
  ∀ (i : Instr) (s : State) (d : Dst) (b : Src) (x : Word),
    quotient s i = some (d, b, x) → Issues i s →
      (s.readSrc b ≠ 0 → exec i s = .next ((s.begun i).push .long d x)) ∧
      (s.readSrc b = 0 → ∃ a, exec i s =
        .next ({ s.begun i with freeCount := s.freeCount + 1 }.trap ⟨0x16, a, bundleInfo 0 s.issue.slot.val false 0⟩))

/-- The frame of the instructions that only compute: the registers in flight when one of them is done are those that were, and
writes to its own destinations, to the queue entries it pushes, or to FPMODE's flags; QP advances by its pushes, one for a scalar result and
none for another or when its guard reads 0; ISSUECTL is that of the state in which it begins, in which VIOL may have been set (R198); no
register, special register, byte of memory, or other part of the state changes. -/
def Obligations.ComputeFrame : Prop :=
  ∀ (i : Instr) (s t : State), computes s i = true → exec i s = .next t → t.evt = .done →
    let n := if s.readP (Instr.info s i).guard then (Instr.info s i).pushes else 0
    ((Instr.info s i).pushes = if (scalarResult s i).isSome || (quotient s i).isSome then 1 else 0) ∧
    ∃ fs : List Flight,
      t = { s with evt := .done, cx := { s.cx with
              fresh := s.cx.fresh ++ fs,
              regs := { s.cx.regs with qp := s.cx.regs.qp + BitVec.ofNat 4 n, issuectl := (s.begun i).cx.regs.issuectl } } } ∧
      ∀ f ∈ fs, f.reg ∈ (Instr.info s i).dsts ∨ f.reg ∈ s.pushRegs n ∨ f.reg = .flags

/-- R224: branches and calls. A taken transfer is recorded as the bundle's next code address; a call pushes the link, a return pops.

R216, R224, R226: the stacks past what they hold on chip. A push onto a full stack whose spill entry can be reached stores the oldest
entry at the spill index, increments the index and keeps the others below the new entry; where that store must wait (a full parity count,
R136; a drain of the fabric, R389; an own write to the same bytes on its way, R103) the push blocks; a pop of an empty one takes the last
spilled entry and decrements the index. -/
def Obligations.Branches : Prop :=
  (∀ (s : State) (g : Fin 16) (d : BitVec 14) (k : Fin 64) (x : Src) (e : Bool),
     (Issues (.br g d k) s → exec (.br g d k) s = .next ((s.begun (.br g d k)).jumpTo (s.target d k))) ∧
     (Issues (.brx g x e) s → exec (.brx g x e) s = .next ((s.begun (.brx g x e)).jumpTo (s.readSrc x))) ∧
     (Issues (.brL g d k) s → s.cx.regs.rstack.length < 16 → exec (.brL g d k) s =
       .next (((s.begun (.brL g d k)).modRegs fun r => { r with rstack := s.issue.link.getD 0 :: r.rstack }).jumpTo (s.target d k))) ∧
     (Issues (.brxL g x e) s → s.cx.regs.rstack.length < 16 → exec (.brxL g x e) s =
       .next (((s.begun (.brxL g x e)).modRegs fun r => { r with rstack := s.issue.link.getD 0 :: r.rstack }).jumpTo (s.readSrc x))) ∧
     (∀ a l, Issues (.ret g) s → s.cx.regs.rstack = a :: l → exec (.ret g) s =
       .next (((s.begun (.ret g)).modRegs fun r => { r with rstack := l }).jumpTo a))) ∧
  (∀ (s u : State) (g : Fin 16) (a m : Fin 8) (x : Src) (e : Bool) (d : BitVec 14) (k : Fin 64) (p : Place) (bs : List Byte),
     let put := fun (b : State) (mask : Bool) (old : Word) =>
       let q := spillPiece (b.spillAddr mask (b.spilled mask)) p
       (b.strongWrite q q.mask (lineAt q.off old.toNat)).setSpilled mask (b.spilled mask + 1)
     let call := fun (b : State) => (put b false (s.cx.regs.rstack.getLastD 0)).modRegs fun r =>
       { r with rstack := s.issue.link.getD 0 :: r.rstack.dropLast }
     let got := word (ofBytes bs)
     let held := fun (b : State) (mask : Bool) => b.writeWaits [spillPiece (b.spillAddr mask (b.spilled mask)) p]
     (Issues (.brL g d k) s → s.cx.regs.rstack.length = 16 → (s.begun (.brL g d k)).spillPlace false (s.spilled false) .write = .ok p →
       held (s.begun (.brL g d k)) false = false → exec (.brL g d k) s = .next ((call (s.begun (.brL g d k))).jumpTo ((call (s.begun (.brL g d k))).target d k))) ∧
     (Issues (.brxL g x e) s → s.cx.regs.rstack.length = 16 → (s.begun (.brxL g x e)).spillPlace false (s.spilled false) .write = .ok p →
       held (s.begun (.brxL g x e)) false = false → exec (.brxL g x e) s = .next ((call (s.begun (.brxL g x e))).jumpTo (s.readSrc x))) ∧
     (Issues (.mpush g a) s → s.cx.regs.mstack.length = 8 → (s.begun (.mpush g a)).spillPlace true (s.spilled true) .write = .ok p →
       held (s.begun (.mpush g a)) true = false → exec (.mpush g a) s = .next ((put (s.begun (.mpush g a)) true (s.cx.regs.mstack.getLastD 0)).modRegs fun r =>
         { r with mstack := s.readM a :: r.mstack.dropLast })) ∧
     (Issues (.mpush g a) s → s.cx.regs.mstack.length = 8 → (s.begun (.mpush g a)).spillPlace true (s.spilled true) .write = .ok p →
       held (s.begun (.mpush g a)) true = true → exec (.mpush g a) s = .next (s.begun (.mpush g a)).blockBundle) ∧
     (Issues (.ret g) s → s.cx.regs.rstack = [] → s.spilled false ≠ 0 →
       (s.begun (.ret g)).spillPlace false (s.spilled false - 1) .read = .ok p →
       (s.begun (.ret g)).readBlocking s.spillWho false [] .g (s.spillAddr false (s.spilled false - 1)) 8 = .ok (bs, u) →
       exec (.ret g) s = .next ((u.setSpilled false (s.spilled false - 1)).jumpTo got)) ∧
     (Issues (.mpop g a) s → s.cx.regs.mstack = [] → s.spilled true ≠ 0 →
       (s.begun (.mpop g a)).spillPlace true (s.spilled true - 1) .read = .ok p →
       (s.begun (.mpop g a)).readBlocking s.spillWho false [] .g (s.spillAddr true (s.spilled true - 1)) 8 = .ok (bs, u) →
       exec (.mpop g a) s = .next ((u.setSpilled true (s.spilled true - 1)).write .s1 (.m a) (.word got))) ∧
     (Issues (.mjoin g a m) s → s.cx.regs.mstack = [] → s.spilled true ≠ 0 →
       (s.begun (.mjoin g a m)).spillPlace true (s.spilled true - 1) .read = .ok p →
       (s.begun (.mjoin g a m)).readBlocking s.spillWho false [] .g (s.spillAddr true (s.spilled true - 1)) 8 = .ok (bs, u) →
       exec (.mjoin g a m) s =
         .next ((u.setSpilled true (s.spilled true - 1)).write .s1 (.m a) (.word (s.readM m ||| got)))))

/-- R225: `loop.pin` pins the n bundles after it and sets LCOUNT, or with a = 0 goes on past them (past the last bundle of a segment with no
NEXT the fault of R210 is raised after the bundle); `loop.end` counts down and branches back, or with LCOUNT at 1 or 0 ends the pin;
`loop.brk` ends it and branches. `loop.pin` while there is a pin raises cause 0x20, the others with no active pin 0x21. The model's choices:
that a = 0 is a taken transfer and that a false guard keeps causes 0x20 and 0x21 away (assumption 25), and that EPC of the fault past the
last bundle is that bundle (assumption 24).

R226: the mask stack: a push puts the mask on top; a pop and a join take the top entry into a mask register. -/
def Obligations.LoopsAndMasks : Prop :=
  (∀ (s : State) (g : Fin 16) (x : Src) (e : Bool) (n : Fin 128) (d : BitVec 14) (k : Fin 64) (p : Pin),
     (Issues (.loopPin g x e n) s → s.cx.regs.pin = none → s.readSrc x ≠ 0 → exec (.loopPin g x e n) s =
       .next ((s.begun (.loopPin g x e n)).modRegs fun r => { r with
         pin := some ⟨segOf r.pc, indexOf r.pc + 1, indexOf r.pc + n.val, false⟩, lcount := s.readSrc x })) ∧
     (Issues (.loopPin g x e n) s → s.cx.regs.pin = none → s.readSrc x = 0 →
       ∀ a, s.successor (segOf s.cx.regs.pc + word (indexOf s.cx.regs.pc + n.val)) = some a →
       exec (.loopPin g x e n) s = .next ((s.begun (.loopPin g x e n)).jumpTo a)) ∧
     (let last := segOf s.cx.regs.pc + word (indexOf s.cx.regs.pc + n.val)
      Issues (.loopPin g x e n) s → s.cx.regs.pin = none → s.readSrc x = 0 → s.successor last = none →
       ∃ t, exec (.loopPin g x e n) s = .next t ∧
       t.issue.jump = some last ∧ t.issue.trapAfter = some (pastEnd last) ∧ t.cx = (s.begun (.loopPin g x e n)).cx ∧ t.mem = s.mem) ∧
     (Issues (.loopPin g x e n) s → s.cx.regs.pin = some p →
       exec (.loopPin g x e n) s = .next ((s.begun (.loopPin g x e n)).illegalNow 0x20)) ∧
     (Issues (.loopEnd g) s → 1 < s.cx.regs.lcount.toNat → s.cx.regs.pin = some p → p.suspended = false → exec (.loopEnd g) s =
       .next (((s.begun (.loopEnd g)).modRegs fun r => { r with lcount := r.lcount - 1 }).jumpTo (p.seg + word p.first))) ∧
     (Issues (.loopEnd g) s → s.pinned = true → s.cx.regs.lcount.toNat ≤ 1 → exec (.loopEnd g) s =
       .next ((s.begun (.loopEnd g)).modRegs fun r => { r with pin := none, lcount := 0 })) ∧
     (Issues (.loopBrk g d k) s → s.pinned = true → exec (.loopBrk g d k) s =
       .next (((s.begun (.loopBrk g d k)).modRegs fun r => { r with pin := none, lcount := 0 }).jumpTo (s.target d k))) ∧
     (Issues (.loopEnd g) s → s.pinned = false → exec (.loopEnd g) s = .next ((s.begun (.loopEnd g)).illegalNow 0x21)) ∧
     (Issues (.loopBrk g d k) s → s.pinned = false → exec (.loopBrk g d k) s = .next ((s.begun (.loopBrk g d k)).illegalNow 0x21))) ∧
  (∀ (s : State) (g : Fin 16) (a b : Fin 8) (v : Word) (l : List Word),
     (Issues (.mpush g a) s → s.cx.regs.mstack.length < 8 → exec (.mpush g a) s =
       .next ((s.begun (.mpush g a)).modRegs fun r => { r with mstack := s.readM a :: r.mstack })) ∧
     (Issues (.mpop g a) s → s.cx.regs.mstack = v :: l → exec (.mpop g a) s =
       .next (((s.begun (.mpop g a)).modRegs fun r => { r with mstack := l }).write .s1 (.m a) (.word v))) ∧
     (Issues (.mjoin g a b) s → s.cx.regs.mstack = v :: l → exec (.mjoin g a b) s =
       .next (((s.begun (.mjoin g a b)).modRegs fun r => { r with mstack := l }).write .s1 (.m a) (.word (s.readM b ||| v)))))

/-- R227, R228: time and events. `yield` leaves the context READY. `park.t` of a time that has passed goes on, of
one to come blocks until then. `wait.ev` takes one from a counter that is not zero when no other context began to wait before, and else
blocks in the order of waiting. `sig.ev` is a release and then an increment, which stops at 65,535; while the release is not complete it
blocks.

R224: `seg.alt` changes nothing but the half of the instruction buffer that does not execute: the bundle, the registers, what is in flight
and memory stay. -/
def Obligations.TimeAndEvents : Prop :=
  (∀ (s : State) (g : Fin 16) (x : Src) (e : Bool) (v : Fin 64),
     let n := clusterOf s.cid
     let count := fun (t : State) => look 0 v.val (t.clusterAt n).events
     let turn := ∀ c l, s.waitersOf v.val = c :: l → c = s.cid
     (Issues (.yield g) s → exec (.yield g) s =
       .next { s.begun (.yield g) with cx := { (s.begun (.yield g)).cx with status := .ready, exempt := false } }) ∧
     (Issues (.parkT g x e) s → (s.readSrc x).toNat ≤ s.now → exec (.parkT g x e) s = .next (s.begun (.parkT g x e))) ∧
     (Issues (.parkT g x e) s → s.now < (s.readSrc x).toNat →
       exec (.parkT g x e) s = .next ((s.begun (.parkT g x e)).blockOn (.time (s.readSrc x).toNat))) ∧
     (Issues (.waitEv g v) s → count s ≠ 0 → turn → ∃ t, exec (.waitEv g v) s = .next t ∧ t.evt = .done ∧ count t = count s - 1 ∧
       (∀ c, (v.val, c) ∈ (t.clusterAt n).waiters ↔ (v.val, c) ∈ (s.clusterAt n).waiters ∧ c ≠ s.cid) ∧
       t.mem = s.mem ∧ t.cx = (s.begun (.waitEv g v)).cx) ∧
     (Issues (.waitEv g v) s → count s = 0 ∨ ¬ turn → ∃ t, exec (.waitEv g v) s = .next t ∧ t.evt = .block ∧ t.cx.status = .blocked ∧
       t.cx.wait = .bundle ∧ count t = count s ∧ (t.clusterAt n).waiters =
         (if (s.clusterAt n).waiters.contains (v.val, s.cid) then (s.clusterAt n).waiters else (s.clusterAt n).waiters ++ [(v.val, s.cid)]) ∧
       t.mem = s.mem) ∧
     (let p := (s.begun (.sigEv g v)).publish
      Issues (.sigEv g v) s →
       (p.published = true → exec (.sigEv g v) s = .next (p.markOutbound.signal (clusterOf p.cid) v.val)) ∧
       (p.published = false → exec (.sigEv g v) s = .next p.blockBundle) ∧
       look 0 v.val ((p.markOutbound.signal (clusterOf p.cid) v.val).clusterAt (clusterOf p.cid)).events =
         (let c := look 0 v.val (p.clusterAt (clusterOf p.cid)).events
          if c = 65535 then c else c + 1))) ∧
  (∀ (s : State) (g : Fin 16) (d : BitVec 14) (k : Fin 64), Issues (.segAlt g d k) s →
     ∃ (t : State), exec (.segAlt g d k) s = .next t ∧ t.evt = .done ∧ t.cx.regs = (s.begun (.segAlt g d k)).cx.regs ∧ t.issue = s.issue ∧
       t.mem.cells = s.mem.cells ∧ t.curSeg = s.curSeg ∧ t.cx.inflight = s.cx.inflight ∧ t.cx.fresh = s.cx.fresh)

/-- R230, R409: `trap` raises 0x17 after its bundle with EINFO holding SLOT and n; `brk` takes the breakpoint fault 0x18 at its own
bundle with n in EINFO; `illegal` takes the illegal-syllable fault with cause 0x0D; `eret` goes to EPC at the saved privilege, restarts
the stop-spacing count, and resumes a suspended pin whose range holds EPC or ends one that does not. What EADDR holds for the first
two is not stated: a free value (assumption 9). -/
def Obligations.SoftwareTraps : Prop :=
  ∀ (s : State) (g : Fin 16) (n : BitVec 8),
    (Issues (.trap g n) s → ∃ a, exec (.trap g n) s = .next { s.begun (.trap g n) with
      freeCount := s.freeCount + 1,
      issue := { s.issue with jump := s.issue.link,
                              trapAfter := some ⟨0x17, a, setField (bundleInfo 0 s.issue.slot.val false 0) 0 8 n.toNat⟩ } }) ∧
    (Issues (.brk g n) s → ∃ a, exec (.brk g n) s =
      .next ({ s.begun (.brk g n) with freeCount := s.freeCount + 1 }.trap ⟨0x18, a, n.setWidth 64⟩)) ∧
    (s.issue.checked = false → exec (.illegal g) s =
      .next (s.idle.trap ⟨0x01, s.cx.regs.pc, bundleInfo 0 s.issue.slot.val false 0x0D⟩)) ∧
    (Issues (.eret g) s → ∃ t, exec (.eret g) s = .next t ∧ t.issue.jump = some s.cx.epc ∧ t.cx.stopCount = 0 ∧
      t.cx.estat = (if flag s.cx.estat 1 then 3 else 0) ∧ t.issue.returned = true ∧ t.mem = s.mem ∧
      t.cx.regs.pin = (s.cx.regs.pin.bind fun p => if p.suspended then (if p.holds s.cx.epc then some { p with suspended := false } else none)
        else some p) ∧ t.cx.regs.s = s.cx.regs.s ∧ t.cx.regs.v = s.cx.regs.v)

/-- R409: taking a fault. What is in flight lands; EPC, ECODE, EADDR and EINFO are written; PPRIV takes PRIV and PRIV becomes 1; the
stop-spacing count restarts; control goes to the vector at base + 64·code, the base being TRAPBASE or, when that is zero, TRAPDEV;
an active pin is suspended; memory is unchanged. With no vector base the fault is fatal: a context without an instance becomes FREE. -/
def Obligations.TrapEntry : Prop :=
  ∀ (s : State) (f : Trap) (epc : Word),
    let t := s.take f epc
    (s.landAll.vectorBase = 0 → s.cx.inst = none → t.cx.status = .free) ∧
    (s.landAll.vectorBase ≠ 0 → t.cx.epc = epc ∧ t.cx.ecode = f.code.setWidth 64 ∧ t.cx.eaddr = f.eaddr ∧ t.cx.einfo = f.einfo ∧
    t.cx.estat = (if flag s.landAll.cx.estat 0 then 3 else 1) ∧ t.cx.stopCount = 0 ∧
    t.cx.regs.pc = s.landAll.vectorBase + 64 * f.code.setWidth 64 ∧
    t.cx.regs.pin = s.landAll.cx.regs.pin.map (fun p => { p with suspended := true }) ∧
    t.readS = s.landAll.readS ∧ t.cx.regs.v = s.landAll.cx.regs.v ∧ t.cx.regs.rstack = s.landAll.cx.regs.rstack ∧
    t.cx.regs.mstack = s.landAll.cx.regs.mstack ∧ t.cx.regs.qp = s.landAll.cx.regs.qp ∧ t.mem = s.mem)

/-- R40, R57, R103, R241, R243: a load whose bytes can be reached, with no poison among them and none at a peer, writes the value of its
bytes, sign- or zero-extended, as a long-latency result; no byte of memory changes. A strong load does not see the context's own deferred
stores. Poisoned bytes are consumed; bytes of a peer are asked for, and the result comes with the replies, but not while the device drains
(R389) or an own write to the same bytes is on its way (R103): then the bundle blocks. What stops the translation stops the load.

R14, R16, R241, R243: from the unit store, the die store or a store of the cluster, with nothing deferred and no error, the value
loaded is that of the bytes stored there. -/
def Obligations.Loads : Prop :=
  (∀ (i : Instr) (s : State) (f : LoadForm),
     let b := s.begun i
     loadForm s i = some f → Issues i s → (f.strong = true → f.ea.toNat % f.n = 0) →
     (∀ x, b.resolve b.who f.space f.ea f.n .read = .error x → exec i s = .next (b.stopAccess .read x)) ∧
     (∀ ps, b.resolve b.who f.space f.ea f.n .read = .ok ps →
       let l := (b.loadPieces (!f.strong) ps).1
       let u := (b.loadPieces (!f.strong) ps).2
       u.mem.cells = s.mem.cells ∧ u.cx = b.cx ∧
       (l.poison = none → l.ask = [] → exec i s = .next (u.push .long f.dst (extendBytes l.bytes f.n f.sgn))) ∧
       (∀ a, l.poison = some a → exec i s = .next (u.consume (u.eccTrap f.space a))) ∧
       (l.poison = none → l.ask ≠ [] → u.askWaits l.ask = true → exec i s = .next u.blockBundle) ∧
       (l.poison = none → l.ask ≠ [] → u.askWaits l.ask = false → ∃ t, exec i s = .next t ∧ t.evt = .done ∧ t.mem.cells = s.mem.cells ∧
         t.cx.fresh = (u.pushAwait u.nextId f.dst (word (ofBytes l.bytes))).cx.fresh ∧
         (t.remotes.drop s.remotes.length).map (fun r => (r.ctx, r.dev, r.line, r.mask, r.flight)) =
           l.ask.map fun a => (s.cid, Fin.ofNat 64 a.1.at_.dev, a.1.line, a.2, u.nextId)))) ∧
  (∀ (i : Instr) (s : State) (f : LoadForm) (a : Nat),
     loadForm s i = some f → Issues i s → (f.strong = true → f.ea.toNat % f.n = 0) → s.plain →
     scratch s.cid f.space f.ea f.n = some a →
       exec i s = .next ((s.begun i).push .long f.dst (extendBytes (s.bytesAt a f.n) f.n f.sgn)))

/-- R67, R70, R112, R245: a strong access, an atomic or an instruction on a cell (whose size is 32 bytes) at an address that is not a multiple
of its size takes the alignment fault 0x06. What EADDR and EINFO hold is not stated: free values (assumption 9). That the fault is taken
whatever the translation would give is the model's reading (assumption 29). -/
def Obligations.StrongMisaligned : Prop :=
  ∀ (i : Instr) (s : State) (ea : Word) (n : Nat), strongAddr s i = some (ea, n) → Issues i s → ea.toNat % n ≠ 0 →
    ∃ a e, exec i s = .next ({ s.begun i with freeCount := s.freeCount + 2 }.trap ⟨0x06, a, e⟩)

/-- R242, R243, R55: an ordinary store to `.u` and an aligned strong store to `.u`, `.d` or `.c` write exactly their bytes at once;
every other byte of memory, the registers and what is in flight stay.

R243, R108: an aligned strong store whose place can be reached performs its piece, with `.rel` once the context's ordinary stores are
published. It waits while the parity count is full (R136), the device drains (R389) or an own write to its bytes is on its way (R103). -/
def Obligations.Stores : Prop :=
  (∀ (i : Instr) (s : State) (f : StoreForm) (a : Nat),
     storeForm s i = some f → Issues i s → s.plain → scratch s.cid f.space f.ea f.n = some a →
     (if f.strong then f.rel = false ∧ f.ea.toNat % f.n = 0 else f.space = .u) →
       ∃ t, exec i s = .next t ∧ t.Wrote s a (bytesOf f.n f.data.toNat) ∧ t.mem.wf = true ∧
         t.cx.regs = (s.begun i).cx.regs ∧ t.cx.fresh = s.cx.fresh ∧ t.cx.inflight = s.cx.inflight) ∧
  (∀ (i : Instr) (s : State) (f : StoreForm) (ps : List Piece),
     let b := s.begun i
     let m := b.publish.markOutbound
     let write := fun (t : State) => ps.foldl (fun t p => t.strongWrite p p.mask (p.data (bytesOf f.n f.data.toNat))) t
     storeForm s i = some f → f.strong = true → f.ea.toNat % f.n = 0 → Issues i s →
     b.resolve b.who f.space f.ea f.n .write = .ok ps →
       (f.rel = false → b.writeWaits ps = false → exec i s = .next (write b)) ∧
       (f.rel = false → b.writeWaits ps = true → exec i s = .next b.blockBundle) ∧
       (f.rel = true → b.publish.published = true → m.writeWaits ps = false → exec i s = .next (write m)) ∧
       (f.rel = true → b.publish.published = true → m.writeWaits ps = true → exec i s = .next m.blockBundle) ∧
       (f.rel = true → b.publish.published = false → exec i s = .next b.publish.blockBundle))

/-- R55, R58, R60, R242: an ordinary store to `.g`, `.d` or `.c` is deferred: while the partition has room no byte of memory and no
register changes; a full one gives its oldest line to the journal, and where that cannot be had the store faults: the journal is full or
not in use (R60), or the entry lies in the protected region, whose EADDR and EINFO are the model's choice (assumption 103).

R56, R57: what a deferred piece adds to what the context's ordinary loads see: its bytes, over the older ones, in its line alone. -/
def Obligations.DeferredStores : Prop :=
  (∀ (i : Instr) (s : State) (f : StoreForm) (ps : List Piece),
     let b := s.begun i
     storeForm s i = some f → f.strong = false → f.space ≠ .u → Issues i s →
     b.resolve b.who f.space f.ea f.n .write = .ok ps →
       (∀ t, b.deferAll (bytesOf f.n f.data.toNat) ps = .ok t → exec i s = .next t) ∧
       (∀ x, b.deferAll (bytesOf f.n f.data.toNat) ps = .error x → exec i s = .next (b.trap x)) ∧
       (∀ l ls, s.cx.dsb = l :: ls → 128 ≤ s.cx.dsb.length → (∀ p ∈ ps, s.cx.mergeable p.pod p.at_.key p.at_.prot = false) →
         (flag s.cx.dsbjournal 0 = false ∨ 32768 ≤ s.cx.journal.length) → exec i s = .next (b.trap (b.spillTrap 0x50))) ∧
       (s.cx.dsb.length + ps.length ≤ 128 → ∃ t, exec i s = .next t ∧ t.mem = s.mem ∧ t.cx.regs = b.cx.regs ∧
         t.cx.fresh = s.cx.fresh ∧ t.cx.inflight = s.cx.inflight)) ∧
  (∀ (s t : State) (p : Piece) (mask : BitVec 64) (data : Line), s.cx.dsb.length < 128 → s.deferPiece p mask data = .ok t →
     t.deferred p.pod = ((s.deferred p.pod).1 ||| mask, mergeLine (s.deferred p.pod).2 data mask) ∧
     ∀ q, q ≠ p.pod → t.deferred q = s.deferred q)

/-- R67, R69, R244: an aligned atomic on bytes of the unit, die or cluster stores replaces them by the new value and pushes the old one
as a long-latency result; no other byte changes.

R61, R67, R69, R244: an aligned atomic whose place can be reached. At a local home with no poison the old value is pushed and the new one
performed; poison there is consumed; a system register has no atomic unit: cause 0x21. At a peer it is sent, and the old value comes with
the reply. A release or an `.sc` one does so once the context's stores are published. It waits as a strong store does.

R67: what an atomic leaves in memory, on 64 and on 32 bits: sums wrap, the signed and unsigned orders differ, `cas` replaces only an
equal value. -/
def Obligations.Atomics : Prop :=
  (∀ (i : Instr) (s : State) (f : AmoForm) (a : Nat),
     amoForm s i = some f → f.ord = .rlx ∨ f.ord = .acq → Issues i s → s.plain → f.ea.toNat % f.n = 0 →
     scratch s.cid f.space f.ea f.n = some a →
       let old := ofBytes (s.bytesAt a f.n)
       ∃ t, exec i s = .next t ∧ t.Wrote s a (bytesOf f.n (amoNew f.op (8 * f.n) old f.x.toNat f.c.toNat)) ∧
         t.cx.fresh = ((s.begun i).push .long .queue (word old)).cx.fresh ∧
         t.cx.regs = ((s.begun i).push .long .queue (word old)).cx.regs) ∧
  (∀ (i : Instr) (s : State) (f : AmoForm) (p : Piece) (ps : List Piece),
     let b := s.begun i
     let m := b.publish.markOutbound
     let home := fun (u : State) =>
       let v := u.touch p.line p.mask
       ((v.strongEffect p).push .long .queue (word (v.homeValue p))).perform
         (((v.strongEffect p).push .long .queue (word (v.homeValue p))).writer true) p.line p.at_.key p.at_.prot p.mask
         (lineAt p.off (amoNew f.op (8 * f.n) (v.homeValue p) f.x.toNat f.c.toNat)) 0
     let sent := fun (u : State) =>
       let v := u.strongEffect p
       let v := if p.counted then v.parityUp v.cid none else v
       (({ v with nextId := v.nextId + 1 } : State).pushAwait v.nextId .queue 0).ask v.cid (.amo f.op f.w8 f.x f.c) p p.mask 0 v.nextId
         (p.places p.mask 0) 0 false
     let done := fun (u t : State) =>
       (u.writeWaits [p] = true → t = u.blockBundle) ∧
       (u.writeWaits [p] = false → p.at_.dev = s.device →
         ((u.touch p.line p.mask).poisonAt p p.mask = none → t = home u) ∧
         (∀ a, (u.touch p.line p.mask).poisonAt p p.mask = some a →
           t = (u.touch p.line p.mask).consume ((u.touch p.line p.mask).eccTrap p.space a))) ∧
       (u.writeWaits [p] = false → p.at_.dev ≠ s.device → t = sent u)
     amoForm s i = some f → Issues i s → f.ea.toNat % f.n = 0 → b.resolve b.who f.space f.ea f.n .write = .ok (p :: ps) →
       (b.noAtomicUnit p = true → exec i s = .next (b.trap (accessTrap 0x08 f.ea p.at_.info 0x21))) ∧
       (b.noAtomicUnit p = false → f.ord = .rlx ∨ f.ord = .acq → ∃ t, exec i s = .next t ∧ done b t) ∧
       (b.noAtomicUnit p = false → f.ord = .rel ∨ f.ord = .sc →
         (b.publish.published = false → exec i s = .next b.publish.blockBundle) ∧
         (b.publish.published = true → ∃ t, exec i s = .next t ∧ done m t))) ∧
  (∀ (w : Nat) (o x c : BitVec w) (k m : Nat), 0 < w →
     let new := fun op => amoNew op w o.toNat (x.toNat + 2 ^ w * k) (c.toNat + 2 ^ w * m)
     new .add = (o + x).toNat ∧ new .and = (o &&& x).toNat ∧ new .or = (o ||| x).toNat ∧ new .xor = (o ^^^ x).toNat ∧
     new .min = (if o.toInt ≤ x.toInt then o else x).toNat ∧ new .max = (if o.toInt ≤ x.toInt then x else o).toNat ∧
     new .minu = min o.toNat x.toNat ∧ new .maxu = max o.toNat x.toNat ∧ new .swap = x.toNat ∧
     new .cas = (if o = c then x else o).toNat)

/-- R70, R245: `fxinit` and `fxadd` on an aligned cell of the unit, die or cluster stores leave the new cell in its 32 bytes and change no
other byte; `fxrd` writes the cell's binary32 value as a long-latency result. -/
def Obligations.ScratchCells : Prop :=
  ∀ (i : Instr) (s : State) (op : FxOp) (x0 : Space) (ea x : Word) (a : Nat) (d : Dst) (y : Src) (g : Fin 16) (e : Bool),
    (cellForm s i = some (op, x0, ea, x) → Issues i s → s.plain → ea.toNat % 32 = 0 → scratch s.cid x0 ea 32 = some a →
      ∃ t, exec i s = .next t ∧ t.Wrote s a (bytesOf 32 (fxNew op (ofBytes (s.bytesAt a 32)) x)) ∧
        t.cx.regs = (s.begun i).cx.regs ∧ t.cx.fresh = s.cx.fresh) ∧
    (i = .fxrd g d y e x0 → Issues i s → s.plain → (s.readSrc y).toNat % 32 = 0 → scratch s.cid x0 (s.readSrc y) 32 = some a →
      exec i s = .next ((s.begun i).push .long d (word (fxRead (ofBytes (s.bytesAt a 32))))))

/-- R71: the result of adding terms to a cell does not depend on their order: any two additions commute, special values and wraps
included. -/
def Obligations.CellOrder : Prop :=
  ∀ (cell : Nat) (x y : Fp), fxAdd (fxAdd cell x) y = fxAdd (fxAdd cell y) x

/-- R110, R247: a fence goes on as a block point when it need not wait: with release the context's stores are published first, with acquire
its earlier reads have their values; while one of these is not so it blocks.

R102, R140, R141: `fence.surv` drains the context's protected lines, an outbound effect when there are any, and goes on once none is deferred,
none waits for its acknowledgement and no protected write is outstanding; a sticky bit is then raised as 0x0A with cause 0x4C or 0x4D, and cleared.

R63, R122, R123, R248: milestone barriers. A wait with nothing pending goes on, one whose phase is done clears PEND, one whose phase is
not done blocks. An arrival, once the stores are published and the operations joined, commits the buffer phase and counts in its phase;
`mls` then waits: it goes on when its arrival completes the phase, and else blocks, to wait alone when it is tried again at its code
address (the model's choice of how a bundle that blocks goes on: assumption 78). `mls.q` tells whether a wait would go on. A barrier that the
node does not declare is 0x01 with cause 0x0A.

R120, R121, R124: a phase completes with its last arrival and not before: the phase bit flips and the count starts again. -/
def Obligations.FencesAndMilestones : Prop :=
  (∀ (s : State) (g : Fin 16) (o : FenceOrd) (c : Scope), Issues (.fence g o c) s →
     let b := s.begun (.fence g o c)
     let m := b.publish.markOutbound
     (o = .acq → exec (.fence g o c) s = .next (if s.readsBound then b else b.blockBundle)) ∧
     (o ≠ .acq → b.publish.published = false → exec (.fence g o c) s = .next b.publish.blockBundle) ∧
     (o = .rel → b.publish.published = true → exec (.fence g o c) s = .next m) ∧
     (o = .acqrel ∨ o = .sc → b.publish.published = true →
       exec (.fence g o c) s = .next (if m.readsBound then m else m.blockBundle))) ∧
  (∀ (s : State) (g : Fin 16), Issues (.fenceSurv g) s →
     let b := s.begun (.fenceSurv g)
     let u := if s.protDrained then b else (b.drain true).markOutbound
     (u.protDrained = false ∨ u.cx.parity ≠ 0 ∨ (∃ l ∈ u.cx.awaiting, l.prot = true) → exec (.fenceSurv g) s = .next u.blockBundle) ∧
     (u.protDrained = true → u.cx.parity = 0 → (∀ l ∈ u.cx.awaiting, l.prot = false) →
       (u.cx.nohold = none → u.cx.nopar = none → exec (.fenceSurv g) s = .next u) ∧
       (∀ d, u.cx.nohold = some d →
         exec (.fenceSurv g) s = .next ({ u with cx := { u.cx with nohold := none } }.survivalFault d 0x4C)) ∧
       (∀ d, u.cx.nohold = none → u.cx.nopar = some d →
         exec (.fenceSurv g) s = .next ({ u with cx := { u.cx with nopar := none } }.survivalFault d 0x4D)))) ∧
  (∀ (s : State) (g k : Fin 16) (d : Dst) (x : Barrier),
     let part := s.cx.barriers[k]
     let free := part.pend = false ∨ x.done (part.next - 1) = true
     let ready := fun (b z : State) => b.publish.published = true ∧
       (∀ o ∈ b.publish.markOutbound.allJoins, o.complete = true ∧ o.fault = none) ∧
       z = b.publish.markOutbound.allJoins.foldl State.joined b.publish.markOutbound ∧ (∀ r ∈ z.ownRelayouts, r.state ≠ .active)
     (Issues (.mlsWt g k) s → s.myBarrier k.val = some x → part.pend = false → exec (.mlsWt g k) s = .next (s.begun (.mlsWt g k))) ∧
     (Issues (.mlsWt g k) s → s.myBarrier k.val = some x → part.pend = true → x.done (part.next - 1) = true →
       exec (.mlsWt g k) s = .next ((s.begun (.mlsWt g k)).setPart k { part with pend := false, waiting := none })) ∧
     (Issues (.mlsWt g k) s → s.myBarrier k.val = some x → part.pend = true → x.done (part.next - 1) = false →
       exec (.mlsWt g k) s = .next (s.begun (.mlsWt g k)).blockBundle) ∧
     (Issues (.mlsArr g k) s → s.myBarrier k.val = some x → ¬ free →
       exec (.mlsArr g k) s = .next (s.begun (.mlsArr g k)).blockBundle) ∧
     (∀ z, Issues (.mlsArr g k) s → s.myBarrier k.val = some x → free → ready (s.begun (.mlsArr g k)) z →
       exec (.mlsArr g k) s = .next (z.countArrival k x)) ∧
     (∀ z, Issues (.mls g k) s → s.myBarrier k.val = some x → part.waiting ≠ some s.cx.regs.pc → free → ready (s.begun (.mls g k)) z →
       exec (.mls g k) s = .next (((z.countArrival k x).setPart k { (z.countArrival k x).cx.barriers[k] with waiting := some s.cx.regs.pc }).waitBarrier k)) ∧
     (Issues (.mls g k) s → s.myBarrier k.val = some x → part.waiting = some s.cx.regs.pc → part.pend = true → x.done (part.next - 1) = true →
       exec (.mls g k) s = .next ((s.begun (.mls g k)).setPart k { part with pend := false, waiting := none })) ∧
     (Issues (.mls g k) s → s.myBarrier k.val = some x → part.waiting = some s.cx.regs.pc → part.pend = true → x.done (part.next - 1) = false →
       exec (.mls g k) s = .next (s.begun (.mls g k)).blockBundle) ∧
     (Issues (.mlsQ g d k) s → s.myBarrier k.val = some x →
       exec (.mlsQ g d k) s = .next ((s.begun (.mlsQ g d k)).push .s1 d (word (!part.pend || x.done (part.next - 1)).toNat))) ∧
     (s.issue.checked = false → s.myBarrier k.val = none → s.issue.stop = true → ∀ i ∈ [Instr.mls g k, .mlsArr g k, .mlsWt g k, .mlsQ g d k],
       exec i s = .next (s.idle.trap ⟨0x01, s.cx.regs.pc, bundleInfo 0 s.issue.slot.val false 0x0A⟩)) ∧
     (let y := s.countArrival k x
      y.cx.barriers[k] = { part with next := part.next + 1, pend := true } ∧ x.arrive part.next ∈ y.pool.barriers ∧
       (s.cx.journal = [] → (∃ c, y.cx.ckpt = some c ∧ c.committed = true ∧ c.outbound = false) ∧ (∀ l ∈ y.cx.dsb, l.isSealed = true)))) ∧
  (∀ (x : Barrier) (n : Nat), let y := x.arrive n
     (x.arrivals (n % 2 == 1) + 1 = x.n → y.phase = !x.phase ∧ y.arrivals (n % 2 == 1) = 0) ∧
     (x.arrivals (n % 2 == 1) + 1 ≠ x.n → y.phase = x.phase ∧ y.arrivals (n % 2 == 1) = x.arrivals (n % 2 == 1) + 1) ∧
     y.arrivals (n % 2 == 0) = x.arrivals (n % 2 == 0) ∧ y.n = x.n)

/-- R87, R93, R239, R240: `hset` changes the field its selector names when the value fits and the descriptor stays well formed, and otherwise
takes the handle fault: cause 0x06 for a selector or a value out of range, 0x08 while RLY is 1, else the cause of R75; `hst` stores the
descriptor and leaves the register with the address it stored to; `hcoord` gives the element's address, or takes the handle fault of a
coordinate that is not below its extent, or of one for a dimension that the rank lacks (DIM 6, reported first: the model's choice, assumption
106); while a relayout has the tile it waits, a done bit that cannot be read stops it, and one at a peer is asked for. The model's choices:
WR 0 (assumption 98) and the current DADDR as EADDR of a handle fault (assumption 30), the S1 class of the handle writes (assumption 31) and
how the done bit is read (assumption 32).

R76, R238, R239: `hld` and `mpar` of 64 bytes that have been read: a well-formed descriptor enters the register with its home, one that is
not takes the handle fault with the cause of R75; eight parameters enter a0 to a7. From the unit, die or cluster stores, with nothing
deferred and no error, the bytes are those stored there. Where the bytes cannot be read, both end as the read does. -/
def Obligations.Handles : Prop :=
  (∀ (s : State) (g h : Fin 16) (a b : Src) (e f : Bool) (x0 : Space) (d : Dst) (x : Fin 8),
     let set := s.begun (.hset g h a b e f)
     let sel := hsetField[field (s.readSrc b) 0 4]?
     let bad := fun (c : Nat) => set.trap (handleTrap (s.readH h).daddr h.val 0 false false c)
     let st := s.begun (.hst g h a e x0)
     let k : Fin 16 := Fin.ofNat 16 x.val
     let es := Desc.exts (s.readH k).desc
     let xs := batchCoords es (s.readSrc a).toNat (field (s.readSrc b) 32 32) (field (s.readSrc b) 0 32)
     let co := s.begun (.hcoord g d a b e f x)
     let u := co.touchDone s.who (s.readH k)
     (Issues (.hset g h a b e f) s →
       (Desc.rly (s.readH h).desc = true → exec (.hset g h a b e f) s = .next (bad 0x08)) ∧
       (Desc.rly (s.readH h).desc = false → sel = none → exec (.hset g h a b e f) s = .next (bad 0x06)) ∧
       (∀ lo len, Desc.rly (s.readH h).desc = false → sel = some (lo, len) →
         let v := setDField (s.readH h).desc lo len (s.readSrc a).toNat
         (2 ^ len ≤ (s.readSrc a).toNat → exec (.hset g h a b e f) s = .next (bad 0x06)) ∧
         (∀ c, (s.readSrc a).toNat < 2 ^ len → descCause v = some c → exec (.hset g h a b e f) s = .next (bad c)) ∧
         ((s.readSrc a).toNat < 2 ^ len → descCause v = none →
           exec (.hset g h a b e f) s = .next (set.write .s1 (.h h) (.handle ⟨v, (s.readH h).daddr⟩))))) ∧
     (∀ t, Issues (.hst g h a e x0) s → st.storeOrd x0 (s.readSrc a) (bytesOf 64 (s.readH h).desc.toNat) = t →
       (t.evt = .done → exec (.hst g h a e x0) s = .next (t.write .s1 (.h h) (.handle ⟨(s.readH h).desc, homeOf x0 (s.readSrc a)⟩))) ∧
       (t.evt ≠ .done → exec (.hst g h a e x0) s = .next t)) ∧
     (Issues (.hcoord g d a b e f x) s →
       (missingDim es (s.readSrc a).toNat (field (s.readSrc b) 32 32) = true → exec (.hcoord g d a b e f x) s =
         .next (co.trap (handleTrap (s.readH k).daddr x.val 6 false false 0x07))) ∧
       (missingDim es (s.readSrc a).toNat (field (s.readSrc b) 32 32) = false →
         (∀ v, u.element s.who (s.readH k) xs false = .at_ v → exec (.hcoord g d a b e f x) s =
           .next (u.push (if (s.relayoutOf (s.readH k).daddr).isSome then .long else .s3) d v)) ∧
         (∀ c n, u.element s.who (s.readH k) xs false = .bad c n → exec (.hcoord g d a b e f x) s =
           .next (u.trap (handleTrap (s.readH k).daddr x.val n false false c))) ∧
         (u.element s.who (s.readH k) xs false = .wait → exec (.hcoord g d a b e f x) s = .next u.blockBundle) ∧
         (∀ y, u.element s.who (s.readH k) xs false = .stop y → exec (.hcoord g d a b e f x) s = .next (u.stopAccess .read y)) ∧
         (∀ p, u.element s.who (s.readH k) xs false = .ask p → exec (.hcoord g d a b e f x) s =
           .next (if u.askWaits [(p, p.mask)] then u.blockBundle else (u.askKept false [] [(p, p.mask)]).blockBundle))))) ∧
  (∀ (s u : State) (g h : Fin 16) (y : Src) (e : Bool) (x0 : Space) (bs : List Byte),
     let hb := s.begun (.hld g h y e x0)
     let mb := s.begun (.mpar g y e x0)
     let regs := List.ofFn fun k : Fin 8 => Reg.a k
     let load := fun (t : State) => t.write .s1 (.h h) (.handle ⟨BitVec.ofNat 512 (ofBytes bs), homeOf x0 (s.readSrc y)⟩)
     let params := fun (t : State) => (List.finRange 8).foldl
       (fun t k => t.write .s1 (.a k) (.word (word (ofBytes ((bs.drop (8 * k.val)).take 8))))) t
     let cause := descCause (BitVec.ofNat 512 (ofBytes bs))
     (Issues (.hld g h y e x0) s → hb.readBlocking s.who true [.h h] x0 (s.readSrc y) 64 = .ok (bs, u) →
       (cause = none → exec (.hld g h y e x0) s = .next (load u)) ∧
       (∀ c, cause = some c → exec (.hld g h y e x0) s = .next (u.trap (handleTrap (u.readH h).daddr h.val 0 false false c)))) ∧
     (Issues (.hld g h y e x0) s → hb.readBlocking s.who true [.h h] x0 (s.readSrc y) 64 = .error u → exec (.hld g h y e x0) s = .next u) ∧
     (Issues (.mpar g y e x0) s → mb.readBlocking s.who true regs x0 (s.readSrc y) 64 = .ok (bs, u) →
       exec (.mpar g y e x0) s = .next (params u)) ∧
     (Issues (.mpar g y e x0) s → mb.readBlocking s.who true regs x0 (s.readSrc y) 64 = .error u → exec (.mpar g y e x0) s = .next u) ∧
     (∀ a, s.plain → scratch s.cid x0 (s.readSrc y) 64 = some a → bs = s.bytesAt a 64 →
       (Issues (.hld g h y e x0) s → cause = none → exec (.hld g h y e x0) s = .next (load hb)) ∧
       (Issues (.mpar g y e x0) s → exec (.mpar g y e x0) s = .next (params mb))))

/-- R23, R58, R144, R175, R198, R216, R249, R250, R360, R364, R399: what a landed write leaves in a system register, by name, as `sysrd` reads it. CTXID,
LOOPCNT and BOOSTLVL are not written; SPILLPTR takes BASE alone, DSBJOURNAL EN and BASE, ESTAT SYS; FPMODE takes its modes and its warning
count, and its flags are cleared by ones; ISSUECTL takes STRICT, and VIOL is cleared by a one; PERMITS takes effect at the next toll
boundary and is ignored when its values are not legal; SLOTMAP is taken whole but for GMASK, and ignored when DEAD is 0 and the map is not one
of surviving instances; KATSIG's valid bit is cleared by a one. One register is written at a time.

R175, R249: FPMODE as `sysrd` reads it: a landed write replaces SR, RM, SAT8 and the warning count and clears the flags that are written as
ones; flags that land are raised and none is lowered, and the warning count adds up to its limit. -/
def Obligations.SystemRegisters : Prop :=
  (∀ (s : State) (v : Word) (m n : SysReg), let t := s.writeSys n v
     let old := s.readSys n
     let new := t.readSys n
     let takes := fun (p : Nat → Bool) => ∀ j, j < 64 → new.getLsbD j = if p j then v.getLsbD j else old.getLsbD j
     (m ≠ n → t.readSys m = s.readSys m) ∧
     (n = .epc ∨ n = .eaddr ∨ n = .einfo ∨ n = .energy → new = v) ∧
     (n = .ecode → new = v &&& 0xFF) ∧
     (n = .trapbase → new = v &&& 0x00FFFFFFFFFFC000) ∧
     (n = .estat → takes fun j => j == 1) ∧
     (n = .issuectl → new = (v &&& 1) ||| (s.cx.regs.issuectl &&& 2 &&& ~~~ v)) ∧
     (n = .ctxid ∨ n = .loopcnt ∨ n = .boostlvl → t = s) ∧
     (n = .spillptr → takes fun j => 12 ≤ j && j < 56) ∧
     (n = .dsbjournal → takes fun j => j == 0 || (22 ≤ j && j < 42)) ∧
     (n = .fpmode → ∀ j, j < 64 → new.getLsbD j =
       if j < 4 || (16 ≤ j && j < 32) then v.getLsbD j else (decide (5 ≤ j ∧ j < 10) && old.getLsbD j && !v.getLsbD j)) ∧
     (n = .permits → new = old ∧
       (field v 8 7 ≤ 64 ∧ field v 0 7 ≤ field v 8 7 → (t.clusterAt (clusterOf s.cid)).permitsPend = some (v &&& 0x7F7F)) ∧
       (¬ (field v 8 7 ≤ 64 ∧ field v 0 7 ≤ field v 8 7) → t = s)) ∧
     (n = .slotmap →
       (flag v 0 = true ∨ slotmapLegal v = true → ∀ j, j < 64 → new.getLsbD j =
         if 8 ≤ j ∧ j < 16 then old.getLsbD j else decide (j = 0 ∨ (22 ≤ j ∧ j < 48)) && v.getLsbD j) ∧
       (flag v 0 = false → slotmapLegal v = false → t = s)) ∧
     (n = .katsig → ∀ j, j < 64 → new.getLsbD j = (old.getLsbD j && !(j == 63 && v.getLsbD 63))) ∧
     t.mem = s.mem ∧ t.cx.regs.s = s.cx.regs.s ∧ t.cx.inflight = s.cx.inflight) ∧
  (∀ (s : State) (v : Word) (f : Flight) (b : BitVec 10) (k : Nat),
     let w := s.writeSys .fpmode v
     let r := s.landOne { f with reg := .flags, val := .flags b k }
     let old := s.readSys .fpmode
     field (w.readSys .fpmode) 0 4 = field v 0 4 ∧ field (w.readSys .fpmode) 16 16 = field v 16 16 ∧
     (∀ j, 5 ≤ j → j < 10 → (w.readSys .fpmode).getLsbD j = (old.getLsbD j && !v.getLsbD j)) ∧
     (∀ j, 5 ≤ j → j < 10 → (r.readSys .fpmode).getLsbD j = (old.getLsbD j || b.getLsbD j)) ∧
     (∀ j, j < 5 → (r.readSys .fpmode).getLsbD j = old.getLsbD j) ∧
     field (r.readSys .fpmode) 16 16 = min 65535 (field old 16 16 + k))

/-- R31, R249, R252, R253: `syswr` puts a write of the register in flight; `pwr.req` of a
level up to 2 and `pwr.rel` set the boost request, a higher level is cause 0x26; `tlb.pf` changes only what translation remembers
or has under way; `pg.inv` is a release and then an invalidation, and blocks while the release is not complete.

R31: after an invalidation no TLB of the device holds an entry whose page overlaps the range, entries that do not stay, and no context
keeps the failure of a walk whose page (or the range that its failed entry stands for) overlaps the range.

R227, R364, R365, R419: the other privileged B instructions: `kat.arm` writes KATCTL when its reserved bits are zero and is cause 0x2D
otherwise; `halt.ctx` asks a context to stop and blocks until it is saved, goes on at once when it is FREE or SAVED, and is cause 0x23 for
itself or no context. -/
def Obligations.SystemInstructions : Prop :=
  (∀ (s : State) (g : Fin 16) (n : SysReg) (x y : Src) (e f : Bool),
     let w := s.begun (.syswr g n y)
     let q := s.begun (.pwrReq g x e)
     let r := s.begun (.pwrRel g)
     let p := (s.begun (.pgInv g x y e f)).publish
     (Issues (.syswr g n y) s → exec (.syswr g n y) s = .next (w.write .s1 (.sys n) (.word (s.readSrc y)))) ∧
     (Issues (.pwrReq g x e) s → (s.readSrc x).toNat ≤ 2 → exec (.pwrReq g x e) s =
       .next { q with cx := { q.cx with boostReq := (s.readSrc x).toNat } }) ∧
     (Issues (.pwrReq g x e) s → 2 < (s.readSrc x).toNat → exec (.pwrReq g x e) s =
       .next (q.trap ⟨0x01, s.cx.regs.pc, bundleInfo 0 s.issue.slot.val false 0x26⟩)) ∧
     (Issues (.pwrRel g) s → exec (.pwrRel g) s = .next { r with cx := { r.cx with boostReq := 0 } }) ∧
     (Issues (.tlbPf g x e) s → ∃ t, exec (.tlbPf g x e) s = .next t ∧ t.evt = .done ∧ t.mem.cells = s.mem.cells ∧
       t.cx = (s.begun (.tlbPf g x e)).cx) ∧
     (Issues (.pgInv g x y e f) s → p.published = true → exec (.pgInv g x y e f) s =
       .next (p.markOutbound.invalidate (field (s.readSrc x) 0 56) (s.readSrc y).toNat)) ∧
     (Issues (.pgInv g x y e f) s → p.published = false → exec (.pgInv g x y e f) s = .next p.blockBundle)) ∧
  (∀ (s : State) (a n : Nat), let t := s.invalidate a n
     (∀ e ∈ t.core.tlb, e.overlaps a n = false) ∧ (∀ k ∈ t.cores, ∀ e ∈ k.2.tlb, e.overlaps a n = false) ∧
     (∀ d ∈ t.dies, ∀ e ∈ d.2.tlb, e.overlaps a n = false) ∧ (∀ e ∈ s.core.tlb, e.overlaps a n = false → e ∈ t.core.tlb) ∧
     (∀ c va f, (t.ctx c).walkFault = some (va, f) → let k := 2 ^ failShift f
       n ≠ 0 ∧ ¬ (va.toNat / k * k < a + n ∧ a < (va.toNat / k + 1) * k)) ∧
     (∀ c va f, (s.ctx c).walkFault = some (va, f) → let k := 2 ^ failShift f
       n ≠ 0 → ¬ (va.toNat / k * k < a + n ∧ a < (va.toNat / k + 1) * k) → (t.ctx c).walkFault = some (va, f)) ∧
     t.mem = s.mem ∧ t.cx.regs = s.cx.regs) ∧
  (∀ (s : State) (g : Fin 16) (x : Src) (e : Bool),
     let k := s.begun (.katArm g x e)
     let b := s.begun (.haltCtx g x e)
     let c := (s.readSrc x).toNat
     (Issues (.katArm g x e) s → s.readSrc x &&& katReserved = 0 → exec (.katArm g x e) s =
       .next { k with core := { k.core with katctl := s.readSrc x } }) ∧
     (Issues (.katArm g x e) s → s.readSrc x &&& katReserved ≠ 0 → exec (.katArm g x e) s =
       .next (k.trap ⟨0x01, s.cx.regs.pc, bundleInfo 0 s.issue.slot.val false 0x2D⟩)) ∧
     (Issues (.haltCtx g x e) s → c < 18432 → c ≠ s.cid → s.live c = false → exec (.haltCtx g x e) s = .next b) ∧
     (Issues (.haltCtx g x e) s → c < 18432 → c ≠ s.cid → s.live c = true →
       exec (.haltCtx g x e) s = .next ((b.requestStop c).blockOn (.saved c)) ∧
       ((b.requestStop c).ctx c).stopReq.isSome = true) ∧
     (Issues (.haltCtx g x e) s → 18432 ≤ c ∨ c = s.cid → exec (.haltCtx g x e) s =
       .next (b.trap ⟨0x01, s.cx.regs.pc, bundleInfo 0 s.issue.slot.val false 0x23⟩)))

/-- R195, R201, R207: a syllable whose guard reads 0 has no effect; one that is not legal in this state, needs an engine its core
lacks, or is privileged outside system privilege takes 0x01, 0x03 or 0x02 at its bundle, in this order, whatever its guard; any other
fault of the checks is taken there too.

R193, R194, R195, R197, R198, R207: step 4. A register is empty while a long-latency result for it is in flight. A source that may not be empty and
is takes 0x04; where none is, a source or destination (or an entry that a push takes) that is still to come blocks the bundle; where none is,
a vector bank in retention is woken before an instruction that names it (how long that takes is the model's choice, assumption 93); then an
invalid vector source takes 0x05, and under STRICT a source with a fixed-latency write to come takes 0x0D. A syllable whose guard reads 0
reads its guard alone. The order of these within step 4 is the model's reading (assumption 73).

R165, R207, R216: step 3. A push on a full stack whose spill area is full is the stack-spill fault with cause 0x52, a pop with nothing left
0x53; where the access to the spill entry faults, its fault is taken; where it misses, the context parks for the walk. -/
def Obligations.ChecksBeforeIssue : Prop :=
  (∀ (i : Instr) (s : State), i.cls ≠ .micro → i.cls ≠ .event →
     let f := Instr.info s i
     let tr := fun (code : BitVec 8) (c : Nat) => s.idle.trap ⟨code, s.cx.regs.pc, bundleInfo 0 s.issue.slot.val false c⟩
     (s.issue.checked = true → s.readP f.guard = false → exec i s = .next s.idle) ∧
     (s.issue.checked = false →
       (∀ c, f.cause = some c → exec i s = .next (tr 0x01 c)) ∧
       (f.cause = none → s.absent f.engine = true → exec i s = .next (tr 0x03 0)) ∧
       (f.cause = none → s.absent f.engine = false → f.priv = true → s.system = false → exec i s = .next (tr 0x02 0)) ∧
       (s.idle.checks [(s.issue.slot, f)] = .go → s.readP f.guard = false → exec i s = .next (s.begun i)) ∧
       (∀ t k, s.idle.checks [(s.issue.slot, f)] = .fault t k → exec i s = .next (s.idle.trap t)))) ∧
  (∀ (i : Instr) (s : State), i.cls ≠ .micro → i.cls ≠ .event →
     let f := Instr.info s i
     let on := s.readP f.guard
     let reads := if on then pUse f.guard :: f.uses else [pUse f.guard]
     let writes := if on then f.dsts ++ (List.range f.pushes).map (fun k => Reg.qr (Fin.ofNat 16 (s.cx.regs.qp.toNat + k))) else []
     let coming := fun (r : Reg) => ∃ x ∈ s.cx.inflight, x.reg = r ∧ x.land = none
     let invalid := fun (r : Reg) => ∃ v, r = .v v ∧ s.cx.regs.vinvalid.getLsbD v.val = true
     let late := fun (r : Reg) => ∃ x ∈ s.cx.inflight, ∃ c, x.land = some c ∧ s.issue.cycle < c ∧ (x.reg = r ∨ (r = .sys .fpmode ∧ x.reg = .flags))
     let names := on = true ∧ ((∃ u ∈ reads, u.reg.isVector = true) ∨ (∃ r ∈ f.dsts, r.isVector = true))
     let faults := fun (code : BitVec 8) (bad : Use → Prop) => ∃ u ∈ reads, bad u ∧
       exec i s = .next (s.idle.trap ⟨code, s.cx.regs.pc, bundleInfo u.code s.issue.slot.val false 0⟩)
     s.issue.checked = false → f.cause = none → s.absent f.engine = false → (f.priv = true → s.system = true) →
     f.stack = .none ∨ on = false →
       ((∃ u ∈ reads, u.trap = true ∧ coming u.reg) → faults 0x04 fun u => u.trap = true ∧ coming u.reg) ∧
       ((∀ u ∈ reads, u.trap = true → ¬ coming u.reg) → (∃ u ∈ reads, coming u.reg) ∨ (∃ r ∈ writes, coming r) →
         exec i s = .next s.idle.blockBundle) ∧
       ((∀ u ∈ reads, ¬ coming u.reg) → (∀ r ∈ writes, ¬ coming r) →
         (s.cx.retained = true → names →
           exec i s = .next ({ s.idle with cx := { s.cx with retained := false } }.blockOn (.time (s.now + 2000)))) ∧
         (s.cx.retained = false ∨ ¬ names →
           ((∃ u ∈ reads, invalid u.reg) → faults 0x05 fun u => invalid u.reg) ∧
           ((∀ u ∈ reads, ¬ invalid u.reg) → flag s.cx.regs.issuectl 0 = true →
             (∃ u ∈ reads, u.reg.isConst = false ∧ late u.reg) → faults 0x0D fun u => u.reg.isConst = false ∧ late u.reg)))) ∧
  (∀ (i : Instr) (s : State) (mask push : Bool), i.cls ≠ .micro → i.cls ≠ .event →
     let f := Instr.info s i
     let chip := if mask then s.cx.regs.mstack.length else s.cx.regs.rstack.length
     let spilled := if mask then field s.cx.regs.spillptr 4 8 else field s.cx.regs.spillptr 56 8
     let entry := if push then spilled else spilled - 1
     let trap := fun (ea : Word) c => s.idle.trap ⟨0x0B, ea, bundleInfo 0 s.issue.slot.val false c⟩
     s.issue.checked = false → f.cause = none → s.absent f.engine = false → (f.priv = true → s.system = true) → s.readP f.guard = true →
     f.stack = (match mask, push with | false, true => .pushR | false, false => .popR | true, true => .pushM | true, false => .popM) →
     (if push then (if mask then 8 else 16) ≤ chip else chip = 0) →
       (push = true → spilled = 255 → exec i s = .next (trap s.cx.regs.pc 0x52)) ∧
       (push = false → spilled = 0 → exec i s = .next (trap s.cx.regs.pc 0x53)) ∧
       ((if push then spilled ≠ 255 else spilled ≠ 0) →
         (∀ t, s.spillPlace mask entry (if push then .write else .read) = .error (.fault t) → exec i s = .next (s.idle.trap t)) ∧
         (∀ va, s.spillPlace mask entry (if push then .write else .read) = .error (.miss va) → exec i s =
           .next { s.idle.parkOn (.walk va push true) with evt := .walk })))

/-- R267: the reductions write one scalar result with its flags; of integers, the sum modulo 2^32, the greatest or the least of the
active elements, extended from 32 bits.

R271, R272, R177: conversions write their active elements, their flags, and the lane states when rounding is stochastic.

R176, R271: without stochastic rounding an active element of a conversion is the rounded code of its exact value, an inactive one
keeps its value, and no lane state changes.

R177, R275: `vsrnd` seeds the states of the active lanes, a zero seed as 1; the others stay when it lands. -/
def Obligations.Conversions : Prop :=
  (∀ (s : State) (g d a : Fin 16) (m : Fin 8) (e : Bool) (t : XTy),
     let xs := (activeSeq (XTy.width t) (s.readM m) (s.readV a)).map fun x => intOf (XTy.width t) (XTy.isSigned t) x.2
     let r := fun (x : Word × FFlags) (b : State) => (b.push .long (.s d) x.1).writeFlags .long x.2 0
     (Issues (.vrsum g d a m e t) s → exec (.vrsum g d a m e t) s =
       .next (r (reduceSum t s.rounding (s.readM m) (s.readV a)) (s.begun (.vrsum g d a m e t)))) ∧
     (Issues (.vrmax g d a m e t) s → exec (.vrmax g d a m e t) s =
       .next (r (reduceExtreme t true (s.readM m) (s.readV a)) (s.begun (.vrmax g d a m e t)))) ∧
     (Issues (.vrmin g d a m e t) s → exec (.vrmin g d a m e t) s =
       .next (r (reduceExtreme t false (s.readM m) (s.readV a)) (s.begun (.vrmin g d a m e t)))) ∧
     (XTy.fmt t = none → reduceSum t s.rounding (s.readM m) (s.readV a) = (extend32 (XTy.isSigned t) (codeOf 32 xs.sum), 0)) ∧
     (XTy.fmt t = none → xs ≠ [] →
       (∃ x ∈ xs, (∀ y ∈ xs, y ≤ x) ∧ reduceExtreme t true (s.readM m) (s.readV a) = (extend32 (XTy.isSigned t) (codeOf 32 x), 0)) ∧
       (∃ x ∈ xs, (∀ y ∈ xs, x ≤ y) ∧ reduceExtreme t false (s.readM m) (s.readV a) = (extend32 (XTy.isSigned t) (codeOf 32 x), 0)))) ∧
  (∀ (i : Instr) (s : State) (g d a h : Fin 16) (m t : Fin 8) (e : Bool),
     (∀ f, convForm s i = some f → Issues i s → exec i s = .next ((s.begun i).convert f.dst f.sr f.reg f.on f.src)) ∧
     (∀ f, toIntForm i = some f → Issues i s → exec i s = .next ((s.begun i).putVec .v4 f.2.2.1
       (mapLanes (s.readM f.2.2.2.2) (s.readV f.2.2.1)
         (lift1 f.1.width (fun x => Fp.toIntCode s.rounding f.1.width f.2.1 (f.1.decode x)) (s.readV f.2.2.2.1))))) ∧
     (Issues (.vunpk g d a h m e t) s → exec (.vunpk g d a h m e t) s = .next ((s.begun (.vunpk g d a h m e t)).putVec .v4 d
       (fromSeq (unpackForm t).2.1 (s.readM m) (s.readV d) fun k =>
         (unpackForm t).2.2 (seqElem (unpackForm t).1 (s.readV a) (elemCount (unpackForm t).2.1 * h.val + k)), 0)))) ∧
  (∀ (dst : Fmt) (r : Rounding) (on : Nat → Bool) (src : Nat → Fp) (old lfsr : VReg) (k : Nat),
     dst.width = 8 ∨ dst.width = 16 ∨ dst.width = 32 → k < elemCount dst.width →
     let x := convertLanes dst r false on src old lfsr
     seqElem dst.width x.1 k = (if on k then (dst.encode r (src k)).1 % 2 ^ dst.width else seqElem dst.width old k) ∧ x.2.2 = lfsr) ∧
  (∀ (s : State) (g a : Fin 16) (m : Fin 8) (e : Bool), Issues (.vsrnd g a m e) s →
     ∃ v : VReg, exec (.vsrnd g a m e) s = .next ((s.begun (.vsrnd g a m e)).write .v2 .lfsr (.vec v)) ∧
       ∀ (t : State) (f : Flight) (l : Nat), f.reg = .lfsr → f.val = .vec v → l < 64 →
         at_ (t.landOne f).cx.regs.lfsr l 0 =
           if (s.readM m).getLsbD l then (if at_ (s.readV a) l 0 = 0 then 1 else at_ (s.readV a) l 0) else at_ t.cx.regs.lfsr l 0)

/-- R180 to R185, R273, R274: `vqnt` writes the codes and the scales of its row to vd and vd + 1 and advances the lane states, or is
cause 0x2A when a register it needs is past v15; `vdqnt` writes the values of codes with their blocks' scales. The model's choices: when
NX is raised and which blocks count as warnings (assumption 34), how a lane's state is used and advanced (assumption 35), and that 0x2A for
vd = 15 is raised with the group check (assumption 108). -/
def Obligations.Quantisers : Prop :=
  ∀ (s : State) (g d a b : Fin 16) (j : Fin 4) (e f : Bool) (t : MxFmt),
    let n := groupCount (s.readS b)
    let q := quantiseRow s.rounding s.stochastic (field (s.readS b) 0 4) (mxMax t)
      ((List.range n).flatMap fun i => (s.readV (Fin.ofNat 16 (a.val + i))).toList.map BitVec.toNat) s.cx.regs.lfsr
    (Issues (.vqnt g d a b e f t) s → a.val + n ≤ 16 → d.val < 15 → 0 < n → exec (.vqnt g d a b e f t) s =
      .next (((((s.begun (.vqnt g d a b e f t)).putVec .long d
        (vecOf ((List.range (4 * n)).flatMap fun k => bytesOf (mxGranule t) (packCodes (mxBits t) ((q.codes.drop (16 * k)).take 16))),
          q.flags)).write .long (.v (d + 1)) (.vec (scaleLanes q))).modRegs fun r => { r with lfsr := q.lfsr }))) ∧
    (Issues (.vqnt g d a b e f t) s → 0 < n → (16 < a.val + n ∨ d.val = 15) → exec (.vqnt g d a b e f t) s =
      .next ((s.begun (.vqnt g d a b e f t)).trap ⟨0x01, s.cx.regs.pc, bundleInfo 0 s.issue.slot.val false 0x2A⟩)) ∧
    (Issues (.vdqnt g d a b j e f t) s → ∃ (x : VReg) (fl : FFlags) (k : Nat), exec (.vdqnt g d a b j e f t) s =
      .next (((s.begun (.vdqnt g d a b j e f t)).write .v4 (.v d) (.vec x)).writeFlags .v4 fl k) ∧
      ∀ l < 64, at_ x l 0 = BitVec.ofNat 32 (Fmt.f32.finish s.rounding (scaled24 (codeIn t (s.readV a) (64 * j.val + l))
        ((at_ (s.readV b) (blockStart (fun i => (at_ (s.readV b) 16 0).getLsbD i) ((64 * j.val + l) / 16)).1 0).toNat / 256))).1)

/-- R40, R103, R276, R277, R389: a vector load by lanes whose bytes can be reached writes the loaded bytes over the old register as a long-latency
result; what a peer holds is asked for and comes with its replies, unless the device drains or an own write to the same bytes is on its way:
then the bundle blocks; poisoned bytes are consumed. A vector store to `.u` performs its pieces in lane order, one elsewhere defers
them, or faults where that cannot be. What stops the translation of the lowest lane that has one stops the access.

R87, R93, R240, R278: the handle forms. A type or rank that is not accepted takes the handle fault 0x0F. Then the lowest active element that has
one decides the fault: a value for a dimension that the rank lacks (DIM 6), a coordinate outside its extent (cause 0x07 with its DIM, the
lowest), a store through RO (0x0B); then what stops the read of a done bit stops the access, a done bit at a peer is asked for, and an
element of a tile that a relayout has is waited for. When every active element has an address, the access is that of the address forms
in space `.g`. That DIM 6 comes first is the model's choice (assumption 106), as is how a done bit is read (assumption 32). -/
def Obligations.VectorMemory : Prop :=
  (∀ (i : Instr) (s : State) (f : LaneForm), laneForm s i = some f → Issues i s → lanesEnd (s.begun i) f (exec i s)) ∧
  (∀ (s : State) (g d h : Fin 16) (k m : Fin 8) (e c store : Bool),
     let i : Instr := if store then .vstT g d h k m e c else .vldT g d h k m e c
     let x := s.readH h
     let u := (s.begun i).touchDone s.who x
     let es := Desc.exts x.desc
     let n := typeSize (Desc.type x.desc)
     let b := (s.readS (evenP k)).toNat
     let r := field (s.readS (oddP k)) 32 32
     let q := field (s.readS (oddP k)) 0 32
     let active := (List.range (256 / n)).filter fun j => (s.readM m).getLsbD (j * n / 4)
     let elem := fun j => if missingDim es b r then Elem.bad 0x07 6
       else u.element s.who x (if c then batchCoords es b (r + j) q else batchCoords es b r (q + j)) store
     let first := fun (p : Elem → Prop) (j : Nat) => j ∈ active ∧ p (elem j) ∧ ∀ l ∈ active, l < j → ¬ p (elem l)
     let isBad := fun y : Elem => ∃ a dim, y = .bad a dim
     let isStop := fun y : Elem => ∃ a, y = .stop a
     let isAsk := fun y : Elem => ∃ a, y = .ask a
     let none_ := fun (p : Elem → Prop) => ∀ j ∈ active, ¬ p (elem j)
     (Issues i s → (∀ y, vectorHandleCause x.desc c = some y →
       exec i s = .next ((s.begun i).trap (handleTrap x.daddr h.val 0 false store y))) ∧
       (vectorHandleCause x.desc c = none →
         (∀ j y dim, first isBad j → elem j = .bad y dim → exec i s = .next (u.trap (handleTrap x.daddr h.val dim false store y))) ∧
         (none_ isBad →
           (∀ j y, first isStop j → elem j = .stop y → exec i s = .next (u.stopAccess .read y)) ∧
           (none_ isStop →
             (∀ j p, first isAsk j → elem j = .ask p → exec i s =
               .next (if u.askWaits [(p, p.mask)] then u.blockBundle else (u.askKept false [] [(p, p.mask)]).blockBundle)) ∧
             (none_ isAsk → (∃ j ∈ active, elem j = .wait) → exec i s = .next u.blockBundle) ∧
             (∀ a : Nat → Word, (∀ j ∈ active, elem j = .at_ (a j)) →
               lanesEnd u ⟨store, d, .g, active.map fun j => ⟨n * j, a j, n⟩, fun k => [k]⟩ (exec i s)))))) ∧
     (∀ zs : List Int, 0 < Desc.rank x.desc → Desc.rank x.desc ≤ 6 → zs.length = es.length →
       let out := fun l => zs.getD l 0 < 0 ∨ (es.getD l 0 : Int) ≤ zs.getD l 0
       (∀ l < es.length, out l → (∀ l' < l, ¬ out l') → u.element s.who x zs store = .bad 0x07 l) ∧
       ((∀ l < es.length, ¬ out l) → store = true → Desc.ro x.desc = true → u.element s.who x zs store = .bad 0x0B 0)))

/-- R276, R277: from the unit, die or cluster stores each active lane takes the four bytes at its address; the others keep their
value.

R98, R276: a vector store to the unit store: a byte outside the words of the active lanes stays; the word of a lane that no higher
active lane overlaps holds that lane. -/
def Obligations.ScratchVectors : Prop :=
  (∀ (i : Instr) (s : State) (f : LaneForm) (mask : Word) (ea : Nat → Word) (a : Nat → Nat),
     laneForm s i = some f → f.store = false → laneAddr s i = some (mask, ea) → Issues i s → s.plain →
     (∀ l < 64, mask.getLsbD l = true → scratch s.cid f.space (ea l) 4 = some (a l)) →
       ∃ x : VReg, exec i s = .next ((s.begun i).write .long (.v f.reg) (.vec x)) ∧
         ∀ l < 64, at_ x l 0 = if mask.getLsbD l then BitVec.ofNat 32 (ofBytes (s.bytesAt (a l) 4)) else at_ (s.readV f.reg) l 0) ∧
  (∀ (i : Instr) (s : State) (f : LaneForm) (mask : Word) (ea : Nat → Word) (a : Nat → Nat),
     laneForm s i = some f → f.store = true → f.space = .u → laneAddr s i = some (mask, ea) → Issues i s → s.plain →
     (∀ l < 64, mask.getLsbD l = true → scratch s.cid .u (ea l) 4 = some (a l)) →
       ∃ t, exec i s = .next t ∧ t.cx.regs = (s.begun i).cx.regs ∧
         (∀ x, (∀ l < 64, mask.getLsbD l = true → x < a l ∨ a l + 4 ≤ x) → t.byteAt x = s.byteAt x) ∧
         (∀ l < 64, mask.getLsbD l = true → (∀ k < 64, l < k → mask.getLsbD k = true → a k + 4 ≤ a l ∨ a l + 4 ≤ a k) →
           t.bytesAt (a l) 4 = bytesOf 4 (at_ (s.readV f.reg) l 0).toNat))

/-- R299, R300: the M syllables that fork an operation put it behind those issued before, with the context, the parameter registers and
the rounding mode captured; an `mcall` whose a0 is not valid is cause 0x34; the empty forms complete with no effect.

R280: the accumulator operations of class V: `vacc.rd` reads its row when its turn comes, `vacc.pk` at once, `vacc.wr` writes the
active lanes of one row or column of a plane that is not busy. -/
def Obligations.MatrixForks : Prop :=
  (∀ (i : Instr) (s : State) (k : MKind) (g : Fin 16) (d : Dst) (p : Fin 4) (q : Fin 8),
     (forkKind i = some k → (k.isRoutine = true → a0Valid s.cx.regs.a[0] = true) → Issues i s →
       exec i s = .next { s.begun i with
         nextId := s.nextId + 1,
         core := { s.core with mx := { s.core.mx with ops := s.core.mx.ops ++
           [⟨s.nextId, s.cid, s.cx.regs.pc, k, s.cx.regs.a, s.cx.regs.fpmode.setWidth 2, false, none, 0, 0⟩] } } }) ∧
     (forkKind i = some k → k.isRoutine = true → a0Valid s.cx.regs.a[0] = false → Issues i s →
       exec i s = .next ((s.begun i).trap ⟨0x01, s.cx.regs.pc, bundleInfo 0 s.issue.slot.val false 0x34⟩)) ∧
     (Issues (.mclr g 0 0) s → exec (.mclr g 0 0) s = .next (s.begun (.mclr g 0 0))) ∧
     (Issues (.mmov g q q) s → exec (.mmov g q q) s = .next (s.begun (.mmov g q q))) ∧
     (Issues (.mchk g d p) s → exec (.mchk g d p) s =
       .next (((s.begun (.mchk g d p)).forkOp (.chk p)).2.pushAwait s.nextId d 0))) ∧
  (∀ (s : State) (g d a b : Fin 16) (n m : Fin 8) (e f c : Bool),
     let i : Fin 64 := Fin.ofNat 64 (field (s.readS b) 0 6)
     (Issues (.vaccRd g d n b m f c) s → exec (.vaccRd g d n b m f c) s =
       .next (((s.begun (.vaccRd g d n b m f c)).forkOp (.accRd n i c (s.readM m))).2.await s.nextId (.v d) (.vec (s.readV d)))) ∧
     (Issues (.vaccPk g d n b m f c) s → exec (.vaccPk g d n b m f c) s =
       .next ((s.begun (.vaccPk g d n b m f c)).write .long (.v d)
         (.vec (mergeRow (s.core.mx.peek n) i.val c (s.readM m) (s.readV d))))) ∧
     (Issues (.vaccWr g n a b m e f c) s → s.core.mx.notBusy s.nextId n = false ∨ s.core.mx.clearOf s.nextId (1#8 <<< n.val) = false →
       exec (.vaccWr g n a b m e f c) s = .next (s.begun (.vaccWr g n a b m e f c)).blockBundle) ∧
     (Issues (.vaccWr g n a b m e f c) s → s.core.mx.notBusy s.nextId n = true → s.core.mx.clearOf s.nextId (1#8 <<< n.val) = true →
       ∃ t, exec (.vaccWr g n a b m e f c) s = .next t ∧ t.mem = s.mem ∧ t.cx.fresh = s.cx.fresh ∧
         ∀ r k : Nat, r < 64 → k < 64 → planeElem (t.core.mx.elems n) r k =
           (if (if c then k else r) = i.val ∧ (s.readM m).getLsbD (if c then r else k) = true
            then at_ (s.readV a) (if c then r else k) 0 else planeElem (s.core.mx.elems n) r k)))

/-- R302, R307 to R312: the other M syllables: a wait with every operation complete and none with a fault takes their flags and goes on;
images are stored and read back; queues and log clear; the mode, the status and the abort. -/
def Obligations.MatrixControl : Prop :=
  ∀ (s : State) (g : Fin 16) (d : Dst) (a x : Src) (e f n l : Bool) (v : Word) (vs : List Word),
    (Issues (.mwait g) s → (∀ o ∈ (s.begun (.mwait g)).matrixJoins, o.complete = true ∧ o.fault = none) →
      exec (.mwait g) s = .next ((s.begun (.mwait g)).matrixJoins.foldl State.joined (s.begun (.mwait g)))) ∧
    (Issues (.mwait g) s → (∃ o ∈ s.matrixJoins, o.complete = false) → exec (.mwait g) s = .next (s.begun (.mwait g)).blockBundle) ∧
    (Issues (.mqClr g e f l) s → s.core.mx.anyRoutine = true → exec (.mqClr g e f l) s = .next (s.begun (.mqClr g e f l)).blockBundle) ∧
    (Issues (.mqClr g e f l) s → s.core.mx.anyRoutine = false → ∃ t, exec (.mqClr g e f l) s = .next t ∧
      t.core.mx.aq = (if e then [] else s.core.mx.aq) ∧ t.core.mx.bq = (if f then [] else s.core.mx.bq) ∧
      t.core.mx.log = (if l then [] else s.core.mx.log) ∧ t.core.mx.logovf = (s.core.mx.logovf && !l) ∧
      t.core.mx.ia = s.core.mx.ia ∧ t.core.mx.fa = s.core.mx.fa ∧ t.mem = s.mem) ∧
    (Issues (.mqSt g d) s → s.core.mx.log = v :: vs → exec (.mqSt g d) s =
      .next (({ s.begun (.mqSt g d) with core := { s.core with mx := { s.core.mx with log := vs } } }).push .long d v)) ∧
    (Issues (.mqSt g d) s → s.core.mx.log = [] →
      exec (.mqSt g d) s = .next (((s.begun (.mqSt g d)).forkOp .logRd).2.pushAwait s.nextId d 0)) ∧
    (Issues (.mhalf g n) s → exec (.mhalf g n) s =
      .next { s.begun (.mhalf g n) with core := { s.core with mx := { s.core.mx with sw := n } } }) ∧
    (Issues (.mstat g d) s → exec (.mstat g d) s = .next ((s.begun (.mstat g d)).push .s3 d s.mx.status)) ∧
    (Issues (.mabort g) s → ∃ t, exec (.mabort g) s = .next t ∧ t.core.mx = s.core.mx.abort s.cid ∧ t.mem = s.mem ∧
      t.cx = (s.begun (.mabort g)).cx) ∧
    (∀ ps, Issues (.mstMs g a x e f) s → field (s.readSrc x) 24 40 = 0 → field (s.readSrc x) 12 12 ≠ 0 →
      field (s.readSrc x) 0 12 + field (s.readSrc x) 12 12 ≤ 4096 →
      let bs := (List.range (field (s.readSrc x) 12 12)).flatMap fun k =>
        bytesOf 8 (look 0 (field (s.readSrc x) 0 12 + k) s.core.mx.store).toNat
      let b := s.begun (.mstMs g a x e f)
      b.resolve b.who .g (s.readSrc a) bs.length .write = .ok ps → s.cx.dsb.length + ps.length ≤ 128 →
      ∃ t, exec (.mstMs g a x e f) s = .next t ∧ b.deferAll bs ps = .ok t ∧ t.mem = s.mem) ∧
    (∀ bs ws u t, Issues (.mldMs g a e) s →
      (s.begun (.mldMs g a e)).readBlocking s.who true [] .g (s.readSrc a) 8 = .ok (bs, u) → imageValid (word (ofBytes bs)) = true →
      (128 ≤ field (word (ofBytes bs)) 0 8 ∨ u.system = true) →
      u.readBlocking u.who true [] .g (s.readSrc a + 8) (8 * field (word (ofBytes bs)) 20 12) = .ok (ws, t) →
      t.core.mx.anyRoutine = false → ∃ z, exec (.mldMs g a e) s = .next z ∧
        z.core.mx.store = storeWords t.core.mx.store (field (word (ofBytes bs)) 8 12) (wordsOf64 (field (word (ofBytes bs)) 20 12) ws) ∧
        z.core.mx.table = put (field (word (ofBytes bs)) 0 8)
          ((field (word (ofBytes bs)) 8 12 + field (word (ofBytes bs)) 32 12) % 4096) t.core.mx.table)

/-- R289 to R291: the micro-ops that do not touch the queues: a counter is loaded or counted down to zero, the sums of the plane are taken, a
record is appended, and the condition, or for a jump the parameter register, chooses the next microword.

R286, R291, R293 to R295: the micro-ops on the operand queues: a pull of items that are there moves them to the stage, WAITQ goes on when the items
are there, SEGCUT opens the next plane with the scales of the markers, MAC adds one k-step, END seals a plane that has accumulated and
frees one that has not; one that lacks its items waits, to be tried again, WAITQ counts data items, and CKCMP of a plane whose CHK is 1
passes: the model's reading (assumption 38). -/
def Obligations.MicroOps : Prop :=
  (∀ (s : State) (r : Routine) (n : MNext) (c h : Fin 4) (k : Fin 8) (v : BitVec 16) (nt nf : Fin 4096) (b : Fin 64) (p : Fin 4),
     s.core.mx.routine = some r →
     (exec (.nop n) s = .next (s.microGo s.mx r (nextWord n s.mx r))) ∧
     (exec (.halfp n) s = .next (s.microGo s.mx r (nextWord n s.mx r))) ∧
     (let r' := { r with c := r.c.set c v }
      exec (.ldc n c (.imm v)) s = .next (s.microGo s.mx r' (nextWord n s.mx r'))) ∧
     (let r' := { r with c := r.c.set c ((r.params[k] >>> (16 * h.val)).setWidth 16) }
      exec (.ldc n c (.areg k h)) s = .next (s.microGo s.mx r' (nextWord n s.mx r'))) ∧
     (let r' := { r with c := r.c.set c (if r.c[c] = 0 then 0 else r.c[c] - 1) }
      exec (.decc n c) s = .next (s.microGo s.mx r' (nextWord n s.mx r'))) ∧
     (exec (.jmp nt k) s = .next (s.microGo s.mx r ((nt.val + field r.params[k] 0 12) % 4096))) ∧
     (exec (.jcnd nt nf k b) s = .next (s.microGo s.mx r (if flag r.params[k] b.val then nt.val else nf.val))) ∧
     (let m := s.mx.append (logRecord true (r.plane.getD 0).val r.seq r.kcount v.toNat)
      exec (.postp n v) s = .next (s.microGo m r (nextWord n m r))) ∧
     (r.plane = some p →
       let r' := { r with rowSum := (s.mx.plane p).rowSums, colSum := (s.mx.plane p).colSums }
       exec (.ckacc n) s = .next (s.microGo s.mx r' (nextWord n s.mx r')))) ∧
  (∀ (s : State) (r : Routine) (n : MNext) (x y : Vector (BitVec 8) 64) (sa sb : Vector (BitVec 24) 64) (p : Fin 4)
     (as_ bs : List QItem) (a b : Bool) (k : Fin 8) (u : MacArg) (na nb : Nat),
     s.core.mx.routine = some r →
     (stepsPerMac r.params[0] = 1 → s.core.mx.aq = .data x none :: as_ →
       let m := { s.mx with aStage := [.data x none], aq := as_ }
       exec (.pulla n) s = .next (s.microGo m r (nextWord n m r))) ∧
     (stepsPerMac r.params[0] = 1 → s.core.mx.bq = .data y none :: bs →
       let m := { s.mx with bStage := [.data y none], bq := bs }
       exec (.pullb n) s = .next (s.microGo m r (nextWord n m r))) ∧
     (s.core.mx.aq = [] → ∃ t, exec (.pulla n) s = .next t ∧ t.evt = .stall ∧ t.core.mx.routine = some r) ∧
     ((a = true → k.val ≤ s.core.mx.aq.length ∧ ∀ q ∈ s.core.mx.aq, q.isMark = false) →
       (b = true → k.val ≤ s.core.mx.bq.length ∧ ∀ q ∈ s.core.mx.bq, q.isMark = false) →
       exec (.waitq n a b k) s = .next (s.microGo s.mx r (nextWord n s.mx r))) ∧
     (s.core.mx.aq = .mark sa na :: as_ → s.core.mx.bq = .mark sb nb :: bs → r.plane = none →
       (s.core.mx.plane (firstPlane r.params[0])).state = .idle →
       s.core.mx.clearOf r.op (1#8 <<< (firstPlane r.params[0]).val) = true →
       let m := { s.mx.setPlane (firstPlane r.params[0]) { IPlane.reset with
           scaleA := sa, scaleB := sb, fixed := na + nb, state := .acc, owner := r.op, ctx := r.ctx } with aq := as_, bq := bs }
       let r' := { r with plane := some (firstPlane r.params[0]), kstart := r.kcount }
       exec (.segcut n) s = .next (s.microGo m r' (nextWord n m r'))) ∧
     (∀ w : Bool, u.keepA = false → u.keepB = false → u.cnt = false → stepsPerMac r.params[0] = 1 → r.plane = some p →
       (s.core.mx.plane p).accFor r = true → s.core.mx.aq = .data x none :: as_ → s.core.mx.bq = .data y none :: bs →
       let z := (s.core.mx.plane p).step (w || r.batched) ((QItem.data x none).values (widthA r.params[0]))
         ((QItem.data y none).values (widthB r.params[0]))
       let z := if (r.kcount + 1) % 16 = 0 then { z with granule := z.e } else z
       let m := { s.mx.setPlane p z with aStage := [.data x none], aq := as_, bStage := [.data y none], bq := bs }
       let r' := { r with kcount := r.kcount + 1 }
       exec (if w then .macb n u else .mac n u) s = .next (s.microGo m r' (nextWord n m r'))) ∧
     (r.plane = some p → (s.core.mx.plane p).chk = true →
       let r' := { r with ckmis := false }
       exec (.ckcmp n) s = .next (s.microGo s.mx r' (nextWord n s.mx r'))) ∧
     (r.plane = some p → r.kstart < r.kcount → (s.core.mx.plane p).state = .acc → ∃ t, exec .endRoutine s = .next t ∧
       t.core.mx.routine = none ∧ (t.core.mx.plane p).state = .isSealed ∧
       (t.core.mx.plane p).sealRec = some ⟨r.op, r.seq, r.kstart, r.kcount - r.kstart⟩) ∧
     (r.plane = none → ∃ t, exec .endRoutine s = .next t ∧ t.core.mx.routine = none ∧ t.core.mx.ia = s.core.mx.ia))

/-- R293, R297: a k-step keeps the checksums: when CCOL holds the sum of every row and CROW of every column, they still do after it,
batched or not.

R297: the check of a plane whose checksums hold passes; one wrong element, whichever it is, is found and corrected. -/
def Obligations.Checksums : Prop :=
  (∀ (x : IPlane) (batched : Bool) (a b : Vector Int 64), x.ccol = x.rowSums → x.crow = x.colSums →
     let y := x.step batched a b
     y.ccol = y.rowSums ∧ y.crow = y.colSums) ∧
  (∀ (x : IPlane) (i j : Fin 64) (v : Word32), x.ccol = x.rowSums → x.crow = x.colSums →
     let y := { x with e := x.e.set i (x.e[i].set j v) }
     x.check x.rowSums x.colSums = (.ok, { x with chk := true }) ∧
     (v ≠ x.e[i][j] → y.check y.rowSums y.colSums = (.fixed i.val j.val, { x with chk := true })))

/-- R283, R303 to R306: the events that perform the first operation of the core of context 4·g that can be performed: a drain frees a
sealed plane that checks, a clear frees its planes, a move copies a plane, a fold (`mscale` or `mfix`) adds a sealed plane that checks
into an FP32 plane and frees it, with the warnings of the blocks an `mscale` reads, a read or a check brings its result, a routine
starts at its entry.

R297, R303, R305, R313: what the operations on one plane do: a sealed plane that checks is folded element by element and freed, or drained and
freed; so is one whose one wrong element the check corrects, with its element corrected and counted in MXERR; one that is BAD, or fails its
check, records 0x0E and stays BAD. That a fold of a plane that is not sealed records cause 0x32, whether IDLE or ACC, is the model's
reading (assumption 37). -/
def Obligations.PlaneOperations : Prop :=
  (∀ (s : State) (g : Nat) (o : MOp), s.cid = 4 * g → 
     let m := s.core.mx
     (∀ p, m.pick (fun k => match k with | .drain _ => true | _ => false) = some o → o.kind = .drain p →
       exec (.mdrainPerform g) s = .next { s.idle with core := { s.core with mx := (m.drain p).1.close o (m.drain p).2 } }) ∧
     (∀ ia fa, m.pick (fun k => match k with | .clr _ _ => true | _ => false) = some o → o.kind = .clr ia fa →
       exec (.mclrPerform g) s = .next { s.idle with core := { s.core with mx := (m.clr ia fa).close o none } }) ∧
     (∀ d x, m.pick (fun k => match k with | .mov _ _ => true | _ => false) = some o → o.kind = .mov d x →
       exec (.mmovPerform g) s = .next { s.idle with core := { s.core with mx := (m.mov d x).close o none } }) ∧
     (∀ f p x, m.pick (fun k => match k with | .scale _ _ | .fix _ _ _ => true | _ => false) = some o →
       o.kind = .scale f p ∨ o.kind = .fix f p x →
       let y := m.scale o f p
       let warned := if y.2.2.isNone then y.1.warn o.id (if o.kind = .scale f p then (m.plane p).fixed else 0) else y.1
       exec (.scalePerform g) s = .next (({ s.idle with core := { s.core with mx := warned.close o y.2.2 } }).flagOp o y.2.1)) ∧
     (∀ p, m.pick (fun k => match k with | .accRd _ _ _ _ | .chk _ => true | _ => false) = some o → o.kind = .chk p →
       let y : Checked × Matrix := if (m.plane p).state = .isSealed then m.checkPlane p else (.ok, m)
       exec (.vaccRdPerform g) s = .next (({ s.idle with core := { s.core with
         mx := y.2.close o (if y.1 = Checked.bad then some (checkTrap p) else none) } }).deliver o.ctx o.id
           fun _ => .word (checkStatus (y.2.plane p) y.1))) ∧
     (∀ n i c mask, m.pick (fun k => match k with | .accRd _ _ _ _ | .chk _ => true | _ => false) = some o → o.kind = .accRd n i c mask →
       exec (.vaccRdPerform g) s = .next (({ s.idle with core := { s.core with mx := m.close o none } }).deliver o.ctx o.id
         fun v => .vec (mergeRow (m.elems n) i.val c mask v.toVec))) ∧
     (∀ k b, m.pick MKind.isRoutine = some o → o.kind = .routine k b → ∃ r, exec (.routineStart g) s =
       .next { s.idle with core := { s.core with mx := { m with routine := some r } } } ∧
       r.op = o.id ∧ r.ctx = o.ctx ∧ r.addr = look 0 k m.table ∧ r.params = o.params ∧ r.batched = b ∧ r.plane = none ∧
       r.kcount = 0 ∧ r.kstart = 0 ∧ r.seq = 0 ∧ r.c = Vector.replicate 4 0)) ∧
  (∀ (m : Matrix) (o : MOp) (f p : Fin 4),
     let x := m.plane p
     let folds := fun (y : IPlane) =>
       let r := m.scale o f p
       r.2.2 = none ∧ (r.1.plane p).state = .idle ∧ (∀ q, q ≠ f → r.1.fa[q] = m.fa[q]) ∧
       ∀ i j : Nat, i < 64 → j < 64 → planeElem r.1.fa[f] i j = BitVec.ofNat 32 (foldElem o m.fa[f] y i j).1
     let drains := fun (y : IPlane) => (m.drain p).2 = none ∧ ((m.drain p).1.plane p).state = .idle ∧
       ((m.drain p).1.plane p).e = y.e ∧ (m.drain p).1.fa = m.fa
     let fails := fun (n : Matrix) => (m.olderSeal p = false → m.scale o f p = (n, 0, some (checkTrap p))) ∧ m.drain p = (n, some (checkTrap p))
     (x.state = .isSealed → x.chk = true → (m.olderSeal p = false → folds x) ∧ drains x) ∧
     (x.state = .isSealed → x.chk = false → x.ccol = x.rowSums → x.crow = x.colSums → (m.olderSeal p = false → folds x) ∧ drains x) ∧
     (∀ (y : IPlane) (i j : Fin 64) (v : Word32), y.state = .isSealed → y.ccol = y.rowSums → y.crow = y.colSums → v ≠ y.e[i][j] →
       x = { y with chk := false, e := y.e.set i (y.e[i].set j v) } →
         (m.olderSeal p = false → folds y ∧ field (m.scale o f p).1.mxerr 32 32 = min (2 ^ 32 - 1) (field m.mxerr 32 32 + 1)) ∧
         drains y ∧ field (m.drain p).1.mxerr 32 32 = min (2 ^ 32 - 1) (field m.mxerr 32 32 + 1)) ∧
     (x.state = .isSealed → x.chk = false → (x.check x.rowSums x.colSums).1 = .bad → ∃ n : Matrix, fails n ∧ n.fa = m.fa ∧
       n.plane p = { x with state := .bad } ∧ field n.mxerr 16 16 = min 65535 (field m.mxerr 16 16 + 1)) ∧
     (x.state = .bad → m.scale o f p = (m, 0, some (checkTrap p)) ∧ m.drain p = (m, some (checkTrap p))) ∧
     (x.state = .idle ∨ x.state = .acc → m.scale o f p = (m, 0, some (m.causeOf o.id 0x32))) ∧
     (x.state = .isSealed → m.olderSeal p = true → m.scale o f p = (m, 0, some (m.causeOf o.id 0x30))))

/-- R321, R322, R324, R325, R326: `cpy.go`, `cpy.fill` and `cpy.cvt` whose block passes its checks issue their copy and leave the block in
the cache; a block that fails one is cause 0x38 or the handle fault; one that cannot be read yet, or at all, stops the syllable where the
read of its 128 bytes stops.

R324, R117: an issued copy stands last in its channel, not begun, numbered and with its context and block captured; one of zero
extent is complete at once; a full channel blocks.

R75, R327, R329: `cpy.gq` issues one copy of two blocks of equal extent, `cpy.zero` one of a handle that may be written (and faults on a
handle that fails a check of R75, is in conversion or is read-only), `cpy.pb` enters a checked block into the cache, `cpy.inv` removes one
or all. -/
def Obligations.CopiesIssue : Prop :=
  (∀ (i : Instr) (s u v : State) (a : Word) (c : Fin 4) (k : BlockUse) (kind : CopyKind) (bs : List Byte),
     copyForm s i = some (a, c, k, kind) → Issues i s →
       ((s.begun i).BlockAt a bs u → u.blockErr k (parseBlock bs) = none →
         exec i s = .next ((u.enterBlock a bs).issueCopy c kind (u.captured (parseBlock bs)))) ∧
       ((s.begun i).BlockAt a bs u → u.blockErr k (parseBlock bs) = some .ill → exec i s =
         .next (u.trap ⟨0x01, u.cx.regs.pc, bundleInfo 0 u.issue.slot.val false 0x38⟩)) ∧
       (∀ r w x, (s.begun i).BlockAt a bs u → u.blockErr k (parseBlock bs) = some (.handle r w x) → exec i s =
         .next (u.trap (handleTrap (u.readH r).daddr r.val 0 false w x))) ∧
       (field a 56 8 = 0 → a.toNat % 64 = 0 → s.core.pbCache.find? (·.1 == a.toNat) = none →
         (s.begun i).readBlocking s.who true [] .g a 128 = .error v → exec i s = .next v) ∧
       (field a 56 8 = 0 → a.toNat % 64 ≠ 0 → exec i s = .next (s.begun i).misaligned) ∧
       (field a 56 8 ≠ 0 → exec i s = .next ((s.begun i).trap (accessTrap 0x07 a (gInfo s.who .read 7) 0x02)))) ∧
  (∀ (s : State) (c : Fin 4) (k : CopyKind) (b : CopyBlock),
     (16 ≤ s.busyCopies c → s.issueCopy c k b = s.blockBundle) ∧
     (s.busyCopies c < 16 → (match k with | .zero h => (zeroParts h.desc).length | _ => b.total) = 0 →
       (s.issueCopy c k b).core = s.core) ∧
     (s.busyCopies c < 16 → (match k with | .zero h => (zeroParts h.desc).length | _ => b.total) ≠ 0 →
       ∃ y : Copy, (s.issueCopy c k b).core.ch[c] = s.core.ch[c] ++ [y] ∧ y.id = s.nextId ∧ y.ctx = s.cid ∧ y.kind = k ∧ y.block = b ∧
         y.pos = 0 ∧ y.finished = false ∧ y.fault = none ∧ (s.issueCopy c k b).nextId = s.nextId + 1) ∧
     (s.busyCopies c < 16 → (s.issueCopy c k b).mem = s.mem ∧ (s.issueCopy c k b).cx.regs = s.cx.regs ∧
       ∀ d, d ≠ c → (s.issueCopy c k b).core.ch[d] = s.core.ch[d])) ∧
  (∀ (s u v : State) (g h : Fin 16) (a b : Src) (e f : Bool) (c : Fin 4) (xs ys : List Byte) (k : BlockUse) (x : Nat),
     let z := s.begun (.cpyZero g h c)
     (Issues (.cpyGq g a b e f c) s → (s.begun (.cpyGq g a b e f c)).BlockAt (s.readSrc a) xs u →
       u.blockErr .queueA (parseBlock xs) = none → (u.enterBlock (s.readSrc a) xs).BlockAt (s.readSrc b) ys v →
       v.blockErr .queueB (parseBlock ys) = none → (u.captured (parseBlock xs)).total = (v.captured (parseBlock ys)).total →
       exec (.cpyGq g a b e f c) s = .next ((v.enterBlock (s.readSrc b) ys).issueCopy c (.queue (v.captured (parseBlock ys)))
         (u.captured (parseBlock xs)))) ∧
     (Issues (.cpyZero g h c) s → descCause (s.readH h).desc = none → Desc.rly (s.readH h).desc = false →
       s.relayoutOf (s.readH h).daddr = none → Desc.ro (s.readH h).desc = false →
       exec (.cpyZero g h c) s = .next (z.issueCopy c (.zero (s.readH h)) CopyBlock.empty)) ∧
     (Issues (.cpyZero g h c) s → descCause (s.readH h).desc = some x →
       exec (.cpyZero g h c) s = .next (z.trap (handleTrap (s.readH h).daddr h.val 0 false true x))) ∧
     (Issues (.cpyZero g h c) s → descCause (s.readH h).desc = none →
       Desc.rly (s.readH h).desc = true ∨ s.relayoutOf (s.readH h).daddr ≠ none →
       exec (.cpyZero g h c) s = .next (z.trap (handleTrap (s.readH h).daddr h.val 0 false true 0x08))) ∧
     (Issues (.cpyZero g h c) s → descCause (s.readH h).desc = none → Desc.rly (s.readH h).desc = false →
       s.relayoutOf (s.readH h).daddr = none → Desc.ro (s.readH h).desc = true →
       exec (.cpyZero g h c) s = .next (z.trap (handleTrap (s.readH h).daddr h.val 0 false true 0x0B))) ∧
     (Issues (.cpyPb g a e) s → (s.begun (.cpyPb g a e)).BlockAt (s.readSrc a) xs u → blockFits (parseBlock xs) = some k →
       u.blockErr k (parseBlock xs) = none → exec (.cpyPb g a e) s = .next (u.enterBlock (s.readSrc a) xs)) ∧
     (Issues (.cpyInv g a e) s → ∃ t, exec (.cpyInv g a e) s = .next t ∧ t.mem = s.mem ∧ t.cx = (s.begun (.cpyInv g a e)).cx ∧
       t.core.ch = s.core.ch ∧ ∀ z : Nat × List Byte, z ∈ t.core.pbCache ↔ s.readSrc a ≠ 0 ∧ z ∈ s.core.pbCache ∧ z.1 ≠ (s.readSrc a).toNat))

/-- R115, R117, R305, R328, R408: a drain whose copies are complete without a fault, with no plane check of the context waiting to raise 0x0E, takes their
flags and goes on; one that finds recorded faults raises the first of them, a rollback-class one before the others, and forgets it; one with
a copy not complete blocks; the status of a channel. A cancel removes the context's copies that are not complete and no other, but for
a queue copy that stands part-way through a k-step: it ends that step first (R328; what is left when its queue is emptied is the model's
choice, assumption 114). -/
def Obligations.ChannelControl : Prop :=
  ∀ (s : State) (g : Fin 16) (d : Dst) (c : Fin 4) (o : JoinOp) (x : Trap),
    let mark := if s.cx.joinMark = 0 then s.nextId else s.cx.joinMark
    let js := (s.channelJoins c).filter fun o => o.id < mark
    let b := s.begun (.cpyDrn g c)
    let m : State := { b with cx := { b.cx with joinMark := mark } }
    let done := js.foldl State.joined m
    (Issues (.cpyDrn g c) s → (∀ o ∈ js, o.complete = true ∧ o.fault = none) → s.dueChecks = [] →
      exec (.cpyDrn g c) s = .next { done with cx := { done.cx with joinMark := 0 } } ∧
      done.cx.regs.fpmode = js.foldl (fun f o => raiseFlags f o.flags o.warnings) b.cx.regs.fpmode ∧
      (∀ y ∈ done.core.ch[c], y ∈ s.core.ch[c] ∧ ∀ o ∈ js, y.id ≠ o.id) ∧ done.mem = s.mem) ∧
    (Issues (.cpyDrn g c) s → (∀ o ∈ js, o.complete = true) → o ∈ js ++ s.dueChecks → o.fault = some x →
      (∀ p ∈ js ++ s.dueChecks, p.fault ≠ none → p = o ∨ o.before p = true) →
      exec (.cpyDrn g c) s = .next ((m.forgetFault o.id).raise (m.slotFault x))) ∧
    (Issues (.cpyDrn g c) s → (∃ o ∈ js, o.complete = false) → exec (.cpyDrn g c) s = .next m.blockBundle) ∧
    (Issues (.cpySt g d c) s → exec (.cpySt g d c) s = .next ((s.begun (.cpySt g d c)).push .s1 d
      (fieldsWord [(0, 5, s.busyCopies c), (8, 1, ((s.core.ch[c]).any fun y => y.ctx == s.cid && y.fault.isSome).toNat)]))) ∧
    (Issues (.cpyCancel g c) s → ∃ t, exec (.cpyCancel g c) s = .next t ∧ t.evt = .done ∧ t.mem = s.mem ∧
      t.cx.regs = (s.begun (.cpyCancel g c)).cx.regs ∧
      t.core.ch[c] = (s.core.ch[c]).filterMap (fun y =>
        if y.ctx = s.cid ∧ y.finished = false ∧ y.cancelled = false then
          (if y.sub = 0 then none else some { y with cancelled := true, fault := none })
        else some y) ∧
      (∀ d, d ≠ c → t.core.ch[d] = s.core.ch[d]))

/-- R27, R323, R324, R328, R389: the copy engine of the core of context 4·g performs the next run of the first copy of a channel that is not complete,
or records what stopped it, unless the run may not take effect yet: the device drains and the run would send, or an address it uses waits for
the hub. A copy whose runs are done is complete when every write it has sent to a peer is acknowledged, and not before; a cancelled one
then leaves the channel.

R318, R323, R325: a run of a fill whose elements lie in one unit, die or cluster store writes the element as often as the run says, one
after the other, and no other byte. -/
def Obligations.CopyEngine : Prop :=
  (∀ (s u : State) (g : Nat) (c : Fin 4) (v : PeerView) (x y : Copy) (t : Trap), s.cid = 4 * g →
     (s.core.ch[c]).find? (fun z => !z.finished) = some y →
     (y.over = false → s.idle.copyRun y v = .moved x u → u.cid = s.cid → s.mayRun u = true →
       exec (.copyExecute g c v) s = .next { u with core := { u.core with ch := u.core.ch.set c (setCopy x u.core.ch[c]) } }) ∧
     (y.over = false → s.idle.copyRun y v = .failed t u → u.cid = s.cid → s.mayRun u = true → exec (.copyExecute g c v) s =
       .next { u with core := { u.core with ch := u.core.ch.set c (setCopy { y with fault := some t } u.core.ch[c]) } }) ∧
     (y.over = false → s.idle.copyRun y v = .moved x u ∨ s.idle.copyRun y v = .failed t u → s.mayRun u = false →
       exec (.copyExecute g c v) s = .next (s.idle.notYet u) ∧ (u.evt.isHub = false → s.idle.notYet u = { s with evt := .stall }) ∧
       (s.idle.notYet u).core.ch = s.core.ch ∧ (s.idle.notYet u).mem = s.mem) ∧
     (y.over = true ∨ s.idle.copyRun y v = .wait → exec (.copyExecute g c v) s = .next { s with evt := .stall }) ∧
     (y.over = true → s.engAwaits y.id = false → ∃ z, exec (.copyComplete g c) s = .next z ∧ z.mem = s.mem ∧
       z.core.ch[c] = if y.cancelled then (s.core.ch[c]).filter (fun x => x.id ≠ y.id) else setCopy { y with finished := true } s.core.ch[c]) ∧
     (y.over = false ∨ s.engAwaits y.id = true → exec (.copyComplete g c) s = .next s.idle)) ∧
  (∀ (s : State) (y : Copy) (v : PeerView) (x ea0 : Word) (x0 : Space) (a : Nat),
     let xs := y.block.coords true y.pos
     let ea := ea0 + BitVec.ofInt 64 (xs.getD 0 0 + 2 ^ 32 * xs.getD 1 0)
     let n := y.block.run * y.block.esize
     s.plain → y.ctx < 18432 → y.kind = .fill x → y.block.dst = .addr x0 ea0 → x0 ≠ .g → y.block.esize ∈ [1, 2, 4, 8] →
     scratch y.ctx x0 ea n = some a →
       ∃ z u, s.copyRun y v = .moved z u ∧ z.pos = y.pos + 1 ∧ z.fault = y.fault ∧
         u.Wrote s a (List.replicate y.block.run (bytesOf y.block.esize x.toNat)).flatten)

/-- R63, R336, R337: arming and disarming a buffer pair; a swap of an armed pair whose channel's copies are complete without a fault, which
exchanges the extents, counts, commits the buffer phase and seals its lines, those in the journal too; a swap that waits for its copies; and the pair's status. -/
def Obligations.BufferPairs : Prop :=
  ∀ (s : State) (g : Fin 16) (c k : Fin 4) (a b : Src) (e f : Bool) (d : Dst),
    let x := s.readSrc a
    let y := s.readSrc b
    let mark := if s.cx.joinMark = 0 then s.nextId else s.cx.joinMark
    let js := (s.channelJoins s.cx.pairs[k].ch).filter fun o => o.id < mark
    (Issues (.bufArm g c k a b e f) s → field x 36 26 = 0 → ∃ t, exec (.bufArm g c k a b e f) s = .next t ∧
      t.cx.pairs[k].armed = false ∧ (∀ j, j ≠ k → t.cx.pairs[j] = s.cx.pairs[j]) ∧ t.cx.regs = (s.begun (.bufArm g c k a b e f)).cx.regs) ∧
    (Issues (.bufArm g c k a b e f) s → field x 36 26 ≠ 0 → s.badExtents x y = false → ∃ t, exec (.bufArm g c k a b e f) s = .next t ∧
      t.cx.pairs[k].armed = true ∧ t.cx.pairs[k].ch = c ∧ t.cx.pairs[k].ea0 = field x 0 36 ∧ t.cx.pairs[k].ea1 = field y 0 36 ∧
      t.cx.pairs[k].len = 64 * field x 36 26 ∧ t.cx.pairs[k].bFront = false ∧ t.cx.pairs[k].swaps = 0 ∧
      (∀ j, j ≠ k → t.cx.pairs[j] = s.cx.pairs[j])) ∧
    (Issues (.bufArm g c k a b e f) s → field x 36 26 ≠ 0 → s.badExtents x y = true → exec (.bufArm g c k a b e f) s =
      .next ((s.begun (.bufArm g c k a b e f)).trap ⟨0x01, s.cx.regs.pc, bundleInfo 0 s.issue.slot.val false 0x3A⟩)) ∧
    (Issues (.bufSwp g k) s → s.cx.pairs[k].armed = true → (∀ o ∈ js, o.complete = true ∧ o.fault = none) → s.dueChecks = [] →
      ∃ t, exec (.bufSwp g k) s = .next t ∧
      t.cx.pairs[k].bFront = !s.cx.pairs[k].bFront ∧ t.cx.pairs[k].swaps = s.cx.pairs[k].swaps + 1 ∧
      (∀ j, j ≠ k → t.cx.pairs[j] = s.cx.pairs[j]) ∧
      (∃ p, t.cx.ckpt = some p ∧ p.committed = true ∧ p.outbound = false) ∧ (∀ l ∈ t.cx.dsb, l.isSealed = true) ∧
      (∃ u : State, u.mem = s.mem ∧ u.journalLines = s.journalLines ∧ t = u.sealJournal) ∧ (s.cx.journal = [] → t.mem = s.mem)) ∧
    (Issues (.bufSwp g k) s → s.cx.pairs[k].armed = true → (∃ o ∈ js, o.complete = false) →
      ∃ t, exec (.bufSwp g k) s = .next t ∧ t.cx.status = .blocked ∧ t.cx.wait = .bundle ∧ t.cx.pairs = s.cx.pairs) ∧
    (Issues (.bufSt g d k) s → exec (.bufSt g d k) s = .next ((s.begun (.bufSt g d k)).push .s1 d (if s.cx.pairs[k].armed then
      fieldsWord [(63, 1, 1), (62, 1, s.cx.pairs[k].bFront.toNat), (60, 2, s.cx.pairs[k].ch.val), (36, 24, s.cx.pairs[k].swaps),
        (0, 36, if s.cx.pairs[k].bFront then s.cx.pairs[k].ea1 else s.cx.pairs[k].ea0)] else 0))) ∧
    (Issues (.pfG g a b e f) s → exec (.pfG g a b e f) s = .next (s.begun (.pfG g a b e f)))

/-- R27, R76, R330, R389: a tile move whose handles are ranked, of one type that is not block-scaled, and whose origins exist reads every element and
then writes it (that all are read before one is written is the model's reading, assumption 43), in the same order or transposed; it waits for
the acknowledgement of what it has written at peers, and then goes on. An unloaded handle is cause 0x03, one of another type or rank cause
0x0F, a coordinate outside an origin's plane the fault of the element. It waits while a tile is in conversion, and while its accesses may
not be made yet.

R333, R334, R335: the broadcast bus: a drive of 256 aligned bytes of the own unit store takes the beat of its cycle unless a
lower-numbered core has it; a latch writes the beat of the cycle and tells its driver; a sync of a legal round blocks its participant, and
goes on when its round is complete; one of an illegal round is cause 0x3B; a drive or latch at an address that is no multiple of 256 is the
alignment fault. How the cycle's beats are kept and how a synced bundle goes on is the model's choice (assumptions 44 and 79). -/
def Obligations.TilesAndBus : Prop :=
  (∀ (s : State) (g d x : Fin 16) (ja jb : Fin 8) (flip : Bool) (bs : List EngBytes) (u v : State) (out : Bool) (t : Trap) (mv : Move),
     let i : Instr := if flip then .tmovH g d x ja jb else .tmov g d x ja jb
     let b := s.begun i
     let hs := s.readH x
     let hd := s.readH d
     let at0 := fun (j : Fin 8) => ((s.readS (evenP j)).toNat, field (s.readS (oddP j)) 32 32, field (s.readS (oddP j)) 0 32)
     let w : Who := ⟨s.cid, s.system, some s.nextId⟩
     let k := (b.touchDone w hs).touchDone w hd
     let ps := k.tilePairs w d x hd hs (at0 ja) (at0 jb) flip
     let ranked := fun (h : Handle) => 1 ≤ Desc.rank h.desc && Desc.rank h.desc ≤ 6
     let okay := fun (h : Handle) => 2 ≤ Desc.rank h.desc && !isMx (Desc.type h.desc)
     let fit := okay hs && okay hd && Desc.type hd.desc == Desc.type hs.desc && ranked hs && ranked hd
     let f1 := k.originFault w x hs (at0 ja).1 (at0 ja).2.1 (at0 ja).2.2 false
     let f2 := k.originFault w d hd (at0 jb).1 (at0 jb).2.1 (at0 jb).2.2 true
     let b1 : State := { k with nextId := k.nextId + 1 }
     let ended := fun (z : State) (n : Nat) => (({ z with cx := { z.cx with joinMark := 0, moves := z.cx.moves.filter (·.id != n) } }.joinParity
       z.cid n).dropKept n)
     (Issues i s → s.cx.moves.find? (fun m => m.id == s.cx.joinMark) = none →
       (fit = true → f1 = none → f2 = none → (∀ p ∈ ps, p.2 ≠ .wait) →
         b1.readElems w PeerView.none (typeSize (Desc.type hs.desc)) (ps.map (·.1)) = (.ok bs, u) →
         (u.writeElems w ((ps.map (·.2)).zip bs) = (some (.ok out), v) → k.mayRun v = true →
           (v.engAwaits k.nextId = false → v.dueChecks = [] →
             exec i s = .next (if out then (ended v k.nextId).markOutbound else ended v k.nextId)) ∧
           (v.engAwaits k.nextId = true → ∃ z, exec i s = .next z ∧ z.mem = v.mem ∧ z.cx.status = .blocked ∧ z.cx.wait = .bundle ∧
             z.cx.joinMark = k.nextId ∧ z.cx.moves = v.cx.moves ++ [⟨k.nextId, none, out⟩])) ∧
         (u.writeElems w ((ps.map (·.2)).zip bs) = (some (.ok out), v) → k.mayRun v = false → exec i s = .next (k.notYet v).blockBundle)) ∧
       (fit = true → f1.or f2 = some t → exec i s = .next (k.raise (k.slotFault t))) ∧
       (fit = true → f1 = none → f2 = none → (∃ p ∈ ps, p.2 = .wait) → exec i s = .next k.blockBundle) ∧
       (ranked hs = false → exec i s = .next (b.trap (handleTrap hs.daddr x.val 0 false false 0x03))) ∧
       (ranked hs = true → ranked hd = false → exec i s = .next (b.trap (handleTrap hd.daddr d.val 0 false true 0x03))) ∧
       (ranked hs = true → ranked hd = true → okay hs = false →
         exec i s = .next (b.trap (handleTrap hs.daddr x.val 0 false false 0x0F))) ∧
       (ranked hs = true → ranked hd = true → okay hs = true → okay hd = false ∨ Desc.type hd.desc ≠ Desc.type hs.desc →
         exec i s = .next (b.trap (handleTrap hd.daddr d.val 0 false true 0x0F)))) ∧
     (Issues i s → s.cx.moves.find? (fun m => m.id == s.cx.joinMark) = some mv →
       (s.engAwaits mv.id = true → exec i s = .next b.blockBundle) ∧
       (s.engAwaits mv.id = false → s.dueChecks = [] →
         (mv.fault = none → exec i s = .next (if mv.outward then (ended b mv.id).markOutbound else ended b mv.id)) ∧
         (∀ f, mv.fault = some f → exec i s = .next ((ended b mv.id).raise (b.slotFault f)))))) ∧
  (∀ (s : State) (g : Fin 16) (d : Dst) (a x : Src) (e f : Bool) (n : Nat) (z : BusOp) (bs : List Byte),
     let b := s.begun (.bcDrv g d a e)
     let o := fun (b : State) (out : Option (List Byte × List Nat)) => (⟨s.slotCycle, s.gcore % 96, s.cid, b.pushTargets d, out, s.readSrc a⟩ : BusOp)
     let on := fun (b : State) (out : Option (List Byte × List Nat)) => b.modCluster (clusterOf s.cid) fun k =>
       { k with bus := k.bus.filter (fun x => s.issue.cycle ≤ x.cycle) ++ [o b out] }
     (Issues (.bcDrv g d a e) s → s.plain → (s.readSrc a).toNat % 256 = 0 → scratch s.cid .u (s.readSrc a) 256 = some n → s.busNow = [] →
       exec (.bcDrv g d a e) s = .next ((on b (some (s.bytesAt n 256, []))).push .s1 d 1)) ∧
     (Issues (.bcDrv g d a e) s → s.plain → (s.readSrc a).toNat % 256 = 0 → scratch s.cid .u (s.readSrc a) 256 = some n →
       s.beatNow = some z → z.core < s.gcore % 96 → exec (.bcDrv g d a e) s = .next (b.push .s1 d 0)) ∧
     (Issues (.bcDrv g d a e) s → s.plain → (s.readSrc a).toNat % 256 = 0 → scratch s.cid .u (s.readSrc a) 256 = some n →
       s.busNow = [z] → z.out ≠ none → s.gcore % 96 < z.core →
       exec (.bcDrv g d a e) s = .next (((on b (some (s.bytesAt n 256, []))).push .s1 d 1).busResult z 0)) ∧
     (Issues (.bcLat g d a e) s → s.plain → (s.readSrc a).toNat % 256 = 0 → scratch s.cid .u (s.readSrc a) 256 = some n →
       s.beatNow = some z → z.out = some (bs, []) → bs.length = 256 → ∃ t, exec (.bcLat g d a e) s = .next t ∧ t.Wrote s n bs ∧
         t.cx.fresh = ((s.begun (.bcLat g d a e)).push .s1 d (fieldsWord [(63, 1, 1), (0, 7, z.core)])).cx.fresh) ∧
     (Issues (.bcLat g d a e) s → (s.readSrc a).toNat % 256 = 0 → scratch s.cid .u (s.readSrc a) 256 = some n → s.beatNow = none →
       exec (.bcLat g d a e) s = .next ((on (s.begun (.bcLat g d a e)) none).push .s1 d 0)) ∧
     (Issues (.bcDrv g d a e) s → (s.readSrc a).toNat % 256 ≠ 0 → exec (.bcDrv g d a e) s = .next b.misaligned) ∧
     (Issues (.bcLat g d a e) s → (s.readSrc a).toNat % 256 ≠ 0 → exec (.bcLat g d a e) s = .next (s.begun (.bcLat g d a e)).misaligned) ∧
     (Issues (.bcSync g a x e f) s → s.cx.synced = false → field (s.readSrc a) 4 60 = 0 → 0 < (s.readSrc x).toNat →
       (s.readSrc x).toNat ≤ 96 → ∃ t, exec (.bcSync g a x e f) s = .next t ∧ t.cx.status = .blocked ∧
         t.cx.wait = .round (field (s.readSrc a) 0 4)) ∧
     (Issues (.bcSync g a x e f) s → s.cx.synced = true → ∃ t, exec (.bcSync g a x e f) s = .next t ∧ t.evt = .done ∧
       t.cx.synced = false ∧ t.cx.status = s.cx.status ∧ t.mem = s.mem) ∧
     (Issues (.bcSync g a x e f) s → s.cx.synced = false → field (s.readSrc a) 4 60 ≠ 0 ∨ (s.readSrc x).toNat = 0 ∨ 96 < (s.readSrc x).toNat →
       exec (.bcSync g a x e f) s =
         .next ((s.begun (.bcSync g a x e f)).trap ⟨0x01, s.cx.regs.pc, bundleInfo 0 s.issue.slot.val false 0x3B⟩)))

/-- R84, R88, R89, R91: `rlay` of a handle that passes its checks clears the done bits, writes the descriptor, enters the relayout table
and marks the register with RLY 1, the new tag, base and bitmap, once the context's stores are published; it waits until its writes are visible.
`rlay.wt` blocks while the conversion goes on, raises the recorded fault of a failed one and on its next try makes it active again, has no effect
on a handle that is not in conversion, and reads the descriptor of one whose conversion another has joined; `rlay.st` pushes the tiles left.
The model's choices: the handle faults have WR 0 (assumption 98), the recorded fault EINFO.ENG 1 (assumption 81), and what is read and written
in which order (assumption 43).

R89, R92: the join of a COMPLETE conversion writes the descriptor of the new layout, frees the entry, and leaves that descriptor in the
register; the context waits until the write is visible.

R27, R86, R88, R389: the relayout engine of a die converts the next tile of the entry that is due; once what it has written at peers is
acknowledged it sets the tile's done bit, and P follows; what stops it is recorded in the entry, which fails; a step that may not take effect
yet (a write of it has to wait, the device drains and it would send, or an address waits for the hub) waits. -/
def Obligations.Relayouts : Prop :=
  (∀ (s u : State) (g h : Fin 16) (x y : Src) (e f : Bool) (ws : List StrongWrite) (c : Nat) (r : Relayout) (z : Trap) (bs : List Byte),
     let b := s.begun (.rlay g h x y e f)
     let q := s.begun (.rlayWt g h)
     let k := s.readH h
     let tag := field (s.readSrc y) 56 8
     let bmap := field (s.readSrc y) 0 56
     let nt := tileCount (Desc.exts k.desc)
     let d := setDField (setDField (setDField (setDField k.desc 511 1 1) 376 8 tag) 384 56 (s.readSrc x).toNat) 448 56 bmap
     let m := b.publish.markOutbound
     let w := m.writeStrong ws
     let here := (s.cid, s.cx.regs.pc)
     (Issues (.rlay g h x y e f) s → s.rlayCause k tag (s.readSrc x).toNat bmap = none →
       b.resolveWrites [(word bmap, List.replicate (ceilDiv nt 8) 0), (k.daddr.setWidth 64 + 32, (bytesOf 64 d.toNat).drop 32)] = .ok ws →
       (b.publish.published = false → exec (.rlay g h x y e f) s = .next b.publish.blockBundle) ∧
       (b.publish.published = true → m.writeWaits (ws.flatMap (·.pieces)) = true → exec (.rlay g h x y e f) s = .next m.blockBundle) ∧
       (b.publish.published = true → m.writeWaits (ws.flatMap (·.pieces)) = false →
         ∃ t z, exec (.rlay g h x y e f) s = .next t ∧ t.relayouts = w.relayouts ++ [z] ∧
           z.handle = k ∧ z.ntag = BitVec.ofNat 8 tag ∧ z.shadow = word (s.readSrc x).toNat ∧ z.done = word bmap ∧ z.nt = nt ∧ z.p = 0 ∧
           z.state = (if nt = 0 then .complete else .active) ∧ z.fault = none ∧ z.raised = [] ∧
           (∃ fl, t.cx.fresh = w.cx.fresh ++ [fl] ∧ fl.reg = .h h ∧ fl.val = .handle ⟨d, k.daddr⟩) ∧
           Desc.rly d = true ∧ Desc.ntag d = tag ∧ Desc.shadow d = (s.readSrc x).toNat ∧ Desc.done d = bmap ∧
           t.mem = w.mem ∧ (w.acked = false → t.cx.status = .blocked ∧ t.cx.wait = .acks) ∧
           (w.acked = true → t.cx.status = w.cx.status))) ∧
     (Issues (.rlay g h x y e f) s → s.rlayCause k tag (s.readSrc x).toNat bmap = some c → exec (.rlay g h x y e f) s =
       .next (b.trap (handleTrap k.daddr h.val 0 false false c))) ∧
     (Issues (.rlayWt g h) s → s.relayoutOf k.daddr = none → Desc.rly k.desc = false → exec (.rlayWt g h) s = .next q) ∧
     (Issues (.rlayWt g h) s → s.relayoutOf k.daddr = none → Desc.rly k.desc = true → k.daddr = 0 → exec (.rlayWt g h) s =
       .next (q.trap (handleTrap k.daddr h.val 0 false false 0x0E))) ∧
     (Issues (.rlayWt g h) s → s.relayoutOf k.daddr = none → Desc.rly k.desc = true → k.daddr ≠ 0 →
       q.readBlocking s.who false [] .g (k.daddr.setWidth 64) 64 = .ok (bs, u) → descCause (BitVec.ofNat 512 (ofBytes bs)) = none →
       exec (.rlayWt g h) s = .next (u.write .s1 (.h h) (.handle ⟨BitVec.ofNat 512 (ofBytes bs), k.daddr⟩))) ∧
     (Issues (.rlayWt g h) s → s.relayoutOf k.daddr = some r → r.state = .active → exec (.rlayWt g h) s = .next q.blockBundle) ∧
     (Issues (.rlayWt g h) s → s.dueChecks = [] → s.relayoutOf k.daddr = some r → r.state = .failed → r.fault = some z →
       (r.raised.contains here = false → exec (.rlayWt g h) s =
         .next ((q.setRelayout { r with raised := here :: r.raised }).raise (q.slotFault { z with einfo := setField z.einfo 13 1 1 }))) ∧
       (r.raised.contains here = true → ∃ t, exec (.rlayWt g h) s = .next t ∧ t.cx.status = .blocked ∧ t.cx.wait = .bundle ∧
         t.relayouts = (q.setRelayout { r with state := .active, fault := none, raised := [], conv := false }).relayouts)) ∧
     (Issues (.rlaySt g h) s → exec (.rlaySt g h) s = .next ((s.begun (.rlaySt g h)).push .s3 .queue
       (match s.relayoutOf k.daddr with
         | some r => setFlag (word (r.nt - r.p)) 63 (r.state == .failed)
         | none => 0)))) ∧
  (∀ (s : State) (g h : Fin 16) (r : Relayout) (ws : List StrongWrite),
     let b := s.begun (.rlayWt g h)
     let k := s.readH h
     let m := b.publish.markOutbound
     let w := m.writeStrong ws
     Issues (.rlayWt g h) s → s.dueChecks = [] → s.relayoutOf k.daddr = some r → r.state = .complete →
     b.resolveWrites [(r.handle.daddr.setWidth 64, bytesOf 64 (joinedDesc r.handle.desc r).toNat)] = .ok ws →
     m.writeWaits (ws.flatMap (·.pieces)) = false → b.publish.published = true →
       ∃ t, exec (.rlayWt g h) s = .next t ∧ t.mem = w.mem ∧ (∀ z ∈ t.relayouts, z.slot ≠ r.slot) ∧
         (∃ fl ∈ t.cx.fresh, fl.reg = .h h ∧ fl.val = .handle ⟨joinedDesc k.desc r, k.daddr⟩) ∧
         (w.acked = false → t.cx.status = .blocked ∧ t.cx.wait = .acks)) ∧
  (∀ (s u w : State) (d : Nat) (v : PeerView) (r : Relayout) (t : Trap) (out o2 : Bool), s.nextRelayout d = some r →
     let b := s.idle.modDie d fun k => { k with engineNext := (r.slot + 1) % 64 }
     let r1 : Relayout := { r with conv := true, outward := r.outward || out }
     let fin := fun (r : Relayout) => ({ r with p := r.p + 1, conv := false, outward := r.outward || o2 } : Relayout)
     let done := fun (r : Relayout) => if (fin r).p = (fin r).nt then w.closeRelayout (fin r) else w.setRelayout (fin r)
     (r.conv = false → b.convertTile r v = (some (.ok out), u) → u.engAwaits r.order = false →
       u.setDoneBit r1 v = (some (.ok o2), w) →
       exec (.relayoutTile d v) s = .next (if s.mayRun (done r1) then done r1 else b.notYet (done r1))) ∧
     (r.conv = false → b.convertTile r v = (some (.ok out), u) → u.engAwaits r.order = true →
       exec (.relayoutTile d v) s = .next (if s.mayRun u then u.setRelayout r1 else b.notYet (u.setRelayout r1))) ∧
     (r.conv = true → b.setDoneBit r v = (some (.ok o2), w) →
       exec (.relayoutTile d v) s = .next (if s.mayRun (done r) then done r else b.notYet (done r))) ∧
     (r.conv = false → b.convertTile r v = (some (.error t), u) → s.mayRun u = true → exec (.relayoutTile d v) s =
       .next (u.setRelayout { r with state := .failed, fault := some t })) ∧
     (r.conv = true → b.setDoneBit r v = (some (.error t), w) → s.mayRun w = true → exec (.relayoutTile d v) s =
       .next (w.setRelayout { r with state := .failed, fault := some t, conv := false })) ∧
     (r.conv = false → b.convertTile r v = (none, u) → exec (.relayoutTile d v) s = .next { b with evt := .stall }) ∧
     (u.evt.isHub = false → b.notYet u = { b with evt := .stall }))

/-- R27, R338, R339, R340: a send whose payload can be read becomes an operation of its context that is not complete: to another member the
message goes to the transfer engine and out under its number, to the own device it arrives; to a member that cannot be reached it completes
with fault 0x0A of cause 0x46, and a payload that cannot be read with that fault. With 64 operations outstanding it blocks, as it does while
an address of its payload waits for the hub; a message word with reserved bits, or a length out of range, is cause 0x3C. The model's
choices: 0x3C is raised before the checks of the handle (assumption 54), and EADDR of cause 0x46 is a free value (assumption 57).

R49, R338, R376: a message for another device is one packet: a header flit, then a flit for every 16 bytes, in order; a flit with a
poisoned byte is of the poison kind. -/
def Obligations.Sends : Prop :=
  (∀ (i : Instr) (s u : State) (w : Word) (k : SendKind) (read : State → Except Trap EngBytes × State) (bs : EngBytes) (t : Trap),
     let b := s.begun i
     let peer : Fin 64 := Fin.ofNat 64 (field w 0 6)
     let tag : BitVec 32 := BitVec.ofNat 32 (field w 32 32)
     let op := b.sending.newFop s.nextId (.send peer tag k)
     let failed := fun (t : Trap) => { op with complete := true, fault := some t }
     let own : Fin 64 := Fin.ofNat 64 u.device
     let q := (u.addFop op).numberMessage peer
     let ill := Host.Outcome.next (b.trap ⟨0x01, s.cx.regs.pc, bundleInfo 0 s.issue.slot.val false 0x3C⟩)
     (sendForm s s.nextId i = some (w, k, read) → Issues i s → s.fabricFull = false → (read b.sending).2.evt.isHub = false →
       (read b.sending = (.ok bs, u) → u.reachable peer.val = true → peer ≠ own → exec i s =
         .next (q.2.send (.message peer s.nextId u.cid q.1 tag (bs.map (·.1)) (flitPoison bs)))) ∧
       (read b.sending = (.ok bs, u) → u.reachable peer.val = true → peer = own → exec i s =
         .next (q.2.enqueue (.messageHeaderArrival ⟨own, own, 0, u.cid, q.1, tag, bs.map (·.1), flitPoison bs, some s.nextId⟩))) ∧
       (read b.sending = (.ok bs, u) → u.reachable peer.val = false → ∃ a, exec i s =
         .next (({ u with freeCount := u.freeCount + 1 } : State).addFop
           (failed ⟨0x0A, a, setField (setField (refusalInfo false true false) 24 6 peer.val) 0 8 0x46⟩))) ∧
       (read b.sending = (.error t, u) → exec i s = .next (u.addFop (failed t)))) ∧
     (sendForm s s.nextId i = some (w, k, read) → Issues i s → s.fabricFull = true → exec i s = .next b.blockBundle) ∧
     (sendForm s s.nextId i = some (w, k, read) → Issues i s → s.fabricFull = false → (read b.sending).2.evt.isHub = true →
       exec i s = .next (b.notYet (read b.sending).2).blockBundle) ∧
     (∀ g h a e, i = .fsend g h a e → Issues i s → badPeerWord (s.readSrc a) = true ∨ descCause (s.readH h).desc = none ∧
       isMx (Desc.type (s.readH h).desc) = false ∧ badLength (s.readH h).bytes = true → exec i s = ill) ∧
     (∀ g v a e, i = .fsendV g v a e → Issues i s → badPeerWord (s.readSrc a) = true → exec i s = ill) ∧
     (∀ g a c e f, i = .fsendM g a c e f → Issues i s → badPeerWord (s.readSrc a) = true ∨ badLength (s.readS (oddP c)).toNat = true →
       exec i s = ill)) ∧
  (∀ (n : Nat) (peer : Fin 64) (op cid num : Nat) (tag : BitVec 32) (bs : List Byte) (bad : List Nat), ∃ p : Packet,
     packetOf n (.message peer op cid num tag bs bad) = some p ∧ p.dest = peer ∧ p.op = some op ∧
     p.flits.length = 1 + (bs.length + 15) / 16 ∧ (p.flits.head?.map (·.1)) = some 0x2 ∧
     ∀ k, k < bs.length → ∃ f, p.flits[1 + k / 16]? = some f ∧
       BitVec.ofNat 8 (f.2.toNat / 2 ^ (8 * (k % 16))) = bs.getD k 0 ∧
       (f.1 = 0xE ↔ ∃ j, j < bs.length ∧ j / 16 = k / 16 ∧ j ∈ bad) ∧ (f.1 = 0xE ∨ f.1 = 0x3))

/-- R340, R341, R343, R384: a message whose turn has come lands in the oldest posted receive that it matches, else is laid by where the
lay-by is in use and has room, its bytes written to the lay-by's memory, else is withheld (messages of one sending context stay in order);
one that comes early is kept for its turn. Oldest is in posting order, which is the order of the list; where none is found, no posted entry
that is free of a message matches. Posting takes an entry of the list that is free; of the messages laid by, the oldest that it
matches lands in it. Which free entry it takes is a free value (assumption 55), and where the lay-by puts a message is the model's choice
(assumption 96).

R342: what a match word matches: the bits of the tag and of the sender that the mask word names. -/
def Obligations.MessageMatching : Prop :=
  (∀ (s : State) (m : MsgArrival) (p0 : Posted) (r : Fin 16) (h : Handle) (mw kw cw : Word),
     let s1 : State := { s.idle with fab := { s.fab with msgNext := put (msgKey m.ctx m.src) (m.num + 1) s.fab.msgNext } }
     (m.num = s.nextMsg m → s.fab.early = [] → (∀ x ∈ s.fab.withheldMsgs, ¬ (x.src = m.src ∧ x.ctx = m.ctx)) →
       (s.postFor m = some p0 → exec (.messageHeaderArrival m) s = .next (s1.landIn p0.order m false) ∧
         (∀ q ∈ (s1.landIn p0.order m false).fab.posted, q.order = p0.order → q.msg = some m) ∧ p0.order ∈ (s1.landIn p0.order m false).fab.posted.map (·.order)) ∧
       (s.postFor m = none → s.laybyRoom m.payload.length = true → ∃ t, exec (.messageHeaderArrival m) s = .next t ∧
         t.fab.layby = s.fab.layby ++ [⟨{ m with payload := [] }, m.payload.length, s.layPlace m.payload.length⟩] ∧
         t.fab.posted = s.fab.posted ∧ t.mem = (s1.writeExtents (s.layPlace m.payload.length) m.payload).mem) ∧
       (s.postFor m = none → s.laybyRoom m.payload.length = false → ∃ t, exec (.messageHeaderArrival m) s = .next t ∧
         t.fab.withheldMsgs = s.fab.withheldMsgs ++ [m] ∧ t.fab.posted = s.fab.posted ∧ t.fab.layby = s.fab.layby ∧ t.mem = s.mem)) ∧
     (s.nextMsg m < m.num → s.fab.withheldMsgs.contains m = false →
       exec (.messageHeaderArrival m) s = .next { s.idle with fab := { s.fab with early := s.fab.early ++ [m] } }) ∧
     (s.postFor m = some p0 → p0.msg = none ∧ matches_ p0.matchWord p0.maskWord m = true ∧
       ∃ older newer, s.fab.posted = older ++ p0 :: newer ∧ ∀ q ∈ older, ¬ (q.msg = none ∧ matches_ q.matchWord q.maskWord m = true)) ∧
     (s.postFor m = none → ∀ q ∈ s.fab.posted, ¬ (q.msg = none ∧ matches_ q.matchWord q.maskWord m = true)) ∧
     (s.fab.posted.length < 4096 →
       let p := (s.post r h mw kw cw).1
       p.order = s.nextId ∧ p.handle = h ∧ p.matchWord = mw ∧ p.maskWord = kw ∧ p.ctx = s.cid ∧ p.msg = none ∧
       (∀ q ∈ s.fab.posted, q.entry ≠ p.entry) ∧
       (∀ x, s.fab.layby.find? (fun y => matches_ mw kw y.msg) = some x → s.fab.withheldMsgs = [] →
         (∀ q ∈ s.fab.posted, q.order ≠ s.nextId) →
         (∃ y : MsgArrival, (s.post r h mw kw cw).2.fab.posted = s.fab.posted ++ [{ p with msg := some y, fromLayby := true }] ∧
           y.src = x.msg.src ∧ y.ctx = x.msg.ctx ∧ y.tag = x.msg.tag) ∧
         (s.post r h mw kw cw).2.fab.layby = removeFirst (fun y => matches_ mw kw y.msg) s.fab.layby) ∧
       (s.fab.layby.find? (fun y => matches_ mw kw y.msg) = none → s.fab.withheldMsgs = [] →
         (s.post r h mw kw cw).2.fab.posted = s.fab.posted ++ [p] ∧ (s.post r h mw kw cw).2.fab.layby = s.fab.layby))) ∧
  (∀ (mw kw : Word) (m : MsgArrival), matches_ mw kw m = true ↔
     (∀ k, k < 32 → kw.getLsbD (32 + k) = true → m.tag.getLsbD k = mw.getLsbD (32 + k)) ∧
     (∀ k, k < 6 → kw.getLsbD k = true → m.src.val.testBit k = mw.getLsbD k))

/-- R342, R343, R345: `rpost` posts its receive and pushes its ticket, or 2^63 when the list is full; `rcancel`, `rprobe`, `rlb.q`; a ticket
that names no receive of the context is cause 0x3D, and an operand with reserved bits cause 0x3C.

R87, R117, R344, R345, R346: a landing writes its bytes element by element, as far as they can be written, and is landed when all are written, or
one is stopped, and every write at a peer is acknowledged; its counter is incremented then. A wait for a landing that has landed pushes its
status and frees its entry, or raises its fault, and forgets it; one that has not landed blocks; `rpost.w` posts once and waits. The model's
choices: `rpost.w` pushes a status (assumption 55), and how its bundle goes on while it waits (assumption 78).

R305, R340, R350, R351, R408: `fdrn` with every operation of the context complete without a fault, and no plane check waiting to raise 0x0E, takes
their flags; with recorded faults it raises the first, a rollback-class one before the others; else it blocks; the status of collectives; a
send whose flits are acknowledged is complete, one whose peer is lost is complete with a fault, whose EADDR is a free value (assumption
57). -/
def Obligations.Receives : Prop :=
  (∀ (s : State) (g h : Fin 16) (a : Fin 8) (x : Src) (e f : Bool) (d : Dst) (p : Posted),
     let mw := s.readS (evenP a)
     let kw := s.readS (oddP a)
     let cw := s.readSrc x
     let b := s.begun (.rpost g h a x e f)
     (Issues (.rpost g h a x e f) s → badPeerWord mw = true ∨ badPeerWord kw = true ∨ field cw 7 57 ≠ 0 →
       exec (.rpost g h a x e f) s = .next (b.trap ⟨0x01, s.cx.regs.pc, bundleInfo 0 s.issue.slot.val false 0x3C⟩)) ∧
     (Issues (.rpost g h a x e f) s → badPeerWord mw = false → badPeerWord kw = false → field cw 7 57 = 0 →
       descCause (s.readH h).desc = none → isMx (Desc.type (s.readH h).desc) = false → Desc.ro (s.readH h).desc = false →
       (s.fab.posted.length < 4096 → exec (.rpost g h a x e f) s =
         .next ((b.post h (s.readH h) mw kw cw).2.push .long .queue (b.post h (s.readH h) mw kw cw).1.ticket)) ∧
       (4096 ≤ s.fab.posted.length → exec (.rpost g h a x e f) s = .next (b.push .long .queue 0x8000000000000000))) ∧
     (Issues (.rcancel g d x e) s → s.fab.posted.find? (fun q => q.ticket == s.readSrc x && q.ctx == s.cid) = some p →
       (p.msg = none → ∃ u : State, exec (.rcancel g d x e) s = .next (u.push .long d 1) ∧ (∀ q ∈ u.fab.posted, q.order ≠ p.order) ∧
         u.mem = s.mem) ∧
       (p.msg ≠ none → exec (.rcancel g d x e) s = .next ((s.begun (.rcancel g d x e)).push .long d 0))) ∧
     (Issues (.rcancel g d x e) s → s.fab.posted.find? (fun q => q.ticket == s.readSrc x && q.ctx == s.cid) = none →
       exec (.rcancel g d x e) s =
         .next ((s.begun (.rcancel g d x e)).trap ⟨0x01, s.cx.regs.pc, bundleInfo 0 s.issue.slot.val false 0x3D⟩)) ∧
     (Issues (.rprobe g d x e) s → s.readSrc x &&& 0xFFFFFFFFFFFFFEC0 = 0 → ∃ t, exec (.rprobe g d x e) s = .next t ∧
       t.cx.fresh = ((s.begun (.rprobe g d x e)).push .long d ((look 0 (field (s.readSrc x) 0 6) s.fab.counters).setWidth 64)).cx.fresh ∧
       ∀ k, look 0 k t.fab.counters =
         if (s.readSrc x).getLsbD 8 ∧ k = field (s.readSrc x) 0 6 then 0 else look 0 k s.fab.counters) ∧
     (Issues (.rlbQ g d a e) s → badPeerWord mw = false → badPeerWord kw = false → exec (.rlbQ g d a e) s =
       .next ((s.begun (.rlbQ g d a e)).push .long d (word (s.fab.layby.filter fun y => matches_ mw kw y.msg).length))) ∧
     (Issues (.rlbQ g d a e) s → badPeerWord mw = true ∨ badPeerWord kw = true → exec (.rlbQ g d a e) s =
       .next ((s.begun (.rlbQ g d a e)).trap ⟨0x01, s.cx.regs.pc, bundleInfo 0 s.issue.slot.val false 0x3C⟩)) ∧
     (Issues (.rprobe g d x e) s → s.readSrc x &&& 0xFFFFFFFFFFFFFEC0 ≠ 0 → exec (.rprobe g d x e) s =
       .next ((s.begun (.rprobe g d x e)).trap ⟨0x01, s.cx.regs.pc, bundleInfo 0 s.issue.slot.val false 0x3C⟩))) ∧
  (∀ (s u : State) (g h : Fin 16) (a : Fin 8) (x : Src) (e f : Bool) (d : Dst) (m : MsgArrival) (p : Posted) (n : Nat) (w : Written)
     (t : Option Trap) (out : Bool) (k : Fin 64) (z : Trap),
     let mw := s.readS (evenP a)
     let kw := s.readS (oddP a)
     let b := s.begun (.rwait g d x e)
     let q := s.begun (.rpostW g h a x e f)
     (s.fab.posted.find? (fun q => q.entry == n && q.msg.isSome && !q.landed) = some p → p.msg = some m →
       let s1 := s.idle.touchDone p.who p.handle
       let l := s1.landingItems p m
       let p1 : Posted := { p with pos := p.pos + w.count, outward := p.outward || w.outward, fault := w.fault }
       (p.fault = none → p.pos < l.length → s1.writeItems p.who (l.drop p.pos) = (w, u) →
         ((w.fault ≠ none ∨ p1.pos = l.length) → u.engAwaits p.order = false →
           exec (.landingComplete n) s = .next (u.landed p1 m (p1.outward && w.fault.isNone) w.fault)) ∧
         (u.engAwaits p.order = true ∨ w.fault = none ∧ p1.pos < l.length → w.count ≠ 0 ∨ w.fault ≠ none → exec (.landingComplete n) s =
           .next { u.mapPosted (List.map fun (x : Posted) => if x.order = p.order then p1 else x) with evt := .done }) ∧
         (w.count = 0 → w.fault = none → exec (.landingComplete n) s = .next { u with evt := .stall })) ∧
       ((p.fault ≠ none ∨ p.pos = l.length) → s1.engAwaits p.order = false →
         exec (.landingComplete n) s = .next (s1.landed p m (p.outward && p.fault.isNone) p.fault)) ∧
       ((p.fault ≠ none ∨ p.pos = l.length) → s1.engAwaits p.order = true →
         exec (.landingComplete n) s = .next { s1 with evt := .stall })) ∧
     (p.counter = some k → look 0 k.val (s.landed p m out t).fab.counters = look 0 k.val s.fab.counters + 1) ∧
     (Issues (.rwait g d x e) s → s.dueChecks = [] → s.fab.posted.find? (fun q => q.ticket == s.readSrc x && q.ctx == s.cid) = some p →
       (p.landed = true → p.fault = none → ∃ (v t : State), exec (.rwait g d x e) s = .next t ∧ t = v.push .s1 d p.status ∧
         (∀ q ∈ t.fab.posted, q.order ≠ p.order) ∧ t.mem = s.mem ∧ v.cx.regs = b.cx.regs ∧ v.cx.fresh = s.cx.fresh) ∧
       (p.landed = true → p.fault = some z → exec (.rwait g d x e) s = .next ((b.forgetFault p.order).raise (b.slotFault z))) ∧
       (p.landed = false → exec (.rwait g d x e) s = .next b.blockBundle)) ∧
     (Issues (.rpostW g h a x e f) s → s.dueChecks = [] → s.cx.joinMark ≠ 0 → s.fab.posted.find? (fun q => q.order == s.cx.joinMark) = some p →
       (p.landed = true → p.fault = none → ∃ (v t : State), exec (.rpostW g h a x e f) s = .next t ∧ t = v.push .s1 .queue p.status ∧
         (∀ q ∈ t.fab.posted, q.order ≠ p.order) ∧ t.mem = s.mem ∧ v.cx.regs = q.cx.regs ∧ v.cx.fresh = s.cx.fresh) ∧
       (p.landed = true → p.fault = some z → exec (.rpostW g h a x e f) s = .next ((q.forgetFault p.order).raise (q.slotFault z))) ∧
       (p.landed = false → exec (.rpostW g h a x e f) s = .next q.blockBundle)) ∧
     (Issues (.rpostW g h a x e f) s → s.cx.joinMark = 0 → badPeerWord mw = false → badPeerWord kw = false →
       field (s.readSrc x) 7 57 = 0 → descCause (s.readH h).desc = none → isMx (Desc.type (s.readH h).desc) = false →
       Desc.ro (s.readH h).desc = false → (∀ q ∈ s.fab.posted, q.order ≠ s.nextId) →
       (s.fab.posted.length < 4096 → ∃ t, exec (.rpostW g h a x e f) s = .next t ∧ t.cx.status = .blocked ∧ t.cx.wait = .bundle ∧
         t.cx.joinMark = s.nextId ∧ ∃ q ∈ t.fab.posted, q.order = s.nextId ∧ q.handle = s.readH h ∧ q.matchWord = mw ∧ q.maskWord = kw) ∧
       (4096 ≤ s.fab.posted.length → exec (.rpostW g h a x e f) s = .next q.blockBundle))) ∧
  (∀ (s : State) (g : Fin 16) (d : Dst) (o : FOp) (peer : Fin 64) (tag : BitVec 32) (k : SendKind) (j : JoinOp) (x : Trap),
     let b := s.begun (.fdrn g)
     (Issues (.fdrn g) s → (∀ o ∈ s.fabricJoins, o.complete = true ∧ o.fault = none) → s.dueChecks = [] →
       let t := s.fabricJoins.foldl State.joined b
       exec (.fdrn g) s = .next t ∧ t.mem = s.mem ∧ (∀ y ∈ t.fab.fops, ∀ o ∈ s.fabricJoins, y.id ≠ o.id) ∧
       t.cx.regs.fpmode = s.fabricJoins.foldl (fun f o => raiseFlags f o.flags o.warnings) b.cx.regs.fpmode) ∧
     (Issues (.fdrn g) s → (∀ o ∈ s.fabricJoins, o.complete = true) → j ∈ s.fabricJoins ++ s.dueChecks → j.fault = some x →
       (∀ p ∈ s.fabricJoins ++ s.dueChecks, p.fault ≠ none → p = j ∨ j.before p = true) →
       exec (.fdrn g) s = .next ((b.forgetFault j.id).raise (b.slotFault x))) ∧
     (Issues (.fdrn g) s → (∃ o ∈ s.fabricJoins, o.complete = false) → exec (.fdrn g) s = .next b.blockBundle) ∧
     (Issues (.collSt g d) s → exec (.collSt g d) s = .next ((s.begun (.collSt g d)).push .s1 d
       (let mine := s.fab.fops.filter fun o => o.ctx == s.cid && o.kind.isColl
        fieldsWord [(0, 16, (mine.filter fun o => !o.complete).length), (16, 1, (mine.any fun o => o.complete && o.fault.isSome).toNat)]))) ∧
     (s.fab.fops.find? (fun y => y.id == o.id && !y.complete) = some o → o.kind = .send peer tag k → o.ctx < noCtx →
       (∃ t, exec (.sendComplete o.id false) s = .next t ∧ t.mem = s.mem ∧
         ∀ y ∈ t.fab.fops, y.id = o.id → y.complete = true) ∧
       (∃ t a, exec (.sendComplete o.id true) s = .next t ∧ t.mem = s.mem ∧ ∀ y ∈ t.fab.fops, y.id = o.id → y.complete = true ∧
         (o.fault = none → (∀ z ∈ s.fab.fops, z.id = o.id → z = o) → y.fault = some
           ⟨0x0A, a, setField (setField (refusalInfo false true false) 24 6 peer.val) 0 8 0x46⟩))))

/-- R27, R347, R348, R350, R375, R390: `coll.ring` sets a ring of two or more distinct members, this device among them, and clears it; it waits for
the ring's collectives, and an operand or descriptor that is not legal, or a second claim to circuits, is cause 0x3E. A collective on a ring
whose members can be reached, with its tensor read, becomes an operation of the context and is told to the others, by the ring's circuits
where they are in force; one whose tensor cannot be read is told as failed, one with a lost member is complete with a fault; it blocks while no
more can start, or while an address of its tensor waits for the hub; on a ring that is not set, or with a control word that is not legal, it
is cause 0x3E. The model's choices: what the members tell each other (assumption 56), and by circuits in which way (assumption 102); EADDR
of cause 0x46 (assumption 57).

R122, R305, R351: `coll.bar` on a ring: an arrival when nothing of the context is outstanding commits the buffer phase and begins the wait; once
the members have met, it goes on and its operation is gone; a recorded fault is raised, and forgotten; a ring that is not set, or a word with
reserved bits, is cause 0x3E. How a bundle that waits goes on is the model's choice (assumption 78). -/
def Obligations.Collectives : Prop :=
  (∀ (i : Instr) (s u v : State) (g : Fin 16) (a x : Src) (e f : Bool) (k : Nat) (h : Fin 16) (w : Word) (ring : Ring) (bs : List EngBytes)
     (raw : List Byte) (ms : List (Fin 64)) (t : Trap) (lost : Fin 64),
     let r : Fin 16 := Fin.ofNat 16 (field w 0 4)
     let b := s.begun i
     let ill := fun (b : State) => Host.Outcome.next (b.trap ⟨0x01, s.cx.regs.pc, bundleInfo 0 s.issue.slot.val false 0x3E⟩)
     let mk := fun (xs : List Word) (bad : List Nat) (no : Bool) =>
       u.newFop s.nextId (.coll r k (field w 4 2) (w.getLsbD 6) (BitVec.ofNat 32 (field w 32 32)) h (s.readH h) xs bad no)
     let o := mk (bs.map fun y => word (ofBytes (y.map (·.1)))) ((bs.zipIdx.filter fun y => y.1.any (·.2)).map Prod.snd) false
     let o1 := { mk [] [] true with fault := some t }
     let failed := fun (t : Trap) => { o with complete := true, fault := some t }
     let lostInfo := setField (setField (refusalInfo false true false) 24 6 lost.val) 0 8 0x46
     (collForm s i = some (k, h, w) → Issues i s → s.ring r = some ring → badControl k w = false → descCause (s.readH h).desc = none →
       isMx (Desc.type (s.readH h).desc) = false → Desc.ro (s.readH h).desc = false →
       (s.fabricFull = true ∨ 4 ≤ s.ringBusy r → exec i s = .next b.blockBundle) ∧
       (s.fabricFull = false → s.ringBusy r < 4 → u.evt.isHub = false →
         (b.sending.collTensor ⟨s.cid, b.sending.system, some s.nextId⟩ h (s.readH h) = (.ok bs, u) → u.unreachedOf ring.members = none →
           exec i s = .next ((u.addFop o).tellRing r ring.members (u.contribution ring.members o))) ∧
         (b.sending.collTensor ⟨s.cid, b.sending.system, some s.nextId⟩ h (s.readH h) = (.error t, u) → u.unreachedOf ring.members = none →
           exec i s = .next ((u.addFop o1).tellRing r ring.members (u.contribution ring.members o1))) ∧
         (b.sending.collTensor ⟨s.cid, b.sending.system, some s.nextId⟩ h (s.readH h) = (.ok bs, u) → u.unreachedOf ring.members = some lost →
           ∃ y, exec i s = .next (({ u with freeCount := u.freeCount + 1 } : State).addFop (failed ⟨0x0A, y, lostInfo⟩))))) ∧
     (collForm s i = some (k, h, w) → Issues i s → s.ring r = none ∨ badControl k w = true → exec i s = ill b) ∧
     (∀ (z : State) (ms : List (Fin 64)) (c : CollPeer), c.dev.val = z.device →
       let others := ms.filter fun p => p.val ≠ z.device
       let dests := if z.onCircuits r then others.filter fun p => p = ms.getD ((ms.findIdx (·.val == z.device) + 1) % ms.length) 0 ∧ p ≠ c.dev else others
       z.tellRing r ms c = dests.foldl (fun z p => z.send (.collective p r c)) z) ∧
     (let c := s.begun (.collRing g a x e f)
      let q : Fin 16 := Fin.ofNat 16 (field (s.readSrc a) 0 4)
      (Issues (.collRing g a x e f) s → s.readSrc a &&& 0xFFFFFFFFFFFFFCF0 ≠ 0 → exec (.collRing g a x e f) s = ill c) ∧
      (Issues (.collRing g a x e f) s → s.readSrc a &&& 0xFFFFFFFFFFFFFCF0 = 0 →
        (s.ringBusy q ≠ 0 → exec (.collRing g a x e f) s = .next c.blockBundle) ∧
        (s.ringBusy q = 0 → (s.readSrc a).getLsbD 9 = true →
          ∃ t, exec (.collRing g a x e f) s = .next t ∧ t.ring q = none ∧ ∀ z, z ≠ q → t.ring z = s.ring z) ∧
        (s.ringBusy q = 0 → (s.readSrc a).getLsbD 9 = false → c.readBlocking s.who true [] .g (s.readSrc x) 64 = .ok (raw, v) →
          (v.ringMembers raw = some ms → (s.readSrc a).getLsbD 8 = false ∨ v.fab.circuitRing = none ∨ v.fab.circuitRing = some q →
            ∃ t, exec (.collRing g a x e f) s = .next t ∧ t.ring q = some ⟨ms, (s.readSrc a).getLsbD 8⟩ ∧
              ∀ z, z ≠ q → t.ring z = v.ring z) ∧
          (v.ringMembers raw = none ∨ (s.readSrc a).getLsbD 8 = true ∧ v.fab.circuitRing ≠ none ∧ v.fab.circuitRing ≠ some q →
            exec (.collRing g a x e f) s = .next (v.trap ⟨0x01, v.cx.regs.pc, bundleInfo 0 v.issue.slot.val false 0x3E⟩))) ∧
        (s.ringBusy q = 0 → (s.readSrc a).getLsbD 9 = false → c.readBlocking s.who true [] .g (s.readSrc x) 64 = .error v →
          exec (.collRing g a x e f) s = .next v))) ∧
     (∀ t : State, t.ringMembers raw = some ms → 2 ≤ ms.length ∧ ms.Nodup ∧ Fin.ofNat 64 t.device ∈ ms)) ∧
  (∀ (s : State) (g : Fin 16) (a : Src) (e : Bool) (o : FOp) (ring : Ring) (x : Trap),
     let b := s.begun (.collBar g a e)
     let q := b.publish.markOutbound
     let r : Fin 16 := Fin.ofNat 16 (field (s.readSrc a) 0 4)
     (Issues (.collBar g a e) s → s.dueChecks = [] → s.cx.joinMark ≠ 0 → s.fab.fops.find? (fun y => y.id == s.cx.joinMark) = some o →
       (o.complete = true → o.fault = none →
         ∃ t, exec (.collBar g a e) s = .next t ∧ t.evt = .done ∧ t.cx.joinMark = 0 ∧ (∀ y ∈ t.fab.fops, y.id ≠ o.id)) ∧
       (o.complete = true → o.fault = some x → exec (.collBar g a e) s = .next ((b.forgetFault o.id).raise (b.slotFault x))) ∧
       (o.complete = false → exec (.collBar g a e) s = .next b.blockBundle)) ∧
     (Issues (.collBar g a e) s → s.cx.joinMark = 0 → s.ring r = some ring → field (s.readSrc a) 4 28 = 0 →
       (b.publish.published = false → exec (.collBar g a e) s = .next b.publish.blockBundle) ∧
       (b.publish.published = true → q.allJoins = [] → (∀ y ∈ q.ownRelayouts, y.state ≠ .active) → q.draining = false →
         (∀ y ∈ q.fab.fops, y.id ≠ q.nextId) → (∀ y ∈ ring.members, q.reachable y.val = true) →
         ∃ t, exec (.collBar g a e) s = .next t ∧ t.cx.status = .blocked ∧ t.cx.joinMark = q.nextId ∧
           (∃ y ∈ t.fab.fops, y.id = t.cx.joinMark ∧ y.kind = .bar r (BitVec.ofNat 32 (field (s.readSrc a) 32 32)) ∧ y.complete = false) ∧
           (∃ c, t.cx.ckpt = some c ∧ c.committed = true))) ∧
     (Issues (.collBar g a e) s → s.cx.joinMark = 0 → s.ring r = none ∨ field (s.readSrc a) 4 28 ≠ 0 → exec (.collBar g a e) s =
       .next (b.trap ⟨0x01, s.cx.regs.pc, bundleInfo 0 s.issue.slot.val false 0x3E⟩)))

/-- R349: the reductions in ring order: of integers sums wrap and the order does not matter to maximum and minimum; every member ends with
the same elements when it rounds like the others; a gather takes each chunk from its member, and the chunks cover the tensor without
overlap. How many terms a float sum has, and what a member takes that is not stated, are the model's choices (assumptions 49 and 56).

R348, R349, R350, R351: the event in which a ring's members have met: the parts of the others go on where the ring has circuits; when they agree, each at its own position, the collective's
elements are written and the operation ends with its flags; when they differ it ends with fault 0x01 of cause 0x3F; a member's own recorded
fault ends it; a lost member ends it with fault 0x0A of cause 0x46; a barrier of a ring flips its phase and ends. The model's choices: that it does nothing
while a member is missing (assumption 49), what the members tell each other (assumptions 56 and 102), and EADDR of the faults (assumption 57). -/
def Obligations.CollectiveResults : Prop :=
  ((∀ n g i : Nat, 0 < g → i < n → ∃ c, c < g ∧ (chunkOf n g c).1 ≤ i ∧ i < (chunkOf n g c).2 ∧ chunkAt n g i = c ∧
     ∀ c', c' < g → (chunkOf n g c').1 ≤ i → i < (chunkOf n g c').2 → c' = c) ∧
   (∀ (t : Nat) (rm : BitVec 2) (sat8 : Bool) (x : Nat) (xs : List Nat), typeFmt t = none →
     reduceElem t 0 rm sat8 ((x % 2 ^ (8 * typeSize t)) :: xs) = ((x % 2 ^ (8 * typeSize t) + xs.sum) % 2 ^ (8 * typeSize t), 0)) ∧
   (∀ (xs : List CollPeer) (a b : CollPeer) (free : Nat → Word) (i : Nat), a.kind = 0x0A → b.kind = 0x0A → a.count = b.count →
     a.ety = b.ety → a.op = b.op → (∀ c ∈ xs, c.rm = a.rm ∧ c.sat8 = a.sat8) → i < a.count → xs ≠ [] →
     (collElem xs a free i).map (·.1) = (collElem xs b free i).map (·.1)) ∧
   (∀ (xs : List CollPeer) (a : CollPeer) (free : Nat → Word) (i : Nat), a.kind = 0x0B → chunkAt a.count xs.length i ≠ a.pos →
     collElem xs a free i = some (((((xs.getD (chunkAt a.count xs.length i) a).elems.getD i 0).toNat,
       (xs.getD (chunkAt a.count xs.length i) a).poison.contains i), 0)))) ∧
  (∀ (s : State) (r : Fin 16) (peers xs : List CollPeer) (o : FOp) (ring : Ring),
     let mine := s.idle.contribution ring.members o
     let b := (s.idle.freeParts xs).passParts r ring.members xs
     s.ringOp r peers = some o → s.ring r = some ring →
       (o.met = none → memberList ring.members mine peers = some xs →
         (∀ q kd op noise tag k h es bad, o.kind = .coll q kd op noise tag k h es bad false →
           (membersDiffer mine xs = false → exec (.collectiveExecute r peers false) s = .next (b.runColl o xs mine noise k h)) ∧
           (membersDiffer mine xs = true → ∃ a, exec (.collectiveExecute r peers false) s =
             .next (({ b with freeCount := b.freeCount + 1 } : State).endFop o.id (some ⟨0x01, a, bundleInfo 0 7 false 0x3F⟩) 0 false))) ∧
         (∀ q kd op noise tag k h es bad, o.kind = .coll q kd op noise tag k h es bad true →
           exec (.collectiveExecute r peers false) s = .next (b.endFop o.id o.fault 0 false)) ∧
         (∀ q tag, o.kind = .bar q tag → ∃ t, exec (.collectiveExecute r peers false) s = .next t ∧
           t.fab.barPhase = s.fab.barPhase ^^^ (1#16 <<< r.val))) ∧
       (o.met = some xs → membersDiffer mine xs = false → ∀ q kd op noise tag k h es bad, o.kind = .coll q kd op noise tag k h es bad false →
         exec (.collectiveExecute r peers false) s = .next (s.idle.runColl o xs mine noise k h)) ∧
       (o.met = none → memberList ring.members mine peers = none → exec (.collectiveExecute r peers false) s = .next s.idle) ∧
       (∃ a, exec (.collectiveExecute r peers true) s = .next (({ s.idle with freeCount := s.freeCount + 1 } : State).endFop o.id
         (some ⟨0x0A, a, setField (setField (refusalInfo false true false) 24 6 (s.lostMember ring.members)) 0 8 0x46⟩) 0 false)))

/-- R207, R352, R353, R354, R367, R379: the queries and controls of the fabric: the noise registers, the shift of a peer and its detour, a slot entry, an
allowance, the event log, retune windows, repairs and grants; operands out of range are cause 0x2C, a reserve line without room 0x2B, which
comes first. The model's choices: SHIFT of a spare circuit position is a free value (assumption 9), and a grant still pending counts at once
against its reserve line (assumption 51). -/
def Obligations.FabricQueries : Prop :=
  ∀ (s : State) (g : Fin 16) (d : Dst) (a x : Src) (e f : Bool) (n : Fin 4) (l : Link),
    let w := s.readSrc a
    let y := s.readSrc x
    let ill := fun (i : Instr) => Host.Outcome.next ((s.begun i).trap ⟨0x01, s.cx.regs.pc, bundleInfo 0 s.issue.slot.val false 0x2C⟩)
    (Issues (.noiseRd g d n) s → exec (.noiseRd g d n) s = .next ((s.begun (.noiseRd g d n)).push .s1 d s.cx.regs.noise[n])) ∧
    (Issues (.noiseClr g) s → exec (.noiseClr g) s =
      .next ((s.begun (.noiseClr g)).modRegs fun r => { r with noise := Vector.replicate 4 0 })) ∧
    (Issues (.fpeer g d a e) s → w.toNat < 64 → s.fab.detourOf ((w.toNat + 64 - s.device) % 64) = none → exec (.fpeer g d a e) s =
      .next ((s.begun (.fpeer g d a e)).push .s3 d
        (fieldsWord [(63, 1, (flag s.fab.podmask w.toNat).toNat), (0, 6, (w.toNat + 64 - s.device) % 64)]))) ∧
    (Issues (.fpeer g d a e) s → w.toNat < 64 → ∀ k, s.fab.detourOf ((w.toNat + 64 - s.device) % 64) = some k →
      exec (.fpeer g d a e) s = .next ((s.begun (.fpeer g d a e)).push .s3 d (fieldsWord [(63, 1, (flag s.fab.podmask w.toNat).toNat),
        (0, 6, (w.toNat + 64 - s.device) % 64), (62, 1, 1), (8, 6, k)]))) ∧
    (Issues (.fpeer g d a e) s → 64 ≤ w.toNat → exec (.fpeer g d a e) s =
      .next ((s.begun (.fpeer g d a e)).trap ⟨0x01, s.cx.regs.pc, bundleInfo 0 s.issue.slot.val false 0x2C⟩)) ∧
    (Issues (.fslot g d a e) s → w.toNat < 2 ^ 16 → field w 8 8 < s.fab.plen →
      s.fab.profile ≠ 1 ∨ s.fab.entry (field w 0 5) (field w 8 8) (field w 5 3) ≠ slotEntry 3 0 → exec (.fslot g d a e) s =
      .next ((s.begun (.fslot g d a e)).push .s3 d
        (fieldsWord [(0, 16, (s.fab.entry (field w 0 5) (field w 8 8) (field w 5 3)).toNat), (16, 8, s.fab.plen)]))) ∧
    (Issues (.fslot g d a e) s → 2 ^ 16 ≤ w.toNat ∨ s.fab.plen ≤ field w 8 8 → exec (.fslot g d a e) s = ill (.fslot g d a e)) ∧
    (Issues (.fslot g d a e) s → w.toNat < 2 ^ 16 → field w 8 8 < s.fab.plen → s.fab.profile = 1 →
      s.fab.entry (field w 0 5) (field w 8 8) (field w 5 3) = slotEntry 3 0 → ∃ z : Nat, z < 64 ∧ exec (.fslot g d a e) s =
      .next (({ s.begun (.fslot g d a e) with freeCount := s.freeCount + 1 } : State).push .s3 d
        (fieldsWord [(0, 16, 0xC000 + z * 256), (16, 8, s.fab.plen)]))) ∧
    (Issues (.fbays g d a e) s → w &&& 0xFFFFFFFFFFFFC0E0 ≠ 0 → exec (.fbays g d a e) s = ill (.fbays g d a e)) ∧
    (Issues (.fbays g d a e) s → w &&& 0xFFFFFFFFFFFFC0E0 = 0 → s.fab.link (field w 0 5) (Fin.ofNat 64 (field w 8 6)) = none →
      exec (.fbays g d a e) s = .next ((s.begun (.fbays g d a e)).push .s3 d 64)) ∧
    (Issues (.fbays g d a e) s → w &&& 0xFFFFFFFFFFFFC0E0 = 0 → s.fab.link (field w 0 5) (Fin.ofNat 64 (field w 8 6)) = some l →
      exec (.fbays g d a e) s = .next ((s.begun (.fbays g d a e)).push .s3 d ((l.peerFreed - l.sent + 64).setWidth 64))) ∧
    (Issues (.fevt g d) s → ∃ u : State, exec (.fevt g d) s = .next (u.push .long d (s.fab.log.headD 0)) ∧ u.fab.log = s.fab.log.drop 1 ∧
      u.mem = s.mem) ∧
    (Issues (.fretune g a e) s → w &&& 0xFFFFFFFFFFFFFEFC = 0 → field w 0 2 < 2 → ∃ t, exec (.fretune g a e) s = .next t ∧
      t.fab.windowPend = s.fab.windowPend ++ [(field w 0 2, w.getLsbD 8)] ∧ t.mem = s.mem) ∧
    (Issues (.fretune g a e) s → w &&& 0xFFFFFFFFFFFFFEFC ≠ 0 ∨ 2 ≤ field w 0 2 → exec (.fretune g a e) s = ill (.fretune g a e)) ∧
    (Issues (.frepair g a x e f) s → 2 ^ 16 ≤ w.toNat ∨ field y 16 16 ≠ 0 ∨ s.fab.plen ≤ field w 8 8 →
      exec (.frepair g a x e f) s = ill (.frepair g a x e f)) ∧
    (Issues (.frepair g a x e f) s → w.toNat < 2 ^ 16 → field y 16 16 = 0 → field w 8 8 < s.fab.plen →
      ∃ t, exec (.frepair g a x e f) s = .next t ∧ t.mem = s.mem ∧
        t.fab.changes = s.fab.changes ++ [⟨field w 0 5, field w 5 3, field w 8 8, BitVec.ofNat 16 (field y 0 16),
          s.fab.installAt (field y 32 32)⟩]) ∧
    (Issues (.fgrant g a e) s → 2 ^ 16 ≤ w.toNat → (w.getLsbD 15 = true → 64 ≤ field w 0 7 →
      s.fab.granted.contains (field w 0 7, field w 7 5, field w 12 3) = true ∨ s.fab.reserveRoom (field w 0 7) = true) →
      exec (.fgrant g a e) s = ill (.fgrant g a e)) ∧
    (Issues (.fgrant g a e) s → w.toNat < 2 ^ 16 → w.getLsbD 15 = false → ∃ t, exec (.fgrant g a e) s = .next t ∧ t.mem = s.mem ∧
      (64 ≤ field w 0 7 → (field w 0 7, field w 7 5, field w 12 3) ∉ t.fab.granted ∧ t.fab.withheld = s.fab.withheld) ∧
      (field w 0 7 < 64 → (field w 0 7, field w 7 5, field w 12 3) ∈ t.fab.withheld ∧ t.fab.granted = s.fab.granted)) ∧
    (Issues (.fgrant g a e) s → w.toNat < 2 ^ 16 → w.getLsbD 15 = true → field w 0 7 < 64 → ∃ t, exec (.fgrant g a e) s = .next t ∧
      (field w 0 7, field w 7 5, field w 12 3) ∉ t.fab.withheld ∧ t.fab.granted = s.fab.granted ∧ t.mem = s.mem) ∧
    (Issues (.fgrant g a e) s → w.toNat < 2 ^ 16 → w.getLsbD 15 = true → 64 ≤ field w 0 7 →
      (s.fab.granted.contains (field w 0 7, field w 7 5, field w 12 3) = true ∨ s.fab.reserveRoom (field w 0 7) = true) →
      ∃ t, exec (.fgrant g a e) s = .next t ∧ (field w 0 7, field w 7 5, field w 12 3) ∈ t.fab.granted ∧ t.mem = s.mem) ∧
    (Issues (.fgrant g a e) s → w.getLsbD 15 = true → 64 ≤ field w 0 7 →
      s.fab.granted.contains (field w 0 7, field w 7 5, field w 12 3) = false → s.fab.reserveRoom (field w 0 7) = false →
      exec (.fgrant g a e) s =
        .next ((s.begun (.fgrant g a e)).trap ⟨0x01, s.cx.regs.pc, bundleInfo 0 s.issue.slot.val false 0x2B⟩))

/-- What State.reset holds: the values that the spec gives (R165, R175, R177, R198, R283, R372, R395, R399, R414, R422). The rest is the
model's choice: memory with nothing listed reads as zero (assumption 1); ISSUECTL, the marks of unwritten vector registers, the routine table
and the event counters are 0, and nothing waits to be sent (assumption 2); a core's map has every instance in service (assumption 3). -/
def Obligations.ResetState : Prop :=
  let s := State.reset
  s.mem.wf = true ∧ (∀ a, s.byteAt a = 0) ∧
  (∀ c, (s.ctx c).status = .free ∧ (s.ctx c).inst = none ∧ (s.ctx c).regs.fpmode = 0 ∧ (s.ctx c).regs.issuectl = 0 ∧
    (s.ctx c).regs.vinvalid = 0 ∧ ∀ l < 64, at_ (s.ctx c).regs.lfsr l 0 = 1) ∧
  (∀ (g : Nat) (p : Fin 4), ((s.coreAt g).mx.plane p).state = .idle ∧ (s.coreAt g).slotmap = 0x0000688FF1C00000 ∧
    ∀ k, look 0 k (s.coreAt g).mx.table = 0) ∧
  (∀ n e, (s.clusterAt n).permits = 0x4040 ∧ (s.clusterAt n).boostlvl = 0 ∧ look 0 e (s.clusterAt n).events = 0) ∧
  s.regRead 0x840 = 0 ∧ s.regRead 0x1000 = 0 ∧ s.regRead 0x1030 = 0 ∧ s.regRead 0x1200 = 0 ∧ s.regRead 0x1210 = 0x00001C61440C2040 ∧
  s.regRead 0x1300 = 0 ∧ s.regRead 0x1400 = 0x0000000800000080 ∧ s.regRead 0x1500 = 0x960240C000000000 ∧ s.regRead 0x1508 = 0 ∧
  s.regRead 0x1510 = 0x555F69 ∧ s.regRead 0x1600 = 0 ∧ s.regRead 0x1608 = 0 ∧ s.regRead 0x1610 = 0 ∧ s.regRead 0x1620 = 3 ∧
  s.powerState = 0 ∧ s.outbox = []

/-- A step runs the decoded instruction. In power state OFF (R396) the host port, the management buses, the mailbox and the return of power
alone do anything, which is the model's reading (assumption 71), and with nothing on the agenda nothing runs. An event of the agenda is
executed. The next microword of a routine is executed as its micro-op. When the words at the program counter of the context that issues are a
stop-flagged bundle with one syllable, nothing else is due at it, and the syllable passes the checks, the step is `exec` of that syllable in
its slot, then the bundle's end: QP takes its pushes, the program counter moves to the next bundle or the target, the cycles of its
sub-bundles pass, and the turn goes to the core's engines: that order of agents is the model's choice (assumption 6), as is the trial of a
bundle before it issues (assumption 22). -/
def Obligations.StepRuns : Prop :=
  (∀ s : State, s.powerState = 3 → s.agenda = [] → step s = .fault .poweredOff) ∧
  (∀ (s : State) (e : Event) (l : List Event), s.powerState = 3 → s.agenda = e :: l →
    step s = if needsNoPower e then exec e.toInstr { s with agenda := l } else .next { s with agenda := l }) ∧
  (∀ (s : State) (e : Event) (l : List Event), s.powerState ≠ 3 → s.agenda = e :: l → step s = exec e.toInstr { s with agenda := l }) ∧
  (∀ (s : State) (g : Nat) (r : Routine) (m : Micro), s.powerState ≠ 3 → s.nextAction = .microOp g →
    (s.focus (4 * g)).core.mx.routine = some r → decodeMicro (look 0 r.addr (s.focus (4 * g)).core.mx.store).toNat = some m →
    step s = endEngine g (exec m.toInstr (s.focus (4 * g)))) ∧
  (∀ (s b t u : State) (c : Nat) (k : Fin 8) (h w : Word32) (lits : List Word32) (y : Syl),
    let i := match y with
      | .core i => i
      | .eng x => x.toInstr
    let pc := (s.focus c).cx.regs.pc
    let r := b.reachCycle (b.issueCycle h)
    let q : State := { r with cx := r.cx.findMarks pc }
    let x := q.openBundle h lits [(k, y)]
    let subs := x.splitBundle [(k, y)]
    let z : State := { x with
      issue := { x.issue with checked := true, slots := [k], point := y.blockPoint && !(x.cx.synced && k == 6) },
      core := { x.core with used := (x.core.cycle, x.usage 0 subs) } }
    s.powerState ≠ 3 → s.nextAction = .issue c → (s.focus c).idle.goTo pc = .ok b → b.lineAtPc pc = .ok (h, w :: lits) →
    slotsOf (presOf h) = [k] → stopOf h = true → badHeader h = false → decodeSlot k (nlitOf h) w.toNat = .ok y →
    r.agenda = b.agenda → q.cx.part = none → x.cx.held = [] → x.cx.pending = [] → x.cx.stopReq = none → x.quantumDue = false →
    x.recorded x.cx.regs.pc = [] → x.readP (y.info x).guard = true → x.verdict [(k, .ok y)] = .go →
    z.checkClash [] [(k, y.info z)] = .go → y.accesses = false ∨ z.awaitsReplies = false →
    exec i (z.inSlot k) = .next u → u.evt = .done → exec i ((z.markViol [(k, y.info z)]).inSlot k) = .next t → t.evt = .done →
    ∃ v, State.atBlock (.next ((t.atPush [(k, y)] 8).closeBundle pc z.issue.subs)) = .next v ∧
      step s = .next (v.modCore (c / 4) fun q => { q with engineTurn := true }))

/-- Every instruction completes: whatever the state, `exec` answers a next state; none is refused and none stops the machine. A step answers a
next state too, but in power state OFF with nothing on the agenda, where nothing runs (R396). -/
def Obligations.AlwaysNext : Prop :=
  (∀ (i : Instr) (s : State), ∃ t, exec i s = .next t) ∧
  (∀ s : State, (∃ t, step s = .next t) ∨ (s.powerState = 3 ∧ s.agenda = [] ∧ step s = .fault .poweredOff))

/-- Memory keeps its canonical form: no step from any state in which addresses rise strictly and no byte that reads as an unlisted one is
listed leaves one in which that is not so. -/
def Obligations.MemoryForm : Prop :=
 ∀ s t : State, s.mem.wf = true → step s = .next t → t.mem.wf = true

/-- R157 to R161, R166: GO does nothing before READY, sets OVR while a replay runs or another GO waits or the device vacates, waits while the
device is not in RUN, and else reads and checks the graph. A check that fails ends in ERROR with ERR, NODE and the tag. A graph that passes is
PATCHING, its patches are written in order, and with none, or the last of them acknowledged, it is RUNNING with its ready nodes expanded and
the event counters clear, or DONE when it has nothing to run. The model's choices: the launch record is that of the KICK registers as the
write of GO left them (assumption 61), a GO that comes while another waits sets OVR (assumption 84), what the pool reads at a peer is an input
(assumption 10), and the node bound is the set of cores that are not DEAD then (assumption 21).

R162 to R164, R357: the pool gives an eligible instance to the die of the origin element when its unit has a core there, else to the one
with the shortest queue, the lowest of these; a dispatcher puts the head of its queue into a free context of its die, one kept for it or for
nobody, which starts at the node's entry with the instance's parameters; with none it waits; waiting instances age. The model's choices: what
a gang or a restarted instance has reserved or been promised, and which contexts the head of a queue may take (assumptions 62, 113), and the
order of instances of one priority (assumption 88). -/
def Obligations.Replays : Prop :=
  ((∀ (s u : State) (g : Graph) (ps : List (Nat × List Byte)) (e : Nat × Nat),
     let k := s.regs.kickGos.headD s.regs.kick
     let b : State := { s.idle with regs := { s.regs with kickGos := s.regs.kickGos.drop 1 } }
     let st := field s.regs.kickstat 0 4
     let free := (st = 0 ∨ 4 ≤ st) ∧ s.vacating = false ∧ s.regs.kickPend = none
     let q : State := { b with regs := { b.regs with kickPend := none } }
     let load := (q.loadGraph s.regs.kickView k).then fun x s => (s.patches q.regs.kickView k x.2).then fun l s => (.ok (x.1, l), s)
     (field s.mgmt.bootstat 62 2 ≠ 2 → exec .kickGo s = .next b) ∧
     (field s.mgmt.bootstat 62 2 = 2 → (1 ≤ st ∧ st ≤ 3) ∨ s.vacating = true ∨ s.regs.kickPend ≠ none →
       exec .kickGo s = .next { b with regs := { b.regs with kickstat := setFlag s.regs.kickstat 5 true } }) ∧
     (field s.mgmt.bootstat 62 2 = 2 → free → field s.pwr.pwrstat 45 2 ≠ 0 →
       exec .kickGo s = .next { b with regs := { b.regs with kickPend := some k } }) ∧
     (field s.mgmt.bootstat 62 2 = 2 → free → field s.pwr.pwrstat 45 2 = 0 → load = (.error e, u) → ∃ t, exec .kickGo s = .next t ∧
       t.regs.kickstat = fieldsWord [(56, 8, e.1), (32, 16, e.2), (4, 2, field u.regs.kickstat 4 2), (0, 4, 5)] ∧
       t.regs.kickdone = k.getD 3 0 ∧ t.pool = u.pool ∧ t.mem = u.mem) ∧
     (field s.mgmt.bootstat 62 2 = 2 → free → field s.pwr.pwrstat 45 2 = 0 → load = (.ok (g, ps), u) →
       exec .kickGo s = .next (State.runPatches g u.nextId ps
         { u with nextId := u.nextId + 1, regs := { u.regs with kickstat := setField u.regs.kickstat 0 4 2 } }))) ∧
   (∀ (s : State) (g : Graph) (op : Nat),
     let q := (({ Pool.reset with graph := some g, dead := s.deadCores, stopped := s.pool.stopped } : Pool).expand g).mark g s.now
     (State.runPatches g op [] s =
       if s.engAwaits op then { s with pool := { s.pool with patching := some ⟨g, op, [], false⟩ } } else s.enterRunning g) ∧
     (q.done g = false → (s.enterRunning g).pool = q ∧
       (s.enterRunning g).regs.kickstat = fieldsWord [(4, 2, field s.regs.kickstat 4 2), (0, 4, 3)] ∧
       (s.enterRunning g).regs.kickdone = s.regs.kickdone ∧ (s.enterRunning g).cx = s.cx ∧
       ∀ n v, look 0 v ((s.enterRunning g).clusterAt n).events = 0) ∧
     (q.done g = true → (s.enterRunning g).pool = { Pool.reset with stopped := s.pool.stopped } ∧
       field (s.enterRunning g).regs.kickstat 0 4 = 4 ∧ (s.enterRunning g).regs.kickdone = g.tag) ∧
     (s.enterRunning g).mem = s.mem)) ∧
  (∀ (s q : State) (g : Graph) (n : NodeEntry) (i : Inst) (rest : List Inst) (d c : Nat) (o : Option Nat),
     s.pool.graph = some g → g.nodes[i.node]? = some n → s.poolRuns = true →
       (let p := s.idle.settlePool
        let cores := q.usableIn n.sClass (q.instCores g n i)
        s.pool.patching = none → p.pool.order = [i] → p.pool.waiting.find? (Inst.same i) = some i → p.pool.starting = false →
          n.barriers = [] → i.bound = none → i.restarts = 0 → p.originDie g n i.u = (o, q) → q.evt.isHub = false →
          q.chooseDie g n (q.aheadOf g i) i o = some d →
          (∃ x ∈ cores, x / 192 = d) ∧ (∀ e, o = some e → (∃ x ∈ cores, x / 192 = e) → d = e) ∧
          ((∀ e, o = some e → ∀ x ∈ cores, x / 192 ≠ e) → ∀ x ∈ cores,
            (q.dieAt d).queue.length < (q.dieAt (x / 192)).queue.length ∨
              ((q.dieAt d).queue.length = (q.dieAt (x / 192)).queue.length ∧ d ≤ x / 192)) ∧
          ((q.dieAt d).queue.length < 64 → ∃ t, exec .poolPlace s = .next t ∧ (t.dieAt d).queue = (q.dieAt d).queue ++ [i] ∧
            (∀ j ∈ t.pool.waiting, i.same j = false) ∧ (∀ e, e ≠ d → t.dieAt e = q.dieAt e) ∧ t.mem = q.mem)) ∧
       ((s.dieAt d).queue = i :: rest →
         let place := s.queuePlace g s.keptCtxs d n i
         (place = some c → (s.ctx c).status = .free ∧ c / 768 = d ∧ (i.bound = some c ∨ c ∉ s.keptCtxs) ∧
           flag (s.coreAt (c / 4)).slotmap 0 = false ∧ ∃ t, exec (.dieDispatch d) s = .next t ∧ t.ctx c = s.startState g n i c ∧
            (t.dieAt d).queue = rest ∧ (∀ e, e ≠ c → t.ctx e = s.ctx e) ∧ t.mem = s.mem) ∧
         (place = none → exec (.dieDispatch d) s = .next { s with evt := .stall })) ∧
       (let x := s.startState g n i c
        x.status = .ready ∧ x.estat = 0 ∧ x.regs.pc = n.entry ∧ x.regs.s[0] = i.pblock ∧ x.regs.s[1] = word i.u ∧
          (∀ k : Fin 16, 4 ≤ k.val → x.regs.s[k] = 0) ∧ x.inst = some { i with bound := none }) ∧
       (∃ t, exec .priorityAging s = .next t ∧ t.mem = s.mem ∧ t.cx = s.cx ∧ t.pool.waiting = s.pool.waiting.map fun j =>
          if j.seq = 0 then j
          else { j with prio := Nat.min 7 ((((g.nodes[j.node]?).map (·.prio)).getD j.prio) + (s.now - j.since) / 1000000) }))

/-- R124, R166, R167, R227, R229: `spawn` publishes, then offers its node to the spawn queue and tells in its predicate pair whether nothing was
enqueued; a block address that is not that of a 64-byte line
of the address space raises 0x06. `end.node` waits for its results and operations, raises the first fault that
they recorded, a rollback-class one before others (R408), joins its relayouts, publishes, and retires the instance: its context is FREE and
the pool counts it. The model's choices: the predicates of `spawn` are written one cycle later (assumption 91); a refused line of the release
is taken before the instance retires (assumption 64). -/
def Obligations.SpawnAndEnd : Prop :=
  (∀ (s : State) (g : Fin 16) (x : Src) (p : Fin 8) (n : Fin 4096) (gr : Graph) (e : NodeEntry),
    let b := (s.begun (.spawn g x p n)).publish
    let m := b.markOutbound
    let q := m.enqueueSpawn n.val (s.readSrc x)
    Issues (.spawn g x p n) s →
    (field (s.readSrc x) 0 6 ≠ 0 ∨ field (s.readSrc x) 56 8 ≠ 0 →
      exec (.spawn g x p n) s = .next (s.begun (.spawn g x p n)).misaligned) ∧
    (field (s.readSrc x) 0 6 = 0 → field (s.readSrc x) 56 8 = 0 →
      (b.published = true → exec (.spawn g x p n) s = .next (q.2.writePair p q.1)) ∧
      (b.published = false → exec (.spawn g x p n) s = .next b.blockBundle)) ∧
    (m.pool.graph = none ∨ 1024 ≤ m.pool.spawnQ.length ∨ field m.regs.kickstat 0 4 ≠ 3 → q = (true, m)) ∧
    (m.pool.graph = some gr → gr.nodes[n.val]? = none → q = (true, m)) ∧
    (m.pool.graph = some gr → gr.nodes[n.val]? = some e → field m.regs.kickstat 0 4 = 3 → m.pool.spawnQ.length < 1024 →
      q.1 = false ∧ q.2.pool.spawnQ = m.pool.spawnQ ++ [(m.pool.spawnSeq + 1, n.val, e.count)] ∧
      q.2.mem = m.mem ∧ q.2.cx.inst = m.cx.inst.map fun i => { i with didSpawn := true })) ∧
  (∀ (s : State) (g : Fin 16) (o : JoinOp) (x : Trap) (r : Relayout),
    let i := Instr.endNode g
    let z := (s.begun i).mergeFresh
    let w := z.allJoins.foldl State.joined z
    let last := fun (t : State) => t.release fun t => if t.cx.pending.isEmpty then t.landAll.retire else t.blockBundle
    Issues i s →
    ((∃ f ∈ z.cx.inflight, f.land = none) → exec i s = .next z.blockBundle) ∧
    ((∀ f ∈ z.cx.inflight, f.land ≠ none) →
      ((∃ y ∈ z.allJoins, y.complete = false) → exec i s = .next z.blockBundle) ∧
      ((∀ y ∈ z.allJoins, y.complete = true) →
        (o ∈ z.allJoins → o.fault = some x → (∀ y ∈ z.allJoins, y.fault ≠ none → y = o ∨ o.before y = true) →
          exec i s = .next ((z.forgetFault o.id).raise (z.slotFault x))) ∧
        ((∀ y ∈ z.allJoins, y.fault = none) →
          (w.ownRelayouts = [] → exec i s = .next (last w)) ∧
          (w.ownRelayouts.find? (fun r => w.ownRelayouts.all fun q => r.order ≤ q.order) = some r →
            exec i s = .next (w.waitRelayout r fun t => if t.ownRelayouts.isEmpty then last t else t.blockBundle))))) ∧
    (w.publish.published = true → w.publish.markOutbound.cx.pending = [] → last w = w.publish.markOutbound.landAll.retire) ∧
    (w.publish.published = true → w.publish.markOutbound.cx.pending ≠ [] → last w = w.publish.markOutbound.blockBundle) ∧
    (w.publish.published = false → last w = w.publish.blockBundle)) ∧
  (∀ (s : State) (i : Inst) (gr : Graph),
    (s.cx.inst = none → s.retire = s.freeContext) ∧
    (s.freeContext.cx.status = .free ∧ s.freeContext.issue.ended = true ∧ s.freeContext.mem = s.mem ∧ s.freeContext.pool = s.pool) ∧
    (s.cx.inst = some i → s.pool.graph = some gr →
      let u := (s.leaveBarriers i).freeContext
      let p := if i.spawned then { u.pool with live := put i.root (u.pool.liveOf i.root - 1) u.pool.live }
        else { u.pool with retired := u.pool.retired ++ [(i.node, i.u)] }
      let q := (p.expand gr).mark gr u.now
      u.mem = s.mem ∧ u.pool.graph = some gr ∧ (q.done gr = false → s.retire = { u with pool := q })))

/-- R165, R194, R211, R215, R227, R334, R358, R359, R364, R365: a result that lands fills its register and lets a waiting bundle try again; a
context whose wait is over becomes READY; a free core takes the next READY context, which issues two cycles after what the last one wrote has
landed; one whose quantum has ended goes back to READY at a stop-flagged bundle; the 64th
bundle without a stop flag is fatal; a segment is prefetched into the other half; the participants of a complete round go on together; an
injected operation that differs from its signature is recorded, one at most in each cycle of an instance. The model's choices: each of these
does nothing when its time has not come (assumption 49); how the participants of a round go on (assumptions 44, 79). -/
def Obligations.Scheduling : Prop :=
  (∀ (s : State) (k : Nat) (f : Flight) (i : Fin 16),
    let with_ := fun (x : Flight) => x.land.isNone && x.ready && x.tag == f.tag
    (s.cx.inflight[k]? = some f → f.land = none → f.ready = true → f.reg = .s i → s.cx.inflight.filter with_ = [f] →
      ∃ t, exec (.resultLand s.cid k) s = .next t ∧ (∀ j, t.readS j = if j = i then f.val.toWord else s.readS j) ∧
        t.cx.inflight = s.cx.inflight.filter (fun x => !with_ x) ∧ t.mem = s.mem ∧
        (s.cx.status = .blocked → s.cx.wait = .bundle → t.cx.status = .ready)) ∧
    ((∀ f, s.cx.inflight[k]? = some f → f.land ≠ none ∨ f.ready = false) → ∃ t, exec (.resultLand s.cid k) s = .next t ∧
      t.cx.regs = s.cx.regs ∧ t.cx.inflight = s.cx.inflight ∧ t.mem = s.mem)) ∧
  (∀ (s : State) (c : Nat) (t0 : Nat),
    ((s.ctx c).status = .blocked → ∃ t, exec (.blockCleared c) s = .next t ∧ (t.ctx c).status = .ready ∧ (t.ctx c).wait = .none ∧
      (t.ctx c).regs = (s.ctx c).regs ∧ (∀ d, d ≠ c → t.ctx d = s.ctx d) ∧ t.mem = s.mem) ∧
    ((s.ctx c).status ≠ .blocked → ∃ t, exec (.blockCleared c) s = .next t ∧ (∀ d, t.ctx d = s.ctx d) ∧ t.mem = s.mem) ∧
    ((s.ctx c).status = .blocked → (s.ctx c).wait = .time t0 → t0 ≤ s.now → ∃ t, exec (.parkTExpiry c) s = .next t ∧
      (t.ctx c).status = .ready ∧ (t.ctx c).regs = (s.ctx c).regs ∧ (∀ d, d ≠ c → t.ctx d = s.ctx d) ∧ t.mem = s.mem) ∧
    ((∀ d, (s.ctx c).wait = .time d → s.now < d) → exec (.parkTExpiry c) s = .next s.idle)) ∧
  (∀ (s : State) (g : Nat) (q : Fin 4),
    ((s.coreAt g).running = none → s.nextReady g = some q → ∃ t, exec (.contextSwitch g) s = .next t ∧ t.cid = 4 * g + q.val ∧
      t.cx.status = .running ∧ t.core.running = some q ∧ t.cx.regs = (s.ctx (4 * g + q.val)).regs ∧ t.mem = s.mem ∧
      (s.coreAt g).readyAt ≤ t.cx.resumeAt ∧ ((s.coreAt g).idle = true → (s.coreAt g).cycle + 2 ≤ t.cx.resumeAt)) ∧
    ((s.coreAt g).running ≠ none ∨ s.nextReady g = none → exec (.contextSwitch g) s = .next s.idle) ∧
    (s.nextReady g = some q → (s.ctx (4 * g + q.val)).status = .ready ∧
      ((∃ j : Fin 4, s.isReady g j = true ∧ (s.ctx (4 * g + j.val)).exempt = true) → (s.ctx (4 * g + q.val)).exempt = true)) ∧
    (s.core.running = some (Fin.ofNat 4 s.cid) → s.atStop = true → s.quantumDue = true → ∃ t, exec (.quantum s.gcore) s = .next t ∧
      t.cx.status = .ready ∧ t.core.running = none ∧ t.mem = s.mem ∧ s.core.cycle + 2 ≤ t.core.readyAt ∧
      (∀ f ∈ s.cx.inflight, ∀ n, f.land = some n → n + 2 ≤ t.core.readyAt)) ∧
    (s.core.running = some (Fin.ofNat 4 s.cid) → s.atStop = false ∨ s.quantumDue = false → exec (.quantum s.gcore) s = .next s.idle) ∧
    ((s.coreAt g).running = none → exec (.quantum g) s = .next s.idle) ∧
    (63 ≤ s.cx.stopCount → exec (.stopSpacing s.cid) s = .next (({ s with evt := .trap ⟨0x0C, s.cx.regs.pc, 0⟩ } : State).fatal 0x0C)) ∧
    (s.cx.stopCount < 63 → exec (.stopSpacing s.cid) s = .next s.idle)) ∧
  (∀ (s u : State) (a : Word) (y : Segment) (e : Trap),
    (s.refillAddr = none → exec (.fetchRefill s.cid) s = .next s.idle) ∧
    (s.refillAddr = some a → s.idle.readSegment a = (.ok y, u) → u.cid = s.cid → ∃ t, exec (.fetchRefill s.cid) s = .next t ∧
      t.otherSeg = some y ∧ t.curSeg = u.curSeg ∧ t.cx.regs = u.cx.regs ∧ t.mem = u.mem) ∧
    (s.refillAddr = some a → s.idle.readSegment a = (.fault e, u) → u.cid = s.cid → exec (.fetchRefill s.cid) s = .next u)) ∧
  (∀ (s : State) (k id : Nat) (r : SyncRound),
    ((s.clusterAt k).rounds.find? (·.id == id) = some r → r.n ≤ r.arrived.length → ∃ t, exec (.syncRoundRelease k id) s = .next t ∧
      t.mem = s.mem ∧ (∀ z ∈ (t.clusterAt k).rounds, z.id ≠ id) ∧
      ∀ d ∈ r.arrived, (s.ctx d).wait = .round id → (t.ctx d).status = .ready ∧ (t.ctx d).exempt = true ∧ (t.ctx d).synced = true ∧
        (t.ctx d).resumeAt = (s.coreAt (r.arrived.getLastD 0 / 4)).cycle + 7) ∧
    (((s.clusterAt k).rounds.find? (·.id == id) = some r ∧ r.arrived.length < r.n) ∨ (s.clusterAt k).rounds.find? (·.id == id) = none →
      exec (.syncRoundRelease k id) s = .next s.idle)) ∧
  (∀ (s : State) (g n : Nat) (v : BitVec 8) (fails : BitVec 16),
    let lanes := if 3 ≤ v.toNat ∧ v.toNat < 8 then fails else fails &&& 1
    let old := (s.coreAt g).katsig
    ((s.coreAt g).katCycle v.toNat = some n → flag (s.coreAt g).katctl 0 = true ∧ v.toNat < 10 ∧ n < (s.coreAt g).cycle ∧
      ∀ x, (s.coreAt g).katLast.find? (·.1 == v.toNat) = some x → x.2 < n) ∧
    ((s.coreAt g).katCycle v.toNat = some n → ∃ t, exec (.katInject g v fails) s = .next t ∧ t.mem = s.mem ∧
      (t.coreAt g).katLast = put v.toNat n (s.coreAt g).katLast ∧
      (lanes = 0 → (t.coreAt g).katsig = old) ∧
      (lanes ≠ 0 → flag (t.coreAt g).katsig 63 = true ∧ field (t.coreAt g).katsig 48 8 = Nat.min 255 (field old 48 8 + 1)) ∧
      (lanes ≠ 0 → flag old 63 = false → field (t.coreAt g).katsig 40 8 = v.toNat ∧ field (t.coreAt g).katsig 0 16 = lanes.toNat) ∧
      (lanes ≠ 0 → flag old 63 = true →
        field (t.coreAt g).katsig 40 8 = field old 40 8 ∧ field (t.coreAt g).katsig 0 16 = field old 0 16)) ∧
    ((s.coreAt g).katCycle v.toNat = none → exec (.katInject g v fails) s = .next s.idle))

/-- R411, R418 to R420: a save asks every target to stop and sets BUSY, and is done at once when there is none; it does nothing while one runs or
with no save area. A context that has stopped with nothing outstanding has its copies joined and becomes SAVED, or waits until its parity
count is 0; a routine that is late is aborted with its context rolled back; a restore makes every saved target READY, at the PC of its record; a
store to FATAL ends the context. The model's choices: a FREE target of FATAL, and a save not ready, change nothing (assumption 49); what a
record keeps beside its stated bytes, and when one is written (assumptions 13, 80); FREE contexts are no targets (assumption 69). -/
def Obligations.Preemption : Prop :=
  ∀ (s : State) (c : Nat) (k : Checkpoint) (v : BitVec 64),
    let j := s.idle.inCtx c State.joinForSave
    (flag s.mgmt.preempt 0 = false → flag s.mgmt.savebase 0 = true →
      (c ∈ s.knownCtxs → s.inScope c = true → s.live c = true →
        ∃ t, exec .preemptSave s = .next t ∧ field t.mgmt.preempt 0 2 = 1 ∧ (t.ctx c).stopReq.isSome = true ∧ t.mem = s.mem ∧
          (t.ctx c).status = (s.ctx c).status ∧ (t.ctx c).regs = (s.ctx c).regs) ∧
      ((∀ d ∈ s.knownCtxs, s.inScope d = true → s.live d = false ∧ (s.ctx d).stopReq = none) →
        ∃ t, exec .preemptSave s = .next t ∧ field t.mgmt.preempt 0 2 = 2 ∧ t.cx.regs = s.cx.regs)) ∧
    (flag s.mgmt.preempt 0 = true ∨ flag s.mgmt.savebase 0 = false → exec .preemptSave s = .next s.idle) ∧
    (s.saveReady c = true → (j.ctx c).parity = 0 → ∃ t, exec (.contextSaved c) s = .next t ∧ (t.ctx c).status = .saved ∧
      (t.ctx c).stopReq = none ∧ (t.ctx c).regs = (j.ctx c).regs ∧ (t.ctx c).recorded = j.canRecord c) ∧
    (s.saveReady c = true → (j.ctx c).parity ≠ 0 → exec (.contextSaved c) s = .next j) ∧
    (s.saveReady c = false → exec (.contextSaved c) s = .next (if (s.ctx c).stopReq = none then s.idle.checkSaved else s.idle)) ∧
    (flag s.mgmt.preempt 0 = false → c ∈ s.knownCtxs → s.inScope c = true → (s.ctx c).status = .saved → ∃ t,
      exec .preemptRestore s = .next t ∧ (t.ctx c).status = .ready ∧ field t.mgmt.preempt 0 2 = 2 ∧ (t.ctx c).regs.s = (s.ctx c).regs.s ∧
      (t.ctx c).regs.v = (s.ctx c).regs.v ∧ ((s.ctx c).recorded = false ∨ flag s.mgmt.savebase 0 = false → (t.ctx c).regs = (s.ctx c).regs) ∧
      ((s.ctx c).recorded = true → flag s.mgmt.savebase 0 = true → s.mem.soft = [] → s.mem.hard = [] → s.mem.poison = [] → t.mem = s.mem ∧
        (t.ctx c).regs = { (s.ctx c).regs with pc := word (ofBytes (lineBytes (s.readLine 0 (s.saveArea + c * 2 ^ 16)) 8 8)) })) ∧
    (flag s.mgmt.preempt 0 = true → exec .preemptRestore s = .next s.idle) ∧
    (s.knownCtxs.filter s.saveLate = [s.cid] → s.cx.ckpt = some k → k.committed = true → k.outbound = false → ∃ t,
      exec .saveRoutineTimeout s = .next t ∧ t.cx.regs = k.regs ∧ t.cx.part = none ∧
      (∀ r, t.core.mx.routine = some r → r.ctx ≠ s.cid)) ∧
    (s.knownCtxs.filter s.saveLate = [] → exec .saveRoutineTimeout s = .next s.idle.checkSaved) ∧
    ((s.ctx c).status ≠ .free → exec (.fatalStore c v) s = .next (s.idle.inCtx c fun t => t.fatal (v.setWidth 8))) ∧
    ((s.ctx c).status = .free → exec (.fatalStore c v) s = .next s.idle)

/-- R38 to R44: what a home answers once the request's bays are free. A device in RETENTION or a lost member is refused with 0x46, a hole with
0x42, a system register with 0x43, an unloaded key with 0x48; to a frame that is closed a load is refused with 0x40 and a store is refused or
logged; a load of poison is refused with 0x45; a load that is performed brings its line and changes no byte; a store writes its masked bytes;
an atomic brings the old value and writes the new one; a rebuild's read (R145) brings the stored bytes with no key and no frame code; while
the device drains, a write that would start a delta waits in its bays (R389); SYNC drops the codes that are cached. The model's choices: a
device in RETENTION or a lost member is refused before all else, and which column a cell operation stands in (assumption 65); the bits of a
poisoned map line count as they are stored (assumption 104); how a held write waits (assumption 115). -/
def Obligations.HomeAnswers : Prop :=
  (∀ (s u : State) (r : RemoteReq) (a : Answer),
    let q := s.idle.freeFlits r.src 1 (1 + requestFlits r.kind)
    let w : Writer := ⟨r.src.val, r.ctx, r.eng, r.gen, true⟩
    let dead := field s.pwr.pwrstat 45 2 = 2 ∨ ∃ m < 8, s.lost m = true ∧ s.member m = r.src.val
    let hbm := r.line < 2 ^ 40 ∧ (s.key r.key).isSome = true
    let closed := flag s.regs.framemap 0 = true ∧
      ∃ x, s.regs.frameCache.find? (·.1 == r.line / 2 ^ 16) = some x ∧ 2 ≤ x.2
    let clean := s.mem.soft = [] ∧ s.mem.hard = [] ∧ s.mem.poison = []
    q.answer r = (a, u) →
    let waits := s.draining = true ∧ s.prot.unacked.length < u.prot.unacked.length
    q.mem = s.mem ∧ q.cx = s.cx ∧
    (waits → exec (.remoteAccessArrival r) s = .next (s.idle.holdBack (.remoteAccessArrival r))) ∧
    (∀ d p, ¬ waits → a = .done d p → exec (.remoteAccessArrival r) s = .next (u.send (.reply r.src r.id d p))) ∧
    (∀ x, ¬ waits → a = .refuse x → exec (.remoteAccessArrival r) s = .next (u.send (.refusal r.src r.id x))) ∧
    (dead → a = .refuse 0x46 ∧ u = q) ∧
    (¬ dead →
      (regionOf r.line = .hole → a = .refuse 0x42 ∧ u = q) ∧
      (regionOf r.line = .sys → a = .refuse 0x43 ∧ u = q) ∧
      (r.line < 2 ^ 40 → r.kind ≠ .rebuild → (s.key r.key).isNone = true → a = .refuse 0x48 ∧ u = q) ∧
      (hbm → r.kind = .load → closed → a = .refuse 0x40 ∧ u = q) ∧
      (r.line < 2 ^ 40 → r.kind = .rebuild → clean → field s.mgmt.bootstat 62 2 = 2 → a = .done (s.mem.stored r.line) 0 ∧ u = q) ∧
      (hbm → r.kind = .store → s.protRow r.line r.prot = none → closed →
        (r.prot = true → a = .refuse 0x47 ∧ u = q) ∧
        (r.prot = false → flag s.regs.rflbase 0 = false → a = .refuse 0x49 ∧ u = q) ∧
        (r.prot = false → flag s.regs.rflbase 0 = true → s.logFill < 4096 → a = .done 0 0 ∧ u = q.logStore r 0x40)) ∧
      (flag s.regs.framemap 0 = false → field s.mgmt.bootstat 62 2 = 2 → hbm →
        (r.kind = .load → r.eng = none → s.mem.soft = [] → s.mem.hard = [] → s.poisonMask r.line &&& r.mask ≠ 0 →
          a = .refuse 0x45 ∧ u = q) ∧
        (r.kind = .load → clean → a = .done (s.plainLine r.key r.line) 0 ∧ u = q) ∧
        (r.kind = .store → s.protRow r.line r.prot = none →
          a = .done 0 0 ∧ u = q.perform w r.line r.key r.prot r.mask r.data r.pois) ∧
        (∀ op w8 x c, r.kind = .amo op w8 x c → s.protRow r.line r.prot = none → clean →
          let n := if w8 then 8 else 4
          let old := ofBytes (lineBytes (s.plainLine r.key r.line) r.off 32) % 2 ^ (8 * n)
          a = .done (lineAt r.off old) 0 ∧ u = q.perform w r.line r.key r.prot (byteMask r.off n)
            (lineAt r.off (amoNew op (8 * n) old x.toNat c.toNat)) 0)))) ∧
  (∀ s : State,
    (∃ t, exec .framemapSync s = .next t ∧ t.regs.frameCache = [] ∧ flag t.regs.framemap 1 = true ∧ t.mem = s.mem) ∧
    (∃ t, exec .framemapSyncDone s = .next t ∧ flag t.regs.framemap 1 = false ∧ t.mem = s.mem ∧ t.regs.frameCache = s.regs.frameCache))

/-- R22, R40, R44, R59, R119, R165: what an acknowledgement, a reply, a refusal and the end of a walk do at the context that waits. A reply fills
its lanes and bytes, or is kept for the bundle that asked; a refusal makes fault 0x0A pending, or is the fault of the engine operation that
wrote. R27: a miss shares the walk of its page, starts one while fewer than 96 run, or waits; when one ends the next begins. The model's
choices: the result of a walk is met by the access when it is tried again (assumption 74); a reply of which nothing is known changes nothing
(assumption 66); a refused protected write lowers the count at once (assumption 47).

R48 to R50, R413: a soft error waits in its unit until it is found, and a second one in another symbol makes it uncorrectable; the scrubber corrects a unit or poisons it; a context that consumes
poison in a phase that is committed and has sent nothing goes back to its checkpoint and takes the fault there. -/
def Obligations.RepliesArrive : Prop :=
  ((∀ (s : State) (c id : Nat), ∃ t, exec (.lineAck c id) s = .next t ∧ t.mem = s.mem ∧ (∀ z ∈ (t.ctx c).awaiting, z.id ≠ id) ∧
     ∀ z ∈ t.remotes, ¬ (z.ctx = c ∧ z.dline = some id)) ∧
   (∀ (s : State) (id : Nat) (r : RemotePend) (data : BitVec 512) (dev : Fin 64) (cause : BitVec 8) (o : Nat),
     let left := s.remotes.filter fun z => z.id != id
     let trap : Trap := ⟨0x0A, r.va, setField (setField r.info 24 6 dev.val) 0 8 cause.toNat⟩
     (s.remotes.find? (·.id == id) = none → exec (.remoteReply id data) s = .next s.idle ∧
       exec (.remoteRefusal id dev cause) s = .next s.idle) ∧
     (s.remotes.find? (·.id == id) = some r →
       (r.eng ≠ none → exec (.remoteReply id data) s = .next { s.idle.freeFlits r.dev 2 5 with remotes := left }) ∧
       (r.eng = none → r.flight = 0 → r.keep = false → r.dline = none →
         (∀ z ∈ left, z.ctx ≠ r.ctx ∨ z.write = true) → (s.ctx r.ctx).status = .parked → (s.ctx r.ctx).wait = .remote →
         ∃ t, exec (.remoteReply id data) s = .next t ∧ (t.ctx r.ctx).status = .ready ∧ t.remotes = left ∧ t.mem = s.mem) ∧
       (r.eng = none → r.flight ≠ 0 → r.keep = false → r.dline = none → (∀ z ∈ left, z.flight ≠ r.flight) →
         ∃ t, exec (.remoteReply id data) s = .next t ∧ t.remotes = left ∧ t.mem = s.mem ∧
           (t.ctx r.ctx).inflight = (s.ctx r.ctx).inflight.map fun x =>
             if x.land.isNone && !x.ready && x.tag == r.flight then
               { x with val := Val.extended r.sext (x.val.placed data r.place), ready := true, due := (s.coreAt (r.ctx / 4)).cycle }
             else x) ∧
       (r.eng = none → r.keep = true → r.dline = none → ∃ t, exec (.remoteReply id data) s = .next t ∧
         (t.ctx r.ctx).fetched = put (r.dev.val * 2 ^ 42 + r.line) data (s.ctx r.ctx).fetched ∧ t.remotes = left ∧ t.mem = s.mem) ∧
       (r.eng = none → ∃ t, exec (.remoteRefusal id dev cause) s = .next t ∧
         (t.ctx r.ctx).pending = (s.ctx r.ctx).pending ++ [trap] ∧ (∀ z ∈ t.remotes, z.id ≠ id) ∧ t.mem = s.mem) ∧
       (r.eng = some o →
         let w : State := { s.idle.freeRefusal r.dev with remotes := left }
         let v := if r.prot then w.settleCounted r.ctx (w.parityGen r.ctx) r.eng .applied 0 else w
         exec (.remoteRefusal id dev cause) s = .next (v.engFault r.ctx o trap)))) ∧
   (∀ (s u : State) (c : Nat) (va : Word) (wr sys : Bool) (x : Place) (e : Trap),
     let walked := s.idle.walk ⟨c, sys || flag (s.ctx c).estat 0, none⟩ va (if wr then .write else .read)
     ((s.ctx c).status = .parked → (s.ctx c).wait = .walk va wr sys → walked = (.ok x, u) → u.ctx c = s.ctx c →
       ∃ t, exec (.walkComplete c) s = .next t ∧ (t.ctx c).status = .ready ∧ (t.ctx c).walkFault = (s.ctx c).walkFault ∧
         ((∀ m ∈ (u.dieAt (dieOf c)).misses, m.parked = true) → t.mem = u.mem)) ∧
     ((s.ctx c).status = .parked → (s.ctx c).wait = .walk va wr sys → walked = (.error e, u) → u.ctx c = s.ctx c →
       ∃ t, exec (.walkComplete c) s = .next t ∧ (t.ctx c).status = .ready ∧ (t.ctx c).walkFault = some (va, e) ∧
         ((∀ m ∈ (u.dieAt (dieOf c)).misses, m.parked = true) → t.mem = u.mem)) ∧
     ((s.ctx c).status ≠ .parked ∨ (∀ a b z, (s.ctx c).wait ≠ .walk a b z) → exec (.walkComplete c) s = .next s.idle) ∧
     (let d := s.dieAt (dieOf c)
      let t := s.startMiss c va
      (d.walks.any (·.1 == missPage va) = true → t = s) ∧
      (d.walks.any (·.1 == missPage va) = false → d.walks.length < 96 →
        (t.dieAt (dieOf c)).walks = d.walks ++ [(missPage va, c)] ∧ Event.walkComplete c ∈ t.agenda) ∧
      (d.walks.any (·.1 == missPage va) = false → 96 ≤ d.walks.length → (t.dieAt (dieOf c)).walks = d.walks ∧
        (t.dieAt (dieOf c)).coreMisses c ≤ Nat.max 32 (d.coreMisses c))))) ∧
  (∀ (s : State) (a b b' : Nat) (x : Space) (k : Fin 8) (c : Checkpoint) (g : Nat) (ia : Fin 4) (row col : Fin 64) (flip : Word32),
     (isMemory a = true → (unitOf a) ∉ s.mem.poison → (∀ x ∈ s.mem.flips, x.1 ≠ unitOf a) →
       ∃ t, exec (.softError (.memory a b)) s = .next t ∧ (unitOf a) ∈ t.mem.soft ∧ (unitOf a) ∉ t.mem.hard ∧
         t.mem.cells = s.mem.cells ∧ t.cx = s.cx) ∧
     (isMemory a = true → (unitOf a) ∉ s.mem.poison → s.mem.flips.filter (·.1 == unitOf a) = [(unitOf a, b')] →
       eccSymbol (unitOf a) b ≠ eccSymbol (unitOf a) b' → ∃ t, exec (.softError (.memory a b)) s = .next t ∧
         (unitOf a) ∈ t.mem.hard ∧ (unitOf a) ∉ t.mem.soft ∧ t.mem.cells = s.mem.cells ∧ t.cx = s.cx) ∧
     (∃ t, exec (.softError (.plane g ia row col flip)) s = .next t ∧ t.mem = s.mem ∧
       (((t.coreAt g).mx.ia[ia]).e[row])[col] = (((s.coreAt g).mx.ia[ia]).e[row])[col] ^^^ flip) ∧
     (isMemory a = true → (unitOf a) ∈ s.mem.soft → ∃ t, exec (.patrolScrub a) s = .next t ∧ (unitOf a) ∉ t.mem.soft ∧
       t.mem.cells = s.mem.cells ∧ t.mem.poison = s.mem.poison ∧ t.mem.hard = s.mem.hard) ∧
     (isMemory a = true → (unitOf a) ∉ s.mem.soft → (unitOf a) ∈ s.mem.hard → ∃ t, exec (.patrolScrub a) s = .next t ∧
       (unitOf a) ∈ t.mem.poison ∧ (unitOf a) ∉ t.mem.hard ∧ t.mem.cells = s.mem.cells) ∧
     (s.cx.status ≠ .free → s.cx.status ≠ .saved → s.cx.ckpt = some c → c.committed = true → c.outbound = false → c.rolls < s.rollLimit →
       s.vectorBase ≠ 0 → ∃ t, exec (.poisonConsumed s.cid a x k) s = .next t ∧ t.cx.epc = c.regs.pc ∧ t.cx.ecode = 0x0F ∧
         t.cx.eaddr = word a ∧ t.cx.einfo = rollbackInfo x.code 0 k.val ∧ t.cx.regs.s = c.regs.s ∧ t.cx.regs.v = c.regs.v ∧
         t.cx.regs.pc = s.vectorBase + 64 * 0x0F ∧ t.mem = s.mem ∧ (∃ z, t.cx.ckpt = some z ∧ z.rolls = c.rolls + 1)))

/-- R131, R135 to R138, R143, R145: a delta whose turn it is changes its parity line by the XOR and is acknowledged; one for a line that is no
parity line, or is poisoned, is an error; one that is early is held, one of a lost home discarded. An acknowledgement lowers the count of the
instance that wrote, or of its unjoined operation, and may set a sticky bit, and reaches no later instance; the home counts the delta no
longer, and one that comes for a delta settled before changes nothing. A write of PROTCTL settles what a lost member holds and takes the
deltas that wait for it out of the send queue. A rebuild restores frame after frame, waits while the device drains (R389), stops at a refused
read, and ends with BUSY 0. The model's choices: how the home of another device's write learns of the acknowledgement (assumption 83), what
remains of a delta that is being sent to a lost member (assumption 111), what the refused read leaves (assumption 66), and whose count an
operation's writes are after its join (assumption 47). -/
def Obligations.ParityPath : Prop :=
  (∀ (s : State) (d : Delta),
    let due := s.lostDevice d.home.val = false ∧ s.prot.heldDeltas = [] ∧ d.seq = s.nextDelta d.home.val
    let error := fun (n : Nat) => fieldsWord [(63, 1, 1), (48, 8, n), (42, 6, d.home.val), (0, 42, d.line)]
    (s.lostDevice d.home.val = true → exec (.deltaArrival d) s = .next (s.idle.freeFlits d.home 3 5)) ∧
    (due → s.parityFrame (d.line / 2 ^ 16) = true → s.mem.soft = [] → s.mem.hard = [] → d.line ∉ s.mem.poison →
      ∃ t, exec (.deltaArrival d) s = .next t ∧
        t.mem = s.mem.setStored d.line (BitVec.allOnes 64) (s.mem.stored d.line ^^^ d.xor) ∧ t.prot.heldDeltas = [] ∧
        t.nextDelta d.home.val = d.seq + 1 ∧ t.cx = s.cx) ∧
    (due → s.parityFrame (d.line / 2 ^ 16) = false → ∃ t, exec (.deltaArrival d) s = .next t ∧ t.mem = s.mem ∧
      t.nextDelta d.home.val = d.seq + 1 ∧ (flag s.prot.proterr 63 = false → t.prot.proterr = error 3)) ∧
    (due → s.parityFrame (d.line / 2 ^ 16) = true → s.mem.soft = [] → s.mem.hard = [] → d.line ∈ s.mem.poison →
      ∃ t, exec (.deltaArrival d) s = .next t ∧ t.mem = s.mem ∧
        t.nextDelta d.home.val = d.seq + 1 ∧ (flag s.prot.proterr 63 = false → t.prot.proterr = error 2)) ∧
    (s.lostDevice d.home.val = false → s.prot.heldDeltas = [] → d.seq ≠ s.nextDelta d.home.val → ∃ t,
      exec (.deltaArrival d) s = .next t ∧ t.prot.heldDeltas = [d] ∧ t.mem = s.mem)) ∧
  (∀ (s : State) (a : ParityAck) (l : List ParityAck) (o : Nat),
    let counts := (a.home.val = s.device ∧ (a.kind = .noHold ∨ ∃ u ∈ s.prot.unacked, u.holder = a.dev.val ∧ u.seq = a.seq)) ∨
      (a.home.val ≠ s.device ∧ ((a.kind = .noHold ∧ a.dev ≠ a.home) ∨ (a.home.val, a.dev.val, a.seq) ∉ s.prot.lateAcks))
    ∃ t, exec (.parityAckArrival [a]) s = .next t ∧ t.mem = s.mem ∧
    exec (.parityAckArrival l) s = .next (l.foldl State.parityAcked (s.idle.freeAcks l)) ∧
    (a.home.val = s.device → ∀ u ∈ t.prot.unacked, ¬ (u.holder = a.dev.val ∧ u.seq = a.seq)) ∧
    (a.home.val ≠ s.device → t.prot.unacked = s.prot.unacked) ∧
    (a.writer.val ≠ s.device → t.cx = s.cx) ∧
    (¬ counts → t.cx = s.cx) ∧
    (counts → a.writer.val = s.device → a.ctx = s.cid → s.cid < noCtx →
      (a.op = none → a.gen = s.cx.parityGen → t.cx.parity = s.cx.parity - 1 ∧ t.cx.regs = s.cx.regs ∧
        t.cx.nohold = (if a.kind = .noHold then s.cx.nohold.or (some a.dev) else s.cx.nohold) ∧
        t.cx.nopar = (if a.kind = .noPar then s.cx.nopar.or (some a.dev) else s.cx.nopar)) ∧
      (a.op = none → a.gen ≠ s.cx.parityGen → t.cx = s.cx) ∧
      (a.op = some o → 0 < look 0 o s.prot.opCounts →
        t.cx.parity = s.cx.parity ∧ look 0 o t.prot.opCounts = look 0 o s.prot.opCounts - 1))) ∧
  (∀ (s : State) (v : BitVec 64),
    (∃ t, exec (.protctlWrite v) s = .next t ∧ t.prot.protctl = v &&& 0xFF03 ∧ t.mem = s.mem ∧
      ∀ m < 8, flag v (8 + m) = true → flag s.prot.protctl (8 + m) = false →
        (∀ u ∈ t.prot.unacked, u.holder ≠ s.member m) ∧ ∀ x ∈ t.fab.txq, x.isDelta (s.member m) = false) ∧
    (∃ t, exec .rebuildDone s = .next t ∧ flag t.prot.rebuild 63 = false ∧ t.mem = s.mem)) ∧
  (∀ (s u : State) (w : PeerView) (f mode : Nat) (i : Instr),
    let b := if flag s.prot.rebuild 63 then s.idle
      else s.idle.setRebuild (setField (setFlag (setFlag s.prot.rebuild 63 true) 62 false) 0 26 0)
    let k := field b.prot.rebuild 0 26
    (s.inRegion (field s.prot.rebuild 26 26) = false → exec (.rebuildFrame w) s = .next s.idle) ∧
    ((mode = 0 ∧ i = .rebuildAll w) ∨ (mode = 1 ∧ i = .rebuildFrame w ∧ s.inRegion (field s.prot.rebuild 26 26) = true) ∨
        (mode = 2 ∧ i = .rebuildParity w) →
      ((s.rebuildFrames mode)[k]? = none → exec i s = .next (b.enqueue .rebuildDone)) ∧
      ((s.rebuildFrames mode)[k]? = some f → s.draining = true → ∃ e : Event, e.toInstr = i ∧ exec i s = .next (b.holdBack e)) ∧
      ((s.rebuildFrames mode)[k]? = some f → s.draining = false → State.rebuildLines w 1024 (f * 2 ^ 16) b = (true, u) → ∃ t, exec i s = .next t ∧
        field t.prot.rebuild 0 26 = k + 1 ∧ flag t.prot.rebuild 63 = true ∧ t.mem = u.mem) ∧
      ((s.rebuildFrames mode)[k]? = some f → s.draining = false → State.rebuildLines w 1024 (f * 2 ^ 16) b = (false, u) → ∃ t, exec i s = .next t ∧
        flag t.prot.rebuild 62 = true ∧ flag t.prot.rebuild 63 = true ∧ t.mem = u.mem)))

/-- R376 to R380, R383: flits and links. A flit's CRC is good on arrival, and a control flit's fields come back as they were sent. A control flit
frees allowance and what it acknowledges leaves the replay buffer; a data flit in sequence that is heard takes a bay, or none when its bytes
have been taken, a header that no entry lets through is kept unaccepted, and any other flit is dropped; a relayed message goes on or is held; a
link trains at its rate, is asked for another, or ends its pause: its sequences start at 0, its totals stand; a pause that is over fails the
link, whose flits go back to the transfer engine. The model's choices: the layout of headers and the start of the CRC (assumption 95), what
takes flits out of bays and what is numbered anew (assumptions 58, 96), the LANE and LINE of the records (assumption 101). -/
def Obligations.Links : Prop :=
  (∀ (seq : BitVec 12) (kind : BitVec 4) (data : BitVec 128) (c : CtlFlit),
    flitGood (mkFlit seq kind data) = true ∧ ctlOf (ctlBits c) = c) ∧
  (∀ (s : State) (plane : Fin 32) (peer : Fin 64) (l : Link) (f : Flit),
    let c := ctlOf f.data
    let heard := flitGood f = true ∧ f.kind = 1 ∧ f.seq = 0 ∧ s.hears plane.val peer = true
    let due := flitGood f = true ∧ dataKind f.kind = true ∧ s.hears plane.val peer = true ∧ f.seq = l.expected ∧ l.bays.length < 64
    (s.fab.link plane.val peer = none →
      exec (.controlFlitArrival plane peer f) s = .next s.idle ∧ exec (.dataFlitArrival plane peer f) s = .next s.idle) ∧
    (s.fab.link plane.val peer = some l →
      (heard → ∃ t m, exec (.controlFlitArrival plane peer f) s = .next t ∧ t.mem = s.mem ∧ t.fab.link plane.val peer = some m ∧
        m.peerFreed = c.freed ∧ m.replay = (dropAcked c.ack l.replay).2 ∧ m.queue = l.queue ∧ m.bays = l.bays ∧
        (l.resync = false → m.sent = l.sent ∧ m.nextSeq = l.nextSeq) ∧ (l.resync = true → m.nextSeq = c.ack + 1 ∧ m.resync = false) ∧
        (c.rate = 0 → m.asked = l.asked ∧ m.pause = l.pause) ∧
        (c.rate ≠ 0 → m.asked = c.rate ∧ m.pause = l.pause.or (some s.tick)) ∧ m.rate = l.rate ∧ m.expected = l.expected) ∧
      (¬ heard → exec (.controlFlitArrival plane peer f) s = .next s.idle) ∧
      (due → s.relayRefuses f.kind f.data = false →
        exec (.dataFlitArrival plane peer f) s = .next (s.idle.acceptFlit l f.kind f.data)) ∧
      (due → s.relayRefuses f.kind f.data = true → ∃ t, exec (.dataFlitArrival plane peer f) s = .next t ∧ t.mem = s.mem ∧
        t.fab.link plane.val peer = some { l with held := some (f.kind, f.data) }) ∧
      (¬ due → exec (.dataFlitArrival plane peer f) s = .next s.idle) ∧
      (let cls := classAfter l.cls f.kind
       (s.fab.passFor plane.val peer cls = none → (s.acceptFlit l f.kind f.data).fab.link plane.val peer =
         some { l with expected := l.expected + 1, held := none, cls := cls, bays := l.bays ++ [(f.kind, f.data)] }) ∧
       (s.fab.passFor plane.val peer cls ≠ none → (s.acceptFlit l f.kind f.data).fab.link plane.val peer =
         some { l with expected := l.expected + 1, held := none, cls := cls, freed := l.freed + 1 })))) ∧
  (∀ (s : State) (plane : Fin 32) (peer origin target : Fin 64) (fs : List (BitVec 4 × BitVec 128)),
    (s.fab.relays origin.val target.val = true → exec (.relayedHeaderArrival plane peer origin target fs) s =
      .next (({ s.idle with fab := { s.fab with txq := s.fab.txq ++ [relayPacket target plane.val fs] } } : State).freeRelayed peer fs)) ∧
    (s.fab.relays origin.val target.val = false → exec (.relayedHeaderArrival plane peer origin target fs) s =
      .next { s.idle with fab := { s.fab with relayHeld := s.fab.relayHeld ++ [⟨plane.val, peer, origin, target, fs⟩] } })) ∧
  (∀ (s : State) (plane : Fin 32) (peer : Fin 64) (l : Link) (rate : BitVec 2),
    let on := flag s.fab.fabctl 0 = true ∧ rate ≠ 0 ∧ peer.val ≠ s.device
    (¬ on → exec (.linkTraining plane peer rate) s = .next s.idle) ∧
    (on → s.fab.link plane.val peer = none → exec (.linkTraining plane peer rate) s =
      .next { s.idle with fab := { s.fab with links := s.fab.links ++ [Link.fresh plane.val peer rate] } }) ∧
    (on → s.fab.link plane.val peer = some l →
      (l.failed = true → exec (.linkTraining plane peer rate) s = .next s.idle) ∧
      (l.failed = false → l.pause = none → l.rate = 0 → ∃ t, exec (.linkTraining plane peer rate) s = .next t ∧ t.mem = s.mem ∧
        t.fab.link plane.val peer = some (l.restart rate)) ∧
      (l.failed = false → l.pause = none → l.rate ≠ 0 → ∃ t, exec (.linkTraining plane peer rate) s = .next t ∧ t.mem = s.mem ∧
        t.fab.link plane.val peer = some { l with want := rate, pause := some s.tick, initiator := some (Fin.ofNat 64 s.device) }) ∧
      (l.failed = false → l.pause ≠ none → ∃ t, exec (.linkTraining plane peer rate) s = .next t ∧ t.mem = s.mem ∧
        t.fab.link plane.val peer = some (l.restart (lowerRate rate (lowerRate l.want l.asked))))) ∧
    (let m := l.restart rate
     m.rate = rate ∧ m.pause = none ∧ m.expected = 0 ∧ m.nextSeq = BitVec.ofNat 12 l.replay.length ∧
       (∀ i r, m.replay[i]? = some r → r.seq = BitVec.ofNat 12 i) ∧ m.replay.map (fun r => (r.lane, r.flit)) =
         l.replay.map (fun r => (r.lane, r.flit)) ∧
       m.queue = l.queue ∧ m.bays = l.bays ∧ m.sent = l.sent ∧ m.freed = l.freed ∧ m.peerFreed = l.peerFreed) ∧
    (s.fab.link plane.val peer = some l → s.pauseOver l = true → ∃ t, exec (.retrainTimeout plane peer) s = .next t ∧
      (∃ m, t.fab.link plane.val peer = some m ∧ m.failed = true ∧ m.queue = [] ∧ m.replay = [] ∧ m.bays = l.bays ∧ m.freed = l.freed) ∧
      t.fab.txq = l.packets ++ s.fab.txq ∧ t.mem = s.mem) ∧
    ((s.fab.link plane.val peer = some l ∧ s.pauseOver l = false) ∨ s.fab.link plane.val peer = none →
      exec (.retrainTimeout plane peer) s = .next s.idle))

/-- R371 to R374, R380 to R382, R385, R387, R389: the rotor. A slot boundary moves to the next slot, in which the device sends, or ends the
period; a period's number rises and what waits for it takes effect, PODMASK at once while the lasers are dark; a line out of range is muted;
a mute that is due is given to reserve lines; the keeper's silence darkens every lane; EN starts the links at the slot and period that the
time base counts, and keeps the flits of links that go dark; DRAIN, PROFILE. The model's choices: how slots and periods follow the time base
and when a change of PODMASK is taken while the lasers are dark (assumptions 50, 59, 97), at what rate links are found to train (assumption
9), and what a drift of a reserve line records (assumption 101). -/
def Obligations.Rotor : Prop :=
  (∀ s : State,
    let q := s.idle.enqueueAll s.slotEvents
    (flag s.fab.fabctl 0 = false → exec .rotorSlotBoundary s = .next s.idle ∧ exec .periodBoundary s = .next s.idle.takePodmask) ∧
    (flag s.fab.fabctl 0 = true → s.fab.plen ≤ s.fab.slot + 1 → ∃ t l, exec .rotorSlotBoundary s = .next t ∧ t.fab.slot = 0 ∧
      t.agenda = l ++ [.periodBoundary] ∧ t.mem = s.mem) ∧
    (flag s.fab.fabctl 0 = true → s.fab.slot + 1 < s.fab.plen → ∃ t, exec .rotorSlotBoundary s = .next t ∧
      t = ({ q with fab := { q.fab with slot := q.fab.slot + 1 } } : State).transmit (q.fab.slot + 1) ∧
      t.fab.slot = s.fab.slot + 1 ∧ t.mem = s.mem) ∧
    (flag s.fab.fabctl 0 = true → ∃ t, exec .periodBoundary s = .next t ∧ t.fab.periodno = s.fab.periodno + 1 ∧
      (s.fab.rekeys = [] → t.fab.podmask = s.fab.podmaskNext) ∧ t.fab.windowPend = [] ∧ t.mem = s.mem) ∧
    (∃ t, exec .reserveSubstitution s = .next t ∧ t.mem = s.mem ∧ t.cx = s.cx ∧
      ∀ k m, (k, m) ∈ t.fab.muteTimes → k < 128 → s.tick < m + 200 * 378) ∧
    (flag s.fab.fabctl 0 = true → s.markLost = true → ∃ t, exec .keeperMarkLoss s = .next t ∧ t.fab.muted = true ∧ t.mem = s.mem ∧
      ∀ p n l, t.litPosition p n l = false) ∧
    (flag s.fab.fabctl 0 = false ∨ s.markLost = false → exec .keeperMarkLoss s = .next s.idle)) ∧
  (∀ (s : State) (comb : Fin 3) (w : Fin 64) (off : BitVec 8),
    let d := (if off = 0x80 then 0x81 else off : BitVec 8).toInt
    let mutes := comb.val < 2 ∧ 12 < d.natAbs ∧ s.fab.lineState comb.val w.val = 0
    (mutes → ∃ t, exec (.lineDrift comb w off) s = .next t ∧ t.fab.lineState comb.val w.val = 1 ∧
      t.fab.offset comb.val w.val = d ∧ (lineKey comb.val w.val, s.tick) ∈ t.fab.muteTimes ∧ t.mem = s.mem) ∧
    (comb = 2 → 12 < d.natAbs → s.fab.lineState 2 w.val = 0 → ∃ t, exec (.lineDrift comb w off) s = .next t ∧ t.fab.lineState 2 w.val = 1 ∧
      t.fab.offset 2 w.val = d ∧ t.fab.muteTimes = s.fab.muteTimes ∧ t.mem = s.mem ∧
      ∀ k l, t.fab.entry k 0 l = s.fab.entry k 0 l) ∧
    (d.natAbs ≤ 12 ∨ s.fab.lineState comb.val w.val ≠ 0 → ∃ t, exec (.lineDrift comb w off) s = .next t ∧
      t.fab.lineState comb.val w.val = s.fab.lineState comb.val w.val ∧ t.fab.offset comb.val w.val = d ∧ t.mem = s.mem)) ∧
  (∀ s : State,
    (s.draining = true → s.quiet = true → ∃ t, exec .fabricDrained s = .next t ∧ flag t.fab.fabctl 3 = true ∧
      (s.vacateState ≠ 1 → t.mem = s.mem)) ∧
    (s.draining = false ∨ s.quiet = false → exec .fabricDrained s = .next s.idle) ∧
    (∃ t, exec .fabricDrain s = .next t ∧ field t.fab.fabctl 2 2 = 1 ∧ t.mem = s.mem) ∧
    (∃ t, exec (.fabricEnable true) s = .next t ∧ flag t.fab.fabctl 0 = true ∧ t.fab.podmask = s.fab.podmaskNext ∧
      t.fab.slot = (s.now / 128 - s.fab.origin.1) % Nat.max s.fab.plen 1 ∧
      t.fab.periodno = BitVec.ofNat 64 (s.fab.origin.2 + (s.now / 128 - s.fab.origin.1) / Nat.max s.fab.plen 1) ∧ t.mem = s.mem ∧ ∀ (k : Fin 32) (p : Fin 64), flag s.fab.podmaskNext p.val = true → p.val ≠ s.device →
        ∃ r, Event.linkTraining k p r ∈ t.agenda) ∧
    (∃ t, exec (.fabricEnable false) s = .next t ∧ flag t.fab.fabctl 0 = false ∧
      t.fab.links = s.fab.links.map (fun x => { x with rate := 0, pause := none, want := 0, asked := 0 }) ∧
      t.fab.txq = s.fab.txq ∧ t.mem = s.mem ∧ ∀ p n l, t.litPosition p n l = false)) ∧
  (∀ (s : State) (pr : BitVec 2) (psw : BitVec 24),
    (pr.toNat < 2 → ∃ t, exec (.profileSelect pr psw) s = .next t ∧ t.fab.profilePend = some pr.toNat ∧
      field t.fab.fabctl 8 24 = psw.toNat ∧ field t.fab.fabctl 48 2 = pr.toNat ∧ t.fab.table = s.fab.table ∧ t.mem = s.mem) ∧
    (2 ≤ pr.toNat → exec (.profileSelect pr psw) s = .next s.idle))

/-- R395, R396, R398 to R400, R403, R405: a mailbox write in range waits for the next toll boundary, as one of PWRSTAT does, and one out of
range sets REJ, and a write of PERMITS out of range is ignored; a boundary applies what waits, adds what each cluster has drawn, and leaves
every cluster its CAP, a level at most E, and an E that neither its contexts' requests nor the device's limit fall short of; all levels are
nominal in an interval that is not RUN; then it moves the power state, which changes none of these unless a GO waits, whose replay starts. The
model's choices: what sensors show and clusters draw (assumptions 11, 17), and that the state changes at the boundary (assumption 99). -/
def Obligations.TollBoundaries : Prop :=
  ∀ (s : State) (v : BitVec 64) (n : Nat),
    (pwrctlLegal v = true → ∃ t, exec (.mailboxWrite false v) s = .next t ∧
      t.pwr.pwrctlPend = some (v &&& 0xFFFFC3C000000001) ∧ t.pwr.pwrctl = s.pwr.pwrctl ∧ t.mem = s.mem) ∧
    (pwrctlLegal v = false → ∃ t, exec (.mailboxWrite false v) s = .next t ∧ flag t.pwr.pwrstat 43 = true ∧
      t.pwr.pwrctlPend = s.pwr.pwrctlPend) ∧
    (thermctlLegal v = true → ∃ t, exec (.mailboxWrite true v) s = .next t ∧ t.pwr.thermctlPend = some (v &&& 0xFFFFFF) ∧
      t.pwr.thermctl = s.pwr.thermctl) ∧
    (thermctlLegal v = false → ∃ t, exec (.mailboxWrite true v) s = .next t ∧ flag t.pwr.pwrstat 43 = true) ∧
    (n < 48 → permitsLegal v = true → ∃ t, exec (.permitsWrite n v) s = .next t ∧ (t.clusterAt n).permitsPend = some (v &&& 0x7F7F) ∧
      (t.clusterAt n).permits = (s.clusterAt n).permits) ∧
    (n < 48 → permitsLegal v = false → exec (.permitsWrite n v) s = .next s.idle) ∧
    ((s.regWrite none true 0x1508 0xFF v).pwr = { s.pwr with pwrstatClr := s.pwr.pwrstatClr ||| (v &&& 0xE0000000000) }) ∧
    (∃ u : State, exec .tollBoundary s = .next u.powerMove ∧ u.mem = s.mem ∧ u.pwr.pwrctl = s.pwr.pwrctlPend.getD s.pwr.pwrctl ∧
      u.pwr.thermctl = s.pwr.thermctlPend.getD s.pwr.thermctl ∧ u.pwr.pwrctlPend = none ∧ u.pwr.thermctlPend = none ∧
      u.pwr.pwrstatClr = 0 ∧ flag u.pwr.pwrstat 43 = (flag s.pwr.pwrstat 43 && !flag s.pwr.pwrstatClr 43) ∧
      (∀ n < 48, (u.clusterAt n).energy = (s.clusterAt n).energy + (Config.energyDrawn (s.freeCount + n)).setWidth 64) ∧
      (u.nextPower ≠ 0 → ∀ n < 48, field (u.clusterAt n).boostlvl 4 6 = 0) ∧
      (∀ n < 48,
        let k := u.clusterAt n
        k.permitsPend = none ∧ k.issued = false ∧
        field k.permits 8 7 = field ((s.clusterAt n).permitsPend.getD (s.clusterAt n).permits) 8 7 ∧
        field k.boostlvl 6 2 ≤ field k.boostlvl 8 2 ∧ field k.boostlvl 8 2 ≤ s.requestOf n ∧
        field k.boostlvl 8 2 ≤ field u.pwr.pwrctl 48 2 ∧ field k.boostlvl 8 2 ≤ 2) ∧
      (s.regs.kickPend = none → u.powerMove.mem = s.mem ∧ u.powerMove.pwr.pwrctl = u.pwr.pwrctl ∧
        u.powerMove.pwr.thermctl = u.pwr.thermctl ∧ u.powerMove.pwr.pwrctlPend = none ∧ u.powerMove.pwr.thermctlPend = none ∧
        ∀ n, (u.powerMove.clusterAt n).permits = (u.clusterAt n).permits ∧
          (u.powerMove.clusterAt n).permitsPend = (u.clusterAt n).permitsPend ∧
          (u.powerMove.clusterAt n).boostlvl = (u.clusterAt n).boostlvl))

/-- R5, R37, R422 to R425, R427 to R429: power-on runs the self-test, which leaves READY with every register reset and the cores' maps bound,
each legal or DEAD, or HOLD with the first step that failed and its unit; loss of power leaves OFF with the mailbox's registers (R396); the
host port, the FRU, DEVNUM, attestation and the key slots. What is out of range, or comes while its unit is busy or the fabric is on, is
ignored (assumption 49). The model's choices: what the test finds is an input (assumption 5) and how a map is bound where the given one is not
legal (assumption 3), what survives a loss of power (assumption 70), how the host port writes HBM (assumption 71), the bytes of a quote
(assumption 12), and when EXH is set (assumption 72).

R92, R169, R393, R426: vacating. GO needs the device's contexts saved and a spare that can be reached, and drains the fabric, or copies at
once when it is drained; the spare takes what is copied: memory, the relayout table, the saved contexts, and the pool, which stays stopped
until the restore; the end of the copy tells every other live member, which keeps the changes until their period, 16 periods on; a step that
exceeds its budget fails with ERR 3. The model's choices: what the copy carries and how (assumption 13), and how members learn of the
changes (assumption 72). -/
def Obligations.BringUp : Prop :=
  ((∀ (s : State) (r : SelfTest) (k : Nat) (y : BitVec 16),
     (testFailure r = none → ∃ t, exec (.powerOn r) s = .next t ∧ field t.mgmt.bootstat 62 2 = 2 ∧ t.mem = State.reset.mem ∧
       t.cx = State.reset.cx ∧ t.regs = State.reset.regs ∧ t.fab = State.reset.fab ∧ t.mgmt.powerOns = s.mgmt.powerOns + 1 ∧
       t.key 0 = some (Config.bootKey s.mgmt.powerOns) ∧
       (∀ x ∈ coresTested r, coreGood x = true ∧ (t.coreAt x.core).slotmap = coreBound x ∧
         (flag (coreBound x) 0 = true ∨ slotmapLegal (coreBound x) = true))) ∧
     ((r.image = some y → testFailure r = some (1, y)) ∧ (r.image = none → r.bank = some y → testFailure r = some (2, y)) ∧
       (∀ x ∈ coresTested r, coreGood x = false → ∃ c, testFailure r = some (3, c)) ∧
       (testFailure r = none → r.line = none ∧ r.plane = none)) ∧
     (testFailure r = some (k, y) → ∃ t, exec (.powerOn r) s = .next t ∧ field t.mgmt.bootstat 62 2 = 1 ∧
       field t.mgmt.bootstat 40 8 = k ∧ field t.mgmt.bootstat 0 16 = y.toNat) ∧
     (∃ t, exec .powerLoss s = .next t ∧ t.powerState = 3 ∧ t.mem = State.reset.mem ∧ t.key 0 = none ∧
       t.mgmt.signatures = s.mgmt.signatures ∧ t.pwr.pwrctl = s.pwr.pwrctl ∧ t.pwr.thermctl = s.pwr.thermctl) ∧
     (field s.mgmt.bootstat 62 2 = 1 → testFailure r = none → ∃ t, exec (.selftestRetest r) s = .next t ∧
       field t.mgmt.bootstat 62 2 = 2 ∧ t.mem = State.reset.mem ∧ t.regs = State.reset.regs) ∧
     (field s.mgmt.bootstat 62 2 = 1 → testFailure r = some (k, y) → ∃ t, exec (.selftestRetest r) s = .next t ∧
       field t.mgmt.bootstat 62 2 = 1 ∧ field t.mgmt.bootstat 40 8 = k ∧ t.mem = s.mem) ∧
     (field s.mgmt.bootstat 62 2 ≠ 1 → exec (.selftestRetest r) s = .next s.idle)) ∧
   (∀ (s : State) (g : Fin 8) (a n : Nat) (v : BitVec 64) (h : HostAccess),
     (∃ t, exec (.pcieLinkTraining g) s = .next t ∧ t.mgmt.pcieGen = (if g.val < 5 then 0 else g.val) ∧ t.mem = s.mem) ∧
     (a + n ≤ 8192 → exec (.fruRead a n) s = .next (s.idle.send (.busData ((List.range n).map fun i => s.fruAt (a + i))))) ∧
     (8192 < a + n → exec (.fruRead a n) s = .next s.idle) ∧
     (flag s.fab.fabctl 0 = false → ∃ t, exec (.devnumWrite v) s = .next t ∧ t.device = field v 0 6 ∧ t.mem = s.mem ∧
       (s.prot.stripeWritten = false → t.selfMember = field v 0 6 % 8 ∧ ∀ m < 8, t.member m = field v 0 6 / 8 * 8 + m) ∧
       (s.prot.stripeWritten = true → t.prot.stripemap = s.prot.stripemap)) ∧
     (flag s.fab.fabctl 0 = true → exec (.devnumWrite v) s = .next s.idle) ∧
     (sysBase ≤ a → a < 2 ^ 42 → a % 8 + n ≤ 8 → exec (.registerWrite a n v) s =
       .next (s.idle.regWriteLine none true (lineOf a) (byteMask (a % 64) n) (lineAt (a % 64) (v.toNat % 2 ^ (8 * n))))) ∧
     (a < sysBase ∨ 2 ^ 42 ≤ a ∨ 8 < a % 8 + n → exec (.registerWrite a n v) s = .next s.idle) ∧
     (let base := if h.bar2 then 0 else sysBase
      let ps := lineParts (base + h.off) h.size
      let fits := (s.powerState ≠ 3 ∨ h.bar2 = false) ∧ h.size ≤ 64 ∧ h.off + h.size ≤ (if h.bar2 then 2 ^ 40 else 2 ^ 36)
      (fits → exec (.hostBarAccess h) s =
        .next (if h.write then s.idle.hostWrite (base + h.off) h.data ps
          else (s.idle.hostRead (base + h.off) ps).2.send (.hostData (s.idle.hostRead (base + h.off) ps).1))) ∧
      (¬ fits → exec (.hostBarAccess h) s = .next s.idle))) ∧
   (∀ s : State,
     let k := field s.mgmt.keyctl 0 11
     (flag s.mgmt.attest 62 = true → exec .attestGo s = .next s.idle) ∧
     (flag s.mgmt.attest 62 = false → s.mgmt.signatures < 2 ^ 20 → ∃ t, exec .attestGo s = .next t ∧ flag t.mgmt.attest 62 = true ∧
       t.mgmt.signatures = s.mgmt.signatures + 1 ∧ t.mem = s.mem) ∧
     (flag s.mgmt.attest 62 = false → 2 ^ 20 ≤ s.mgmt.signatures → ∃ t, exec .attestGo s = .next t ∧ flag t.mgmt.attest 61 = true ∧
       flag t.mgmt.attest 62 = false ∧ t.mgmt.signatures = s.mgmt.signatures) ∧
     (flag s.mgmt.attest 62 = true → ∃ t, exec .attestDone s = .next t ∧ flag t.mgmt.attest 62 = false ∧
       t.mgmt.signatures = s.mgmt.signatures ∧
       (let a := field s.mgmt.attest 0 42 / 64 * 64
        let nonce := ofBytes (lineBytes (s.readLine 0 a) 0 32)
        a + 64 < 2 ^ 40 → s.mem.soft = [] → s.mem.hard = [] → t.mem =
          (s.putBytes (a + 64) ((List.range 64).map fun i => Config.quoteByte s.mgmt.signatures nonce (s.regRead 0x100) i)).mem)) ∧
     (flag s.mgmt.attest 62 = false → exec .attestDone s = .next s.idle) ∧
     (k ≠ 0 → ∃ t, exec .keyLoad s = .next t ∧ t.key k = some s.mgmt.keybuf ∧ t.mgmt.keybuf = 0 ∧ ∀ j, j ≠ k → t.key j = s.key j) ∧
     (k ≠ 0 → ∃ t, exec .keyErase s = .next t ∧ t.key k = none ∧ ∀ j, j ≠ k → t.key j = s.key j) ∧
     (k = 0 → exec .keyLoad s = .next s.idle ∧ exec .keyErase s = .next s.idle))) ∧
  ((∀ s : State,
     let q : State := { s.idle with fab := { s.fab with vacateIn := s.fab.vacateIn.drop 1 } }
     (s.fab.vacateIn.headD .go = .go →
     (s.vacating = true → exec .vacateGo s = .next q) ∧
     (s.vacating = false → s.allSaved = false → ∃ t, exec .vacateGo s = .next t ∧ t.vacateState = 7 ∧
       field t.mgmt.vacate 56 4 = 1 ∧ t.mem = s.mem) ∧
     (s.vacating = false → s.allSaved = true → s.reachable s.spare.val = false ∨ s.spare.val = s.device →
       ∃ t, exec .vacateGo s = .next t ∧ t.vacateState = 7 ∧ field t.mgmt.vacate 56 4 = 2 ∧ t.mem = s.mem) ∧
     (s.vacating = false → s.allSaved = true → s.reachable s.spare.val = true → s.spare.val ≠ s.device →
       (flag s.fab.fabctl 3 = false → ∃ t, exec .vacateGo s = .next t ∧ t.vacateState = 1 ∧
         t.agenda = s.agenda ++ [.fabricDrain] ∧ t.mem = s.mem) ∧
       (flag s.fab.fabctl 3 = true → ∃ t, exec .vacateGo s = .next t ∧ t.vacateState = 2 ∧
         (∃ c, OutMsg.podCopy s.spare c ∈ t.outbox) ∧ Event.vacateCopyDone ∈ t.agenda ∧
         (s.mem.soft = [] → s.mem.hard = [] → OutMsg.podCopy s.spare s.podCopy ∈ t.outbox ∧ t.mem = s.mem)))) ∧
     (let c := s.podCopy
      c.relayouts = s.relayouts ∧ c.pool = s.pool ∧ c.poison = s.mem.poison ∧
        (∀ d ∈ s.knownCtxs, (s.ctx d).status = .saved → (d, s.ctx d) ∈ c.ctxs) ∧
        (∀ a, Cells.get a s.mem.cells ≠ 0 → (lineOf a, s.readLine 0 (lineOf a)) ∈ c.lines)) ∧
     (s.vacateLate = true → ∃ t, exec .vacateBudgetTimeout s = .next t ∧ t.vacateState = 7 ∧ field t.mgmt.vacate 56 4 = 3 ∧ t.mem = s.mem) ∧
     (s.vacateLate = false → exec .vacateBudgetTimeout s = .next s.idle) ∧
     (s.vacateState = 2 → ∃ t, exec .vacateCopyDone s = .next t ∧ t.vacateState = 3 ∧ t.mgmt.rekeyAt = s.fab.periodno + 16 ∧ t.mem = s.mem ∧
       ∀ q : Fin 64, flag s.fab.podmask q.val = true → q.val ≠ s.device →
         OutMsg.rekey q s.spare (s.fab.periodno + 16).toNat ∈ t.outbox) ∧
     (s.vacateState ≠ 2 → exec .vacateCopyDone s = .next s.idle)) ∧
   (∀ (s : State) (c : PodCopy) (src spare : Fin 64) (period : Nat) (k : Rekey) (x : Ctx) (r : Relayout) (a : Nat) (l : Line),
     let q : State := { s.idle with fab := { s.fab with vacateIn := s.fab.vacateIn.drop 1 } }
     (s.fab.vacateIn.headD .go = .copied c → exec .vacateGo s = .next (q.takeCopy c)) ∧
     (let t := s.takeCopy c
      t.pool.graph = c.pool.graph ∧ t.pool.waiting = c.pool.waiting ∧ t.pool.retired = c.pool.retired ∧ t.pool.stopped = true ∧
        t.mem.poison = c.poison ∧ (c.ctxs = [(s.cid, x)] → t.cx.regs = x.regs ∧ t.cx.status = x.status ∧ t.cx.inst = x.inst) ∧
        (c.relayouts = [r] → t.relayouts = s.relayouts.filter (·.slot != r.slot) ++
          [{ r with order := Nat.max s.nextId c.nextId, conv := false, outward := false, raised := [] }]) ∧
        (c.lines = [(a, l)] → t.mem = { (⟨[], [], [], [], []⟩ : Memory).setStored a (BitVec.allOnes 64) (s.encrypt 0 a l) with
          poison := c.poison })) ∧
     (s.fab.vacateIn.headD .go = .rekey src spare period →
       exec .vacateGo s = .next { q with fab := { q.fab with rekeys := s.fab.rekeys ++ [⟨src, spare, period⟩] } }) ∧
     (s.fab.rekeys = [k] → s.fab.periodno.toNat < k.period → s.takeRekeys = s) ∧
     (s.fab.rekeys = [k] → k.period ≤ s.fab.periodno.toNat →
       s.takeRekeys.fab.rekeys = [] ∧ flag s.takeRekeys.fab.podmaskNext k.src.val = false ∧
       (k.src ≠ k.spare → flag s.takeRekeys.fab.podmaskNext k.spare.val = true) ∧
       s.takeRekeys.fab.rings = (s.fab.rings.map fun e =>
         (e.1, { e.2 with members := e.2.members.map fun p => if p = k.src then k.spare else p })) ∧
       ∀ m < 8, s.takeRekeys.member m = if s.member m = k.src.val then k.spare.val else s.member m)))
end

