-- ==== Sys2Proof/Laws/Encoding.lean ====
section
/-! SUPPORT. Fields of a word: what `unpack` reads from what `pack` wrote, and field codes there and back. -/

namespace Sys2Proof

/-- The lowest field of a packed word and the fields above it. -/
theorem unpack_pack (k v : Nat) (ks : List Nat) (fs : List (Nat × Nat)) (h : v < 2 ^ k) :
    unpack (k :: ks) (pack ((k, v) :: fs)) = v :: unpack ks (pack fs) := by
  simp only [unpack, pack, List.cons.injEq]
  refine ⟨?_, ?_⟩
  · rw [Nat.add_mul_mod_self_left, Nat.mod_eq_of_lt h]
  · rw [Nat.add_mul_div_left _ _ (Nat.two_pow_pos k), Nat.div_eq_of_lt h, Nat.zero_add]

/-- A packed word without its lowest field. -/
theorem pack_div (k v : Nat) (fs : List (Nat × Nat)) (h : v < 2 ^ k) : pack ((k, v) :: fs) / 2 ^ k = pack fs := by
  simp only [pack]
  rw [Nat.add_mul_div_left _ _ (Nat.two_pow_pos k), Nat.div_eq_of_lt h, Nat.zero_add]

@[simp] theorem fin_val {n : Nat} [NeZero n] (i : Fin n) : fin n i.val = i := by
  simp [fin, Fin.ofNat, Nat.mod_eq_of_lt i.isLt]

@[simp] theorem bit_toNat (b : Bool) : bit b.toNat = b := by cases b <;> rfl

theorem toNat_lt_two (b : Bool) : b.toNat < 2 := by cases b <;> decide

/-- Checks that all pass. -/
theorem checked_ok {α : Type} (checks : List (Bool × Nat)) (i : α) (h : ∀ c ∈ checks, c.1 = false) : checked checks i = .ok i := by
  have hf : checks.find? (·.1) = none := List.find?_eq_none.2 fun c hc => by simp [h c hc]
  simp only [checked, hf]

theorem Dst.code_le (d : Dst) : d.code ≤ 24 := by cases d <;> simp only [Dst.code] <;> omega

@[simp] theorem Dst.ofCode_code (d : Dst) : Dst.ofCode d.code = d := by
  cases d with
  | s i => simp [Dst.ofCode, Dst.code]
  | queue => rfl
  | a i =>
    have h1 : ¬ 17 + i.val < 16 := by omega
    have h2 : 17 + i.val ≠ 16 := by omega
    simp [Dst.ofCode, Dst.code, h1, h2]

theorem Src.code_lt (x : Src) : x.code < 32 := by cases x <;> simp only [Src.code] <;> omega

@[simp] theorem Src.ofCode_code (x : Src) : Src.ofCode x.code = x := by
  cases x with
  | s i => simp [Src.ofCode, Src.code]
  | q k => simp [Src.ofCode, Src.code]

@[simp] theorem Space.ofCode_code (x : Space) : Space.ofCode x.code = x := by cases x <;> rfl
@[simp] theorem Scope.ofCode_code (x : Scope) : Scope.ofCode x.code = x := by cases x <;> rfl
@[simp] theorem AmoOrd.ofCode_code (x : AmoOrd) : AmoOrd.ofCode x.code = x := by cases x <;> rfl
@[simp] theorem FenceOrd.ofCode_code (x : FenceOrd) : FenceOrd.ofCode x.code = x := by cases x <;> rfl
@[simp] theorem SextW.ofCode_code (x : SextW) : SextW.ofCode x.code = x := by cases x <;> rfl
@[simp] theorem FTy.ofCode_code (x : FTy) : FTy.ofCode x.code = x := by cases x <;> rfl
@[simp] theorem ITy.ofCode_code (x : ITy) : ITy.ofCode x.code = x := by cases x <;> rfl
@[simp] theorem XTy.ofCode_code (x : XTy) : XTy.ofCode x.code = x := by cases x <;> rfl
@[simp] theorem MxFmt.ofCode_code (x : MxFmt) : MxFmt.ofCode x.code = x := by cases x <;> rfl
@[simp] theorem Dot4Ty.ofCode_code (x : Dot4Ty) : Dot4Ty.ofCode x.code = x := by cases x <;> rfl
@[simp] theorem KTy.ofCode_code (x : KTy) : KTy.ofCode x.code = x := by cases x <;> rfl
@[simp] theorem SysReg.ofCode_code (x : SysReg) : SysReg.ofCode? x.code = some x := by cases x <;> rfl
@[simp] theorem Cond.ofCode_code (x : Cond) : Cond.ofCode? x.code = some x := by cases x <;> rfl

end Sys2Proof
end

