-- ==== Sys2Proof/Laws/State.lean ====
section
/-! SUPPORT. What each named operation on the state leaves as it was, and what it makes of the field it changes: one lemma per
operation and field, so that no proof unfolds a record update. -/

namespace Sys2Proof.Machine

/-! ## modCluster -/

@[simp] theorem State.modCluster_cid (s : State) (n : Nat) (f : Cluster → Cluster) : (s.modCluster n f).cid = s.cid := rfl
@[simp] theorem State.modCluster_cx (s : State) (n : Nat) (f : Cluster → Cluster) : (s.modCluster n f).cx = s.cx := rfl
@[simp] theorem State.modCluster_core (s : State) (n : Nat) (f : Cluster → Cluster) : (s.modCluster n f).core = s.core := rfl
@[simp] theorem State.modCluster_ctxs (s : State) (n : Nat) (f : Cluster → Cluster) : (s.modCluster n f).ctxs = s.ctxs := rfl
@[simp] theorem State.modCluster_cores (s : State) (n : Nat) (f : Cluster → Cluster) : (s.modCluster n f).cores = s.cores := rfl
@[simp] theorem State.modCluster_clusters (s : State) (n : Nat) (f : Cluster → Cluster) : (s.modCluster n f).clusters = put n (f (s.clusterAt n)) s.clusters := rfl
@[simp] theorem State.modCluster_dies (s : State) (n : Nat) (f : Cluster → Cluster) : (s.modCluster n f).dies = s.dies := rfl
@[simp] theorem State.modCluster_mem (s : State) (n : Nat) (f : Cluster → Cluster) : (s.modCluster n f).mem = s.mem := rfl
@[simp] theorem State.modCluster_regs (s : State) (n : Nat) (f : Cluster → Cluster) : (s.modCluster n f).regs = s.regs := rfl
@[simp] theorem State.modCluster_prot (s : State) (n : Nat) (f : Cluster → Cluster) : (s.modCluster n f).prot = s.prot := rfl
@[simp] theorem State.modCluster_fab (s : State) (n : Nat) (f : Cluster → Cluster) : (s.modCluster n f).fab = s.fab := rfl
@[simp] theorem State.modCluster_pool (s : State) (n : Nat) (f : Cluster → Cluster) : (s.modCluster n f).pool = s.pool := rfl
@[simp] theorem State.modCluster_pwr (s : State) (n : Nat) (f : Cluster → Cluster) : (s.modCluster n f).pwr = s.pwr := rfl
@[simp] theorem State.modCluster_mgmt (s : State) (n : Nat) (f : Cluster → Cluster) : (s.modCluster n f).mgmt = s.mgmt := rfl
@[simp] theorem State.modCluster_relayouts (s : State) (n : Nat) (f : Cluster → Cluster) : (s.modCluster n f).relayouts = s.relayouts := rfl
@[simp] theorem State.modCluster_remotes (s : State) (n : Nat) (f : Cluster → Cluster) : (s.modCluster n f).remotes = s.remotes := rfl
@[simp] theorem State.modCluster_outbox (s : State) (n : Nat) (f : Cluster → Cluster) : (s.modCluster n f).outbox = s.outbox := rfl
@[simp] theorem State.modCluster_tick (s : State) (n : Nat) (f : Cluster → Cluster) : (s.modCluster n f).tick = s.tick := rfl
@[simp] theorem State.modCluster_nextId (s : State) (n : Nat) (f : Cluster → Cluster) : (s.modCluster n f).nextId = s.nextId := rfl
@[simp] theorem State.modCluster_issue (s : State) (n : Nat) (f : Cluster → Cluster) : (s.modCluster n f).issue = s.issue := rfl
@[simp] theorem State.modCluster_agenda (s : State) (n : Nat) (f : Cluster → Cluster) : (s.modCluster n f).agenda = s.agenda := rfl
@[simp] theorem State.modCluster_evt (s : State) (n : Nat) (f : Cluster → Cluster) : (s.modCluster n f).evt = s.evt := rfl
@[simp] theorem State.modCluster_freeCount (s : State) (n : Nat) (f : Cluster → Cluster) : (s.modCluster n f).freeCount = s.freeCount := rfl

/-! ## modDie -/

@[simp] theorem State.modDie_cid (s : State) (d : Nat) (f : Die → Die) : (s.modDie d f).cid = s.cid := rfl
@[simp] theorem State.modDie_cx (s : State) (d : Nat) (f : Die → Die) : (s.modDie d f).cx = s.cx := rfl
@[simp] theorem State.modDie_core (s : State) (d : Nat) (f : Die → Die) : (s.modDie d f).core = s.core := rfl
@[simp] theorem State.modDie_ctxs (s : State) (d : Nat) (f : Die → Die) : (s.modDie d f).ctxs = s.ctxs := rfl
@[simp] theorem State.modDie_cores (s : State) (d : Nat) (f : Die → Die) : (s.modDie d f).cores = s.cores := rfl
@[simp] theorem State.modDie_clusters (s : State) (d : Nat) (f : Die → Die) : (s.modDie d f).clusters = s.clusters := rfl
@[simp] theorem State.modDie_dies (s : State) (d : Nat) (f : Die → Die) : (s.modDie d f).dies = put d (f (s.dieAt d)) s.dies := rfl
@[simp] theorem State.modDie_mem (s : State) (d : Nat) (f : Die → Die) : (s.modDie d f).mem = s.mem := rfl
@[simp] theorem State.modDie_regs (s : State) (d : Nat) (f : Die → Die) : (s.modDie d f).regs = s.regs := rfl
@[simp] theorem State.modDie_prot (s : State) (d : Nat) (f : Die → Die) : (s.modDie d f).prot = s.prot := rfl
@[simp] theorem State.modDie_fab (s : State) (d : Nat) (f : Die → Die) : (s.modDie d f).fab = s.fab := rfl
@[simp] theorem State.modDie_pool (s : State) (d : Nat) (f : Die → Die) : (s.modDie d f).pool = s.pool := rfl
@[simp] theorem State.modDie_pwr (s : State) (d : Nat) (f : Die → Die) : (s.modDie d f).pwr = s.pwr := rfl
@[simp] theorem State.modDie_mgmt (s : State) (d : Nat) (f : Die → Die) : (s.modDie d f).mgmt = s.mgmt := rfl
@[simp] theorem State.modDie_relayouts (s : State) (d : Nat) (f : Die → Die) : (s.modDie d f).relayouts = s.relayouts := rfl
@[simp] theorem State.modDie_remotes (s : State) (d : Nat) (f : Die → Die) : (s.modDie d f).remotes = s.remotes := rfl
@[simp] theorem State.modDie_outbox (s : State) (d : Nat) (f : Die → Die) : (s.modDie d f).outbox = s.outbox := rfl
@[simp] theorem State.modDie_tick (s : State) (d : Nat) (f : Die → Die) : (s.modDie d f).tick = s.tick := rfl
@[simp] theorem State.modDie_nextId (s : State) (d : Nat) (f : Die → Die) : (s.modDie d f).nextId = s.nextId := rfl
@[simp] theorem State.modDie_issue (s : State) (d : Nat) (f : Die → Die) : (s.modDie d f).issue = s.issue := rfl
@[simp] theorem State.modDie_agenda (s : State) (d : Nat) (f : Die → Die) : (s.modDie d f).agenda = s.agenda := rfl
@[simp] theorem State.modDie_evt (s : State) (d : Nat) (f : Die → Die) : (s.modDie d f).evt = s.evt := rfl
@[simp] theorem State.modDie_freeCount (s : State) (d : Nat) (f : Die → Die) : (s.modDie d f).freeCount = s.freeCount := rfl

/-! ## modRegs -/

@[simp] theorem State.modRegs_cid (s : State) (f : Regs → Regs) : (s.modRegs f).cid = s.cid := rfl
@[simp] theorem State.modRegs_cx (s : State) (f : Regs → Regs) : (s.modRegs f).cx = { s.cx with regs := f s.cx.regs } := rfl
@[simp] theorem State.modRegs_core (s : State) (f : Regs → Regs) : (s.modRegs f).core = s.core := rfl
@[simp] theorem State.modRegs_ctxs (s : State) (f : Regs → Regs) : (s.modRegs f).ctxs = s.ctxs := rfl
@[simp] theorem State.modRegs_cores (s : State) (f : Regs → Regs) : (s.modRegs f).cores = s.cores := rfl
@[simp] theorem State.modRegs_clusters (s : State) (f : Regs → Regs) : (s.modRegs f).clusters = s.clusters := rfl
@[simp] theorem State.modRegs_dies (s : State) (f : Regs → Regs) : (s.modRegs f).dies = s.dies := rfl
@[simp] theorem State.modRegs_mem (s : State) (f : Regs → Regs) : (s.modRegs f).mem = s.mem := rfl
@[simp] theorem State.modRegs_regs (s : State) (f : Regs → Regs) : (s.modRegs f).regs = s.regs := rfl
@[simp] theorem State.modRegs_prot (s : State) (f : Regs → Regs) : (s.modRegs f).prot = s.prot := rfl
@[simp] theorem State.modRegs_fab (s : State) (f : Regs → Regs) : (s.modRegs f).fab = s.fab := rfl
@[simp] theorem State.modRegs_pool (s : State) (f : Regs → Regs) : (s.modRegs f).pool = s.pool := rfl
@[simp] theorem State.modRegs_pwr (s : State) (f : Regs → Regs) : (s.modRegs f).pwr = s.pwr := rfl
@[simp] theorem State.modRegs_mgmt (s : State) (f : Regs → Regs) : (s.modRegs f).mgmt = s.mgmt := rfl
@[simp] theorem State.modRegs_relayouts (s : State) (f : Regs → Regs) : (s.modRegs f).relayouts = s.relayouts := rfl
@[simp] theorem State.modRegs_remotes (s : State) (f : Regs → Regs) : (s.modRegs f).remotes = s.remotes := rfl
@[simp] theorem State.modRegs_outbox (s : State) (f : Regs → Regs) : (s.modRegs f).outbox = s.outbox := rfl
@[simp] theorem State.modRegs_tick (s : State) (f : Regs → Regs) : (s.modRegs f).tick = s.tick := rfl
@[simp] theorem State.modRegs_nextId (s : State) (f : Regs → Regs) : (s.modRegs f).nextId = s.nextId := rfl
@[simp] theorem State.modRegs_issue (s : State) (f : Regs → Regs) : (s.modRegs f).issue = s.issue := rfl
@[simp] theorem State.modRegs_agenda (s : State) (f : Regs → Regs) : (s.modRegs f).agenda = s.agenda := rfl
@[simp] theorem State.modRegs_evt (s : State) (f : Regs → Regs) : (s.modRegs f).evt = s.evt := rfl
@[simp] theorem State.modRegs_freeCount (s : State) (f : Regs → Regs) : (s.modRegs f).freeCount = s.freeCount := rfl

/-! ## enqueue -/

@[simp] theorem State.enqueue_cid (s : State) (e : Event) : (s.enqueue e).cid = s.cid := rfl
@[simp] theorem State.enqueue_cx (s : State) (e : Event) : (s.enqueue e).cx = s.cx := rfl
@[simp] theorem State.enqueue_core (s : State) (e : Event) : (s.enqueue e).core = s.core := rfl
@[simp] theorem State.enqueue_ctxs (s : State) (e : Event) : (s.enqueue e).ctxs = s.ctxs := rfl
@[simp] theorem State.enqueue_cores (s : State) (e : Event) : (s.enqueue e).cores = s.cores := rfl
@[simp] theorem State.enqueue_clusters (s : State) (e : Event) : (s.enqueue e).clusters = s.clusters := rfl
@[simp] theorem State.enqueue_dies (s : State) (e : Event) : (s.enqueue e).dies = s.dies := rfl
@[simp] theorem State.enqueue_mem (s : State) (e : Event) : (s.enqueue e).mem = s.mem := rfl
@[simp] theorem State.enqueue_regs (s : State) (e : Event) : (s.enqueue e).regs = s.regs := rfl
@[simp] theorem State.enqueue_prot (s : State) (e : Event) : (s.enqueue e).prot = s.prot := rfl
@[simp] theorem State.enqueue_fab (s : State) (e : Event) : (s.enqueue e).fab = s.fab := rfl
@[simp] theorem State.enqueue_pool (s : State) (e : Event) : (s.enqueue e).pool = s.pool := rfl
@[simp] theorem State.enqueue_pwr (s : State) (e : Event) : (s.enqueue e).pwr = s.pwr := rfl
@[simp] theorem State.enqueue_mgmt (s : State) (e : Event) : (s.enqueue e).mgmt = s.mgmt := rfl
@[simp] theorem State.enqueue_relayouts (s : State) (e : Event) : (s.enqueue e).relayouts = s.relayouts := rfl
@[simp] theorem State.enqueue_remotes (s : State) (e : Event) : (s.enqueue e).remotes = s.remotes := rfl
@[simp] theorem State.enqueue_outbox (s : State) (e : Event) : (s.enqueue e).outbox = s.outbox := rfl
@[simp] theorem State.enqueue_tick (s : State) (e : Event) : (s.enqueue e).tick = s.tick := rfl
@[simp] theorem State.enqueue_nextId (s : State) (e : Event) : (s.enqueue e).nextId = s.nextId := rfl
@[simp] theorem State.enqueue_issue (s : State) (e : Event) : (s.enqueue e).issue = s.issue := rfl
@[simp] theorem State.enqueue_agenda (s : State) (e : Event) : (s.enqueue e).agenda = s.agenda ++ [e] := rfl
@[simp] theorem State.enqueue_evt (s : State) (e : Event) : (s.enqueue e).evt = s.evt := rfl
@[simp] theorem State.enqueue_freeCount (s : State) (e : Event) : (s.enqueue e).freeCount = s.freeCount := rfl

/-! ## enqueueAll -/

@[simp] theorem State.enqueueAll_cid (s : State) (es : List Event) : (s.enqueueAll es).cid = s.cid := rfl
@[simp] theorem State.enqueueAll_cx (s : State) (es : List Event) : (s.enqueueAll es).cx = s.cx := rfl
@[simp] theorem State.enqueueAll_core (s : State) (es : List Event) : (s.enqueueAll es).core = s.core := rfl
@[simp] theorem State.enqueueAll_ctxs (s : State) (es : List Event) : (s.enqueueAll es).ctxs = s.ctxs := rfl
@[simp] theorem State.enqueueAll_cores (s : State) (es : List Event) : (s.enqueueAll es).cores = s.cores := rfl
@[simp] theorem State.enqueueAll_clusters (s : State) (es : List Event) : (s.enqueueAll es).clusters = s.clusters := rfl
@[simp] theorem State.enqueueAll_dies (s : State) (es : List Event) : (s.enqueueAll es).dies = s.dies := rfl
@[simp] theorem State.enqueueAll_mem (s : State) (es : List Event) : (s.enqueueAll es).mem = s.mem := rfl
@[simp] theorem State.enqueueAll_regs (s : State) (es : List Event) : (s.enqueueAll es).regs = s.regs := rfl
@[simp] theorem State.enqueueAll_prot (s : State) (es : List Event) : (s.enqueueAll es).prot = s.prot := rfl
@[simp] theorem State.enqueueAll_fab (s : State) (es : List Event) : (s.enqueueAll es).fab = s.fab := rfl
@[simp] theorem State.enqueueAll_pool (s : State) (es : List Event) : (s.enqueueAll es).pool = s.pool := rfl
@[simp] theorem State.enqueueAll_pwr (s : State) (es : List Event) : (s.enqueueAll es).pwr = s.pwr := rfl
@[simp] theorem State.enqueueAll_mgmt (s : State) (es : List Event) : (s.enqueueAll es).mgmt = s.mgmt := rfl
@[simp] theorem State.enqueueAll_relayouts (s : State) (es : List Event) : (s.enqueueAll es).relayouts = s.relayouts := rfl
@[simp] theorem State.enqueueAll_remotes (s : State) (es : List Event) : (s.enqueueAll es).remotes = s.remotes := rfl
@[simp] theorem State.enqueueAll_outbox (s : State) (es : List Event) : (s.enqueueAll es).outbox = s.outbox := rfl
@[simp] theorem State.enqueueAll_tick (s : State) (es : List Event) : (s.enqueueAll es).tick = s.tick := rfl
@[simp] theorem State.enqueueAll_nextId (s : State) (es : List Event) : (s.enqueueAll es).nextId = s.nextId := rfl
@[simp] theorem State.enqueueAll_issue (s : State) (es : List Event) : (s.enqueueAll es).issue = s.issue := rfl
@[simp] theorem State.enqueueAll_agenda (s : State) (es : List Event) : (s.enqueueAll es).agenda = s.agenda ++ es := rfl
@[simp] theorem State.enqueueAll_evt (s : State) (es : List Event) : (s.enqueueAll es).evt = s.evt := rfl
@[simp] theorem State.enqueueAll_freeCount (s : State) (es : List Event) : (s.enqueueAll es).freeCount = s.freeCount := rfl

/-! ## send -/

@[simp] theorem State.send_cid (s : State) (m : OutMsg) : (s.send m).cid = s.cid := rfl
@[simp] theorem State.send_cx (s : State) (m : OutMsg) : (s.send m).cx = s.cx := rfl
@[simp] theorem State.send_core (s : State) (m : OutMsg) : (s.send m).core = s.core := rfl
@[simp] theorem State.send_ctxs (s : State) (m : OutMsg) : (s.send m).ctxs = s.ctxs := rfl
@[simp] theorem State.send_cores (s : State) (m : OutMsg) : (s.send m).cores = s.cores := rfl
@[simp] theorem State.send_clusters (s : State) (m : OutMsg) : (s.send m).clusters = s.clusters := rfl
@[simp] theorem State.send_dies (s : State) (m : OutMsg) : (s.send m).dies = s.dies := rfl
@[simp] theorem State.send_mem (s : State) (m : OutMsg) : (s.send m).mem = s.mem := rfl
@[simp] theorem State.send_regs (s : State) (m : OutMsg) : (s.send m).regs = s.regs := rfl
@[simp] theorem State.send_prot (s : State) (m : OutMsg) : (s.send m).prot = s.prot := rfl
@[simp] theorem State.send_fab (s : State) (m : OutMsg) : (s.send m).fab = s.fab := rfl
@[simp] theorem State.send_pool (s : State) (m : OutMsg) : (s.send m).pool = s.pool := rfl
@[simp] theorem State.send_pwr (s : State) (m : OutMsg) : (s.send m).pwr = s.pwr := rfl
@[simp] theorem State.send_mgmt (s : State) (m : OutMsg) : (s.send m).mgmt = s.mgmt := rfl
@[simp] theorem State.send_relayouts (s : State) (m : OutMsg) : (s.send m).relayouts = s.relayouts := rfl
@[simp] theorem State.send_remotes (s : State) (m : OutMsg) : (s.send m).remotes = s.remotes := rfl
@[simp] theorem State.send_outbox (s : State) (m : OutMsg) : (s.send m).outbox = s.outbox ++ [m] := rfl
@[simp] theorem State.send_tick (s : State) (m : OutMsg) : (s.send m).tick = s.tick := rfl
@[simp] theorem State.send_nextId (s : State) (m : OutMsg) : (s.send m).nextId = s.nextId := rfl
@[simp] theorem State.send_issue (s : State) (m : OutMsg) : (s.send m).issue = s.issue := rfl
@[simp] theorem State.send_agenda (s : State) (m : OutMsg) : (s.send m).agenda = s.agenda := rfl
@[simp] theorem State.send_evt (s : State) (m : OutMsg) : (s.send m).evt = s.evt := rfl
@[simp] theorem State.send_freeCount (s : State) (m : OutMsg) : (s.send m).freeCount = s.freeCount := rfl

/-! ## fresh.2 -/

@[simp] theorem State.fresh_cid (s : State) : (s.fresh).2.cid = s.cid := rfl
@[simp] theorem State.fresh_cx (s : State) : (s.fresh).2.cx = s.cx := rfl
@[simp] theorem State.fresh_core (s : State) : (s.fresh).2.core = s.core := rfl
@[simp] theorem State.fresh_ctxs (s : State) : (s.fresh).2.ctxs = s.ctxs := rfl
@[simp] theorem State.fresh_cores (s : State) : (s.fresh).2.cores = s.cores := rfl
@[simp] theorem State.fresh_clusters (s : State) : (s.fresh).2.clusters = s.clusters := rfl
@[simp] theorem State.fresh_dies (s : State) : (s.fresh).2.dies = s.dies := rfl
@[simp] theorem State.fresh_mem (s : State) : (s.fresh).2.mem = s.mem := rfl
@[simp] theorem State.fresh_regs (s : State) : (s.fresh).2.regs = s.regs := rfl
@[simp] theorem State.fresh_prot (s : State) : (s.fresh).2.prot = s.prot := rfl
@[simp] theorem State.fresh_fab (s : State) : (s.fresh).2.fab = s.fab := rfl
@[simp] theorem State.fresh_pool (s : State) : (s.fresh).2.pool = s.pool := rfl
@[simp] theorem State.fresh_pwr (s : State) : (s.fresh).2.pwr = s.pwr := rfl
@[simp] theorem State.fresh_mgmt (s : State) : (s.fresh).2.mgmt = s.mgmt := rfl
@[simp] theorem State.fresh_relayouts (s : State) : (s.fresh).2.relayouts = s.relayouts := rfl
@[simp] theorem State.fresh_remotes (s : State) : (s.fresh).2.remotes = s.remotes := rfl
@[simp] theorem State.fresh_outbox (s : State) : (s.fresh).2.outbox = s.outbox := rfl
@[simp] theorem State.fresh_tick (s : State) : (s.fresh).2.tick = s.tick := rfl
@[simp] theorem State.fresh_nextId (s : State) : (s.fresh).2.nextId = s.nextId + 1 := rfl
@[simp] theorem State.fresh_issue (s : State) : (s.fresh).2.issue = s.issue := rfl
@[simp] theorem State.fresh_agenda (s : State) : (s.fresh).2.agenda = s.agenda := rfl
@[simp] theorem State.fresh_evt (s : State) : (s.fresh).2.evt = s.evt := rfl
@[simp] theorem State.fresh_freeCount (s : State) : (s.fresh).2.freeCount = s.freeCount := rfl

/-! ## freeValue.2 -/

@[simp] theorem State.freeValue_cid (s : State) : (s.freeValue).2.cid = s.cid := rfl
@[simp] theorem State.freeValue_cx (s : State) : (s.freeValue).2.cx = s.cx := rfl
@[simp] theorem State.freeValue_core (s : State) : (s.freeValue).2.core = s.core := rfl
@[simp] theorem State.freeValue_ctxs (s : State) : (s.freeValue).2.ctxs = s.ctxs := rfl
@[simp] theorem State.freeValue_cores (s : State) : (s.freeValue).2.cores = s.cores := rfl
@[simp] theorem State.freeValue_clusters (s : State) : (s.freeValue).2.clusters = s.clusters := rfl
@[simp] theorem State.freeValue_dies (s : State) : (s.freeValue).2.dies = s.dies := rfl
@[simp] theorem State.freeValue_mem (s : State) : (s.freeValue).2.mem = s.mem := rfl
@[simp] theorem State.freeValue_regs (s : State) : (s.freeValue).2.regs = s.regs := rfl
@[simp] theorem State.freeValue_prot (s : State) : (s.freeValue).2.prot = s.prot := rfl
@[simp] theorem State.freeValue_fab (s : State) : (s.freeValue).2.fab = s.fab := rfl
@[simp] theorem State.freeValue_pool (s : State) : (s.freeValue).2.pool = s.pool := rfl
@[simp] theorem State.freeValue_pwr (s : State) : (s.freeValue).2.pwr = s.pwr := rfl
@[simp] theorem State.freeValue_mgmt (s : State) : (s.freeValue).2.mgmt = s.mgmt := rfl
@[simp] theorem State.freeValue_relayouts (s : State) : (s.freeValue).2.relayouts = s.relayouts := rfl
@[simp] theorem State.freeValue_remotes (s : State) : (s.freeValue).2.remotes = s.remotes := rfl
@[simp] theorem State.freeValue_outbox (s : State) : (s.freeValue).2.outbox = s.outbox := rfl
@[simp] theorem State.freeValue_tick (s : State) : (s.freeValue).2.tick = s.tick := rfl
@[simp] theorem State.freeValue_nextId (s : State) : (s.freeValue).2.nextId = s.nextId := rfl
@[simp] theorem State.freeValue_issue (s : State) : (s.freeValue).2.issue = s.issue := rfl
@[simp] theorem State.freeValue_agenda (s : State) : (s.freeValue).2.agenda = s.agenda := rfl
@[simp] theorem State.freeValue_evt (s : State) : (s.freeValue).2.evt = s.evt := rfl
@[simp] theorem State.freeValue_freeCount (s : State) : (s.freeValue).2.freeCount = s.freeCount + 1 := rfl

/-! ## mergeFresh -/

@[simp] theorem State.mergeFresh_cid (s : State) : (s.mergeFresh).cid = s.cid := rfl
@[simp] theorem State.mergeFresh_cx (s : State) : (s.mergeFresh).cx = { s.cx with inflight := s.cx.inflight ++ s.cx.fresh, fresh := [] } := rfl
@[simp] theorem State.mergeFresh_core (s : State) : (s.mergeFresh).core = s.core := rfl
@[simp] theorem State.mergeFresh_ctxs (s : State) : (s.mergeFresh).ctxs = s.ctxs := rfl
@[simp] theorem State.mergeFresh_cores (s : State) : (s.mergeFresh).cores = s.cores := rfl
@[simp] theorem State.mergeFresh_clusters (s : State) : (s.mergeFresh).clusters = s.clusters := rfl
@[simp] theorem State.mergeFresh_dies (s : State) : (s.mergeFresh).dies = s.dies := rfl
@[simp] theorem State.mergeFresh_mem (s : State) : (s.mergeFresh).mem = s.mem := rfl
@[simp] theorem State.mergeFresh_regs (s : State) : (s.mergeFresh).regs = s.regs := rfl
@[simp] theorem State.mergeFresh_prot (s : State) : (s.mergeFresh).prot = s.prot := rfl
@[simp] theorem State.mergeFresh_fab (s : State) : (s.mergeFresh).fab = s.fab := rfl
@[simp] theorem State.mergeFresh_pool (s : State) : (s.mergeFresh).pool = s.pool := rfl
@[simp] theorem State.mergeFresh_pwr (s : State) : (s.mergeFresh).pwr = s.pwr := rfl
@[simp] theorem State.mergeFresh_mgmt (s : State) : (s.mergeFresh).mgmt = s.mgmt := rfl
@[simp] theorem State.mergeFresh_relayouts (s : State) : (s.mergeFresh).relayouts = s.relayouts := rfl
@[simp] theorem State.mergeFresh_remotes (s : State) : (s.mergeFresh).remotes = s.remotes := rfl
@[simp] theorem State.mergeFresh_outbox (s : State) : (s.mergeFresh).outbox = s.outbox := rfl
@[simp] theorem State.mergeFresh_tick (s : State) : (s.mergeFresh).tick = s.tick := rfl
@[simp] theorem State.mergeFresh_nextId (s : State) : (s.mergeFresh).nextId = s.nextId := rfl
@[simp] theorem State.mergeFresh_issue (s : State) : (s.mergeFresh).issue = s.issue := rfl
@[simp] theorem State.mergeFresh_agenda (s : State) : (s.mergeFresh).agenda = s.agenda := rfl
@[simp] theorem State.mergeFresh_evt (s : State) : (s.mergeFresh).evt = s.evt := rfl
@[simp] theorem State.mergeFresh_freeCount (s : State) : (s.mergeFresh).freeCount = s.freeCount := rfl

/-! ## pushSlot.2 -/

@[simp] theorem State.pushSlot_cid (s : State) : (s.pushSlot).2.cid = s.cid := rfl
@[simp] theorem State.pushSlot_cx (s : State) : (s.pushSlot).2.cx = { s.cx with regs := { s.cx.regs with qp := s.cx.regs.qp + 1 } } := rfl
@[simp] theorem State.pushSlot_core (s : State) : (s.pushSlot).2.core = s.core := rfl
@[simp] theorem State.pushSlot_ctxs (s : State) : (s.pushSlot).2.ctxs = s.ctxs := rfl
@[simp] theorem State.pushSlot_cores (s : State) : (s.pushSlot).2.cores = s.cores := rfl
@[simp] theorem State.pushSlot_clusters (s : State) : (s.pushSlot).2.clusters = s.clusters := rfl
@[simp] theorem State.pushSlot_dies (s : State) : (s.pushSlot).2.dies = s.dies := rfl
@[simp] theorem State.pushSlot_mem (s : State) : (s.pushSlot).2.mem = s.mem := rfl
@[simp] theorem State.pushSlot_regs (s : State) : (s.pushSlot).2.regs = s.regs := rfl
@[simp] theorem State.pushSlot_prot (s : State) : (s.pushSlot).2.prot = s.prot := rfl
@[simp] theorem State.pushSlot_fab (s : State) : (s.pushSlot).2.fab = s.fab := rfl
@[simp] theorem State.pushSlot_pool (s : State) : (s.pushSlot).2.pool = s.pool := rfl
@[simp] theorem State.pushSlot_pwr (s : State) : (s.pushSlot).2.pwr = s.pwr := rfl
@[simp] theorem State.pushSlot_mgmt (s : State) : (s.pushSlot).2.mgmt = s.mgmt := rfl
@[simp] theorem State.pushSlot_relayouts (s : State) : (s.pushSlot).2.relayouts = s.relayouts := rfl
@[simp] theorem State.pushSlot_remotes (s : State) : (s.pushSlot).2.remotes = s.remotes := rfl
@[simp] theorem State.pushSlot_outbox (s : State) : (s.pushSlot).2.outbox = s.outbox := rfl
@[simp] theorem State.pushSlot_tick (s : State) : (s.pushSlot).2.tick = s.tick := rfl
@[simp] theorem State.pushSlot_nextId (s : State) : (s.pushSlot).2.nextId = s.nextId := rfl
@[simp] theorem State.pushSlot_issue (s : State) : (s.pushSlot).2.issue = s.issue := rfl
@[simp] theorem State.pushSlot_agenda (s : State) : (s.pushSlot).2.agenda = s.agenda := rfl
@[simp] theorem State.pushSlot_evt (s : State) : (s.pushSlot).2.evt = s.evt := rfl
@[simp] theorem State.pushSlot_freeCount (s : State) : (s.pushSlot).2.freeCount = s.freeCount := rfl

/-! ## write -/

@[simp] theorem State.write_cid (s : State) (lat : Lat) (r : Reg) (v : Val) : (s.write lat r v).cid = s.cid := rfl
@[simp] theorem State.write_core (s : State) (lat : Lat) (r : Reg) (v : Val) : (s.write lat r v).core = s.core := rfl
@[simp] theorem State.write_ctxs (s : State) (lat : Lat) (r : Reg) (v : Val) : (s.write lat r v).ctxs = s.ctxs := rfl
@[simp] theorem State.write_cores (s : State) (lat : Lat) (r : Reg) (v : Val) : (s.write lat r v).cores = s.cores := rfl
@[simp] theorem State.write_clusters (s : State) (lat : Lat) (r : Reg) (v : Val) : (s.write lat r v).clusters = s.clusters := rfl
@[simp] theorem State.write_dies (s : State) (lat : Lat) (r : Reg) (v : Val) : (s.write lat r v).dies = s.dies := rfl
@[simp] theorem State.write_mem (s : State) (lat : Lat) (r : Reg) (v : Val) : (s.write lat r v).mem = s.mem := rfl
@[simp] theorem State.write_regs (s : State) (lat : Lat) (r : Reg) (v : Val) : (s.write lat r v).regs = s.regs := rfl
@[simp] theorem State.write_prot (s : State) (lat : Lat) (r : Reg) (v : Val) : (s.write lat r v).prot = s.prot := rfl
@[simp] theorem State.write_fab (s : State) (lat : Lat) (r : Reg) (v : Val) : (s.write lat r v).fab = s.fab := rfl
@[simp] theorem State.write_pool (s : State) (lat : Lat) (r : Reg) (v : Val) : (s.write lat r v).pool = s.pool := rfl
@[simp] theorem State.write_pwr (s : State) (lat : Lat) (r : Reg) (v : Val) : (s.write lat r v).pwr = s.pwr := rfl
@[simp] theorem State.write_mgmt (s : State) (lat : Lat) (r : Reg) (v : Val) : (s.write lat r v).mgmt = s.mgmt := rfl
@[simp] theorem State.write_relayouts (s : State) (lat : Lat) (r : Reg) (v : Val) : (s.write lat r v).relayouts = s.relayouts := rfl
@[simp] theorem State.write_remotes (s : State) (lat : Lat) (r : Reg) (v : Val) : (s.write lat r v).remotes = s.remotes := rfl
@[simp] theorem State.write_outbox (s : State) (lat : Lat) (r : Reg) (v : Val) : (s.write lat r v).outbox = s.outbox := rfl
@[simp] theorem State.write_tick (s : State) (lat : Lat) (r : Reg) (v : Val) : (s.write lat r v).tick = s.tick := rfl
@[simp] theorem State.write_nextId (s : State) (lat : Lat) (r : Reg) (v : Val) : (s.write lat r v).nextId = s.nextId := rfl
@[simp] theorem State.write_issue (s : State) (lat : Lat) (r : Reg) (v : Val) : (s.write lat r v).issue = s.issue := rfl
@[simp] theorem State.write_agenda (s : State) (lat : Lat) (r : Reg) (v : Val) : (s.write lat r v).agenda = s.agenda := rfl
@[simp] theorem State.write_evt (s : State) (lat : Lat) (r : Reg) (v : Val) : (s.write lat r v).evt = s.evt := rfl
@[simp] theorem State.write_freeCount (s : State) (lat : Lat) (r : Reg) (v : Val) : (s.write lat r v).freeCount = s.freeCount := rfl

/-! ## await -/

@[simp] theorem State.await_cid (s : State) (tag : Nat) (r : Reg) (v : Val) : (s.await tag r v).cid = s.cid := rfl
@[simp] theorem State.await_cx (s : State) (tag : Nat) (r : Reg) (v : Val) : (s.await tag r v).cx = { s.cx with fresh := s.cx.fresh ++ [⟨r, v, none, 0, false, tag⟩] } := rfl
@[simp] theorem State.await_core (s : State) (tag : Nat) (r : Reg) (v : Val) : (s.await tag r v).core = s.core := rfl
@[simp] theorem State.await_ctxs (s : State) (tag : Nat) (r : Reg) (v : Val) : (s.await tag r v).ctxs = s.ctxs := rfl
@[simp] theorem State.await_cores (s : State) (tag : Nat) (r : Reg) (v : Val) : (s.await tag r v).cores = s.cores := rfl
@[simp] theorem State.await_clusters (s : State) (tag : Nat) (r : Reg) (v : Val) : (s.await tag r v).clusters = s.clusters := rfl
@[simp] theorem State.await_dies (s : State) (tag : Nat) (r : Reg) (v : Val) : (s.await tag r v).dies = s.dies := rfl
@[simp] theorem State.await_mem (s : State) (tag : Nat) (r : Reg) (v : Val) : (s.await tag r v).mem = s.mem := rfl
@[simp] theorem State.await_regs (s : State) (tag : Nat) (r : Reg) (v : Val) : (s.await tag r v).regs = s.regs := rfl
@[simp] theorem State.await_prot (s : State) (tag : Nat) (r : Reg) (v : Val) : (s.await tag r v).prot = s.prot := rfl
@[simp] theorem State.await_fab (s : State) (tag : Nat) (r : Reg) (v : Val) : (s.await tag r v).fab = s.fab := rfl
@[simp] theorem State.await_pool (s : State) (tag : Nat) (r : Reg) (v : Val) : (s.await tag r v).pool = s.pool := rfl
@[simp] theorem State.await_pwr (s : State) (tag : Nat) (r : Reg) (v : Val) : (s.await tag r v).pwr = s.pwr := rfl
@[simp] theorem State.await_mgmt (s : State) (tag : Nat) (r : Reg) (v : Val) : (s.await tag r v).mgmt = s.mgmt := rfl
@[simp] theorem State.await_relayouts (s : State) (tag : Nat) (r : Reg) (v : Val) : (s.await tag r v).relayouts = s.relayouts := rfl
@[simp] theorem State.await_remotes (s : State) (tag : Nat) (r : Reg) (v : Val) : (s.await tag r v).remotes = s.remotes := rfl
@[simp] theorem State.await_outbox (s : State) (tag : Nat) (r : Reg) (v : Val) : (s.await tag r v).outbox = s.outbox := rfl
@[simp] theorem State.await_tick (s : State) (tag : Nat) (r : Reg) (v : Val) : (s.await tag r v).tick = s.tick := rfl
@[simp] theorem State.await_nextId (s : State) (tag : Nat) (r : Reg) (v : Val) : (s.await tag r v).nextId = s.nextId := rfl
@[simp] theorem State.await_issue (s : State) (tag : Nat) (r : Reg) (v : Val) : (s.await tag r v).issue = s.issue := rfl
@[simp] theorem State.await_agenda (s : State) (tag : Nat) (r : Reg) (v : Val) : (s.await tag r v).agenda = s.agenda := rfl
@[simp] theorem State.await_evt (s : State) (tag : Nat) (r : Reg) (v : Val) : (s.await tag r v).evt = s.evt := rfl
@[simp] theorem State.await_freeCount (s : State) (tag : Nat) (r : Reg) (v : Val) : (s.await tag r v).freeCount = s.freeCount := rfl

theorem State.write_cx (s : State) (lat : Lat) (r : Reg) (v : Val) :
    ∃ f : Flight, (s.write lat r v).cx = { s.cx with fresh := s.cx.fresh ++ [f] } ∧ f.reg = r ∧ f.val = v := by
  cases lat <;> exact ⟨_, rfl, rfl, rfl⟩

@[simp] theorem State.fresh_fst (s : State) : s.fresh.1 = s.nextId := rfl
@[simp] theorem State.freeValue_fst (s : State) : s.freeValue.1 = Config.freeWord s.freeCount := rfl
@[simp] theorem State.pushSlot_fst (s : State) : s.pushSlot.1 = .qr (Fin.ofNat 16 s.cx.regs.qp.toNat) := rfl

/-! ## Tables of contexts and cores -/

@[simp] theorem State.setCtx_cid (s : State) (c : Nat) (x : Ctx) : (s.setCtx c x).cid = s.cid := by
  unfold State.setCtx; split <;> rfl
@[simp] theorem State.setCtx_core (s : State) (c : Nat) (x : Ctx) : (s.setCtx c x).core = s.core := by
  unfold State.setCtx; split <;> rfl
@[simp] theorem State.setCtx_cores (s : State) (c : Nat) (x : Ctx) : (s.setCtx c x).cores = s.cores := by
  unfold State.setCtx; split <;> rfl
@[simp] theorem State.setCtx_clusters (s : State) (c : Nat) (x : Ctx) : (s.setCtx c x).clusters = s.clusters := by
  unfold State.setCtx; split <;> rfl
@[simp] theorem State.setCtx_dies (s : State) (c : Nat) (x : Ctx) : (s.setCtx c x).dies = s.dies := by
  unfold State.setCtx; split <;> rfl
@[simp] theorem State.setCtx_mem (s : State) (c : Nat) (x : Ctx) : (s.setCtx c x).mem = s.mem := by
  unfold State.setCtx; split <;> rfl
@[simp] theorem State.setCtx_regs (s : State) (c : Nat) (x : Ctx) : (s.setCtx c x).regs = s.regs := by
  unfold State.setCtx; split <;> rfl
@[simp] theorem State.setCtx_prot (s : State) (c : Nat) (x : Ctx) : (s.setCtx c x).prot = s.prot := by
  unfold State.setCtx; split <;> rfl
@[simp] theorem State.setCtx_fab (s : State) (c : Nat) (x : Ctx) : (s.setCtx c x).fab = s.fab := by
  unfold State.setCtx; split <;> rfl
@[simp] theorem State.setCtx_pool (s : State) (c : Nat) (x : Ctx) : (s.setCtx c x).pool = s.pool := by
  unfold State.setCtx; split <;> rfl
@[simp] theorem State.setCtx_pwr (s : State) (c : Nat) (x : Ctx) : (s.setCtx c x).pwr = s.pwr := by
  unfold State.setCtx; split <;> rfl
@[simp] theorem State.setCtx_mgmt (s : State) (c : Nat) (x : Ctx) : (s.setCtx c x).mgmt = s.mgmt := by
  unfold State.setCtx; split <;> rfl
@[simp] theorem State.setCtx_relayouts (s : State) (c : Nat) (x : Ctx) : (s.setCtx c x).relayouts = s.relayouts := by
  unfold State.setCtx; split <;> rfl
@[simp] theorem State.setCtx_remotes (s : State) (c : Nat) (x : Ctx) : (s.setCtx c x).remotes = s.remotes := by
  unfold State.setCtx; split <;> rfl
@[simp] theorem State.setCtx_outbox (s : State) (c : Nat) (x : Ctx) : (s.setCtx c x).outbox = s.outbox := by
  unfold State.setCtx; split <;> rfl
@[simp] theorem State.setCtx_tick (s : State) (c : Nat) (x : Ctx) : (s.setCtx c x).tick = s.tick := by
  unfold State.setCtx; split <;> rfl
@[simp] theorem State.setCtx_nextId (s : State) (c : Nat) (x : Ctx) : (s.setCtx c x).nextId = s.nextId := by
  unfold State.setCtx; split <;> rfl
@[simp] theorem State.setCtx_issue (s : State) (c : Nat) (x : Ctx) : (s.setCtx c x).issue = s.issue := by
  unfold State.setCtx; split <;> rfl
@[simp] theorem State.setCtx_agenda (s : State) (c : Nat) (x : Ctx) : (s.setCtx c x).agenda = s.agenda := by
  unfold State.setCtx; split <;> rfl
@[simp] theorem State.setCtx_evt (s : State) (c : Nat) (x : Ctx) : (s.setCtx c x).evt = s.evt := by
  unfold State.setCtx; split <;> rfl
@[simp] theorem State.setCtx_freeCount (s : State) (c : Nat) (x : Ctx) : (s.setCtx c x).freeCount = s.freeCount := by
  unfold State.setCtx; split <;> rfl

@[simp] theorem State.modCtx_cid (s : State) (c : Nat) (f : Ctx → Ctx) : (s.modCtx c f).cid = s.cid := by
  simp [State.modCtx]
@[simp] theorem State.modCtx_core (s : State) (c : Nat) (f : Ctx → Ctx) : (s.modCtx c f).core = s.core := by
  simp [State.modCtx]
@[simp] theorem State.modCtx_cores (s : State) (c : Nat) (f : Ctx → Ctx) : (s.modCtx c f).cores = s.cores := by
  simp [State.modCtx]
@[simp] theorem State.modCtx_clusters (s : State) (c : Nat) (f : Ctx → Ctx) : (s.modCtx c f).clusters = s.clusters := by
  simp [State.modCtx]
@[simp] theorem State.modCtx_dies (s : State) (c : Nat) (f : Ctx → Ctx) : (s.modCtx c f).dies = s.dies := by
  simp [State.modCtx]
@[simp] theorem State.modCtx_mem (s : State) (c : Nat) (f : Ctx → Ctx) : (s.modCtx c f).mem = s.mem := by
  simp [State.modCtx]
@[simp] theorem State.modCtx_regs (s : State) (c : Nat) (f : Ctx → Ctx) : (s.modCtx c f).regs = s.regs := by
  simp [State.modCtx]
@[simp] theorem State.modCtx_prot (s : State) (c : Nat) (f : Ctx → Ctx) : (s.modCtx c f).prot = s.prot := by
  simp [State.modCtx]
@[simp] theorem State.modCtx_fab (s : State) (c : Nat) (f : Ctx → Ctx) : (s.modCtx c f).fab = s.fab := by
  simp [State.modCtx]
@[simp] theorem State.modCtx_pool (s : State) (c : Nat) (f : Ctx → Ctx) : (s.modCtx c f).pool = s.pool := by
  simp [State.modCtx]
@[simp] theorem State.modCtx_pwr (s : State) (c : Nat) (f : Ctx → Ctx) : (s.modCtx c f).pwr = s.pwr := by
  simp [State.modCtx]
@[simp] theorem State.modCtx_mgmt (s : State) (c : Nat) (f : Ctx → Ctx) : (s.modCtx c f).mgmt = s.mgmt := by
  simp [State.modCtx]
@[simp] theorem State.modCtx_relayouts (s : State) (c : Nat) (f : Ctx → Ctx) : (s.modCtx c f).relayouts = s.relayouts := by
  simp [State.modCtx]
@[simp] theorem State.modCtx_remotes (s : State) (c : Nat) (f : Ctx → Ctx) : (s.modCtx c f).remotes = s.remotes := by
  simp [State.modCtx]
@[simp] theorem State.modCtx_outbox (s : State) (c : Nat) (f : Ctx → Ctx) : (s.modCtx c f).outbox = s.outbox := by
  simp [State.modCtx]
@[simp] theorem State.modCtx_tick (s : State) (c : Nat) (f : Ctx → Ctx) : (s.modCtx c f).tick = s.tick := by
  simp [State.modCtx]
@[simp] theorem State.modCtx_nextId (s : State) (c : Nat) (f : Ctx → Ctx) : (s.modCtx c f).nextId = s.nextId := by
  simp [State.modCtx]
@[simp] theorem State.modCtx_issue (s : State) (c : Nat) (f : Ctx → Ctx) : (s.modCtx c f).issue = s.issue := by
  simp [State.modCtx]
@[simp] theorem State.modCtx_agenda (s : State) (c : Nat) (f : Ctx → Ctx) : (s.modCtx c f).agenda = s.agenda := by
  simp [State.modCtx]
@[simp] theorem State.modCtx_evt (s : State) (c : Nat) (f : Ctx → Ctx) : (s.modCtx c f).evt = s.evt := by
  simp [State.modCtx]
@[simp] theorem State.modCtx_freeCount (s : State) (c : Nat) (f : Ctx → Ctx) : (s.modCtx c f).freeCount = s.freeCount := by
  simp [State.modCtx]

@[simp] theorem State.setCore_cid (s : State) (g : Nat) (x : Core) : (s.setCore g x).cid = s.cid := by
  unfold State.setCore; split <;> rfl
@[simp] theorem State.setCore_cx (s : State) (g : Nat) (x : Core) : (s.setCore g x).cx = s.cx := by
  unfold State.setCore; split <;> rfl
@[simp] theorem State.setCore_ctxs (s : State) (g : Nat) (x : Core) : (s.setCore g x).ctxs = s.ctxs := by
  unfold State.setCore; split <;> rfl
@[simp] theorem State.setCore_clusters (s : State) (g : Nat) (x : Core) : (s.setCore g x).clusters = s.clusters := by
  unfold State.setCore; split <;> rfl
@[simp] theorem State.setCore_dies (s : State) (g : Nat) (x : Core) : (s.setCore g x).dies = s.dies := by
  unfold State.setCore; split <;> rfl
@[simp] theorem State.setCore_mem (s : State) (g : Nat) (x : Core) : (s.setCore g x).mem = s.mem := by
  unfold State.setCore; split <;> rfl
@[simp] theorem State.setCore_regs (s : State) (g : Nat) (x : Core) : (s.setCore g x).regs = s.regs := by
  unfold State.setCore; split <;> rfl
@[simp] theorem State.setCore_prot (s : State) (g : Nat) (x : Core) : (s.setCore g x).prot = s.prot := by
  unfold State.setCore; split <;> rfl
@[simp] theorem State.setCore_fab (s : State) (g : Nat) (x : Core) : (s.setCore g x).fab = s.fab := by
  unfold State.setCore; split <;> rfl
@[simp] theorem State.setCore_pool (s : State) (g : Nat) (x : Core) : (s.setCore g x).pool = s.pool := by
  unfold State.setCore; split <;> rfl
@[simp] theorem State.setCore_pwr (s : State) (g : Nat) (x : Core) : (s.setCore g x).pwr = s.pwr := by
  unfold State.setCore; split <;> rfl
@[simp] theorem State.setCore_mgmt (s : State) (g : Nat) (x : Core) : (s.setCore g x).mgmt = s.mgmt := by
  unfold State.setCore; split <;> rfl
@[simp] theorem State.setCore_relayouts (s : State) (g : Nat) (x : Core) : (s.setCore g x).relayouts = s.relayouts := by
  unfold State.setCore; split <;> rfl
@[simp] theorem State.setCore_remotes (s : State) (g : Nat) (x : Core) : (s.setCore g x).remotes = s.remotes := by
  unfold State.setCore; split <;> rfl
@[simp] theorem State.setCore_outbox (s : State) (g : Nat) (x : Core) : (s.setCore g x).outbox = s.outbox := by
  unfold State.setCore; split <;> rfl
@[simp] theorem State.setCore_tick (s : State) (g : Nat) (x : Core) : (s.setCore g x).tick = s.tick := by
  unfold State.setCore; split <;> rfl
@[simp] theorem State.setCore_nextId (s : State) (g : Nat) (x : Core) : (s.setCore g x).nextId = s.nextId := by
  unfold State.setCore; split <;> rfl
@[simp] theorem State.setCore_issue (s : State) (g : Nat) (x : Core) : (s.setCore g x).issue = s.issue := by
  unfold State.setCore; split <;> rfl
@[simp] theorem State.setCore_agenda (s : State) (g : Nat) (x : Core) : (s.setCore g x).agenda = s.agenda := by
  unfold State.setCore; split <;> rfl
@[simp] theorem State.setCore_evt (s : State) (g : Nat) (x : Core) : (s.setCore g x).evt = s.evt := by
  unfold State.setCore; split <;> rfl
@[simp] theorem State.setCore_freeCount (s : State) (g : Nat) (x : Core) : (s.setCore g x).freeCount = s.freeCount := by
  unfold State.setCore; split <;> rfl

@[simp] theorem State.modCore_cid (s : State) (g : Nat) (f : Core → Core) : (s.modCore g f).cid = s.cid := by
  simp [State.modCore]
@[simp] theorem State.modCore_cx (s : State) (g : Nat) (f : Core → Core) : (s.modCore g f).cx = s.cx := by
  simp [State.modCore]
@[simp] theorem State.modCore_ctxs (s : State) (g : Nat) (f : Core → Core) : (s.modCore g f).ctxs = s.ctxs := by
  simp [State.modCore]
@[simp] theorem State.modCore_clusters (s : State) (g : Nat) (f : Core → Core) : (s.modCore g f).clusters = s.clusters := by
  simp [State.modCore]
@[simp] theorem State.modCore_dies (s : State) (g : Nat) (f : Core → Core) : (s.modCore g f).dies = s.dies := by
  simp [State.modCore]
@[simp] theorem State.modCore_mem (s : State) (g : Nat) (f : Core → Core) : (s.modCore g f).mem = s.mem := by
  simp [State.modCore]
@[simp] theorem State.modCore_regs (s : State) (g : Nat) (f : Core → Core) : (s.modCore g f).regs = s.regs := by
  simp [State.modCore]
@[simp] theorem State.modCore_prot (s : State) (g : Nat) (f : Core → Core) : (s.modCore g f).prot = s.prot := by
  simp [State.modCore]
@[simp] theorem State.modCore_fab (s : State) (g : Nat) (f : Core → Core) : (s.modCore g f).fab = s.fab := by
  simp [State.modCore]
@[simp] theorem State.modCore_pool (s : State) (g : Nat) (f : Core → Core) : (s.modCore g f).pool = s.pool := by
  simp [State.modCore]
@[simp] theorem State.modCore_pwr (s : State) (g : Nat) (f : Core → Core) : (s.modCore g f).pwr = s.pwr := by
  simp [State.modCore]
@[simp] theorem State.modCore_mgmt (s : State) (g : Nat) (f : Core → Core) : (s.modCore g f).mgmt = s.mgmt := by
  simp [State.modCore]
@[simp] theorem State.modCore_relayouts (s : State) (g : Nat) (f : Core → Core) : (s.modCore g f).relayouts = s.relayouts := by
  simp [State.modCore]
@[simp] theorem State.modCore_remotes (s : State) (g : Nat) (f : Core → Core) : (s.modCore g f).remotes = s.remotes := by
  simp [State.modCore]
@[simp] theorem State.modCore_outbox (s : State) (g : Nat) (f : Core → Core) : (s.modCore g f).outbox = s.outbox := by
  simp [State.modCore]
@[simp] theorem State.modCore_tick (s : State) (g : Nat) (f : Core → Core) : (s.modCore g f).tick = s.tick := by
  simp [State.modCore]
@[simp] theorem State.modCore_nextId (s : State) (g : Nat) (f : Core → Core) : (s.modCore g f).nextId = s.nextId := by
  simp [State.modCore]
@[simp] theorem State.modCore_issue (s : State) (g : Nat) (f : Core → Core) : (s.modCore g f).issue = s.issue := by
  simp [State.modCore]
@[simp] theorem State.modCore_agenda (s : State) (g : Nat) (f : Core → Core) : (s.modCore g f).agenda = s.agenda := by
  simp [State.modCore]
@[simp] theorem State.modCore_evt (s : State) (g : Nat) (f : Core → Core) : (s.modCore g f).evt = s.evt := by
  simp [State.modCore]
@[simp] theorem State.modCore_freeCount (s : State) (g : Nat) (f : Core → Core) : (s.modCore g f).freeCount = s.freeCount := by
  simp [State.modCore]

@[simp] theorem State.modMx_cid (s : State) (g : Nat) (f : Matrix → Matrix) : (s.modMx g f).cid = s.cid := by
  simp [State.modMx]
@[simp] theorem State.modMx_cx (s : State) (g : Nat) (f : Matrix → Matrix) : (s.modMx g f).cx = s.cx := by
  simp [State.modMx]
@[simp] theorem State.modMx_ctxs (s : State) (g : Nat) (f : Matrix → Matrix) : (s.modMx g f).ctxs = s.ctxs := by
  simp [State.modMx]
@[simp] theorem State.modMx_clusters (s : State) (g : Nat) (f : Matrix → Matrix) : (s.modMx g f).clusters = s.clusters := by
  simp [State.modMx]
@[simp] theorem State.modMx_dies (s : State) (g : Nat) (f : Matrix → Matrix) : (s.modMx g f).dies = s.dies := by
  simp [State.modMx]
@[simp] theorem State.modMx_mem (s : State) (g : Nat) (f : Matrix → Matrix) : (s.modMx g f).mem = s.mem := by
  simp [State.modMx]
@[simp] theorem State.modMx_regs (s : State) (g : Nat) (f : Matrix → Matrix) : (s.modMx g f).regs = s.regs := by
  simp [State.modMx]
@[simp] theorem State.modMx_prot (s : State) (g : Nat) (f : Matrix → Matrix) : (s.modMx g f).prot = s.prot := by
  simp [State.modMx]
@[simp] theorem State.modMx_fab (s : State) (g : Nat) (f : Matrix → Matrix) : (s.modMx g f).fab = s.fab := by
  simp [State.modMx]
@[simp] theorem State.modMx_pool (s : State) (g : Nat) (f : Matrix → Matrix) : (s.modMx g f).pool = s.pool := by
  simp [State.modMx]
@[simp] theorem State.modMx_pwr (s : State) (g : Nat) (f : Matrix → Matrix) : (s.modMx g f).pwr = s.pwr := by
  simp [State.modMx]
@[simp] theorem State.modMx_mgmt (s : State) (g : Nat) (f : Matrix → Matrix) : (s.modMx g f).mgmt = s.mgmt := by
  simp [State.modMx]
@[simp] theorem State.modMx_relayouts (s : State) (g : Nat) (f : Matrix → Matrix) : (s.modMx g f).relayouts = s.relayouts := by
  simp [State.modMx]
@[simp] theorem State.modMx_remotes (s : State) (g : Nat) (f : Matrix → Matrix) : (s.modMx g f).remotes = s.remotes := by
  simp [State.modMx]
@[simp] theorem State.modMx_outbox (s : State) (g : Nat) (f : Matrix → Matrix) : (s.modMx g f).outbox = s.outbox := by
  simp [State.modMx]
@[simp] theorem State.modMx_tick (s : State) (g : Nat) (f : Matrix → Matrix) : (s.modMx g f).tick = s.tick := by
  simp [State.modMx]
@[simp] theorem State.modMx_nextId (s : State) (g : Nat) (f : Matrix → Matrix) : (s.modMx g f).nextId = s.nextId := by
  simp [State.modMx]
@[simp] theorem State.modMx_issue (s : State) (g : Nat) (f : Matrix → Matrix) : (s.modMx g f).issue = s.issue := by
  simp [State.modMx]
@[simp] theorem State.modMx_agenda (s : State) (g : Nat) (f : Matrix → Matrix) : (s.modMx g f).agenda = s.agenda := by
  simp [State.modMx]
@[simp] theorem State.modMx_evt (s : State) (g : Nat) (f : Matrix → Matrix) : (s.modMx g f).evt = s.evt := by
  simp [State.modMx]
@[simp] theorem State.modMx_freeCount (s : State) (g : Nat) (f : Matrix → Matrix) : (s.modMx g f).freeCount = s.freeCount := by
  simp [State.modMx]

@[simp] theorem State.focus_clusters (s : State) (c : Nat) : (s.focus c).clusters = s.clusters := by
  unfold State.focus; split <;> rfl
@[simp] theorem State.focus_dies (s : State) (c : Nat) : (s.focus c).dies = s.dies := by
  unfold State.focus; split <;> rfl
@[simp] theorem State.focus_mem (s : State) (c : Nat) : (s.focus c).mem = s.mem := by
  unfold State.focus; split <;> rfl
@[simp] theorem State.focus_regs (s : State) (c : Nat) : (s.focus c).regs = s.regs := by
  unfold State.focus; split <;> rfl
@[simp] theorem State.focus_prot (s : State) (c : Nat) : (s.focus c).prot = s.prot := by
  unfold State.focus; split <;> rfl
@[simp] theorem State.focus_fab (s : State) (c : Nat) : (s.focus c).fab = s.fab := by
  unfold State.focus; split <;> rfl
@[simp] theorem State.focus_pool (s : State) (c : Nat) : (s.focus c).pool = s.pool := by
  unfold State.focus; split <;> rfl
@[simp] theorem State.focus_pwr (s : State) (c : Nat) : (s.focus c).pwr = s.pwr := by
  unfold State.focus; split <;> rfl
@[simp] theorem State.focus_mgmt (s : State) (c : Nat) : (s.focus c).mgmt = s.mgmt := by
  unfold State.focus; split <;> rfl
@[simp] theorem State.focus_relayouts (s : State) (c : Nat) : (s.focus c).relayouts = s.relayouts := by
  unfold State.focus; split <;> rfl
@[simp] theorem State.focus_remotes (s : State) (c : Nat) : (s.focus c).remotes = s.remotes := by
  unfold State.focus; split <;> rfl
@[simp] theorem State.focus_outbox (s : State) (c : Nat) : (s.focus c).outbox = s.outbox := by
  unfold State.focus; split <;> rfl
@[simp] theorem State.focus_tick (s : State) (c : Nat) : (s.focus c).tick = s.tick := by
  unfold State.focus; split <;> rfl
@[simp] theorem State.focus_nextId (s : State) (c : Nat) : (s.focus c).nextId = s.nextId := by
  unfold State.focus; split <;> rfl
@[simp] theorem State.focus_issue (s : State) (c : Nat) : (s.focus c).issue = s.issue := by
  unfold State.focus; split <;> rfl
@[simp] theorem State.focus_agenda (s : State) (c : Nat) : (s.focus c).agenda = s.agenda := by
  unfold State.focus; split <;> rfl
@[simp] theorem State.focus_evt (s : State) (c : Nat) : (s.focus c).evt = s.evt := by
  unfold State.focus; split <;> rfl
@[simp] theorem State.focus_freeCount (s : State) (c : Nat) : (s.focus c).freeCount = s.freeCount := by
  unfold State.focus; split <;> rfl

/-- The context made current is the current one. -/
@[simp] theorem State.focus_cid (s : State) (c : Nat) : (s.focus c).cid = c := by
  unfold State.focus; split
  · exact Eq.symm ‹_›
  · rfl

@[simp] theorem State.focus_self (s : State) : s.focus s.cid = s := by simp [State.focus]
@[simp] theorem State.ctx_cid (s : State) : s.ctx s.cid = s.cx := by simp [State.ctx]
@[simp] theorem State.setCtx_self (s : State) (x : Ctx) : s.setCtx s.cid x = { s with cx := x } := by simp [State.setCtx]
@[simp] theorem State.coreAt_gcore (s : State) : s.coreAt s.gcore = s.core := by simp [State.coreAt]
@[simp] theorem State.setCore_self (s : State) (x : Core) : s.setCore s.gcore x = { s with core := x } := by simp [State.setCore]

/-! ## Events, interrupts, writes that land -/

/-- An event signal changes the counters of its cluster and may wake a waiter. -/
theorem State.signal_eq (s : State) (n e : Nat) : ∃ (x0 : List (Nat × Cluster)) (x1 : List Event), s.signal n e = { s with clusters := x0, agenda := x1 } := by
  unfold State.signal; simp only; split <;> exact ⟨_, _, rfl⟩
@[simp] theorem State.signal_cid (s : State) (n e : Nat) : (s.signal n e).cid = s.cid := by
  obtain ⟨_, _, h⟩ := s.signal_eq n e; rw [h]
@[simp] theorem State.signal_cx (s : State) (n e : Nat) : (s.signal n e).cx = s.cx := by
  obtain ⟨_, _, h⟩ := s.signal_eq n e; rw [h]
@[simp] theorem State.signal_core (s : State) (n e : Nat) : (s.signal n e).core = s.core := by
  obtain ⟨_, _, h⟩ := s.signal_eq n e; rw [h]
@[simp] theorem State.signal_ctxs (s : State) (n e : Nat) : (s.signal n e).ctxs = s.ctxs := by
  obtain ⟨_, _, h⟩ := s.signal_eq n e; rw [h]
@[simp] theorem State.signal_cores (s : State) (n e : Nat) : (s.signal n e).cores = s.cores := by
  obtain ⟨_, _, h⟩ := s.signal_eq n e; rw [h]
@[simp] theorem State.signal_dies (s : State) (n e : Nat) : (s.signal n e).dies = s.dies := by
  obtain ⟨_, _, h⟩ := s.signal_eq n e; rw [h]
@[simp] theorem State.signal_mem (s : State) (n e : Nat) : (s.signal n e).mem = s.mem := by
  obtain ⟨_, _, h⟩ := s.signal_eq n e; rw [h]
@[simp] theorem State.signal_regs (s : State) (n e : Nat) : (s.signal n e).regs = s.regs := by
  obtain ⟨_, _, h⟩ := s.signal_eq n e; rw [h]
@[simp] theorem State.signal_prot (s : State) (n e : Nat) : (s.signal n e).prot = s.prot := by
  obtain ⟨_, _, h⟩ := s.signal_eq n e; rw [h]
@[simp] theorem State.signal_fab (s : State) (n e : Nat) : (s.signal n e).fab = s.fab := by
  obtain ⟨_, _, h⟩ := s.signal_eq n e; rw [h]
@[simp] theorem State.signal_pool (s : State) (n e : Nat) : (s.signal n e).pool = s.pool := by
  obtain ⟨_, _, h⟩ := s.signal_eq n e; rw [h]
@[simp] theorem State.signal_pwr (s : State) (n e : Nat) : (s.signal n e).pwr = s.pwr := by
  obtain ⟨_, _, h⟩ := s.signal_eq n e; rw [h]
@[simp] theorem State.signal_mgmt (s : State) (n e : Nat) : (s.signal n e).mgmt = s.mgmt := by
  obtain ⟨_, _, h⟩ := s.signal_eq n e; rw [h]
@[simp] theorem State.signal_relayouts (s : State) (n e : Nat) : (s.signal n e).relayouts = s.relayouts := by
  obtain ⟨_, _, h⟩ := s.signal_eq n e; rw [h]
@[simp] theorem State.signal_remotes (s : State) (n e : Nat) : (s.signal n e).remotes = s.remotes := by
  obtain ⟨_, _, h⟩ := s.signal_eq n e; rw [h]
@[simp] theorem State.signal_outbox (s : State) (n e : Nat) : (s.signal n e).outbox = s.outbox := by
  obtain ⟨_, _, h⟩ := s.signal_eq n e; rw [h]
@[simp] theorem State.signal_tick (s : State) (n e : Nat) : (s.signal n e).tick = s.tick := by
  obtain ⟨_, _, h⟩ := s.signal_eq n e; rw [h]
@[simp] theorem State.signal_nextId (s : State) (n e : Nat) : (s.signal n e).nextId = s.nextId := by
  obtain ⟨_, _, h⟩ := s.signal_eq n e; rw [h]
@[simp] theorem State.signal_issue (s : State) (n e : Nat) : (s.signal n e).issue = s.issue := by
  obtain ⟨_, _, h⟩ := s.signal_eq n e; rw [h]
@[simp] theorem State.signal_evt (s : State) (n e : Nat) : (s.signal n e).evt = s.evt := by
  obtain ⟨_, _, h⟩ := s.signal_eq n e; rw [h]
@[simp] theorem State.signal_freeCount (s : State) (n e : Nat) : (s.signal n e).freeCount = s.freeCount := by
  obtain ⟨_, _, h⟩ := s.signal_eq n e; rw [h]

/-- An interrupt changes INTSTAT, and may signal an event and send a message to the host. -/
theorem State.interrupt_eq (s : State) (k : Nat) : ∃ (x0 : Manage) (x1 : List (Nat × Cluster)) (x2 : List Event) (x3 : List OutMsg), s.interrupt k = { s with mgmt := x0, clusters := x1, agenda := x2, outbox := x3 } := by
  unfold State.interrupt
  split
  · exact ⟨_, _, _, _, rfl⟩
  · simp only
    split
    · obtain ⟨c, a, h⟩ := State.signal_eq { s with mgmt := { s.mgmt with intstat := setFlag s.mgmt.intstat k true } }
        (field s.mgmt.intctl 16 6) 63
      rw [h]
      split <;> exact ⟨_, _, _, _, rfl⟩
    · split <;> exact ⟨_, _, _, _, rfl⟩
@[simp] theorem State.interrupt_cid (s : State) (k : Nat) : (s.interrupt k).cid = s.cid := by
  obtain ⟨_, _, _, _, h⟩ := s.interrupt_eq k; rw [h]
@[simp] theorem State.interrupt_cx (s : State) (k : Nat) : (s.interrupt k).cx = s.cx := by
  obtain ⟨_, _, _, _, h⟩ := s.interrupt_eq k; rw [h]
@[simp] theorem State.interrupt_core (s : State) (k : Nat) : (s.interrupt k).core = s.core := by
  obtain ⟨_, _, _, _, h⟩ := s.interrupt_eq k; rw [h]
@[simp] theorem State.interrupt_ctxs (s : State) (k : Nat) : (s.interrupt k).ctxs = s.ctxs := by
  obtain ⟨_, _, _, _, h⟩ := s.interrupt_eq k; rw [h]
@[simp] theorem State.interrupt_cores (s : State) (k : Nat) : (s.interrupt k).cores = s.cores := by
  obtain ⟨_, _, _, _, h⟩ := s.interrupt_eq k; rw [h]
@[simp] theorem State.interrupt_dies (s : State) (k : Nat) : (s.interrupt k).dies = s.dies := by
  obtain ⟨_, _, _, _, h⟩ := s.interrupt_eq k; rw [h]
@[simp] theorem State.interrupt_mem (s : State) (k : Nat) : (s.interrupt k).mem = s.mem := by
  obtain ⟨_, _, _, _, h⟩ := s.interrupt_eq k; rw [h]
@[simp] theorem State.interrupt_regs (s : State) (k : Nat) : (s.interrupt k).regs = s.regs := by
  obtain ⟨_, _, _, _, h⟩ := s.interrupt_eq k; rw [h]
@[simp] theorem State.interrupt_prot (s : State) (k : Nat) : (s.interrupt k).prot = s.prot := by
  obtain ⟨_, _, _, _, h⟩ := s.interrupt_eq k; rw [h]
@[simp] theorem State.interrupt_fab (s : State) (k : Nat) : (s.interrupt k).fab = s.fab := by
  obtain ⟨_, _, _, _, h⟩ := s.interrupt_eq k; rw [h]
@[simp] theorem State.interrupt_pool (s : State) (k : Nat) : (s.interrupt k).pool = s.pool := by
  obtain ⟨_, _, _, _, h⟩ := s.interrupt_eq k; rw [h]
@[simp] theorem State.interrupt_pwr (s : State) (k : Nat) : (s.interrupt k).pwr = s.pwr := by
  obtain ⟨_, _, _, _, h⟩ := s.interrupt_eq k; rw [h]
@[simp] theorem State.interrupt_relayouts (s : State) (k : Nat) : (s.interrupt k).relayouts = s.relayouts := by
  obtain ⟨_, _, _, _, h⟩ := s.interrupt_eq k; rw [h]
@[simp] theorem State.interrupt_remotes (s : State) (k : Nat) : (s.interrupt k).remotes = s.remotes := by
  obtain ⟨_, _, _, _, h⟩ := s.interrupt_eq k; rw [h]
@[simp] theorem State.interrupt_tick (s : State) (k : Nat) : (s.interrupt k).tick = s.tick := by
  obtain ⟨_, _, _, _, h⟩ := s.interrupt_eq k; rw [h]
@[simp] theorem State.interrupt_nextId (s : State) (k : Nat) : (s.interrupt k).nextId = s.nextId := by
  obtain ⟨_, _, _, _, h⟩ := s.interrupt_eq k; rw [h]
@[simp] theorem State.interrupt_issue (s : State) (k : Nat) : (s.interrupt k).issue = s.issue := by
  obtain ⟨_, _, _, _, h⟩ := s.interrupt_eq k; rw [h]
@[simp] theorem State.interrupt_evt (s : State) (k : Nat) : (s.interrupt k).evt = s.evt := by
  obtain ⟨_, _, _, _, h⟩ := s.interrupt_eq k; rw [h]
@[simp] theorem State.interrupt_freeCount (s : State) (k : Nat) : (s.interrupt k).freeCount = s.freeCount := by
  obtain ⟨_, _, _, _, h⟩ := s.interrupt_eq k; rw [h]

/-- A write of a system register changes the context, its core or its cluster. -/
theorem State.writeSys_eq (s : State) (n : SysReg) (v : Word) : ∃ (x0 : Ctx) (x1 : Core) (x2 : List (Nat × Cluster)), s.writeSys n v = { s with cx := x0, core := x1, clusters := x2 } := by
  cases n <;> first
    | exact ⟨_, _, _, rfl⟩
    | (simp only [State.writeSys]; split <;> exact ⟨_, _, _, rfl⟩)
@[simp] theorem State.writeSys_cid (s : State) (n : SysReg) (v : Word) : (s.writeSys n v).cid = s.cid := by
  obtain ⟨_, _, _, h⟩ := s.writeSys_eq n v; rw [h]
@[simp] theorem State.writeSys_ctxs (s : State) (n : SysReg) (v : Word) : (s.writeSys n v).ctxs = s.ctxs := by
  obtain ⟨_, _, _, h⟩ := s.writeSys_eq n v; rw [h]
@[simp] theorem State.writeSys_cores (s : State) (n : SysReg) (v : Word) : (s.writeSys n v).cores = s.cores := by
  obtain ⟨_, _, _, h⟩ := s.writeSys_eq n v; rw [h]
@[simp] theorem State.writeSys_dies (s : State) (n : SysReg) (v : Word) : (s.writeSys n v).dies = s.dies := by
  obtain ⟨_, _, _, h⟩ := s.writeSys_eq n v; rw [h]
@[simp] theorem State.writeSys_mem (s : State) (n : SysReg) (v : Word) : (s.writeSys n v).mem = s.mem := by
  obtain ⟨_, _, _, h⟩ := s.writeSys_eq n v; rw [h]
@[simp] theorem State.writeSys_regs (s : State) (n : SysReg) (v : Word) : (s.writeSys n v).regs = s.regs := by
  obtain ⟨_, _, _, h⟩ := s.writeSys_eq n v; rw [h]
@[simp] theorem State.writeSys_prot (s : State) (n : SysReg) (v : Word) : (s.writeSys n v).prot = s.prot := by
  obtain ⟨_, _, _, h⟩ := s.writeSys_eq n v; rw [h]
@[simp] theorem State.writeSys_fab (s : State) (n : SysReg) (v : Word) : (s.writeSys n v).fab = s.fab := by
  obtain ⟨_, _, _, h⟩ := s.writeSys_eq n v; rw [h]
@[simp] theorem State.writeSys_pool (s : State) (n : SysReg) (v : Word) : (s.writeSys n v).pool = s.pool := by
  obtain ⟨_, _, _, h⟩ := s.writeSys_eq n v; rw [h]
@[simp] theorem State.writeSys_pwr (s : State) (n : SysReg) (v : Word) : (s.writeSys n v).pwr = s.pwr := by
  obtain ⟨_, _, _, h⟩ := s.writeSys_eq n v; rw [h]
@[simp] theorem State.writeSys_mgmt (s : State) (n : SysReg) (v : Word) : (s.writeSys n v).mgmt = s.mgmt := by
  obtain ⟨_, _, _, h⟩ := s.writeSys_eq n v; rw [h]
@[simp] theorem State.writeSys_relayouts (s : State) (n : SysReg) (v : Word) : (s.writeSys n v).relayouts = s.relayouts := by
  obtain ⟨_, _, _, h⟩ := s.writeSys_eq n v; rw [h]
@[simp] theorem State.writeSys_remotes (s : State) (n : SysReg) (v : Word) : (s.writeSys n v).remotes = s.remotes := by
  obtain ⟨_, _, _, h⟩ := s.writeSys_eq n v; rw [h]
@[simp] theorem State.writeSys_outbox (s : State) (n : SysReg) (v : Word) : (s.writeSys n v).outbox = s.outbox := by
  obtain ⟨_, _, _, h⟩ := s.writeSys_eq n v; rw [h]
@[simp] theorem State.writeSys_tick (s : State) (n : SysReg) (v : Word) : (s.writeSys n v).tick = s.tick := by
  obtain ⟨_, _, _, h⟩ := s.writeSys_eq n v; rw [h]
@[simp] theorem State.writeSys_nextId (s : State) (n : SysReg) (v : Word) : (s.writeSys n v).nextId = s.nextId := by
  obtain ⟨_, _, _, h⟩ := s.writeSys_eq n v; rw [h]
@[simp] theorem State.writeSys_issue (s : State) (n : SysReg) (v : Word) : (s.writeSys n v).issue = s.issue := by
  obtain ⟨_, _, _, h⟩ := s.writeSys_eq n v; rw [h]
@[simp] theorem State.writeSys_agenda (s : State) (n : SysReg) (v : Word) : (s.writeSys n v).agenda = s.agenda := by
  obtain ⟨_, _, _, h⟩ := s.writeSys_eq n v; rw [h]
@[simp] theorem State.writeSys_evt (s : State) (n : SysReg) (v : Word) : (s.writeSys n v).evt = s.evt := by
  obtain ⟨_, _, _, h⟩ := s.writeSys_eq n v; rw [h]
@[simp] theorem State.writeSys_freeCount (s : State) (n : SysReg) (v : Word) : (s.writeSys n v).freeCount = s.freeCount := by
  obtain ⟨_, _, _, h⟩ := s.writeSys_eq n v; rw [h]

/-- A write that lands changes the context, its core or its cluster. -/
theorem State.landOne_eq (s : State) (f : Flight) : ∃ (x0 : Ctx) (x1 : Core) (x2 : List (Nat × Cluster)), s.landOne f = { s with cx := x0, core := x1, clusters := x2 } := by
  unfold State.landOne
  repeat' split
  all_goals first
    | exact ⟨_, _, _, rfl⟩
    | exact State.writeSys_eq s _ _
@[simp] theorem State.landOne_cid (s : State) (f : Flight) : (s.landOne f).cid = s.cid := by
  obtain ⟨_, _, _, h⟩ := s.landOne_eq f; rw [h]
@[simp] theorem State.landOne_ctxs (s : State) (f : Flight) : (s.landOne f).ctxs = s.ctxs := by
  obtain ⟨_, _, _, h⟩ := s.landOne_eq f; rw [h]
@[simp] theorem State.landOne_cores (s : State) (f : Flight) : (s.landOne f).cores = s.cores := by
  obtain ⟨_, _, _, h⟩ := s.landOne_eq f; rw [h]
@[simp] theorem State.landOne_dies (s : State) (f : Flight) : (s.landOne f).dies = s.dies := by
  obtain ⟨_, _, _, h⟩ := s.landOne_eq f; rw [h]
@[simp] theorem State.landOne_mem (s : State) (f : Flight) : (s.landOne f).mem = s.mem := by
  obtain ⟨_, _, _, h⟩ := s.landOne_eq f; rw [h]
@[simp] theorem State.landOne_regs (s : State) (f : Flight) : (s.landOne f).regs = s.regs := by
  obtain ⟨_, _, _, h⟩ := s.landOne_eq f; rw [h]
@[simp] theorem State.landOne_prot (s : State) (f : Flight) : (s.landOne f).prot = s.prot := by
  obtain ⟨_, _, _, h⟩ := s.landOne_eq f; rw [h]
@[simp] theorem State.landOne_fab (s : State) (f : Flight) : (s.landOne f).fab = s.fab := by
  obtain ⟨_, _, _, h⟩ := s.landOne_eq f; rw [h]
@[simp] theorem State.landOne_pool (s : State) (f : Flight) : (s.landOne f).pool = s.pool := by
  obtain ⟨_, _, _, h⟩ := s.landOne_eq f; rw [h]
@[simp] theorem State.landOne_pwr (s : State) (f : Flight) : (s.landOne f).pwr = s.pwr := by
  obtain ⟨_, _, _, h⟩ := s.landOne_eq f; rw [h]
@[simp] theorem State.landOne_mgmt (s : State) (f : Flight) : (s.landOne f).mgmt = s.mgmt := by
  obtain ⟨_, _, _, h⟩ := s.landOne_eq f; rw [h]
@[simp] theorem State.landOne_relayouts (s : State) (f : Flight) : (s.landOne f).relayouts = s.relayouts := by
  obtain ⟨_, _, _, h⟩ := s.landOne_eq f; rw [h]
@[simp] theorem State.landOne_remotes (s : State) (f : Flight) : (s.landOne f).remotes = s.remotes := by
  obtain ⟨_, _, _, h⟩ := s.landOne_eq f; rw [h]
@[simp] theorem State.landOne_outbox (s : State) (f : Flight) : (s.landOne f).outbox = s.outbox := by
  obtain ⟨_, _, _, h⟩ := s.landOne_eq f; rw [h]
@[simp] theorem State.landOne_tick (s : State) (f : Flight) : (s.landOne f).tick = s.tick := by
  obtain ⟨_, _, _, h⟩ := s.landOne_eq f; rw [h]
@[simp] theorem State.landOne_nextId (s : State) (f : Flight) : (s.landOne f).nextId = s.nextId := by
  obtain ⟨_, _, _, h⟩ := s.landOne_eq f; rw [h]
@[simp] theorem State.landOne_issue (s : State) (f : Flight) : (s.landOne f).issue = s.issue := by
  obtain ⟨_, _, _, h⟩ := s.landOne_eq f; rw [h]
@[simp] theorem State.landOne_agenda (s : State) (f : Flight) : (s.landOne f).agenda = s.agenda := by
  obtain ⟨_, _, _, h⟩ := s.landOne_eq f; rw [h]
@[simp] theorem State.landOne_evt (s : State) (f : Flight) : (s.landOne f).evt = s.evt := by
  obtain ⟨_, _, _, h⟩ := s.landOne_eq f; rw [h]
@[simp] theorem State.landOne_freeCount (s : State) (f : Flight) : (s.landOne f).freeCount = s.freeCount := by
  obtain ⟨_, _, _, h⟩ := s.landOne_eq f; rw [h]

/-- Writes that land change the context, its core or its cluster. -/
theorem State.settle_eq (s : State) (c : Nat) : ∃ (x0 : Ctx) (x1 : Core) (x2 : List (Nat × Cluster)), s.settle c = { s with cx := x0, core := x1, clusters := x2 } := by
  have key : ∀ (fs : List Flight) (s : State),
      ∃ (x : Ctx) (k : Core) (l : List (Nat × Cluster)), fs.foldl State.landOne s = { s with cx := x, core := k, clusters := l } := by
    intro fs
    induction fs with
    | nil => exact fun s => ⟨_, _, _, rfl⟩
    | cons g fs ih =>
      intro s
      obtain ⟨x, k, l, h⟩ := State.landOne_eq s g
      obtain ⟨x', k', l', h'⟩ := ih (s.landOne g)
      exact ⟨x', k', l', by rw [List.foldl_cons, h', h]⟩
  obtain ⟨x, k, l, h⟩ := key (landing c s.cx.inflight) s
  exact ⟨_, _, _, by simp only [State.settle, h]; rfl⟩
@[simp] theorem State.settle_cid (s : State) (c : Nat) : (s.settle c).cid = s.cid := by
  obtain ⟨_, _, _, h⟩ := s.settle_eq c; rw [h]
@[simp] theorem State.settle_ctxs (s : State) (c : Nat) : (s.settle c).ctxs = s.ctxs := by
  obtain ⟨_, _, _, h⟩ := s.settle_eq c; rw [h]
@[simp] theorem State.settle_cores (s : State) (c : Nat) : (s.settle c).cores = s.cores := by
  obtain ⟨_, _, _, h⟩ := s.settle_eq c; rw [h]
@[simp] theorem State.settle_dies (s : State) (c : Nat) : (s.settle c).dies = s.dies := by
  obtain ⟨_, _, _, h⟩ := s.settle_eq c; rw [h]
@[simp] theorem State.settle_mem (s : State) (c : Nat) : (s.settle c).mem = s.mem := by
  obtain ⟨_, _, _, h⟩ := s.settle_eq c; rw [h]
@[simp] theorem State.settle_regs (s : State) (c : Nat) : (s.settle c).regs = s.regs := by
  obtain ⟨_, _, _, h⟩ := s.settle_eq c; rw [h]
@[simp] theorem State.settle_prot (s : State) (c : Nat) : (s.settle c).prot = s.prot := by
  obtain ⟨_, _, _, h⟩ := s.settle_eq c; rw [h]
@[simp] theorem State.settle_fab (s : State) (c : Nat) : (s.settle c).fab = s.fab := by
  obtain ⟨_, _, _, h⟩ := s.settle_eq c; rw [h]
@[simp] theorem State.settle_pool (s : State) (c : Nat) : (s.settle c).pool = s.pool := by
  obtain ⟨_, _, _, h⟩ := s.settle_eq c; rw [h]
@[simp] theorem State.settle_pwr (s : State) (c : Nat) : (s.settle c).pwr = s.pwr := by
  obtain ⟨_, _, _, h⟩ := s.settle_eq c; rw [h]
@[simp] theorem State.settle_mgmt (s : State) (c : Nat) : (s.settle c).mgmt = s.mgmt := by
  obtain ⟨_, _, _, h⟩ := s.settle_eq c; rw [h]
@[simp] theorem State.settle_relayouts (s : State) (c : Nat) : (s.settle c).relayouts = s.relayouts := by
  obtain ⟨_, _, _, h⟩ := s.settle_eq c; rw [h]
@[simp] theorem State.settle_remotes (s : State) (c : Nat) : (s.settle c).remotes = s.remotes := by
  obtain ⟨_, _, _, h⟩ := s.settle_eq c; rw [h]
@[simp] theorem State.settle_outbox (s : State) (c : Nat) : (s.settle c).outbox = s.outbox := by
  obtain ⟨_, _, _, h⟩ := s.settle_eq c; rw [h]
@[simp] theorem State.settle_tick (s : State) (c : Nat) : (s.settle c).tick = s.tick := by
  obtain ⟨_, _, _, h⟩ := s.settle_eq c; rw [h]
@[simp] theorem State.settle_nextId (s : State) (c : Nat) : (s.settle c).nextId = s.nextId := by
  obtain ⟨_, _, _, h⟩ := s.settle_eq c; rw [h]
@[simp] theorem State.settle_issue (s : State) (c : Nat) : (s.settle c).issue = s.issue := by
  obtain ⟨_, _, _, h⟩ := s.settle_eq c; rw [h]
@[simp] theorem State.settle_agenda (s : State) (c : Nat) : (s.settle c).agenda = s.agenda := by
  obtain ⟨_, _, _, h⟩ := s.settle_eq c; rw [h]
@[simp] theorem State.settle_evt (s : State) (c : Nat) : (s.settle c).evt = s.evt := by
  obtain ⟨_, _, _, h⟩ := s.settle_eq c; rw [h]
@[simp] theorem State.settle_freeCount (s : State) (c : Nat) : (s.settle c).freeCount = s.freeCount := by
  obtain ⟨_, _, _, h⟩ := s.settle_eq c; rw [h]

/-- Landing every write changes the context, its core or its cluster. -/
theorem State.landAll_eq (s : State) : ∃ (x0 : Ctx) (x1 : Core) (x2 : List (Nat × Cluster)), s.landAll = { s with cx := x0, core := x1, clusters := x2 } := by
  obtain ⟨x, k, l, h⟩ := State.settle_eq
    { s with cx := { s.cx with inflight := s.cx.inflight ++ s.cx.fresh, fresh := [] } }
    (lastLanding (s.cx.inflight ++ s.cx.fresh))
  exact ⟨_, _, _, by simp only [State.landAll, h]; rfl⟩
@[simp] theorem State.landAll_cid (s : State) : (s.landAll).cid = s.cid := by
  obtain ⟨_, _, _, h⟩ := s.landAll_eq; rw [h]
@[simp] theorem State.landAll_ctxs (s : State) : (s.landAll).ctxs = s.ctxs := by
  obtain ⟨_, _, _, h⟩ := s.landAll_eq; rw [h]
@[simp] theorem State.landAll_cores (s : State) : (s.landAll).cores = s.cores := by
  obtain ⟨_, _, _, h⟩ := s.landAll_eq; rw [h]
@[simp] theorem State.landAll_dies (s : State) : (s.landAll).dies = s.dies := by
  obtain ⟨_, _, _, h⟩ := s.landAll_eq; rw [h]
@[simp] theorem State.landAll_mem (s : State) : (s.landAll).mem = s.mem := by
  obtain ⟨_, _, _, h⟩ := s.landAll_eq; rw [h]
@[simp] theorem State.landAll_regs (s : State) : (s.landAll).regs = s.regs := by
  obtain ⟨_, _, _, h⟩ := s.landAll_eq; rw [h]
@[simp] theorem State.landAll_prot (s : State) : (s.landAll).prot = s.prot := by
  obtain ⟨_, _, _, h⟩ := s.landAll_eq; rw [h]
@[simp] theorem State.landAll_fab (s : State) : (s.landAll).fab = s.fab := by
  obtain ⟨_, _, _, h⟩ := s.landAll_eq; rw [h]
@[simp] theorem State.landAll_pool (s : State) : (s.landAll).pool = s.pool := by
  obtain ⟨_, _, _, h⟩ := s.landAll_eq; rw [h]
@[simp] theorem State.landAll_pwr (s : State) : (s.landAll).pwr = s.pwr := by
  obtain ⟨_, _, _, h⟩ := s.landAll_eq; rw [h]
@[simp] theorem State.landAll_mgmt (s : State) : (s.landAll).mgmt = s.mgmt := by
  obtain ⟨_, _, _, h⟩ := s.landAll_eq; rw [h]
@[simp] theorem State.landAll_relayouts (s : State) : (s.landAll).relayouts = s.relayouts := by
  obtain ⟨_, _, _, h⟩ := s.landAll_eq; rw [h]
@[simp] theorem State.landAll_remotes (s : State) : (s.landAll).remotes = s.remotes := by
  obtain ⟨_, _, _, h⟩ := s.landAll_eq; rw [h]
@[simp] theorem State.landAll_outbox (s : State) : (s.landAll).outbox = s.outbox := by
  obtain ⟨_, _, _, h⟩ := s.landAll_eq; rw [h]
@[simp] theorem State.landAll_tick (s : State) : (s.landAll).tick = s.tick := by
  obtain ⟨_, _, _, h⟩ := s.landAll_eq; rw [h]
@[simp] theorem State.landAll_nextId (s : State) : (s.landAll).nextId = s.nextId := by
  obtain ⟨_, _, _, h⟩ := s.landAll_eq; rw [h]
@[simp] theorem State.landAll_issue (s : State) : (s.landAll).issue = s.issue := by
  obtain ⟨_, _, _, h⟩ := s.landAll_eq; rw [h]
@[simp] theorem State.landAll_agenda (s : State) : (s.landAll).agenda = s.agenda := by
  obtain ⟨_, _, _, h⟩ := s.landAll_eq; rw [h]
@[simp] theorem State.landAll_evt (s : State) : (s.landAll).evt = s.evt := by
  obtain ⟨_, _, _, h⟩ := s.landAll_eq; rw [h]
@[simp] theorem State.landAll_freeCount (s : State) : (s.landAll).freeCount = s.freeCount := by
  obtain ⟨_, _, _, h⟩ := s.landAll_eq; rw [h]

/-- Landing the writes of earlier bundles changes the context, its core or its cluster. -/
theorem State.landOld_eq (s : State) : ∃ (x0 : Ctx) (x1 : Core) (x2 : List (Nat × Cluster)), s.landOld = { s with cx := x0, core := x1, clusters := x2 } := by
  exact State.settle_eq s _
@[simp] theorem State.landOld_cid (s : State) : (s.landOld).cid = s.cid := by
  obtain ⟨_, _, _, h⟩ := s.landOld_eq; rw [h]
@[simp] theorem State.landOld_ctxs (s : State) : (s.landOld).ctxs = s.ctxs := by
  obtain ⟨_, _, _, h⟩ := s.landOld_eq; rw [h]
@[simp] theorem State.landOld_cores (s : State) : (s.landOld).cores = s.cores := by
  obtain ⟨_, _, _, h⟩ := s.landOld_eq; rw [h]
@[simp] theorem State.landOld_dies (s : State) : (s.landOld).dies = s.dies := by
  obtain ⟨_, _, _, h⟩ := s.landOld_eq; rw [h]
@[simp] theorem State.landOld_mem (s : State) : (s.landOld).mem = s.mem := by
  obtain ⟨_, _, _, h⟩ := s.landOld_eq; rw [h]
@[simp] theorem State.landOld_regs (s : State) : (s.landOld).regs = s.regs := by
  obtain ⟨_, _, _, h⟩ := s.landOld_eq; rw [h]
@[simp] theorem State.landOld_prot (s : State) : (s.landOld).prot = s.prot := by
  obtain ⟨_, _, _, h⟩ := s.landOld_eq; rw [h]
@[simp] theorem State.landOld_fab (s : State) : (s.landOld).fab = s.fab := by
  obtain ⟨_, _, _, h⟩ := s.landOld_eq; rw [h]
@[simp] theorem State.landOld_pool (s : State) : (s.landOld).pool = s.pool := by
  obtain ⟨_, _, _, h⟩ := s.landOld_eq; rw [h]
@[simp] theorem State.landOld_pwr (s : State) : (s.landOld).pwr = s.pwr := by
  obtain ⟨_, _, _, h⟩ := s.landOld_eq; rw [h]
@[simp] theorem State.landOld_mgmt (s : State) : (s.landOld).mgmt = s.mgmt := by
  obtain ⟨_, _, _, h⟩ := s.landOld_eq; rw [h]
@[simp] theorem State.landOld_relayouts (s : State) : (s.landOld).relayouts = s.relayouts := by
  obtain ⟨_, _, _, h⟩ := s.landOld_eq; rw [h]
@[simp] theorem State.landOld_remotes (s : State) : (s.landOld).remotes = s.remotes := by
  obtain ⟨_, _, _, h⟩ := s.landOld_eq; rw [h]
@[simp] theorem State.landOld_outbox (s : State) : (s.landOld).outbox = s.outbox := by
  obtain ⟨_, _, _, h⟩ := s.landOld_eq; rw [h]
@[simp] theorem State.landOld_tick (s : State) : (s.landOld).tick = s.tick := by
  obtain ⟨_, _, _, h⟩ := s.landOld_eq; rw [h]
@[simp] theorem State.landOld_nextId (s : State) : (s.landOld).nextId = s.nextId := by
  obtain ⟨_, _, _, h⟩ := s.landOld_eq; rw [h]
@[simp] theorem State.landOld_issue (s : State) : (s.landOld).issue = s.issue := by
  obtain ⟨_, _, _, h⟩ := s.landOld_eq; rw [h]
@[simp] theorem State.landOld_agenda (s : State) : (s.landOld).agenda = s.agenda := by
  obtain ⟨_, _, _, h⟩ := s.landOld_eq; rw [h]
@[simp] theorem State.landOld_evt (s : State) : (s.landOld).evt = s.evt := by
  obtain ⟨_, _, _, h⟩ := s.landOld_eq; rw [h]
@[simp] theorem State.landOld_freeCount (s : State) : (s.landOld).freeCount = s.freeCount := by
  obtain ⟨_, _, _, h⟩ := s.landOld_eq; rw [h]

/-- Parking changes the context, its core or its cluster. -/
theorem State.parkOn_eq (s : State) (w : Wait) : ∃ (x0 : Ctx) (x1 : Core) (x2 : List (Nat × Cluster)), s.parkOn w = { s with cx := x0, core := x1, clusters := x2 } := by
  obtain ⟨x, k, l, h⟩ := s.landOld_eq
  exact ⟨_, _, _, by simp only [State.parkOn, h]; rfl⟩
@[simp] theorem State.parkOn_cid (s : State) (w : Wait) : (s.parkOn w).cid = s.cid := by
  obtain ⟨_, _, _, h⟩ := s.parkOn_eq w; rw [h]
@[simp] theorem State.parkOn_ctxs (s : State) (w : Wait) : (s.parkOn w).ctxs = s.ctxs := by
  obtain ⟨_, _, _, h⟩ := s.parkOn_eq w; rw [h]
@[simp] theorem State.parkOn_cores (s : State) (w : Wait) : (s.parkOn w).cores = s.cores := by
  obtain ⟨_, _, _, h⟩ := s.parkOn_eq w; rw [h]
@[simp] theorem State.parkOn_dies (s : State) (w : Wait) : (s.parkOn w).dies = s.dies := by
  obtain ⟨_, _, _, h⟩ := s.parkOn_eq w; rw [h]
@[simp] theorem State.parkOn_mem (s : State) (w : Wait) : (s.parkOn w).mem = s.mem := by
  obtain ⟨_, _, _, h⟩ := s.parkOn_eq w; rw [h]
@[simp] theorem State.parkOn_regs (s : State) (w : Wait) : (s.parkOn w).regs = s.regs := by
  obtain ⟨_, _, _, h⟩ := s.parkOn_eq w; rw [h]
@[simp] theorem State.parkOn_prot (s : State) (w : Wait) : (s.parkOn w).prot = s.prot := by
  obtain ⟨_, _, _, h⟩ := s.parkOn_eq w; rw [h]
@[simp] theorem State.parkOn_fab (s : State) (w : Wait) : (s.parkOn w).fab = s.fab := by
  obtain ⟨_, _, _, h⟩ := s.parkOn_eq w; rw [h]
@[simp] theorem State.parkOn_pool (s : State) (w : Wait) : (s.parkOn w).pool = s.pool := by
  obtain ⟨_, _, _, h⟩ := s.parkOn_eq w; rw [h]
@[simp] theorem State.parkOn_pwr (s : State) (w : Wait) : (s.parkOn w).pwr = s.pwr := by
  obtain ⟨_, _, _, h⟩ := s.parkOn_eq w; rw [h]
@[simp] theorem State.parkOn_mgmt (s : State) (w : Wait) : (s.parkOn w).mgmt = s.mgmt := by
  obtain ⟨_, _, _, h⟩ := s.parkOn_eq w; rw [h]
@[simp] theorem State.parkOn_relayouts (s : State) (w : Wait) : (s.parkOn w).relayouts = s.relayouts := by
  obtain ⟨_, _, _, h⟩ := s.parkOn_eq w; rw [h]
@[simp] theorem State.parkOn_remotes (s : State) (w : Wait) : (s.parkOn w).remotes = s.remotes := by
  obtain ⟨_, _, _, h⟩ := s.parkOn_eq w; rw [h]
@[simp] theorem State.parkOn_outbox (s : State) (w : Wait) : (s.parkOn w).outbox = s.outbox := by
  obtain ⟨_, _, _, h⟩ := s.parkOn_eq w; rw [h]
@[simp] theorem State.parkOn_tick (s : State) (w : Wait) : (s.parkOn w).tick = s.tick := by
  obtain ⟨_, _, _, h⟩ := s.parkOn_eq w; rw [h]
@[simp] theorem State.parkOn_nextId (s : State) (w : Wait) : (s.parkOn w).nextId = s.nextId := by
  obtain ⟨_, _, _, h⟩ := s.parkOn_eq w; rw [h]
@[simp] theorem State.parkOn_issue (s : State) (w : Wait) : (s.parkOn w).issue = s.issue := by
  obtain ⟨_, _, _, h⟩ := s.parkOn_eq w; rw [h]
@[simp] theorem State.parkOn_agenda (s : State) (w : Wait) : (s.parkOn w).agenda = s.agenda := by
  obtain ⟨_, _, _, h⟩ := s.parkOn_eq w; rw [h]
@[simp] theorem State.parkOn_evt (s : State) (w : Wait) : (s.parkOn w).evt = s.evt := by
  obtain ⟨_, _, _, h⟩ := s.parkOn_eq w; rw [h]
@[simp] theorem State.parkOn_freeCount (s : State) (w : Wait) : (s.parkOn w).freeCount = s.freeCount := by
  obtain ⟨_, _, _, h⟩ := s.parkOn_eq w; rw [h]

/-- Blocking changes the context, its core or its cluster, and how the bundle ends. -/
theorem State.blockOn_eq (s : State) (w : Wait) :
    ∃ (x : Ctx) (k : Core) (l : List (Nat × Cluster)), s.blockOn w = { s with cx := x, core := k, clusters := l, evt := .block } := by
  obtain ⟨x, k, l, h⟩ := s.landOld_eq
  exact ⟨_, _, _, by simp only [State.blockOn, h]; rfl⟩
@[simp] theorem State.blockOn_evt (s : State) (w : Wait) : (s.blockOn w).evt = .block := rfl
@[simp] theorem State.blockOn_cid (s : State) (w : Wait) : (s.blockOn w).cid = s.cid := by
  obtain ⟨_, _, _, h⟩ := s.blockOn_eq w; rw [h]
@[simp] theorem State.blockOn_ctxs (s : State) (w : Wait) : (s.blockOn w).ctxs = s.ctxs := by
  obtain ⟨_, _, _, h⟩ := s.blockOn_eq w; rw [h]
@[simp] theorem State.blockOn_cores (s : State) (w : Wait) : (s.blockOn w).cores = s.cores := by
  obtain ⟨_, _, _, h⟩ := s.blockOn_eq w; rw [h]
@[simp] theorem State.blockOn_dies (s : State) (w : Wait) : (s.blockOn w).dies = s.dies := by
  obtain ⟨_, _, _, h⟩ := s.blockOn_eq w; rw [h]
@[simp] theorem State.blockOn_mem (s : State) (w : Wait) : (s.blockOn w).mem = s.mem := by
  obtain ⟨_, _, _, h⟩ := s.blockOn_eq w; rw [h]
@[simp] theorem State.blockOn_regs (s : State) (w : Wait) : (s.blockOn w).regs = s.regs := by
  obtain ⟨_, _, _, h⟩ := s.blockOn_eq w; rw [h]
@[simp] theorem State.blockOn_prot (s : State) (w : Wait) : (s.blockOn w).prot = s.prot := by
  obtain ⟨_, _, _, h⟩ := s.blockOn_eq w; rw [h]
@[simp] theorem State.blockOn_fab (s : State) (w : Wait) : (s.blockOn w).fab = s.fab := by
  obtain ⟨_, _, _, h⟩ := s.blockOn_eq w; rw [h]
@[simp] theorem State.blockOn_pool (s : State) (w : Wait) : (s.blockOn w).pool = s.pool := by
  obtain ⟨_, _, _, h⟩ := s.blockOn_eq w; rw [h]
@[simp] theorem State.blockOn_pwr (s : State) (w : Wait) : (s.blockOn w).pwr = s.pwr := by
  obtain ⟨_, _, _, h⟩ := s.blockOn_eq w; rw [h]
@[simp] theorem State.blockOn_mgmt (s : State) (w : Wait) : (s.blockOn w).mgmt = s.mgmt := by
  obtain ⟨_, _, _, h⟩ := s.blockOn_eq w; rw [h]
@[simp] theorem State.blockOn_relayouts (s : State) (w : Wait) : (s.blockOn w).relayouts = s.relayouts := by
  obtain ⟨_, _, _, h⟩ := s.blockOn_eq w; rw [h]
@[simp] theorem State.blockOn_remotes (s : State) (w : Wait) : (s.blockOn w).remotes = s.remotes := by
  obtain ⟨_, _, _, h⟩ := s.blockOn_eq w; rw [h]
@[simp] theorem State.blockOn_outbox (s : State) (w : Wait) : (s.blockOn w).outbox = s.outbox := by
  obtain ⟨_, _, _, h⟩ := s.blockOn_eq w; rw [h]
@[simp] theorem State.blockOn_tick (s : State) (w : Wait) : (s.blockOn w).tick = s.tick := by
  obtain ⟨_, _, _, h⟩ := s.blockOn_eq w; rw [h]
@[simp] theorem State.blockOn_nextId (s : State) (w : Wait) : (s.blockOn w).nextId = s.nextId := by
  obtain ⟨_, _, _, h⟩ := s.blockOn_eq w; rw [h]
@[simp] theorem State.blockOn_issue (s : State) (w : Wait) : (s.blockOn w).issue = s.issue := by
  obtain ⟨_, _, _, h⟩ := s.blockOn_eq w; rw [h]
@[simp] theorem State.blockOn_agenda (s : State) (w : Wait) : (s.blockOn w).agenda = s.agenda := by
  obtain ⟨_, _, _, h⟩ := s.blockOn_eq w; rw [h]
@[simp] theorem State.blockOn_freeCount (s : State) (w : Wait) : (s.blockOn w).freeCount = s.freeCount := by
  obtain ⟨_, _, _, h⟩ := s.blockOn_eq w; rw [h]

@[simp] theorem State.makeReady_cid (s : State) (c : Nat) : (s.makeReady c).cid = s.cid := by
  simp [State.makeReady]
@[simp] theorem State.makeReady_core (s : State) (c : Nat) : (s.makeReady c).core = s.core := by
  simp [State.makeReady]
@[simp] theorem State.makeReady_cores (s : State) (c : Nat) : (s.makeReady c).cores = s.cores := by
  simp [State.makeReady]
@[simp] theorem State.makeReady_clusters (s : State) (c : Nat) : (s.makeReady c).clusters = s.clusters := by
  simp [State.makeReady]
@[simp] theorem State.makeReady_dies (s : State) (c : Nat) : (s.makeReady c).dies = s.dies := by
  simp [State.makeReady]
@[simp] theorem State.makeReady_mem (s : State) (c : Nat) : (s.makeReady c).mem = s.mem := by
  simp [State.makeReady]
@[simp] theorem State.makeReady_regs (s : State) (c : Nat) : (s.makeReady c).regs = s.regs := by
  simp [State.makeReady]
@[simp] theorem State.makeReady_prot (s : State) (c : Nat) : (s.makeReady c).prot = s.prot := by
  simp [State.makeReady]
@[simp] theorem State.makeReady_fab (s : State) (c : Nat) : (s.makeReady c).fab = s.fab := by
  simp [State.makeReady]
@[simp] theorem State.makeReady_pool (s : State) (c : Nat) : (s.makeReady c).pool = s.pool := by
  simp [State.makeReady]
@[simp] theorem State.makeReady_pwr (s : State) (c : Nat) : (s.makeReady c).pwr = s.pwr := by
  simp [State.makeReady]
@[simp] theorem State.makeReady_mgmt (s : State) (c : Nat) : (s.makeReady c).mgmt = s.mgmt := by
  simp [State.makeReady]
@[simp] theorem State.makeReady_relayouts (s : State) (c : Nat) : (s.makeReady c).relayouts = s.relayouts := by
  simp [State.makeReady]
@[simp] theorem State.makeReady_remotes (s : State) (c : Nat) : (s.makeReady c).remotes = s.remotes := by
  simp [State.makeReady]
@[simp] theorem State.makeReady_outbox (s : State) (c : Nat) : (s.makeReady c).outbox = s.outbox := by
  simp [State.makeReady]
@[simp] theorem State.makeReady_tick (s : State) (c : Nat) : (s.makeReady c).tick = s.tick := by
  simp [State.makeReady]
@[simp] theorem State.makeReady_nextId (s : State) (c : Nat) : (s.makeReady c).nextId = s.nextId := by
  simp [State.makeReady]
@[simp] theorem State.makeReady_issue (s : State) (c : Nat) : (s.makeReady c).issue = s.issue := by
  simp [State.makeReady]
@[simp] theorem State.makeReady_agenda (s : State) (c : Nat) : (s.makeReady c).agenda = s.agenda := by
  simp [State.makeReady]
@[simp] theorem State.makeReady_evt (s : State) (c : Nat) : (s.makeReady c).evt = s.evt := by
  simp [State.makeReady]
@[simp] theorem State.makeReady_freeCount (s : State) (c : Nat) : (s.makeReady c).freeCount = s.freeCount := by
  simp [State.makeReady]

end Sys2Proof.Machine
end

