-- ==== Sys2Proof/Laws/Memory.lean ====
section
/-! SUPPORT. Memory: a read after a write, and the canonical form, which every operation on memory keeps. -/

namespace Sys2Proof.Machine

/-! ## Cells -/

theorem Cells.wf_tail {x : Host.Cell} {l : List Host.Cell} (h : Cells.wf (x :: l) = true) : Cells.wf l = true := by
  obtain ⟨k, v⟩ := x
  cases l with
  | nil => rfl
  | cons y l => obtain ⟨k', v'⟩ := y; simp only [Cells.wf, Bool.and_eq_true] at h; exact h.2

theorem Cells.head_ne {k : Nat} {v : Byte} {l : List Host.Cell} (h : Cells.wf ((k, v) :: l) = true) : v ≠ 0 := by
  cases l with
  | nil => simpa [Cells.wf] using h
  | cons y l => obtain ⟨k', v'⟩ := y; simp only [Cells.wf, Bool.and_eq_true] at h; simpa using h.1.1

theorem Cells.head_lt {k k' : Nat} {v v' : Byte} {l : List Host.Cell} (h : Cells.wf ((k, v) :: (k', v') :: l) = true) : k < k' := by
  simp only [Cells.wf, Bool.and_eq_true, decide_eq_true_eq] at h; exact h.1.2

theorem Cells.wf_cons {k : Nat} {v : Byte} {l : List Host.Cell} (hv : v ≠ 0) (hl : Cells.wf l = true)
    (hk : ∀ x ∈ l.head?, k < x.1) : Cells.wf ((k, v) :: l) = true := by
  cases l with
  | nil => simpa [Cells.wf] using hv
  | cons y l =>
    obtain ⟨k', v'⟩ := y
    have := hk (k', v') (by simp)
    simp [Cells.wf, this, hl]
    exact hv

/-- Every listed address of a canonical list lies above its head. -/
theorem Cells.head_lt_all {k : Nat} {v : Byte} {l : List Host.Cell} (h : Cells.wf ((k, v) :: l) = true) : ∀ x ∈ l, k < x.1 := by
  induction l generalizing k v with
  | nil => simp
  | cons y l ih =>
    obtain ⟨k', v'⟩ := y
    intro x hx
    have h1 := Cells.head_lt h
    rcases List.mem_cons.1 hx with rfl | hx
    · exact h1
    · exact Nat.lt_trans h1 (ih (Cells.wf_tail h) x hx)

/-- An address below every listed one reads as zero. -/
theorem Cells.get_below {a : Nat} {l : List Host.Cell} (h : ∀ x ∈ l, a < x.1) : Cells.get a l = 0 := by
  cases l with
  | nil => rfl
  | cons y l =>
    obtain ⟨k, v⟩ := y
    have := h (k, v) (by simp)
    simp only [Cells.get]
    rw [if_neg (by simp at this; omega), if_pos this]

/-- A write keeps the canonical form, and lists no address but its own. -/
theorem Cells.set_wf (a : Nat) (b : Byte) (l : List Host.Cell) (h : Cells.wf l = true) :
    Cells.wf (Cells.set a b l) = true ∧ ∀ x ∈ (Cells.set a b l).head?, a ≤ x.1 ∨ ∃ y ∈ l.head?, y.1 ≤ x.1 := by
  induction l with
  | nil =>
    simp only [Cells.set]
    split
    · exact ⟨rfl, by simp⟩
    · rename_i hb
      exact ⟨by simpa [Cells.wf] using hb, by simp⟩
  | cons y l ih =>
    obtain ⟨k, v⟩ := y
    have hv := Cells.head_ne h
    obtain ⟨h1, h2⟩ := ih (Cells.wf_tail h)
    simp only [Cells.set]
    split
    · rename_i hlt
      split
      · exact ⟨h, by simp⟩
      · rename_i hb
        exact ⟨Cells.wf_cons hb h (by simpa using hlt), by simp⟩
    · split
      · rename_i hk
        subst hk
        split
        · refine ⟨Cells.wf_tail h, ?_⟩
          intro x hx
          left
          exact Nat.le_of_lt (Cells.head_lt_all h x (List.mem_of_mem_head? hx))
        · rename_i hb
          refine ⟨Cells.wf_cons hb (Cells.wf_tail h) ?_, by simp⟩
          intro x hx
          exact Cells.head_lt_all h x (List.mem_of_mem_head? hx)
      · rename_i hlt hne
        refine ⟨Cells.wf_cons hv h1 ?_, by simp⟩
        intro x hx
        rcases h2 x hx with h3 | ⟨y, hy, h3⟩
        · omega
        · have := Cells.head_lt_all h y (List.mem_of_mem_head? hy)
          omega

/-- A read after a write: the value written at its address, the old value elsewhere. -/
theorem Cells.get_set (a c : Nat) (b : Byte) (l : List Host.Cell) (h : Cells.wf l = true) :
    Cells.get c (Cells.set a b l) = if c = a then b else Cells.get c l := by
  induction l with
  | nil =>
    simp only [Cells.set]
    by_cases hb : b = 0
    · simp [hb, Cells.get]
    · simp only [hb, if_false, Cells.get]
      by_cases hc : c = a
      · simp [hc]
      · rw [if_neg (fun h => hc h.symm), if_neg hc]; split <;> rfl
  | cons y l ih =>
    obtain ⟨k, v⟩ := y
    have ih' := ih (Cells.wf_tail h)
    simp only [Cells.set]
    by_cases hlt : a < k
    · simp only [hlt, if_true]
      by_cases hb : b = 0
      · simp only [hb, if_true, Cells.get]
        by_cases hc : c = a
        · subst hc; simp [hlt, Nat.ne_of_gt hlt]
        · simp [hc]
      · simp only [hb, if_false, Cells.get]
        by_cases hc : c = a
        · simp [hc]
        · rw [if_neg (fun h => hc h.symm), if_neg hc]
          by_cases hca : c < a
          · rw [if_pos hca, if_neg (by omega), if_pos (by omega)]
          · rw [if_neg hca]
    · simp only [hlt, if_false]
      by_cases hk : k = a
      · subst hk
        simp only [if_true]
        by_cases hb : b = 0
        · simp only [hb, if_true, Cells.get]
          by_cases hc : c = k
          · subst hc
            simp only [if_true]
            exact Cells.get_below (Cells.head_lt_all h)
          · rw [if_neg hc, if_neg (fun h => hc h.symm)]
            by_cases hck : c < k
            · rw [if_pos hck]
              exact Cells.get_below fun x hx => Nat.lt_trans hck (Cells.head_lt_all h x hx)
            · rw [if_neg hck]
        · simp only [hb, if_false, Cells.get]
          by_cases hc : c = k
          · simp [hc]
          · have hc' : ¬k = c := fun e => hc e.symm
            simp only [hc, hc', if_false]
      · simp only [hk, if_false, Cells.get]
        by_cases hkc : k = c
        · subst hkc
          simp [hk]
        · rw [if_neg hkc, if_neg hkc]
          by_cases hck : c < k
          · rw [if_pos hck, if_pos hck]
            rw [if_neg (by omega)]
          · rw [if_neg hck, if_neg hck, ih']

theorem Cells.setAll_wf (a : Nat) (bs : List Byte) (l : List Host.Cell) (h : Cells.wf l = true) : Cells.wf (Cells.setAll a bs l) = true := by
  induction bs generalizing a l with
  | nil => exact h
  | cons b bs ih => exact ih _ _ (Cells.set_wf a b l h).1

/-- A read after a write of bytes. -/
theorem Cells.get_setAll (a c : Nat) (bs : List Byte) (l : List Host.Cell) (h : Cells.wf l = true) :
    Cells.get c (Cells.setAll a bs l) = if a ≤ c ∧ c < a + bs.length then bs.getD (c - a) 0 else Cells.get c l := by
  induction bs generalizing a l with
  | nil => simp only [Cells.setAll, List.length_nil]; rw [if_neg (by omega)]
  | cons b bs ih =>
    simp only [Cells.setAll]
    rw [ih _ _ (Cells.set_wf a b l h).1, Cells.get_set _ _ _ _ h]
    by_cases h1 : c = a
    · subst h1
      rw [if_neg (by omega), if_pos rfl, if_pos (by simp)]
      simp
    · by_cases h2 : a + 1 ≤ c ∧ c < a + 1 + bs.length
      · rw [if_pos h2, if_pos (by simp; omega)]
        have : c - a = (c - (a + 1)) + 1 := by omega
        rw [this]; simp
      · rw [if_neg h2, if_neg h1, if_neg (by simp; omega)]

/-! ## Lines -/

/-- A write of the named bytes of a line, position by position. -/
theorem Cells.fold_set (line : Nat) (mask : BitVec 64) (new : Line) (n : Nat) (l : List Host.Cell) (h : Cells.wf l = true) :
    let r := (List.range n).foldl (fun cs i => if mask.getLsbD i then Cells.set (line + i) (lineByte new i) cs else cs) l
    Cells.wf r = true ∧ ∀ a, Cells.get a r =
      if line ≤ a ∧ a < line + n ∧ mask.getLsbD (a - line) = true then lineByte new (a - line) else Cells.get a l := by
  induction n with
  | zero => exact ⟨h, fun a => (if_neg (by omega)).symm⟩
  | succ n ih =>
    obtain ⟨h1, h2⟩ := ih
    simp only [List.range_succ, List.foldl_append, List.foldl_cons, List.foldl_nil]
    by_cases hm : mask.getLsbD n = true
    · simp only [hm, if_true]
      refine ⟨(Cells.set_wf _ _ _ h1).1, fun a => ?_⟩
      rw [Cells.get_set _ _ _ _ h1, h2]
      by_cases ha : a = line + n
      · subst ha
        rw [if_pos rfl, if_pos ⟨by omega, by omega, by simpa using hm⟩]
        simp
      · rw [if_neg ha]
        by_cases hc : line ≤ a ∧ a < line + n ∧ mask.getLsbD (a - line) = true
        · rw [if_pos hc, if_pos ⟨hc.1, by omega, hc.2.2⟩]
        · rw [if_neg hc, if_neg fun h => hc ⟨h.1, by omega, h.2.2⟩]
    · simp only [hm]
      refine ⟨h1, fun a => (h2 a).trans ?_⟩
      by_cases hc : line ≤ a ∧ a < line + n ∧ mask.getLsbD (a - line) = true
      · rw [if_pos hc, if_pos ⟨hc.1, by omega, hc.2.2⟩]
      · rw [if_neg hc, if_neg]
        rintro ⟨g1, g2, g3⟩
        rcases Nat.lt_or_ge a (line + n) with g | g
        · exact hc ⟨g1, g, g3⟩
        · have : a - line = n := by omega
          exact hm (this ▸ g3)

/-- Storing bytes of a line keeps the canonical form. -/
theorem Memory.setStored_wf (m : Memory) (line : Nat) (mask : BitVec 64) (new : Line) (h : m.wf = true) :
    (m.setStored line mask new).wf = true := (Cells.fold_set line mask new 64 m.cells h).1

/-- A read after storing bytes of a line: the new byte at each address that the mask names, the old byte everywhere else. -/
theorem Memory.get_setStored (m : Memory) (line a : Nat) (mask : BitVec 64) (new : Line) (h : m.wf = true) :
    Cells.get a (m.setStored line mask new).cells =
      if line ≤ a ∧ a < line + 64 ∧ mask.getLsbD (a - line) = true then lineByte new (a - line) else Cells.get a m.cells :=
  (Cells.fold_set line mask new 64 m.cells h).2 a

@[simp] theorem Memory.setStored_poison (m : Memory) (line : Nat) (mask : BitVec 64) (new : Line) :
    (m.setStored line mask new).poison = m.poison := rfl
@[simp] theorem Memory.setStored_soft (m : Memory) (line : Nat) (mask : BitVec 64) (new : Line) :
    (m.setStored line mask new).soft = m.soft := rfl
@[simp] theorem Memory.setStored_hard (m : Memory) (line : Nat) (mask : BitVec 64) (new : Line) :
    (m.setStored line mask new).hard = m.hard := rfl
@[simp] theorem Memory.setStored_flips (m : Memory) (line : Nat) (mask : BitVec 64) (new : Line) :
    (m.setStored line mask new).flips = m.flips := rfl

/-! ## Accesses -/

theorem State.countUncorrectable_kept (s : State) (u : Nat) :
    (s.countUncorrectable u).mem = s.mem ∧ (s.countUncorrectable u).cx = s.cx := by
  unfold State.countUncorrectable
  simp only
  split <;> simp

/-- Detecting an error changes no stored byte and no context. -/
theorem State.detect_cells (s : State) (u : Nat) : (s.detect u).mem.cells = s.mem.cells ∧ (s.detect u).cx = s.cx := by
  unfold State.detect
  split
  · exact ⟨rfl, rfl⟩
  · split
    · have h := State.countUncorrectable_kept
        ({ s with mem := { s.mem with hard := s.mem.hard.filter (· != u), poison := insertNat u s.mem.poison,
                                      flips := s.mem.flips.filter (·.1 != u) } }) u
      exact ⟨by rw [h.1], by rw [h.2]⟩
    · exact ⟨rfl, rfl⟩

/-- Reading a line changes no stored byte and no context. -/
theorem State.touch_cells (s : State) (l : Nat) (m : BitVec 64) :
    (s.touch l m).mem.cells = s.mem.cells ∧ (s.touch l m).cx = s.cx := by
  unfold State.touch
  generalize s.faulty l m = us
  induction us generalizing s with
  | nil => simp
  | cons u us ih =>
    simp only [List.foldl_cons]
    have := State.detect_cells s u
    rw [(ih _).1, (ih _).2, this.1, this.2]
    simp

/-- Reading the memory of journal entries changes no stored byte and no context. -/
theorem State.touchJournal_cells (l : List (Nat × DLine)) (s : State) :
    (s.touchJournal l).mem.cells = s.mem.cells ∧ (s.touchJournal l).cx = s.cx := by
  induction l generalizing s with
  | nil => exact ⟨rfl, rfl⟩
  | cons x l ih =>
    have h1 := State.touch_cells s (lineOf (s.journalAt x.1)) (BitVec.allOnes 64)
    have h2 := State.touch_cells (s.touch (lineOf (s.journalAt x.1)) (BitVec.allOnes 64)) (lineOf (s.journalAt x.1 + 64)) (BitVec.allOnes 64)
    have h3 := ih ((s.touch (lineOf (s.journalAt x.1)) (BitVec.allOnes 64)).touch (lineOf (s.journalAt x.1 + 64)) (BitVec.allOnes 64))
    exact ⟨h3.1.trans (h2.1.trans h1.1), h3.2.trans (h2.2.trans h1.2)⟩

/-- A load changes no stored byte and no context. -/
theorem State.loadPieces_cells (ord : Bool) (ps : List Piece) (s : State) :
    (s.loadPieces ord ps).2.mem.cells = s.mem.cells ∧ (s.loadPieces ord ps).2.cx = s.cx := by
  induction ps generalizing s with
  | nil => simp [State.loadPieces]
  | cons p ps ih =>
    simp only [State.loadPieces]
    have h1 : (s.loadPiece ord p).2.mem.cells = s.mem.cells ∧ (s.loadPiece ord p).2.cx = s.cx := by
      cases ord
      · simp only [State.loadPiece, Bool.false_eq_true, if_false]
        split
        · exact State.touch_cells _ _ _
        · exact ⟨rfl, rfl⟩
      · have h0 := State.touchJournal_cells (s.journalOf p.pod) s
        simp only [State.loadPiece, if_true]
        split
        · exact ⟨(State.touch_cells _ _ _).1.trans h0.1, (State.touch_cells _ _ _).2.trans h0.2⟩
        · exact h0
    have h2 := ih (s.loadPiece ord p).2
    exact ⟨h2.1.trans h1.1, h2.2.trans h1.2⟩

theorem State.setSticky_mem (s : State) (c : Nat) (k : AckKind) (dev : Nat) : (s.setSticky c k dev).mem = s.mem := by
  cases k <;> simp [State.setSticky]

theorem State.protError_mem (s : State) (cause peer line : Nat) : (s.protError cause peer line).mem = s.mem := by
  have key : ∀ (e : Word) (b c : Bool),
      (if b = true then s
       else if c = true then ({ s with prot := { s.prot with proterr := e } } : State).interrupt 3
       else { s with prot := { s.prot with proterr := e } }).mem = s.mem := by
    intro e b c
    cases b <;> cases c <;> simp
  exact key _ _ _

theorem State.settleWrite_mem (s : State) (w : Writer) (k : AckKind) (dev : Nat) : (s.settleWrite w k dev).mem = s.mem := by
  unfold State.settleWrite
  split
  · split
    · exact State.setSticky_mem _ _ _ _
    · rfl
  · rfl

theorem State.parityUp_mem (s : State) (c : Nat) (op : Option Nat) : (s.parityUp c op).mem = s.mem := by
  cases op <;> simp [State.parityUp]

/-- The delta of a write changes no memory. -/
theorem State.delta_mem (s : State) (w : Writer) (line : Nat) (xor : Line) (poisoned : Bool) :
    (s.delta w line xor poisoned).mem = s.mem := by
  unfold State.delta
  simp only
  split
  · rw [State.settleWrite_mem, State.protError_mem]
  · split
    · rw [State.settleWrite_mem]
    · split
      · rw [State.parityUp_mem]; rfl
      · rfl

/-- A write at a home keeps the canonical form (an address in the system-register range is no memory). -/
theorem State.perform_wf (s : State) (w : Writer) (line key : Nat) (prot : Bool) (mask : BitVec 64) (data : Line) (pois : BitVec 64)
    (hl : line < sysBase) (h : s.mem.wf = true) : (s.perform w line key prot mask data pois).mem.wf = true := by
  unfold State.perform
  rw [if_neg (by omega)]
  simp only
  have h2 : ∀ t : State, t.mem.cells = s.mem.cells → t.mem.wf = true := fun t e => by
    unfold Memory.wf at h ⊢; rw [e]; exact h
  generalize ht : (if (prot && decide (line < 2 ^ 40)) = true then s.touch line mask else s) = t
  have h1 : t.mem.cells = s.mem.cells := by
    rw [← ht]
    split
    · exact (State.touch_cells _ _ _).1
    · rfl
  generalize hu : ({ t with mem := { t.mem with
    soft := t.mem.soft.filter fun u => !covered line mask u, hard := t.mem.hard.filter fun u => !covered line mask u,
    flips := t.mem.flips.filter fun e => !covered line mask e.1 } } : State) = u
  have h4 : u.mem.cells = s.mem.cells := by rw [← hu]; exact h1
  have h3 := Memory.setStored_wf (u.touch line mask).mem line (storedMask line mask) ((u.touch line mask).writtenLine key line mask data)
    (h2 _ ((State.touch_cells _ _ _).1.trans h4))
  split
  · rw [State.delta_mem]; exact h3
  · exact h3

/-- Memory right after reset is in canonical form. -/
theorem State.reset_mem_wf : State.reset.mem.wf = true := rfl

end Sys2Proof.Machine
end

