-- ==== Sys2Proof/Laws/Run.lean ====
section
/-! SUPPORT. The types of what the machine itself produces agree with `exec`: the meaning of a syllable that an engine runs, of a
micro-op and of an event is that of the instruction it stands for. -/

namespace Sys2Proof.Machine

theorem exec_toInstr_eng (x : EngSyl) (s : State) : exec x.toInstr s = execEng x s := by cases x <;> rfl

theorem exec_toInstr_micro (x : Micro) (s : State) : exec x.toInstr s = execMicro x s := by cases x <;> rfl

theorem exec_toInstr_event (x : Event) (s : State) : exec x.toInstr s = execEvent x s := by cases x <;> rfl

end Sys2Proof.Machine
end

