-- ==== Sys2Proof/Laws/Shapes.lean ====
section
/-! SUPPORT. For each layout of a syllable: the decoder reads back what the encoder wrote (`decode_encode`), and the opcode stands in
bits 27 to 20 (`encode_op`). -/

namespace Sys2Proof

theorem shB_gdk.encode_op (op : Nat) (ho : op < 256) (g : Fin 16) (d : BitVec 14) (k : Fin 64) :
    shB_gdk.enc op g d k / 2 ^ 20 % 256 = op := by
  have h_g := g.isLt
  have h_d := d.isLt
  have h_k := k.isLt
  simp only [shB_gdk.enc, pack]; omega

theorem shB_gdk.decode_encode (mk : Fin 16 → BitVec 14 → Fin 64 → Instr) (op : Nat) (ho : op < 256) (g : Fin 16) (d : BitVec 14) (k : Fin 64) :
    shB_gdk.dec mk (shB_gdk.enc op g d k) = .ok (mk g d k) := by
  have h_g := g.isLt
  have h_d := d.isLt
  have h_k := k.isLt
  simp only [shB_gdk.enc, shB_gdk.dec]
  rw [unpack_pack 6 (k.val) _ _ (by omega), unpack_pack 14 (d.toNat) _ _ (by omega), unpack_pack 8 (op) _ _ (by omega), unpack_pack 4 (g.val) _ _ (by omega)]
  simp only [unpack]
  refine (checked_ok _ _ (by simp)).trans (by simp)

theorem shB_gse.encode_op (op : Nat) (ho : op < 256) (g : Fin 16) (s : Src) (e : Bool) :
    shB_gse.enc op g s e / 2 ^ 20 % 256 = op := by
  have h_g := g.isLt
  have h_s := Src.code_lt s
  have h_e := toNat_lt_two e
  simp only [shB_gse.enc, pack]; omega

theorem shB_gse.decode_encode (mk : Fin 16 → Src → Bool → Instr) (op : Nat) (ho : op < 256) (g : Fin 16) (s : Src) (e : Bool) :
    shB_gse.dec mk (shB_gse.enc op g s e) = .ok (mk g s e) := by
  have h_g := g.isLt
  have h_s := Src.code_lt s
  have h_e := toNat_lt_two e
  simp only [shB_gse.enc, shB_gse.dec]
  rw [unpack_pack 14 (0) _ _ (by omega), unpack_pack 1 (e.toNat) _ _ (by omega), unpack_pack 5 (s.code) _ _ (by omega), unpack_pack 8 (op) _ _ (by omega), unpack_pack 4 (g.val) _ _ (by omega)]
  simp only [unpack]
  refine (checked_ok _ _ (by simp)).trans (by simp)

theorem shB_g.encode_op (op : Nat) (ho : op < 256) (g : Fin 16) :
    shB_g.enc op g / 2 ^ 20 % 256 = op := by
  have h_g := g.isLt
  simp only [shB_g.enc, pack]; omega

theorem shB_g.decode_encode (mk : Fin 16 → Instr) (op : Nat) (ho : op < 256) (g : Fin 16) :
    shB_g.dec mk (shB_g.enc op g) = .ok (mk g) := by
  have h_g := g.isLt
  simp only [shB_g.enc, shB_g.dec]
  rw [unpack_pack 20 (0) _ _ (by omega), unpack_pack 8 (op) _ _ (by omega), unpack_pack 4 (g.val) _ _ (by omega)]
  simp only [unpack]
  refine (checked_ok _ _ (by simp)).trans (by simp)

theorem shB_gsen.encode_op (op : Nat) (ho : op < 256) (g : Fin 16) (s : Src) (e : Bool) (n : Fin 128) :
    shB_gsen.enc op g s e n / 2 ^ 20 % 256 = op := by
  have h_g := g.isLt
  have h_s := Src.code_lt s
  have h_e := toNat_lt_two e
  have h_n := n.isLt
  simp only [shB_gsen.enc, pack]; omega

theorem shB_gsen.decode_encode (mk : Fin 16 → Src → Bool → Fin 128 → Instr) (op : Nat) (ho : op < 256) (g : Fin 16) (s : Src) (e : Bool) (n : Fin 128) :
    shB_gsen.dec mk (shB_gsen.enc op g s e n) = .ok (mk g s e n) := by
  have h_g := g.isLt
  have h_s := Src.code_lt s
  have h_e := toNat_lt_two e
  have h_n := n.isLt
  simp only [shB_gsen.enc, shB_gsen.dec]
  rw [unpack_pack 7 (0) _ _ (by omega), unpack_pack 7 (n.val) _ _ (by omega), unpack_pack 1 (e.toNat) _ _ (by omega), unpack_pack 5 (s.code) _ _ (by omega), unpack_pack 8 (op) _ _ (by omega), unpack_pack 4 (g.val) _ _ (by omega)]
  simp only [unpack]
  refine (checked_ok _ _ (by simp)).trans (by simp)

theorem shB_ga.encode_op (op : Nat) (ho : op < 256) (g : Fin 16) (a : Fin 8) :
    shB_ga.enc op g a / 2 ^ 20 % 256 = op := by
  have h_g := g.isLt
  have h_a := a.isLt
  simp only [shB_ga.enc, pack]; omega

theorem shB_ga.decode_encode (mk : Fin 16 → Fin 8 → Instr) (op : Nat) (ho : op < 256) (g : Fin 16) (a : Fin 8) :
    shB_ga.dec mk (shB_ga.enc op g a) = .ok (mk g a) := by
  have h_g := g.isLt
  have h_a := a.isLt
  simp only [shB_ga.enc, shB_ga.dec]
  rw [unpack_pack 17 (0) _ _ (by omega), unpack_pack 3 (a.val) _ _ (by omega), unpack_pack 8 (op) _ _ (by omega), unpack_pack 4 (g.val) _ _ (by omega)]
  simp only [unpack]
  refine (checked_ok _ _ (by simp)).trans (by simp)

theorem shB_gab.encode_op (op : Nat) (ho : op < 256) (g : Fin 16) (a : Fin 8) (b : Fin 8) :
    shB_gab.enc op g a b / 2 ^ 20 % 256 = op := by
  have h_g := g.isLt
  have h_a := a.isLt
  have h_b := b.isLt
  simp only [shB_gab.enc, pack]; omega

theorem shB_gab.decode_encode (mk : Fin 16 → Fin 8 → Fin 8 → Instr) (op : Nat) (ho : op < 256) (g : Fin 16) (a : Fin 8) (b : Fin 8) :
    shB_gab.dec mk (shB_gab.enc op g a b) = .ok (mk g a b) := by
  have h_g := g.isLt
  have h_a := a.isLt
  have h_b := b.isLt
  simp only [shB_gab.enc, shB_gab.dec]
  rw [unpack_pack 14 (0) _ _ (by omega), unpack_pack 3 (b.val) _ _ (by omega), unpack_pack 3 (a.val) _ _ (by omega), unpack_pack 8 (op) _ _ (by omega), unpack_pack 4 (g.val) _ _ (by omega)]
  simp only [unpack]
  refine (checked_ok _ _ (by simp)).trans (by simp)

theorem shB_gv.encode_op (op : Nat) (ho : op < 256) (g : Fin 16) (v : Fin 64) :
    shB_gv.enc op g v / 2 ^ 20 % 256 = op := by
  have h_g := g.isLt
  have h_v := v.isLt
  simp only [shB_gv.enc, pack]; omega

theorem shB_gv.decode_encode (mk : Fin 16 → Fin 64 → Instr) (op : Nat) (ho : op < 256) (g : Fin 16) (v : Fin 64) :
    shB_gv.dec mk (shB_gv.enc op g v) = .ok (mk g v) := by
  have h_g := g.isLt
  have h_v := v.isLt
  simp only [shB_gv.enc, shB_gv.dec]
  rw [unpack_pack 14 (0) _ _ (by omega), unpack_pack 6 (v.val) _ _ (by omega), unpack_pack 8 (op) _ _ (by omega), unpack_pack 4 (g.val) _ _ (by omega)]
  simp only [unpack]
  refine (checked_ok _ _ (by simp)).trans (by simp)

theorem shB_gspn.encode_op (op : Nat) (ho : op < 256) (g : Fin 16) (s : Src) (p : Fin 8) (n : Fin 4096) :
    shB_gspn.enc op g s p n / 2 ^ 20 % 256 = op := by
  have h_g := g.isLt
  have h_s := Src.code_lt s
  have h_p := p.isLt
  have h_n := n.isLt
  simp only [shB_gspn.enc, pack]; omega

theorem shB_gspn.decode_encode (mk : Fin 16 → Src → Fin 8 → Fin 4096 → Instr) (op : Nat) (ho : op < 256) (g : Fin 16) (s : Src) (p : Fin 8) (n : Fin 4096) :
    shB_gspn.dec mk (shB_gspn.enc op g s p n) = .ok (mk g s p n) := by
  have h_g := g.isLt
  have h_s := Src.code_lt s
  have h_p := p.isLt
  have h_n := n.isLt
  simp only [shB_gspn.enc, shB_gspn.dec]
  rw [unpack_pack 12 (n.val) _ _ (by omega), unpack_pack 3 (p.val) _ _ (by omega), unpack_pack 5 (s.code) _ _ (by omega), unpack_pack 8 (op) _ _ (by omega), unpack_pack 4 (g.val) _ _ (by omega)]
  simp only [unpack]
  refine (checked_ok _ _ (by simp)).trans (by simp)

theorem shB_gn.encode_op (op : Nat) (ho : op < 256) (g : Fin 16) (n : BitVec 8) :
    shB_gn.enc op g n / 2 ^ 20 % 256 = op := by
  have h_g := g.isLt
  have h_n := n.isLt
  simp only [shB_gn.enc, pack]; omega

theorem shB_gn.decode_encode (mk : Fin 16 → BitVec 8 → Instr) (op : Nat) (ho : op < 256) (g : Fin 16) (n : BitVec 8) :
    shB_gn.dec mk (shB_gn.enc op g n) = .ok (mk g n) := by
  have h_g := g.isLt
  have h_n := n.isLt
  simp only [shB_gn.enc, shB_gn.dec]
  rw [unpack_pack 12 (0) _ _ (by omega), unpack_pack 8 (n.toNat) _ _ (by omega), unpack_pack 8 (op) _ _ (by omega), unpack_pack 4 (g.val) _ _ (by omega)]
  simp only [unpack]
  refine (checked_ok _ _ (by simp)).trans (by simp)

theorem shS_gdabef.encode_op (op : Nat) (ho : op < 256) (g : Fin 16) (d : Dst) (a : Src) (b : Src) (e : Bool) (f : Bool) :
    shS_gdabef.enc op g d a b e f / 2 ^ 20 % 256 = op := by
  have h_g := g.isLt
  have h_d := Dst.code_le d
  have h_a := Src.code_lt a
  have h_b := Src.code_lt b
  have h_e := toNat_lt_two e
  have h_f := toNat_lt_two f
  simp only [shS_gdabef.enc, pack]; omega

theorem shS_gdabef.decode_encode (mk : Fin 16 → Dst → Src → Src → Bool → Bool → Instr) (op : Nat) (ho : op < 256) (g : Fin 16) (d : Dst) (a : Src) (b : Src) (e : Bool) (f : Bool) :
    shS_gdabef.dec mk (shS_gdabef.enc op g d a b e f) = .ok (mk g d a b e f) := by
  have h_g := g.isLt
  have h_d := Dst.code_le d
  have h_a := Src.code_lt a
  have h_b := Src.code_lt b
  have h_e := toNat_lt_two e
  have h_f := toNat_lt_two f
  simp only [shS_gdabef.enc, shS_gdabef.dec]
  rw [unpack_pack 3 (0) _ _ (by omega), unpack_pack 1 (f.toNat) _ _ (by omega), unpack_pack 1 (e.toNat) _ _ (by omega), unpack_pack 5 (b.code) _ _ (by omega), unpack_pack 5 (a.code) _ _ (by omega), unpack_pack 5 (d.code) _ _ (by omega), unpack_pack 8 (op) _ _ (by omega), unpack_pack 4 (g.val) _ _ (by omega)]
  simp only [unpack]
  refine (checked_ok _ _ (by simp; omega)).trans (by simp)

theorem shS_gdaei.encode_op (op : Nat) (ho : op < 256) (g : Fin 16) (d : Dst) (a : Src) (e : Bool) (i : BitVec 9) :
    shS_gdaei.enc op g d a e i / 2 ^ 20 % 256 = op := by
  have h_g := g.isLt
  have h_d := Dst.code_le d
  have h_a := Src.code_lt a
  have h_e := toNat_lt_two e
  have h_i := i.isLt
  simp only [shS_gdaei.enc, pack]; omega

theorem shS_gdaei.decode_encode (mk : Fin 16 → Dst → Src → Bool → BitVec 9 → Instr) (op : Nat) (ho : op < 256) (g : Fin 16) (d : Dst) (a : Src) (e : Bool) (i : BitVec 9) :
    shS_gdaei.dec 2 mk (shS_gdaei.enc op g d a e i) = .ok (mk g d a e i) := by
  have h_g := g.isLt
  have h_d := Dst.code_le d
  have h_a := Src.code_lt a
  have h_e := toNat_lt_two e
  have h_i := i.isLt
  simp only [shS_gdaei.enc, shS_gdaei.dec]
  rw [unpack_pack 9 (i.toNat) _ _ (by omega), unpack_pack 1 (e.toNat) _ _ (by omega), unpack_pack 5 (a.code) _ _ (by omega), unpack_pack 5 (d.code) _ _ (by omega), unpack_pack 8 (op) _ _ (by omega), unpack_pack 4 (g.val) _ _ (by omega)]
  simp only [unpack]
  refine (checked_ok _ _ (by simp; omega)).trans (by simp)

theorem shS_gdi.encode_op (op : Nat) (ho : op < 256) (g : Fin 16) (d : Dst) (i : BitVec 9) :
    shS_gdi.enc op g d i / 2 ^ 20 % 256 = op := by
  have h_g := g.isLt
  have h_d := Dst.code_le d
  have h_i := i.isLt
  simp only [shS_gdi.enc, pack]; omega

theorem shS_gdi.decode_encode (mk : Fin 16 → Dst → BitVec 9 → Instr) (op : Nat) (ho : op < 256) (g : Fin 16) (d : Dst) (i : BitVec 9) :
    shS_gdi.dec 2 mk (shS_gdi.enc op g d i) = .ok (mk g d i) := by
  have h_g := g.isLt
  have h_d := Dst.code_le d
  have h_i := i.isLt
  simp only [shS_gdi.enc, shS_gdi.dec]
  rw [unpack_pack 9 (i.toNat) _ _ (by omega), unpack_pack 6 (0) _ _ (by omega), unpack_pack 5 (d.code) _ _ (by omega), unpack_pack 8 (op) _ _ (by omega), unpack_pack 4 (g.val) _ _ (by omega)]
  simp only [unpack]
  refine (checked_ok _ _ (by simp; omega)).trans (by simp)

theorem shS_gpabef.encode_op (op : Nat) (ho : op < 256) (g : Fin 16) (p : Fin 8) (a : Src) (b : Src) (e : Bool) (f : Bool) :
    shS_gpabef.enc op g p a b e f / 2 ^ 20 % 256 = op := by
  have h_g := g.isLt
  have h_p := p.isLt
  have h_a := Src.code_lt a
  have h_b := Src.code_lt b
  have h_e := toNat_lt_two e
  have h_f := toNat_lt_two f
  simp only [shS_gpabef.enc, pack]; omega

theorem shS_gpabef.decode_encode (mk : Fin 16 → Fin 8 → Src → Src → Bool → Bool → Instr) (op : Nat) (ho : op < 256) (g : Fin 16) (p : Fin 8) (a : Src) (b : Src) (e : Bool) (f : Bool) :
    shS_gpabef.dec mk (shS_gpabef.enc op g p a b e f) = .ok (mk g p a b e f) := by
  have h_g := g.isLt
  have h_p := p.isLt
  have h_a := Src.code_lt a
  have h_b := Src.code_lt b
  have h_e := toNat_lt_two e
  have h_f := toNat_lt_two f
  simp only [shS_gpabef.enc, shS_gpabef.dec]
  rw [unpack_pack 3 (0) _ _ (by omega), unpack_pack 1 (f.toNat) _ _ (by omega), unpack_pack 1 (e.toNat) _ _ (by omega), unpack_pack 5 (b.code) _ _ (by omega), unpack_pack 5 (a.code) _ _ (by omega), unpack_pack 3 (p.val) _ _ (by omega), unpack_pack 2 (0) _ _ (by omega), unpack_pack 8 (op) _ _ (by omega), unpack_pack 4 (g.val) _ _ (by omega)]
  simp only [unpack]
  refine (checked_ok _ _ (by simp)).trans (by simp)

theorem shS_gpaei.encode_op (op : Nat) (ho : op < 256) (g : Fin 16) (p : Fin 8) (a : Src) (e : Bool) (i : BitVec 9) :
    shS_gpaei.enc op g p a e i / 2 ^ 20 % 256 = op := by
  have h_g := g.isLt
  have h_p := p.isLt
  have h_a := Src.code_lt a
  have h_e := toNat_lt_two e
  have h_i := i.isLt
  simp only [shS_gpaei.enc, pack]; omega

theorem shS_gpaei.decode_encode (mk : Fin 16 → Fin 8 → Src → Bool → BitVec 9 → Instr) (op : Nat) (ho : op < 256) (g : Fin 16) (p : Fin 8) (a : Src) (e : Bool) (i : BitVec 9) :
    shS_gpaei.dec 2 mk (shS_gpaei.enc op g p a e i) = .ok (mk g p a e i) := by
  have h_g := g.isLt
  have h_p := p.isLt
  have h_a := Src.code_lt a
  have h_e := toNat_lt_two e
  have h_i := i.isLt
  simp only [shS_gpaei.enc, shS_gpaei.dec]
  rw [unpack_pack 9 (i.toNat) _ _ (by omega), unpack_pack 1 (e.toNat) _ _ (by omega), unpack_pack 5 (a.code) _ _ (by omega), unpack_pack 3 (p.val) _ _ (by omega), unpack_pack 2 (0) _ _ (by omega), unpack_pack 8 (op) _ _ (by omega), unpack_pack 4 (g.val) _ _ (by omega)]
  simp only [unpack]
  refine (checked_ok _ _ (by simp; omega)).trans (by simp)

theorem shS_gdae.encode_op (op : Nat) (ho : op < 256) (g : Fin 16) (d : Dst) (a : Src) (e : Bool) :
    shS_gdae.enc op g d a e / 2 ^ 20 % 256 = op := by
  have h_g := g.isLt
  have h_d := Dst.code_le d
  have h_a := Src.code_lt a
  have h_e := toNat_lt_two e
  simp only [shS_gdae.enc, pack]; omega

theorem shS_gdae.decode_encode (mk : Fin 16 → Dst → Src → Bool → Instr) (op : Nat) (ho : op < 256) (g : Fin 16) (d : Dst) (a : Src) (e : Bool) :
    shS_gdae.dec mk (shS_gdae.enc op g d a e) = .ok (mk g d a e) := by
  have h_g := g.isLt
  have h_d := Dst.code_le d
  have h_a := Src.code_lt a
  have h_e := toNat_lt_two e
  simp only [shS_gdae.enc, shS_gdae.dec]
  rw [unpack_pack 4 (0) _ _ (by omega), unpack_pack 1 (e.toNat) _ _ (by omega), unpack_pack 5 (0) _ _ (by omega), unpack_pack 5 (a.code) _ _ (by omega), unpack_pack 5 (d.code) _ _ (by omega), unpack_pack 8 (op) _ _ (by omega), unpack_pack 4 (g.val) _ _ (by omega)]
  simp only [unpack]
  refine (checked_ok _ _ (by simp; omega)).trans (by simp)

theorem shS_gdabefx.encode_op (op : Nat) (ho : op < 256) (g : Fin 16) (d : Dst) (a : Src) (b : Src) (e : Bool) (f : Bool) (x : Bool) :
    shS_gdabefx.enc op g d a b e f x / 2 ^ 20 % 256 = op := by
  have h_g := g.isLt
  have h_d := Dst.code_le d
  have h_a := Src.code_lt a
  have h_b := Src.code_lt b
  have h_e := toNat_lt_two e
  have h_f := toNat_lt_two f
  have h_x := toNat_lt_two x
  simp only [shS_gdabefx.enc, pack]; omega

theorem shS_gdabefx.decode_encode (mk : Fin 16 → Dst → Src → Src → Bool → Bool → Bool → Instr) (op : Nat) (ho : op < 256) (g : Fin 16) (d : Dst) (a : Src) (b : Src) (e : Bool) (f : Bool) (x : Bool) :
    shS_gdabefx.dec mk (shS_gdabefx.enc op g d a b e f x) = .ok (mk g d a b e f x) := by
  have h_g := g.isLt
  have h_d := Dst.code_le d
  have h_a := Src.code_lt a
  have h_b := Src.code_lt b
  have h_e := toNat_lt_two e
  have h_f := toNat_lt_two f
  have h_x := toNat_lt_two x
  simp only [shS_gdabefx.enc, shS_gdabefx.dec]
  rw [unpack_pack 1 (x.toNat) _ _ (by omega), unpack_pack 2 (0) _ _ (by omega), unpack_pack 1 (f.toNat) _ _ (by omega), unpack_pack 1 (e.toNat) _ _ (by omega), unpack_pack 5 (b.code) _ _ (by omega), unpack_pack 5 (a.code) _ _ (by omega), unpack_pack 5 (d.code) _ _ (by omega), unpack_pack 8 (op) _ _ (by omega), unpack_pack 4 (g.val) _ _ (by omega)]
  simp only [unpack]
  refine (checked_ok _ _ (by simp; omega)).trans (by simp)

theorem shS_gdaex.encode_op (op : Nat) (ho : op < 256) (g : Fin 16) (d : Dst) (a : Src) (e : Bool) (x : SextW) :
    shS_gdaex.enc op g d a e x / 2 ^ 20 % 256 = op := by
  have h_g := g.isLt
  have h_d := Dst.code_le d
  have h_a := Src.code_lt a
  have h_e := toNat_lt_two e
  have h_x : x.code < 3 := by cases x <;> decide
  simp only [shS_gdaex.enc, pack]; omega

theorem shS_gdaex.decode_encode (mk : Fin 16 → Dst → Src → Bool → SextW → Instr) (op : Nat) (ho : op < 256) (g : Fin 16) (d : Dst) (a : Src) (e : Bool) (x : SextW) :
    shS_gdaex.dec mk (shS_gdaex.enc op g d a e x) = .ok (mk g d a e x) := by
  have h_g := g.isLt
  have h_d := Dst.code_le d
  have h_a := Src.code_lt a
  have h_e := toNat_lt_two e
  have h_x : x.code < 3 := by cases x <;> decide
  simp only [shS_gdaex.enc, shS_gdaex.dec]
  rw [unpack_pack 2 (x.code) _ _ (by omega), unpack_pack 2 (0) _ _ (by omega), unpack_pack 1 (e.toNat) _ _ (by omega), unpack_pack 5 (0) _ _ (by omega), unpack_pack 5 (a.code) _ _ (by omega), unpack_pack 5 (d.code) _ _ (by omega), unpack_pack 8 (op) _ _ (by omega), unpack_pack 4 (g.val) _ _ (by omega)]
  simp only [unpack]
  refine (checked_ok _ _ (by simp; omega)).trans (by simp)

theorem shS_gdabefx2.encode_op (op : Nat) (ho : op < 256) (g : Fin 16) (d : Dst) (a : Src) (b : Src) (e : Bool) (f : Bool) (x : Fin 8) :
    shS_gdabefx2.enc op g d a b e f x / 2 ^ 20 % 256 = op := by
  have h_g := g.isLt
  have h_d := Dst.code_le d
  have h_a := Src.code_lt a
  have h_b := Src.code_lt b
  have h_e := toNat_lt_two e
  have h_f := toNat_lt_two f
  have h_x := x.isLt
  simp only [shS_gdabefx2.enc, pack]; omega

theorem shS_gdabefx2.decode_encode (mk : Fin 16 → Dst → Src → Src → Bool → Bool → Fin 8 → Instr) (op : Nat) (ho : op < 256) (g : Fin 16) (d : Dst) (a : Src) (b : Src) (e : Bool) (f : Bool) (x : Fin 8) :
    shS_gdabefx2.dec mk (shS_gdabefx2.enc op g d a b e f x) = .ok (mk g d a b e f x) := by
  have h_g := g.isLt
  have h_d := Dst.code_le d
  have h_a := Src.code_lt a
  have h_b := Src.code_lt b
  have h_e := toNat_lt_two e
  have h_f := toNat_lt_two f
  have h_x := x.isLt
  simp only [shS_gdabefx2.enc, shS_gdabefx2.dec]
  rw [unpack_pack 3 (x.val) _ _ (by omega), unpack_pack 1 (f.toNat) _ _ (by omega), unpack_pack 1 (e.toNat) _ _ (by omega), unpack_pack 5 (b.code) _ _ (by omega), unpack_pack 5 (a.code) _ _ (by omega), unpack_pack 5 (d.code) _ _ (by omega), unpack_pack 8 (op) _ _ (by omega), unpack_pack 4 (g.val) _ _ (by omega)]
  simp only [unpack]
  refine (checked_ok _ _ (by simp; omega)).trans (by simp)

theorem shS_gpabn.encode_op (op : Nat) (ho : op < 256) (g : Fin 16) (p : Fin 8) (a : Fin 16) (b : Fin 16) (n : Bool) :
    shS_gpabn.enc op g p a b n / 2 ^ 20 % 256 = op := by
  have h_g := g.isLt
  have h_p := p.isLt
  have h_a := a.isLt
  have h_b := b.isLt
  have h_n := toNat_lt_two n
  simp only [shS_gpabn.enc, pack]; omega

theorem shS_gpabn.decode_encode (mk : Fin 16 → Fin 8 → Fin 16 → Fin 16 → Bool → Instr) (op : Nat) (ho : op < 256) (g : Fin 16) (p : Fin 8) (a : Fin 16) (b : Fin 16) (n : Bool) :
    shS_gpabn.dec mk (shS_gpabn.enc op g p a b n) = .ok (mk g p a b n) := by
  have h_g := g.isLt
  have h_p := p.isLt
  have h_a := a.isLt
  have h_b := b.isLt
  have h_n := toNat_lt_two n
  simp only [shS_gpabn.enc, shS_gpabn.dec]
  rw [unpack_pack 1 (n.toNat) _ _ (by omega), unpack_pack 4 (0) _ _ (by omega), unpack_pack 5 (b.val) _ _ (by omega), unpack_pack 5 (a.val) _ _ (by omega), unpack_pack 3 (p.val) _ _ (by omega), unpack_pack 2 (0) _ _ (by omega), unpack_pack 8 (op) _ _ (by omega), unpack_pack 4 (g.val) _ _ (by omega)]
  simp only [unpack]
  refine (checked_ok _ _ (by simp)).trans (by simp)

theorem shS_gaes.encode_op (op : Nat) (ho : op < 256) (g : Fin 16) (a : Src) (e : Bool) (s : Space) :
    shS_gaes.enc op g a e s / 2 ^ 20 % 256 = op := by
  have h_g := g.isLt
  have h_a := Src.code_lt a
  have h_e := toNat_lt_two e
  have h_s : s.code < 4 := by cases s <;> decide
  simp only [shS_gaes.enc, pack]; omega

theorem shS_gaes.decode_encode (mk : Fin 16 → Src → Bool → Space → Instr) (op : Nat) (ho : op < 256) (g : Fin 16) (a : Src) (e : Bool) (s : Space) :
    shS_gaes.dec mk (shS_gaes.enc op g a e s) = .ok (mk g a e s) := by
  have h_g := g.isLt
  have h_a := Src.code_lt a
  have h_e := toNat_lt_two e
  have h_s : s.code < 4 := by cases s <;> decide
  simp only [shS_gaes.enc, shS_gaes.dec]
  rw [unpack_pack 1 (0) _ _ (by omega), unpack_pack 2 (s.code) _ _ (by omega), unpack_pack 1 (0) _ _ (by omega), unpack_pack 1 (e.toNat) _ _ (by omega), unpack_pack 5 (0) _ _ (by omega), unpack_pack 5 (a.code) _ _ (by omega), unpack_pack 5 (0) _ _ (by omega), unpack_pack 8 (op) _ _ (by omega), unpack_pack 4 (g.val) _ _ (by omega)]
  simp only [unpack]
  refine (checked_ok _ _ (by simp)).trans (by simp)

theorem shS_gdk.encode_op (op : Nat) (ho : op < 256) (g : Fin 16) (d : Dst) (k : Fin 8) :
    shS_gdk.enc op g d k / 2 ^ 20 % 256 = op := by
  have h_g := g.isLt
  have h_d := Dst.code_le d
  have h_k := k.isLt
  simp only [shS_gdk.enc, pack]; omega

theorem shS_gdk.decode_encode (mk : Fin 16 → Dst → Fin 8 → Instr) (op : Nat) (ho : op < 256) (g : Fin 16) (d : Dst) (k : Fin 8) :
    shS_gdk.dec mk (shS_gdk.enc op g d k) = .ok (mk g d k) := by
  have h_g := g.isLt
  have h_d := Dst.code_le d
  have h_k := k.isLt
  simp only [shS_gdk.enc, shS_gdk.dec]
  rw [unpack_pack 3 (k.val) _ _ (by omega), unpack_pack 12 (0) _ _ (by omega), unpack_pack 5 (d.code) _ _ (by omega), unpack_pack 8 (op) _ _ (by omega), unpack_pack 4 (g.val) _ _ (by omega)]
  simp only [unpack]
  refine (checked_ok _ _ (by simp; omega)).trans (by simp)

theorem shS_ghaes.encode_op (op : Nat) (ho : op < 256) (g : Fin 16) (h : Fin 16) (a : Src) (e : Bool) (s : Space) :
    shS_ghaes.enc op g h a e s / 2 ^ 20 % 256 = op := by
  have h_g := g.isLt
  have h_h := h.isLt
  have h_a := Src.code_lt a
  have h_e := toNat_lt_two e
  have h_s : s.code < 4 := by cases s <;> decide
  simp only [shS_ghaes.enc, pack]; omega

theorem shS_ghaes.decode_encode (mk : Fin 16 → Fin 16 → Src → Bool → Space → Instr) (op : Nat) (ho : op < 256) (g : Fin 16) (h : Fin 16) (a : Src) (e : Bool) (s : Space) :
    shS_ghaes.dec mk (shS_ghaes.enc op g h a e s) = .ok (mk g h a e s) := by
  have h_g := g.isLt
  have h_h := h.isLt
  have h_a := Src.code_lt a
  have h_e := toNat_lt_two e
  have h_s : s.code < 4 := by cases s <;> decide
  simp only [shS_ghaes.enc, shS_ghaes.dec]
  rw [unpack_pack 1 (0) _ _ (by omega), unpack_pack 2 (s.code) _ _ (by omega), unpack_pack 1 (0) _ _ (by omega), unpack_pack 1 (e.toNat) _ _ (by omega), unpack_pack 5 (0) _ _ (by omega), unpack_pack 5 (a.code) _ _ (by omega), unpack_pack 4 (h.val) _ _ (by omega), unpack_pack 1 (0) _ _ (by omega), unpack_pack 8 (op) _ _ (by omega), unpack_pack 4 (g.val) _ _ (by omega)]
  simp only [unpack]
  refine (checked_ok _ _ (by simp)).trans (by simp)

theorem shS_ghabef.encode_op (op : Nat) (ho : op < 256) (g : Fin 16) (h : Fin 16) (a : Src) (b : Src) (e : Bool) (f : Bool) :
    shS_ghabef.enc op g h a b e f / 2 ^ 20 % 256 = op := by
  have h_g := g.isLt
  have h_h := h.isLt
  have h_a := Src.code_lt a
  have h_b := Src.code_lt b
  have h_e := toNat_lt_two e
  have h_f := toNat_lt_two f
  simp only [shS_ghabef.enc, pack]; omega

theorem shS_ghabef.decode_encode (mk : Fin 16 → Fin 16 → Src → Src → Bool → Bool → Instr) (op : Nat) (ho : op < 256) (g : Fin 16) (h : Fin 16) (a : Src) (b : Src) (e : Bool) (f : Bool) :
    shS_ghabef.dec mk (shS_ghabef.enc op g h a b e f) = .ok (mk g h a b e f) := by
  have h_g := g.isLt
  have h_h := h.isLt
  have h_a := Src.code_lt a
  have h_b := Src.code_lt b
  have h_e := toNat_lt_two e
  have h_f := toNat_lt_two f
  simp only [shS_ghabef.enc, shS_ghabef.dec]
  rw [unpack_pack 3 (0) _ _ (by omega), unpack_pack 1 (f.toNat) _ _ (by omega), unpack_pack 1 (e.toNat) _ _ (by omega), unpack_pack 5 (b.code) _ _ (by omega), unpack_pack 5 (a.code) _ _ (by omega), unpack_pack 4 (h.val) _ _ (by omega), unpack_pack 1 (0) _ _ (by omega), unpack_pack 8 (op) _ _ (by omega), unpack_pack 4 (g.val) _ _ (by omega)]
  simp only [unpack]
  refine (checked_ok _ _ (by simp)).trans (by simp)

theorem shS_gdabefsx.encode_op (op : Nat) (ho : op < 256) (g : Fin 16) (d : Dst) (a : Src) (b : Src) (e : Bool) (f : Bool) (s : Space) (x : Bool) :
    shS_gdabefsx.enc op g d a b e f s x / 2 ^ 20 % 256 = op := by
  have h_g := g.isLt
  have h_d := Dst.code_le d
  have h_a := Src.code_lt a
  have h_b := Src.code_lt b
  have h_e := toNat_lt_two e
  have h_f := toNat_lt_two f
  have h_s : s.code < 4 := by cases s <;> decide
  have h_x := toNat_lt_two x
  simp only [shS_gdabefsx.enc, pack]; omega

theorem shS_gdabefsx.decode_encode (mk : Fin 16 → Dst → Src → Src → Bool → Bool → Space → Bool → Instr) (op : Nat) (ho : op < 256) (g : Fin 16) (d : Dst) (a : Src) (b : Src) (e : Bool) (f : Bool) (s : Space) (x : Bool) :
    shS_gdabefsx.dec mk (shS_gdabefsx.enc op g d a b e f s x) = .ok (mk g d a b e f s x) := by
  have h_g := g.isLt
  have h_d := Dst.code_le d
  have h_a := Src.code_lt a
  have h_b := Src.code_lt b
  have h_e := toNat_lt_two e
  have h_f := toNat_lt_two f
  have h_s : s.code < 4 := by cases s <;> decide
  have h_x := toNat_lt_two x
  simp only [shS_gdabefsx.enc, shS_gdabefsx.dec]
  rw [unpack_pack 1 (x.toNat) _ _ (by omega), unpack_pack 2 (s.code) _ _ (by omega), unpack_pack 1 (f.toNat) _ _ (by omega), unpack_pack 1 (e.toNat) _ _ (by omega), unpack_pack 5 (b.code) _ _ (by omega), unpack_pack 5 (a.code) _ _ (by omega), unpack_pack 5 (d.code) _ _ (by omega), unpack_pack 8 (op) _ _ (by omega), unpack_pack 4 (g.val) _ _ (by omega)]
  simp only [unpack]
  refine (checked_ok _ _ (by simp; omega)).trans (by simp)

theorem shS_gdabefs.encode_op (op : Nat) (ho : op < 256) (g : Fin 16) (d : Dst) (a : Src) (b : Src) (e : Bool) (f : Bool) (s : Space) :
    shS_gdabefs.enc op g d a b e f s / 2 ^ 20 % 256 = op := by
  have h_g := g.isLt
  have h_d := Dst.code_le d
  have h_a := Src.code_lt a
  have h_b := Src.code_lt b
  have h_e := toNat_lt_two e
  have h_f := toNat_lt_two f
  have h_s : s.code < 4 := by cases s <;> decide
  simp only [shS_gdabefs.enc, pack]; omega

theorem shS_gdabefs.decode_encode (mk : Fin 16 → Dst → Src → Src → Bool → Bool → Space → Instr) (op : Nat) (ho : op < 256) (g : Fin 16) (d : Dst) (a : Src) (b : Src) (e : Bool) (f : Bool) (s : Space) :
    shS_gdabefs.dec mk (shS_gdabefs.enc op g d a b e f s) = .ok (mk g d a b e f s) := by
  have h_g := g.isLt
  have h_d := Dst.code_le d
  have h_a := Src.code_lt a
  have h_b := Src.code_lt b
  have h_e := toNat_lt_two e
  have h_f := toNat_lt_two f
  have h_s : s.code < 4 := by cases s <;> decide
  simp only [shS_gdabefs.enc, shS_gdabefs.dec]
  rw [unpack_pack 1 (0) _ _ (by omega), unpack_pack 2 (s.code) _ _ (by omega), unpack_pack 1 (f.toNat) _ _ (by omega), unpack_pack 1 (e.toNat) _ _ (by omega), unpack_pack 5 (b.code) _ _ (by omega), unpack_pack 5 (a.code) _ _ (by omega), unpack_pack 5 (d.code) _ _ (by omega), unpack_pack 8 (op) _ _ (by omega), unpack_pack 4 (g.val) _ _ (by omega)]
  simp only [unpack]
  refine (checked_ok _ _ (by simp; omega)).trans (by simp)

theorem shS_gdasrec.encode_op (op : Nat) (ho : op < 256) (g : Fin 16) (d : Dst) (a : Src) (s : Space) (r : Bool) (e : Bool) (c : Scope) :
    shS_gdasrec.enc op g d a s r e c / 2 ^ 20 % 256 = op := by
  have h_g := g.isLt
  have h_d := Dst.code_le d
  have h_a := Src.code_lt a
  have h_s : s.code < 4 := by cases s <;> decide
  have h_r := toNat_lt_two r
  have h_e := toNat_lt_two e
  have h_c : c.code < 5 := by cases c <;> decide
  simp only [shS_gdasrec.enc, pack]; omega

theorem shS_gdasrec.decode_encode (mk : Fin 16 → Dst → Src → Space → Bool → Bool → Scope → Instr) (op : Nat) (ho : op < 256) (g : Fin 16) (d : Dst) (a : Src) (s : Space) (r : Bool) (e : Bool) (c : Scope) :
    shS_gdasrec.dec mk (shS_gdasrec.enc op g d a s r e c) = .ok (mk g d a s r e c) := by
  have h_g := g.isLt
  have h_d := Dst.code_le d
  have h_a := Src.code_lt a
  have h_s : s.code < 4 := by cases s <;> decide
  have h_r := toNat_lt_two r
  have h_e := toNat_lt_two e
  have h_c : c.code < 5 := by cases c <;> decide
  simp only [shS_gdasrec.enc, shS_gdasrec.dec]
  rw [unpack_pack 3 (c.code) _ _ (by omega), unpack_pack 1 (0) _ _ (by omega), unpack_pack 1 (e.toNat) _ _ (by omega), unpack_pack 2 (0) _ _ (by omega), unpack_pack 1 (r.toNat) _ _ (by omega), unpack_pack 2 (s.code) _ _ (by omega), unpack_pack 5 (a.code) _ _ (by omega), unpack_pack 5 (d.code) _ _ (by omega), unpack_pack 8 (op) _ _ (by omega), unpack_pack 4 (g.val) _ _ (by omega)]
  simp only [unpack]
  refine (checked_ok _ _ (by simp; omega)).trans (by simp)

theorem shS_gsabef.encode_op (op : Nat) (ho : op < 256) (g : Fin 16) (s : Space) (a : Src) (b : Src) (e : Bool) (f : Bool) :
    shS_gsabef.enc op g s a b e f / 2 ^ 20 % 256 = op := by
  have h_g := g.isLt
  have h_s : s.code < 4 := by cases s <;> decide
  have h_a := Src.code_lt a
  have h_b := Src.code_lt b
  have h_e := toNat_lt_two e
  have h_f := toNat_lt_two f
  simp only [shS_gsabef.enc, pack]; omega

theorem shS_gsabef.decode_encode (mk : Fin 16 → Space → Src → Src → Bool → Bool → Instr) (op : Nat) (ho : op < 256) (g : Fin 16) (s : Space) (a : Src) (b : Src) (e : Bool) (f : Bool) :
    shS_gsabef.dec mk (shS_gsabef.enc op g s a b e f) = .ok (mk g s a b e f) := by
  have h_g := g.isLt
  have h_s : s.code < 4 := by cases s <;> decide
  have h_a := Src.code_lt a
  have h_b := Src.code_lt b
  have h_e := toNat_lt_two e
  have h_f := toNat_lt_two f
  simp only [shS_gsabef.enc, shS_gsabef.dec]
  rw [unpack_pack 3 (0) _ _ (by omega), unpack_pack 1 (f.toNat) _ _ (by omega), unpack_pack 1 (e.toNat) _ _ (by omega), unpack_pack 5 (b.code) _ _ (by omega), unpack_pack 5 (a.code) _ _ (by omega), unpack_pack 3 (0) _ _ (by omega), unpack_pack 2 (s.code) _ _ (by omega), unpack_pack 8 (op) _ _ (by omega), unpack_pack 4 (g.val) _ _ (by omega)]
  simp only [unpack]
  refine (checked_ok _ _ (by simp)).trans (by simp)

theorem shS_gsrabefc.encode_op (op : Nat) (ho : op < 256) (g : Fin 16) (s : Space) (r : Bool) (a : Src) (b : Src) (e : Bool) (f : Bool) (c : Scope) :
    shS_gsrabefc.enc op g s r a b e f c / 2 ^ 20 % 256 = op := by
  have h_g := g.isLt
  have h_s : s.code < 4 := by cases s <;> decide
  have h_r := toNat_lt_two r
  have h_a := Src.code_lt a
  have h_b := Src.code_lt b
  have h_e := toNat_lt_two e
  have h_f := toNat_lt_two f
  have h_c : c.code < 5 := by cases c <;> decide
  simp only [shS_gsrabefc.enc, pack]; omega

theorem shS_gsrabefc.decode_encode (mk : Fin 16 → Space → Bool → Src → Src → Bool → Bool → Scope → Instr) (op : Nat) (ho : op < 256) (g : Fin 16) (s : Space) (r : Bool) (a : Src) (b : Src) (e : Bool) (f : Bool) (c : Scope) :
    shS_gsrabefc.dec mk (shS_gsrabefc.enc op g s r a b e f c) = .ok (mk g s r a b e f c) := by
  have h_g := g.isLt
  have h_s : s.code < 4 := by cases s <;> decide
  have h_r := toNat_lt_two r
  have h_a := Src.code_lt a
  have h_b := Src.code_lt b
  have h_e := toNat_lt_two e
  have h_f := toNat_lt_two f
  have h_c : c.code < 5 := by cases c <;> decide
  simp only [shS_gsrabefc.enc, shS_gsrabefc.dec]
  rw [unpack_pack 3 (c.code) _ _ (by omega), unpack_pack 1 (f.toNat) _ _ (by omega), unpack_pack 1 (e.toNat) _ _ (by omega), unpack_pack 5 (b.code) _ _ (by omega), unpack_pack 5 (a.code) _ _ (by omega), unpack_pack 2 (0) _ _ (by omega), unpack_pack 1 (r.toNat) _ _ (by omega), unpack_pack 2 (s.code) _ _ (by omega), unpack_pack 8 (op) _ _ (by omega), unpack_pack 4 (g.val) _ _ (by omega)]
  simp only [unpack]
  refine (checked_ok _ _ (by simp; omega)).trans (by simp)

theorem shS_gswoabefc.encode_op (op : Nat) (ho : op < 256) (g : Fin 16) (s : Space) (w : Bool) (o : AmoOrd) (a : Src) (b : Src) (e : Bool) (f : Bool) (c : Scope) :
    shS_gswoabefc.enc op g s w o a b e f c / 2 ^ 20 % 256 = op := by
  have h_g := g.isLt
  have h_s : s.code < 4 := by cases s <;> decide
  have h_w := toNat_lt_two w
  have h_o : o.code < 4 := by cases o <;> decide
  have h_a := Src.code_lt a
  have h_b := Src.code_lt b
  have h_e := toNat_lt_two e
  have h_f := toNat_lt_two f
  have h_c : c.code < 5 := by cases c <;> decide
  simp only [shS_gswoabefc.enc, pack]; omega

theorem shS_gswoabefc.decode_encode (mk : Fin 16 → Space → Bool → AmoOrd → Src → Src → Bool → Bool → Scope → Instr) (op : Nat) (ho : op < 256) (g : Fin 16) (s : Space) (w : Bool) (o : AmoOrd) (a : Src) (b : Src) (e : Bool) (f : Bool) (c : Scope) :
    shS_gswoabefc.dec mk (shS_gswoabefc.enc op g s w o a b e f c) = .ok (mk g s w o a b e f c) := by
  have h_g := g.isLt
  have h_s : s.code < 4 := by cases s <;> decide
  have h_w := toNat_lt_two w
  have h_o : o.code < 4 := by cases o <;> decide
  have h_a := Src.code_lt a
  have h_b := Src.code_lt b
  have h_e := toNat_lt_two e
  have h_f := toNat_lt_two f
  have h_c : c.code < 5 := by cases c <;> decide
  simp only [shS_gswoabefc.enc, shS_gswoabefc.dec]
  rw [unpack_pack 3 (c.code) _ _ (by omega), unpack_pack 1 (f.toNat) _ _ (by omega), unpack_pack 1 (e.toNat) _ _ (by omega), unpack_pack 5 (b.code) _ _ (by omega), unpack_pack 5 (a.code) _ _ (by omega), unpack_pack 2 (o.code) _ _ (by omega), unpack_pack 1 (w.toNat) _ _ (by omega), unpack_pack 2 (s.code) _ _ (by omega), unpack_pack 8 (op) _ _ (by omega), unpack_pack 4 (g.val) _ _ (by omega)]
  simp only [unpack]
  refine (checked_ok _ _ (by simp; omega)).trans (by simp)

theorem shS_gswoabefc2.encode_op (op : Nat) (ho : op < 256) (g : Fin 16) (s : Space) (w : Bool) (o : AmoOrd) (a : Src) (b : Fin 8) (e : Bool) (f : Bool) (c : Scope) :
    shS_gswoabefc2.enc op g s w o a b e f c / 2 ^ 20 % 256 = op := by
  have h_g := g.isLt
  have h_s : s.code < 4 := by cases s <;> decide
  have h_w := toNat_lt_two w
  have h_o : o.code < 4 := by cases o <;> decide
  have h_a := Src.code_lt a
  have h_b := b.isLt
  have h_e := toNat_lt_two e
  have h_f := toNat_lt_two f
  have h_c : c.code < 5 := by cases c <;> decide
  simp only [shS_gswoabefc2.enc, pack]; omega

theorem shS_gswoabefc2.decode_encode (mk : Fin 16 → Space → Bool → AmoOrd → Src → Fin 8 → Bool → Bool → Scope → Instr) (op : Nat) (ho : op < 256) (g : Fin 16) (s : Space) (w : Bool) (o : AmoOrd) (a : Src) (b : Fin 8) (e : Bool) (f : Bool) (c : Scope) :
    shS_gswoabefc2.dec mk (shS_gswoabefc2.enc op g s w o a b e f c) = .ok (mk g s w o a b e f c) := by
  have h_g := g.isLt
  have h_s : s.code < 4 := by cases s <;> decide
  have h_w := toNat_lt_two w
  have h_o : o.code < 4 := by cases o <;> decide
  have h_a := Src.code_lt a
  have h_b := b.isLt
  have h_e := toNat_lt_two e
  have h_f := toNat_lt_two f
  have h_c : c.code < 5 := by cases c <;> decide
  simp only [shS_gswoabefc2.enc, shS_gswoabefc2.dec]
  rw [unpack_pack 3 (c.code) _ _ (by omega), unpack_pack 1 (f.toNat) _ _ (by omega), unpack_pack 1 (e.toNat) _ _ (by omega), unpack_pack 5 (2 * b.val) _ _ (by omega), unpack_pack 5 (a.code) _ _ (by omega), unpack_pack 2 (o.code) _ _ (by omega), unpack_pack 1 (w.toNat) _ _ (by omega), unpack_pack 2 (s.code) _ _ (by omega), unpack_pack 8 (op) _ _ (by omega), unpack_pack 4 (g.val) _ _ (by omega)]
  simp only [unpack]
  refine (checked_ok _ _ (by simp; omega)).trans (by simp)

theorem shS_gabefs.encode_op (op : Nat) (ho : op < 256) (g : Fin 16) (a : Src) (b : Src) (e : Bool) (f : Bool) (s : Space) :
    shS_gabefs.enc op g a b e f s / 2 ^ 20 % 256 = op := by
  have h_g := g.isLt
  have h_a := Src.code_lt a
  have h_b := Src.code_lt b
  have h_e := toNat_lt_two e
  have h_f := toNat_lt_two f
  have h_s : s.code < 4 := by cases s <;> decide
  simp only [shS_gabefs.enc, pack]; omega

theorem shS_gabefs.decode_encode (mk : Fin 16 → Src → Src → Bool → Bool → Space → Instr) (op : Nat) (ho : op < 256) (g : Fin 16) (a : Src) (b : Src) (e : Bool) (f : Bool) (s : Space) :
    shS_gabefs.dec mk (shS_gabefs.enc op g a b e f s) = .ok (mk g a b e f s) := by
  have h_g := g.isLt
  have h_a := Src.code_lt a
  have h_b := Src.code_lt b
  have h_e := toNat_lt_two e
  have h_f := toNat_lt_two f
  have h_s : s.code < 4 := by cases s <;> decide
  simp only [shS_gabefs.enc, shS_gabefs.dec]
  rw [unpack_pack 1 (0) _ _ (by omega), unpack_pack 2 (s.code) _ _ (by omega), unpack_pack 1 (f.toNat) _ _ (by omega), unpack_pack 1 (e.toNat) _ _ (by omega), unpack_pack 5 (b.code) _ _ (by omega), unpack_pack 5 (a.code) _ _ (by omega), unpack_pack 5 (0) _ _ (by omega), unpack_pack 8 (op) _ _ (by omega), unpack_pack 4 (g.val) _ _ (by omega)]
  simp only [unpack]
  refine (checked_ok _ _ (by simp)).trans (by simp)

theorem shS_gdaes.encode_op (op : Nat) (ho : op < 256) (g : Fin 16) (d : Dst) (a : Src) (e : Bool) (s : Space) :
    shS_gdaes.enc op g d a e s / 2 ^ 20 % 256 = op := by
  have h_g := g.isLt
  have h_d := Dst.code_le d
  have h_a := Src.code_lt a
  have h_e := toNat_lt_two e
  have h_s : s.code < 4 := by cases s <;> decide
  simp only [shS_gdaes.enc, pack]; omega

theorem shS_gdaes.decode_encode (mk : Fin 16 → Dst → Src → Bool → Space → Instr) (op : Nat) (ho : op < 256) (g : Fin 16) (d : Dst) (a : Src) (e : Bool) (s : Space) :
    shS_gdaes.dec mk (shS_gdaes.enc op g d a e s) = .ok (mk g d a e s) := by
  have h_g := g.isLt
  have h_d := Dst.code_le d
  have h_a := Src.code_lt a
  have h_e := toNat_lt_two e
  have h_s : s.code < 4 := by cases s <;> decide
  simp only [shS_gdaes.enc, shS_gdaes.dec]
  rw [unpack_pack 1 (0) _ _ (by omega), unpack_pack 2 (s.code) _ _ (by omega), unpack_pack 1 (0) _ _ (by omega), unpack_pack 1 (e.toNat) _ _ (by omega), unpack_pack 5 (0) _ _ (by omega), unpack_pack 5 (a.code) _ _ (by omega), unpack_pack 5 (d.code) _ _ (by omega), unpack_pack 8 (op) _ _ (by omega), unpack_pack 4 (g.val) _ _ (by omega)]
  simp only [unpack]
  refine (checked_ok _ _ (by simp; omega)).trans (by simp)

theorem shS_goc.encode_op (op : Nat) (ho : op < 256) (g : Fin 16) (o : FenceOrd) (c : Scope) :
    shS_goc.enc op g o c / 2 ^ 20 % 256 = op := by
  have h_g := g.isLt
  have h_o : o.code < 4 := by cases o <;> decide
  have h_c : c.code < 5 := by cases c <;> decide
  simp only [shS_goc.enc, pack]; omega

theorem shS_goc.decode_encode (mk : Fin 16 → FenceOrd → Scope → Instr) (op : Nat) (ho : op < 256) (g : Fin 16) (o : FenceOrd) (c : Scope) :
    shS_goc.dec mk (shS_goc.enc op g o c) = .ok (mk g o c) := by
  have h_g := g.isLt
  have h_o : o.code < 4 := by cases o <;> decide
  have h_c : c.code < 5 := by cases c <;> decide
  simp only [shS_goc.enc, shS_goc.dec]
  rw [unpack_pack 3 (c.code) _ _ (by omega), unpack_pack 12 (0) _ _ (by omega), unpack_pack 2 (o.code) _ _ (by omega), unpack_pack 3 (0) _ _ (by omega), unpack_pack 8 (op) _ _ (by omega), unpack_pack 4 (g.val) _ _ (by omega)]
  simp only [unpack]
  refine (checked_ok _ _ (by simp; omega)).trans (by simp)

theorem shS_g.encode_op (op : Nat) (ho : op < 256) (g : Fin 16) :
    shS_g.enc op g / 2 ^ 20 % 256 = op := by
  have h_g := g.isLt
  simp only [shS_g.enc, pack]; omega

theorem shS_g.decode_encode (mk : Fin 16 → Instr) (op : Nat) (ho : op < 256) (g : Fin 16) :
    shS_g.dec mk (shS_g.enc op g) = .ok (mk g) := by
  have h_g := g.isLt
  simp only [shS_g.enc, shS_g.dec]
  rw [unpack_pack 20 (0) _ _ (by omega), unpack_pack 8 (op) _ _ (by omega), unpack_pack 4 (g.val) _ _ (by omega)]
  simp only [unpack]
  refine (checked_ok _ _ (by simp)).trans (by simp)

theorem shS_gb.encode_op (op : Nat) (ho : op < 256) (g : Fin 16) (b : Fin 16) :
    shS_gb.enc op g b / 2 ^ 20 % 256 = op := by
  have h_g := g.isLt
  have h_b := b.isLt
  simp only [shS_gb.enc, pack]; omega

theorem shS_gb.decode_encode (mk : Fin 16 → Fin 16 → Instr) (op : Nat) (ho : op < 256) (g : Fin 16) (b : Fin 16) :
    shS_gb.dec mk (shS_gb.enc op g b) = .ok (mk g b) := by
  have h_g := g.isLt
  have h_b := b.isLt
  simp only [shS_gb.enc, shS_gb.dec]
  rw [unpack_pack 5 (0) _ _ (by omega), unpack_pack 4 (b.val) _ _ (by omega), unpack_pack 11 (0) _ _ (by omega), unpack_pack 8 (op) _ _ (by omega), unpack_pack 4 (g.val) _ _ (by omega)]
  simp only [unpack]
  refine (checked_ok _ _ (by simp)).trans (by simp)

theorem shS_gdb.encode_op (op : Nat) (ho : op < 256) (g : Fin 16) (d : Dst) (b : Fin 16) :
    shS_gdb.enc op g d b / 2 ^ 20 % 256 = op := by
  have h_g := g.isLt
  have h_d := Dst.code_le d
  have h_b := b.isLt
  simp only [shS_gdb.enc, pack]; omega

theorem shS_gdb.decode_encode (mk : Fin 16 → Dst → Fin 16 → Instr) (op : Nat) (ho : op < 256) (g : Fin 16) (d : Dst) (b : Fin 16) :
    shS_gdb.dec mk (shS_gdb.enc op g d b) = .ok (mk g d b) := by
  have h_g := g.isLt
  have h_d := Dst.code_le d
  have h_b := b.isLt
  simp only [shS_gdb.enc, shS_gdb.dec]
  rw [unpack_pack 5 (0) _ _ (by omega), unpack_pack 4 (b.val) _ _ (by omega), unpack_pack 6 (0) _ _ (by omega), unpack_pack 5 (d.code) _ _ (by omega), unpack_pack 8 (op) _ _ (by omega), unpack_pack 4 (g.val) _ _ (by omega)]
  simp only [unpack]
  refine (checked_ok _ _ (by simp; omega)).trans (by simp)

theorem shS_gdn.encode_op (op : Nat) (ho : op < 256) (g : Fin 16) (d : Dst) (n : SysReg) :
    shS_gdn.enc op g d n / 2 ^ 20 % 256 = op := by
  have h_g := g.isLt
  have h_d := Dst.code_le d
  have h_n : n.code < 1024 := by cases n <;> decide
  simp only [shS_gdn.enc, pack]; omega

theorem shS_gdn.decode_encode (mk : Fin 16 → Dst → SysReg → Instr) (op : Nat) (ho : op < 256) (g : Fin 16) (d : Dst) (n : SysReg) :
    shS_gdn.dec mk (shS_gdn.enc op g d n) = .ok (mk g d n) := by
  have h_g := g.isLt
  have h_d := Dst.code_le d
  have h_n : n.code < 1024 := by cases n <;> decide
  simp only [shS_gdn.enc, shS_gdn.dec]
  rw [unpack_pack 5 (0) _ _ (by omega), unpack_pack 10 (n.code) _ _ (by omega), unpack_pack 5 (d.code) _ _ (by omega), unpack_pack 8 (op) _ _ (by omega), unpack_pack 4 (g.val) _ _ (by omega)]
  simp only [unpack]
  refine (checked_ok _ _ (by simp; omega)).trans (by simp)

theorem shS_gnb.encode_op (op : Nat) (ho : op < 256) (g : Fin 16) (n : SysReg) (b : Src) :
    shS_gnb.enc op g n b / 2 ^ 20 % 256 = op := by
  have h_g := g.isLt
  have h_n : n.code < 1024 := by cases n <;> decide
  have h_b := Src.code_lt b
  simp only [shS_gnb.enc, pack]; omega

theorem shS_gnb.decode_encode (mk : Fin 16 → SysReg → Src → Instr) (op : Nat) (ho : op < 256) (g : Fin 16) (n : SysReg) (b : Src) :
    shS_gnb.dec mk (shS_gnb.enc op g n b) = .ok (mk g n b) := by
  have h_g := g.isLt
  have h_n : n.code < 1024 := by cases n <;> decide
  have h_b := Src.code_lt b
  simp only [shS_gnb.enc, shS_gnb.dec]
  rw [unpack_pack 5 (0) _ _ (by omega), unpack_pack 5 (b.code) _ _ (by omega), unpack_pack 10 (n.code) _ _ (by omega), unpack_pack 8 (op) _ _ (by omega), unpack_pack 4 (g.val) _ _ (by omega)]
  simp only [unpack]
  refine (checked_ok _ _ (by simp)).trans (by simp)

theorem shS_gd.encode_op (op : Nat) (ho : op < 256) (g : Fin 16) (d : Dst) :
    shS_gd.enc op g d / 2 ^ 20 % 256 = op := by
  have h_g := g.isLt
  have h_d := Dst.code_le d
  simp only [shS_gd.enc, pack]; omega

theorem shS_gd.decode_encode (mk : Fin 16 → Dst → Instr) (op : Nat) (ho : op < 256) (g : Fin 16) (d : Dst) :
    shS_gd.dec mk (shS_gd.enc op g d) = .ok (mk g d) := by
  have h_g := g.isLt
  have h_d := Dst.code_le d
  simp only [shS_gd.enc, shS_gd.dec]
  rw [unpack_pack 15 (0) _ _ (by omega), unpack_pack 5 (d.code) _ _ (by omega), unpack_pack 8 (op) _ _ (by omega), unpack_pack 4 (g.val) _ _ (by omega)]
  simp only [unpack]
  refine (checked_ok _ _ (by simp; omega)).trans (by simp)

theorem shS_gae.encode_op (op : Nat) (ho : op < 256) (g : Fin 16) (a : Src) (e : Bool) :
    shS_gae.enc op g a e / 2 ^ 20 % 256 = op := by
  have h_g := g.isLt
  have h_a := Src.code_lt a
  have h_e := toNat_lt_two e
  simp only [shS_gae.enc, pack]; omega

theorem shS_gae.decode_encode (mk : Fin 16 → Src → Bool → Instr) (op : Nat) (ho : op < 256) (g : Fin 16) (a : Src) (e : Bool) :
    shS_gae.dec mk (shS_gae.enc op g a e) = .ok (mk g a e) := by
  have h_g := g.isLt
  have h_a := Src.code_lt a
  have h_e := toNat_lt_two e
  simp only [shS_gae.enc, shS_gae.dec]
  rw [unpack_pack 4 (0) _ _ (by omega), unpack_pack 1 (e.toNat) _ _ (by omega), unpack_pack 5 (0) _ _ (by omega), unpack_pack 5 (a.code) _ _ (by omega), unpack_pack 5 (0) _ _ (by omega), unpack_pack 8 (op) _ _ (by omega), unpack_pack 4 (g.val) _ _ (by omega)]
  simp only [unpack]
  refine (checked_ok _ _ (by simp)).trans (by simp)

theorem shS_gabef.encode_op (op : Nat) (ho : op < 256) (g : Fin 16) (a : Src) (b : Src) (e : Bool) (f : Bool) :
    shS_gabef.enc op g a b e f / 2 ^ 20 % 256 = op := by
  have h_g := g.isLt
  have h_a := Src.code_lt a
  have h_b := Src.code_lt b
  have h_e := toNat_lt_two e
  have h_f := toNat_lt_two f
  simp only [shS_gabef.enc, pack]; omega

theorem shS_gabef.decode_encode (mk : Fin 16 → Src → Src → Bool → Bool → Instr) (op : Nat) (ho : op < 256) (g : Fin 16) (a : Src) (b : Src) (e : Bool) (f : Bool) :
    shS_gabef.dec mk (shS_gabef.enc op g a b e f) = .ok (mk g a b e f) := by
  have h_g := g.isLt
  have h_a := Src.code_lt a
  have h_b := Src.code_lt b
  have h_e := toNat_lt_two e
  have h_f := toNat_lt_two f
  simp only [shS_gabef.enc, shS_gabef.dec]
  rw [unpack_pack 3 (0) _ _ (by omega), unpack_pack 1 (f.toNat) _ _ (by omega), unpack_pack 1 (e.toNat) _ _ (by omega), unpack_pack 5 (b.code) _ _ (by omega), unpack_pack 5 (a.code) _ _ (by omega), unpack_pack 5 (0) _ _ (by omega), unpack_pack 8 (op) _ _ (by omega), unpack_pack 4 (g.val) _ _ (by omega)]
  simp only [unpack]
  refine (checked_ok _ _ (by simp)).trans (by simp)

theorem shS_gdk2.encode_op (op : Nat) (ho : op < 256) (g : Fin 16) (d : Dst) (k : Fin 8) :
    shS_gdk2.enc op g d k / 2 ^ 20 % 256 = op := by
  have h_g := g.isLt
  have h_d := Dst.code_le d
  have h_k := k.isLt
  simp only [shS_gdk2.enc, pack]; omega

theorem shS_gdk2.decode_encode (mk : Fin 16 → Dst → Fin 8 → Instr) (op : Nat) (ho : op < 256) (g : Fin 16) (d : Dst) (k : Fin 8) :
    shS_gdk2.dec mk (shS_gdk2.enc op g d k) = .ok (mk g d k) := by
  have h_g := g.isLt
  have h_d := Dst.code_le d
  have h_k := k.isLt
  simp only [shS_gdk2.enc, shS_gdk2.dec]
  rw [unpack_pack 5 (0) _ _ (by omega), unpack_pack 3 (k.val) _ _ (by omega), unpack_pack 7 (0) _ _ (by omega), unpack_pack 5 (d.code) _ _ (by omega), unpack_pack 8 (op) _ _ (by omega), unpack_pack 4 (g.val) _ _ (by omega)]
  simp only [unpack]
  refine (checked_ok _ _ (by simp; omega)).trans (by simp)

theorem shS_gdabefx3.encode_op (op : Nat) (ho : op < 256) (g : Fin 16) (d : Dst) (a : Src) (b : Src) (e : Bool) (f : Bool) (x : Fin 4) :
    shS_gdabefx3.enc op g d a b e f x / 2 ^ 20 % 256 = op := by
  have h_g := g.isLt
  have h_d := Dst.code_le d
  have h_a := Src.code_lt a
  have h_b := Src.code_lt b
  have h_e := toNat_lt_two e
  have h_f := toNat_lt_two f
  have h_x := x.isLt
  simp only [shS_gdabefx3.enc, pack]; omega

theorem shS_gdabefx3.decode_encode (mk : Fin 16 → Dst → Src → Src → Bool → Bool → Fin 4 → Instr) (op : Nat) (ho : op < 256) (g : Fin 16) (d : Dst) (a : Src) (b : Src) (e : Bool) (f : Bool) (x : Fin 4) :
    shS_gdabefx3.dec mk (shS_gdabefx3.enc op g d a b e f x) = .ok (mk g d a b e f x) := by
  have h_g := g.isLt
  have h_d := Dst.code_le d
  have h_a := Src.code_lt a
  have h_b := Src.code_lt b
  have h_e := toNat_lt_two e
  have h_f := toNat_lt_two f
  have h_x := x.isLt
  simp only [shS_gdabefx3.enc, shS_gdabefx3.dec]
  rw [unpack_pack 2 (x.val) _ _ (by omega), unpack_pack 1 (0) _ _ (by omega), unpack_pack 1 (f.toNat) _ _ (by omega), unpack_pack 1 (e.toNat) _ _ (by omega), unpack_pack 5 (b.code) _ _ (by omega), unpack_pack 5 (a.code) _ _ (by omega), unpack_pack 5 (d.code) _ _ (by omega), unpack_pack 8 (op) _ _ (by omega), unpack_pack 4 (g.val) _ _ (by omega)]
  simp only [unpack]
  refine (checked_ok _ _ (by simp; omega)).trans (by simp)

theorem shV_gdabmeft.encode_op (op : Nat) (ho : op < 256) (g : Fin 16) (d : Fin 16) (a : Fin 16) (b : Fin 16) (m : Fin 8) (e : Bool) (f : Bool) (t : FTy) :
    shV_gdabmeft.enc op g d a b m e f t / 2 ^ 20 % 256 = op := by
  have h_g := g.isLt
  have h_d := d.isLt
  have h_a := a.isLt
  have h_b := b.isLt
  have h_m := m.isLt
  have h_e := toNat_lt_two e
  have h_f := toNat_lt_two f
  have h_t : t.code < 5 := by cases t <;> decide
  simp only [shV_gdabmeft.enc, pack]; omega

theorem shV_gdabmeft.decode_encode (mk : Fin 16 → Fin 16 → Fin 16 → Fin 16 → Fin 8 → Bool → Bool → FTy → Instr) (op : Nat) (ho : op < 256) (g : Fin 16) (d : Fin 16) (a : Fin 16) (b : Fin 16) (m : Fin 8) (e : Bool) (f : Bool) (t : FTy) :
    shV_gdabmeft.dec mk (shV_gdabmeft.enc op g d a b m e f t) = .ok (mk g d a b m e f t) := by
  have h_g := g.isLt
  have h_d := d.isLt
  have h_a := a.isLt
  have h_b := b.isLt
  have h_m := m.isLt
  have h_e := toNat_lt_two e
  have h_f := toNat_lt_two f
  have h_t : t.code < 5 := by cases t <;> decide
  simp only [shV_gdabmeft.enc, shV_gdabmeft.dec]
  rw [unpack_pack 3 (t.code) _ _ (by omega), unpack_pack 1 (f.toNat) _ _ (by omega), unpack_pack 1 (e.toNat) _ _ (by omega), unpack_pack 3 (m.val) _ _ (by omega), unpack_pack 4 (b.val) _ _ (by omega), unpack_pack 4 (a.val) _ _ (by omega), unpack_pack 4 (d.val) _ _ (by omega), unpack_pack 8 (op) _ _ (by omega), unpack_pack 4 (g.val) _ _ (by omega)]
  simp only [unpack]
  refine (checked_ok _ _ (by simp; omega)).trans (by simp)

theorem shV_gdamet.encode_op (op : Nat) (ho : op < 256) (g : Fin 16) (d : Fin 16) (a : Fin 16) (m : Fin 8) (e : Bool) (t : FTy) :
    shV_gdamet.enc op g d a m e t / 2 ^ 20 % 256 = op := by
  have h_g := g.isLt
  have h_d := d.isLt
  have h_a := a.isLt
  have h_m := m.isLt
  have h_e := toNat_lt_two e
  have h_t : t.code < 5 := by cases t <;> decide
  simp only [shV_gdamet.enc, pack]; omega

theorem shV_gdamet.decode_encode (mk : Fin 16 → Fin 16 → Fin 16 → Fin 8 → Bool → FTy → Instr) (op : Nat) (ho : op < 256) (g : Fin 16) (d : Fin 16) (a : Fin 16) (m : Fin 8) (e : Bool) (t : FTy) :
    shV_gdamet.dec mk (shV_gdamet.enc op g d a m e t) = .ok (mk g d a m e t) := by
  have h_g := g.isLt
  have h_d := d.isLt
  have h_a := a.isLt
  have h_m := m.isLt
  have h_e := toNat_lt_two e
  have h_t : t.code < 5 := by cases t <;> decide
  simp only [shV_gdamet.enc, shV_gdamet.dec]
  rw [unpack_pack 3 (t.code) _ _ (by omega), unpack_pack 1 (0) _ _ (by omega), unpack_pack 1 (e.toNat) _ _ (by omega), unpack_pack 3 (m.val) _ _ (by omega), unpack_pack 4 (0) _ _ (by omega), unpack_pack 4 (a.val) _ _ (by omega), unpack_pack 4 (d.val) _ _ (by omega), unpack_pack 8 (op) _ _ (by omega), unpack_pack 4 (g.val) _ _ (by omega)]
  simp only [unpack]
  refine (checked_ok _ _ (by simp; omega)).trans (by simp)

theorem shV_gpabmeft.encode_op (op : Nat) (ho : op < 256) (g : Fin 16) (p : Fin 4) (a : Fin 16) (b : Fin 16) (m : Fin 8) (e : Bool) (f : Bool) (t : FTy) :
    shV_gpabmeft.enc op g p a b m e f t / 2 ^ 20 % 256 = op := by
  have h_g := g.isLt
  have h_p := p.isLt
  have h_a := a.isLt
  have h_b := b.isLt
  have h_m := m.isLt
  have h_e := toNat_lt_two e
  have h_f := toNat_lt_two f
  have h_t : t.code < 5 := by cases t <;> decide
  simp only [shV_gpabmeft.enc, pack]; omega

theorem shV_gpabmeft.decode_encode (mk : Fin 16 → Fin 4 → Fin 16 → Fin 16 → Fin 8 → Bool → Bool → FTy → Instr) (op : Nat) (ho : op < 256) (g : Fin 16) (p : Fin 4) (a : Fin 16) (b : Fin 16) (m : Fin 8) (e : Bool) (f : Bool) (t : FTy) :
    shV_gpabmeft.dec mk (shV_gpabmeft.enc op g p a b m e f t) = .ok (mk g p a b m e f t) := by
  have h_g := g.isLt
  have h_p := p.isLt
  have h_a := a.isLt
  have h_b := b.isLt
  have h_m := m.isLt
  have h_e := toNat_lt_two e
  have h_f := toNat_lt_two f
  have h_t : t.code < 5 := by cases t <;> decide
  simp only [shV_gpabmeft.enc, shV_gpabmeft.dec]
  rw [unpack_pack 3 (t.code) _ _ (by omega), unpack_pack 1 (f.toNat) _ _ (by omega), unpack_pack 1 (e.toNat) _ _ (by omega), unpack_pack 3 (m.val) _ _ (by omega), unpack_pack 4 (b.val) _ _ (by omega), unpack_pack 4 (a.val) _ _ (by omega), unpack_pack 2 (p.val) _ _ (by omega), unpack_pack 2 (0) _ _ (by omega), unpack_pack 8 (op) _ _ (by omega), unpack_pack 4 (g.val) _ _ (by omega)]
  simp only [unpack]
  refine (checked_ok _ _ (by simp; omega)).trans (by simp)

theorem shV_gdabmeft2.encode_op (op : Nat) (ho : op < 256) (g : Fin 16) (d : Fin 16) (a : Fin 16) (b : Fin 16) (m : Fin 8) (e : Bool) (f : Bool) (t : ITy) :
    shV_gdabmeft2.enc op g d a b m e f t / 2 ^ 20 % 256 = op := by
  have h_g := g.isLt
  have h_d := d.isLt
  have h_a := a.isLt
  have h_b := b.isLt
  have h_m := m.isLt
  have h_e := toNat_lt_two e
  have h_f := toNat_lt_two f
  have h_t : t.code < 4 := by cases t <;> decide
  simp only [shV_gdabmeft2.enc, pack]; omega

theorem shV_gdabmeft2.decode_encode (mk : Fin 16 → Fin 16 → Fin 16 → Fin 16 → Fin 8 → Bool → Bool → ITy → Instr) (op : Nat) (ho : op < 256) (g : Fin 16) (d : Fin 16) (a : Fin 16) (b : Fin 16) (m : Fin 8) (e : Bool) (f : Bool) (t : ITy) :
    shV_gdabmeft2.dec mk (shV_gdabmeft2.enc op g d a b m e f t) = .ok (mk g d a b m e f t) := by
  have h_g := g.isLt
  have h_d := d.isLt
  have h_a := a.isLt
  have h_b := b.isLt
  have h_m := m.isLt
  have h_e := toNat_lt_two e
  have h_f := toNat_lt_two f
  have h_t : t.code < 4 := by cases t <;> decide
  simp only [shV_gdabmeft2.enc, shV_gdabmeft2.dec]
  rw [unpack_pack 3 (t.code) _ _ (by omega), unpack_pack 1 (f.toNat) _ _ (by omega), unpack_pack 1 (e.toNat) _ _ (by omega), unpack_pack 3 (m.val) _ _ (by omega), unpack_pack 4 (b.val) _ _ (by omega), unpack_pack 4 (a.val) _ _ (by omega), unpack_pack 4 (d.val) _ _ (by omega), unpack_pack 8 (op) _ _ (by omega), unpack_pack 4 (g.val) _ _ (by omega)]
  simp only [unpack]
  refine (checked_ok _ _ (by simp; omega)).trans (by simp)

theorem shV_gdabmef.encode_op (op : Nat) (ho : op < 256) (g : Fin 16) (d : Fin 16) (a : Fin 16) (b : Fin 16) (m : Fin 8) (e : Bool) (f : Bool) :
    shV_gdabmef.enc op g d a b m e f / 2 ^ 20 % 256 = op := by
  have h_g := g.isLt
  have h_d := d.isLt
  have h_a := a.isLt
  have h_b := b.isLt
  have h_m := m.isLt
  have h_e := toNat_lt_two e
  have h_f := toNat_lt_two f
  simp only [shV_gdabmef.enc, pack]; omega

theorem shV_gdabmef.decode_encode (mk : Fin 16 → Fin 16 → Fin 16 → Fin 16 → Fin 8 → Bool → Bool → Instr) (op : Nat) (ho : op < 256) (g : Fin 16) (d : Fin 16) (a : Fin 16) (b : Fin 16) (m : Fin 8) (e : Bool) (f : Bool) :
    shV_gdabmef.dec mk (shV_gdabmef.enc op g d a b m e f) = .ok (mk g d a b m e f) := by
  have h_g := g.isLt
  have h_d := d.isLt
  have h_a := a.isLt
  have h_b := b.isLt
  have h_m := m.isLt
  have h_e := toNat_lt_two e
  have h_f := toNat_lt_two f
  simp only [shV_gdabmef.enc, shV_gdabmef.dec]
  rw [unpack_pack 3 (0) _ _ (by omega), unpack_pack 1 (f.toNat) _ _ (by omega), unpack_pack 1 (e.toNat) _ _ (by omega), unpack_pack 3 (m.val) _ _ (by omega), unpack_pack 4 (b.val) _ _ (by omega), unpack_pack 4 (a.val) _ _ (by omega), unpack_pack 4 (d.val) _ _ (by omega), unpack_pack 8 (op) _ _ (by omega), unpack_pack 4 (g.val) _ _ (by omega)]
  simp only [unpack]
  refine (checked_ok _ _ (by simp)).trans (by simp)

theorem shV_gdamet2.encode_op (op : Nat) (ho : op < 256) (g : Fin 16) (d : Fin 16) (a : Fin 16) (m : Fin 8) (e : Bool) (t : ITy) :
    shV_gdamet2.enc op g d a m e t / 2 ^ 20 % 256 = op := by
  have h_g := g.isLt
  have h_d := d.isLt
  have h_a := a.isLt
  have h_m := m.isLt
  have h_e := toNat_lt_two e
  have h_t : t.code < 4 := by cases t <;> decide
  simp only [shV_gdamet2.enc, pack]; omega

theorem shV_gdamet2.decode_encode (mk : Fin 16 → Fin 16 → Fin 16 → Fin 8 → Bool → ITy → Instr) (op : Nat) (ho : op < 256) (g : Fin 16) (d : Fin 16) (a : Fin 16) (m : Fin 8) (e : Bool) (t : ITy) :
    shV_gdamet2.dec mk (shV_gdamet2.enc op g d a m e t) = .ok (mk g d a m e t) := by
  have h_g := g.isLt
  have h_d := d.isLt
  have h_a := a.isLt
  have h_m := m.isLt
  have h_e := toNat_lt_two e
  have h_t : t.code < 4 := by cases t <;> decide
  simp only [shV_gdamet2.enc, shV_gdamet2.dec]
  rw [unpack_pack 3 (t.code) _ _ (by omega), unpack_pack 1 (0) _ _ (by omega), unpack_pack 1 (e.toNat) _ _ (by omega), unpack_pack 3 (m.val) _ _ (by omega), unpack_pack 4 (0) _ _ (by omega), unpack_pack 4 (a.val) _ _ (by omega), unpack_pack 4 (d.val) _ _ (by omega), unpack_pack 8 (op) _ _ (by omega), unpack_pack 4 (g.val) _ _ (by omega)]
  simp only [unpack]
  refine (checked_ok _ _ (by simp; omega)).trans (by simp)

theorem shV_gpabmeft2.encode_op (op : Nat) (ho : op < 256) (g : Fin 16) (p : Fin 4) (a : Fin 16) (b : Fin 16) (m : Fin 8) (e : Bool) (f : Bool) (t : ITy) :
    shV_gpabmeft2.enc op g p a b m e f t / 2 ^ 20 % 256 = op := by
  have h_g := g.isLt
  have h_p := p.isLt
  have h_a := a.isLt
  have h_b := b.isLt
  have h_m := m.isLt
  have h_e := toNat_lt_two e
  have h_f := toNat_lt_two f
  have h_t : t.code < 4 := by cases t <;> decide
  simp only [shV_gpabmeft2.enc, pack]; omega

theorem shV_gpabmeft2.decode_encode (mk : Fin 16 → Fin 4 → Fin 16 → Fin 16 → Fin 8 → Bool → Bool → ITy → Instr) (op : Nat) (ho : op < 256) (g : Fin 16) (p : Fin 4) (a : Fin 16) (b : Fin 16) (m : Fin 8) (e : Bool) (f : Bool) (t : ITy) :
    shV_gpabmeft2.dec mk (shV_gpabmeft2.enc op g p a b m e f t) = .ok (mk g p a b m e f t) := by
  have h_g := g.isLt
  have h_p := p.isLt
  have h_a := a.isLt
  have h_b := b.isLt
  have h_m := m.isLt
  have h_e := toNat_lt_two e
  have h_f := toNat_lt_two f
  have h_t : t.code < 4 := by cases t <;> decide
  simp only [shV_gpabmeft2.enc, shV_gpabmeft2.dec]
  rw [unpack_pack 3 (t.code) _ _ (by omega), unpack_pack 1 (f.toNat) _ _ (by omega), unpack_pack 1 (e.toNat) _ _ (by omega), unpack_pack 3 (m.val) _ _ (by omega), unpack_pack 4 (b.val) _ _ (by omega), unpack_pack 4 (a.val) _ _ (by omega), unpack_pack 2 (p.val) _ _ (by omega), unpack_pack 2 (0) _ _ (by omega), unpack_pack 8 (op) _ _ (by omega), unpack_pack 4 (g.val) _ _ (by omega)]
  simp only [unpack]
  refine (checked_ok _ _ (by simp; omega)).trans (by simp)

theorem shV_gdame.encode_op (op : Nat) (ho : op < 256) (g : Fin 16) (d : Fin 16) (a : Fin 16) (m : Fin 8) (e : Bool) :
    shV_gdame.enc op g d a m e / 2 ^ 20 % 256 = op := by
  have h_g := g.isLt
  have h_d := d.isLt
  have h_a := a.isLt
  have h_m := m.isLt
  have h_e := toNat_lt_two e
  simp only [shV_gdame.enc, pack]; omega

theorem shV_gdame.decode_encode (mk : Fin 16 → Fin 16 → Fin 16 → Fin 8 → Bool → Instr) (op : Nat) (ho : op < 256) (g : Fin 16) (d : Fin 16) (a : Fin 16) (m : Fin 8) (e : Bool) :
    shV_gdame.dec mk (shV_gdame.enc op g d a m e) = .ok (mk g d a m e) := by
  have h_g := g.isLt
  have h_d := d.isLt
  have h_a := a.isLt
  have h_m := m.isLt
  have h_e := toNat_lt_two e
  simp only [shV_gdame.enc, shV_gdame.dec]
  rw [unpack_pack 3 (0) _ _ (by omega), unpack_pack 1 (0) _ _ (by omega), unpack_pack 1 (e.toNat) _ _ (by omega), unpack_pack 3 (m.val) _ _ (by omega), unpack_pack 4 (0) _ _ (by omega), unpack_pack 4 (a.val) _ _ (by omega), unpack_pack 4 (d.val) _ _ (by omega), unpack_pack 8 (op) _ _ (by omega), unpack_pack 4 (g.val) _ _ (by omega)]
  simp only [unpack]
  refine (checked_ok _ _ (by simp)).trans (by simp)

theorem shV_gdamet3.encode_op (op : Nat) (ho : op < 256) (g : Fin 16) (d : Fin 16) (a : Fin 16) (m : Fin 8) (e : Bool) (t : XTy) :
    shV_gdamet3.enc op g d a m e t / 2 ^ 20 % 256 = op := by
  have h_g := g.isLt
  have h_d := d.isLt
  have h_a := a.isLt
  have h_m := m.isLt
  have h_e := toNat_lt_two e
  have h_t : t.code < 8 := by cases t <;> decide
  simp only [shV_gdamet3.enc, pack]; omega

theorem shV_gdamet3.decode_encode (mk : Fin 16 → Fin 16 → Fin 16 → Fin 8 → Bool → XTy → Instr) (op : Nat) (ho : op < 256) (g : Fin 16) (d : Fin 16) (a : Fin 16) (m : Fin 8) (e : Bool) (t : XTy) :
    shV_gdamet3.dec mk (shV_gdamet3.enc op g d a m e t) = .ok (mk g d a m e t) := by
  have h_g := g.isLt
  have h_d := d.isLt
  have h_a := a.isLt
  have h_m := m.isLt
  have h_e := toNat_lt_two e
  have h_t : t.code < 8 := by cases t <;> decide
  simp only [shV_gdamet3.enc, shV_gdamet3.dec]
  rw [unpack_pack 3 (t.code) _ _ (by omega), unpack_pack 1 (0) _ _ (by omega), unpack_pack 1 (e.toNat) _ _ (by omega), unpack_pack 3 (m.val) _ _ (by omega), unpack_pack 4 (0) _ _ (by omega), unpack_pack 4 (a.val) _ _ (by omega), unpack_pack 4 (d.val) _ _ (by omega), unpack_pack 8 (op) _ _ (by omega), unpack_pack 4 (g.val) _ _ (by omega)]
  simp only [unpack]
  refine (checked_ok _ _ (by simp)).trans (by simp)

theorem shV_gdabmeft3.encode_op (op : Nat) (ho : op < 256) (g : Fin 16) (d : Fin 16) (a : Fin 16) (b : Fin 16) (m : Fin 8) (e : Bool) (f : Bool) (t : XTy) :
    shV_gdabmeft3.enc op g d a b m e f t / 2 ^ 20 % 256 = op := by
  have h_g := g.isLt
  have h_d := d.isLt
  have h_a := a.isLt
  have h_b := b.isLt
  have h_m := m.isLt
  have h_e := toNat_lt_two e
  have h_f := toNat_lt_two f
  have h_t : t.code < 8 := by cases t <;> decide
  simp only [shV_gdabmeft3.enc, pack]; omega

theorem shV_gdabmeft3.decode_encode (mk : Fin 16 → Fin 16 → Fin 16 → Fin 16 → Fin 8 → Bool → Bool → XTy → Instr) (op : Nat) (ho : op < 256) (g : Fin 16) (d : Fin 16) (a : Fin 16) (b : Fin 16) (m : Fin 8) (e : Bool) (f : Bool) (t : XTy) :
    shV_gdabmeft3.dec mk (shV_gdabmeft3.enc op g d a b m e f t) = .ok (mk g d a b m e f t) := by
  have h_g := g.isLt
  have h_d := d.isLt
  have h_a := a.isLt
  have h_b := b.isLt
  have h_m := m.isLt
  have h_e := toNat_lt_two e
  have h_f := toNat_lt_two f
  have h_t : t.code < 8 := by cases t <;> decide
  simp only [shV_gdabmeft3.enc, shV_gdabmeft3.dec]
  rw [unpack_pack 3 (t.code) _ _ (by omega), unpack_pack 1 (f.toNat) _ _ (by omega), unpack_pack 1 (e.toNat) _ _ (by omega), unpack_pack 3 (m.val) _ _ (by omega), unpack_pack 4 (b.val) _ _ (by omega), unpack_pack 4 (a.val) _ _ (by omega), unpack_pack 4 (d.val) _ _ (by omega), unpack_pack 8 (op) _ _ (by omega), unpack_pack 4 (g.val) _ _ (by omega)]
  simp only [unpack]
  refine (checked_ok _ _ (by simp)).trans (by simp)

theorem shV_gdabeft.encode_op (op : Nat) (ho : op < 256) (g : Fin 16) (d : Fin 16) (a : Fin 16) (b : Fin 16) (e : Bool) (f : Bool) (t : XTy) :
    shV_gdabeft.enc op g d a b e f t / 2 ^ 20 % 256 = op := by
  have h_g := g.isLt
  have h_d := d.isLt
  have h_a := a.isLt
  have h_b := b.isLt
  have h_e := toNat_lt_two e
  have h_f := toNat_lt_two f
  have h_t : t.code < 8 := by cases t <;> decide
  simp only [shV_gdabeft.enc, pack]; omega

theorem shV_gdabeft.decode_encode (mk : Fin 16 → Fin 16 → Fin 16 → Fin 16 → Bool → Bool → XTy → Instr) (op : Nat) (ho : op < 256) (g : Fin 16) (d : Fin 16) (a : Fin 16) (b : Fin 16) (e : Bool) (f : Bool) (t : XTy) :
    shV_gdabeft.dec mk (shV_gdabeft.enc op g d a b e f t) = .ok (mk g d a b e f t) := by
  have h_g := g.isLt
  have h_d := d.isLt
  have h_a := a.isLt
  have h_b := b.isLt
  have h_e := toNat_lt_two e
  have h_f := toNat_lt_two f
  have h_t : t.code < 8 := by cases t <;> decide
  simp only [shV_gdabeft.enc, shV_gdabeft.dec]
  rw [unpack_pack 3 (t.code) _ _ (by omega), unpack_pack 1 (f.toNat) _ _ (by omega), unpack_pack 1 (e.toNat) _ _ (by omega), unpack_pack 3 (0) _ _ (by omega), unpack_pack 4 (b.val) _ _ (by omega), unpack_pack 4 (a.val) _ _ (by omega), unpack_pack 4 (d.val) _ _ (by omega), unpack_pack 8 (op) _ _ (by omega), unpack_pack 4 (g.val) _ _ (by omega)]
  simp only [unpack]
  refine (checked_ok _ _ (by simp)).trans (by simp)

theorem shV_gdabseft.encode_op (op : Nat) (ho : op < 256) (g : Fin 16) (d : Fin 16) (a : Fin 16) (b : Fin 16) (s : Fin 4) (e : Bool) (f : Bool) (t : XTy) :
    shV_gdabseft.enc op g d a b s e f t / 2 ^ 20 % 256 = op := by
  have h_g := g.isLt
  have h_d := d.isLt
  have h_a := a.isLt
  have h_b := b.isLt
  have h_s := s.isLt
  have h_e := toNat_lt_two e
  have h_f := toNat_lt_two f
  have h_t : t.code < 8 := by cases t <;> decide
  simp only [shV_gdabseft.enc, pack]; omega

theorem shV_gdabseft.decode_encode (mk : Fin 16 → Fin 16 → Fin 16 → Fin 16 → Fin 4 → Bool → Bool → XTy → Instr) (op : Nat) (ho : op < 256) (g : Fin 16) (d : Fin 16) (a : Fin 16) (b : Fin 16) (s : Fin 4) (e : Bool) (f : Bool) (t : XTy) :
    shV_gdabseft.dec mk (shV_gdabseft.enc op g d a b s e f t) = .ok (mk g d a b s e f t) := by
  have h_g := g.isLt
  have h_d := d.isLt
  have h_a := a.isLt
  have h_b := b.isLt
  have h_s := s.isLt
  have h_e := toNat_lt_two e
  have h_f := toNat_lt_two f
  have h_t : t.code < 8 := by cases t <;> decide
  simp only [shV_gdabseft.enc, shV_gdabseft.dec]
  rw [unpack_pack 3 (t.code) _ _ (by omega), unpack_pack 1 (f.toNat) _ _ (by omega), unpack_pack 1 (e.toNat) _ _ (by omega), unpack_pack 3 (s.val) _ _ (by omega), unpack_pack 4 (b.val) _ _ (by omega), unpack_pack 4 (a.val) _ _ (by omega), unpack_pack 4 (d.val) _ _ (by omega), unpack_pack 8 (op) _ _ (by omega), unpack_pack 4 (g.val) _ _ (by omega)]
  simp only [unpack]
  refine (checked_ok _ _ (by simp)).trans (by simp)

theorem shV_gdm.encode_op (op : Nat) (ho : op < 256) (g : Fin 16) (d : Fin 16) (m : Fin 8) :
    shV_gdm.enc op g d m / 2 ^ 20 % 256 = op := by
  have h_g := g.isLt
  have h_d := d.isLt
  have h_m := m.isLt
  simp only [shV_gdm.enc, pack]; omega

theorem shV_gdm.decode_encode (mk : Fin 16 → Fin 16 → Fin 8 → Instr) (op : Nat) (ho : op < 256) (g : Fin 16) (d : Fin 16) (m : Fin 8) :
    shV_gdm.dec mk (shV_gdm.enc op g d m) = .ok (mk g d m) := by
  have h_g := g.isLt
  have h_d := d.isLt
  have h_m := m.isLt
  simp only [shV_gdm.enc, shV_gdm.dec]
  rw [unpack_pack 3 (0) _ _ (by omega), unpack_pack 2 (0) _ _ (by omega), unpack_pack 3 (m.val) _ _ (by omega), unpack_pack 8 (0) _ _ (by omega), unpack_pack 4 (d.val) _ _ (by omega), unpack_pack 8 (op) _ _ (by omega), unpack_pack 4 (g.val) _ _ (by omega)]
  simp only [unpack]
  refine (checked_ok _ _ (by simp)).trans (by simp)

theorem shV_gdabmeft4.encode_op (op : Nat) (ho : op < 256) (g : Fin 16) (d : Fin 16) (a : Fin 16) (b : Fin 16) (m : Fin 8) (e : Bool) (f : Bool) (t : KTy) :
    shV_gdabmeft4.enc op g d a b m e f t / 2 ^ 20 % 256 = op := by
  have h_g := g.isLt
  have h_d := d.isLt
  have h_a := a.isLt
  have h_b := b.isLt
  have h_m := m.isLt
  have h_e := toNat_lt_two e
  have h_f := toNat_lt_two f
  have h_t : t.code < 8 := by cases t <;> decide
  simp only [shV_gdabmeft4.enc, pack]; omega

theorem shV_gdabmeft4.decode_encode (mk : Fin 16 → Fin 16 → Fin 16 → Fin 16 → Fin 8 → Bool → Bool → KTy → Instr) (op : Nat) (ho : op < 256) (g : Fin 16) (d : Fin 16) (a : Fin 16) (b : Fin 16) (m : Fin 8) (e : Bool) (f : Bool) (t : KTy) :
    shV_gdabmeft4.dec mk (shV_gdabmeft4.enc op g d a b m e f t) = .ok (mk g d a b m e f t) := by
  have h_g := g.isLt
  have h_d := d.isLt
  have h_a := a.isLt
  have h_b := b.isLt
  have h_m := m.isLt
  have h_e := toNat_lt_two e
  have h_f := toNat_lt_two f
  have h_t : t.code < 8 := by cases t <;> decide
  simp only [shV_gdabmeft4.enc, shV_gdabmeft4.dec]
  rw [unpack_pack 3 (t.code) _ _ (by omega), unpack_pack 1 (f.toNat) _ _ (by omega), unpack_pack 1 (e.toNat) _ _ (by omega), unpack_pack 3 (m.val) _ _ (by omega), unpack_pack 4 (b.val) _ _ (by omega), unpack_pack 4 (a.val) _ _ (by omega), unpack_pack 4 (d.val) _ _ (by omega), unpack_pack 8 (op) _ _ (by omega), unpack_pack 4 (g.val) _ _ (by omega)]
  simp only [unpack]
  refine (checked_ok _ _ (by cases t <;> simp [KTy.code])).trans (by simp)

theorem shV_gdamet4.encode_op (op : Nat) (ho : op < 256) (g : Fin 16) (d : Fin 16) (a : Fin 16) (m : Fin 8) (e : Bool) (t : KTy) :
    shV_gdamet4.enc op g d a m e t / 2 ^ 20 % 256 = op := by
  have h_g := g.isLt
  have h_d := d.isLt
  have h_a := a.isLt
  have h_m := m.isLt
  have h_e := toNat_lt_two e
  have h_t : t.code < 8 := by cases t <;> decide
  simp only [shV_gdamet4.enc, pack]; omega

theorem shV_gdamet4.decode_encode (mk : Fin 16 → Fin 16 → Fin 16 → Fin 8 → Bool → KTy → Instr) (op : Nat) (ho : op < 256) (g : Fin 16) (d : Fin 16) (a : Fin 16) (m : Fin 8) (e : Bool) (t : KTy) :
    shV_gdamet4.dec mk (shV_gdamet4.enc op g d a m e t) = .ok (mk g d a m e t) := by
  have h_g := g.isLt
  have h_d := d.isLt
  have h_a := a.isLt
  have h_m := m.isLt
  have h_e := toNat_lt_two e
  have h_t : t.code < 8 := by cases t <;> decide
  simp only [shV_gdamet4.enc, shV_gdamet4.dec]
  rw [unpack_pack 3 (t.code) _ _ (by omega), unpack_pack 1 (0) _ _ (by omega), unpack_pack 1 (e.toNat) _ _ (by omega), unpack_pack 3 (m.val) _ _ (by omega), unpack_pack 4 (0) _ _ (by omega), unpack_pack 4 (a.val) _ _ (by omega), unpack_pack 4 (d.val) _ _ (by omega), unpack_pack 8 (op) _ _ (by omega), unpack_pack 4 (g.val) _ _ (by omega)]
  simp only [unpack]
  refine (checked_ok _ _ (by cases t <;> simp [KTy.code])).trans (by simp)

theorem shV_gdabeft2.encode_op (op : Nat) (ho : op < 256) (g : Fin 16) (d : Fin 16) (a : Fin 16) (b : Fin 16) (e : Bool) (f : Bool) (t : MxFmt) :
    shV_gdabeft2.enc op g d a b e f t / 2 ^ 20 % 256 = op := by
  have h_g := g.isLt
  have h_d := d.isLt
  have h_a := a.isLt
  have h_b := b.isLt
  have h_e := toNat_lt_two e
  have h_f := toNat_lt_two f
  have h_t : t.code < 3 := by cases t <;> decide
  simp only [shV_gdabeft2.enc, pack]; omega

theorem shV_gdabeft2.decode_encode (mk : Fin 16 → Fin 16 → Fin 16 → Fin 16 → Bool → Bool → MxFmt → Instr) (op : Nat) (ho : op < 256) (g : Fin 16) (d : Fin 16) (a : Fin 16) (b : Fin 16) (e : Bool) (f : Bool) (t : MxFmt) :
    shV_gdabeft2.dec mk (shV_gdabeft2.enc op g d a b e f t) = .ok (mk g d a b e f t) := by
  have h_g := g.isLt
  have h_d := d.isLt
  have h_a := a.isLt
  have h_b := b.isLt
  have h_e := toNat_lt_two e
  have h_f := toNat_lt_two f
  have h_t : t.code < 3 := by cases t <;> decide
  simp only [shV_gdabeft2.enc, shV_gdabeft2.dec]
  rw [unpack_pack 3 (t.code) _ _ (by omega), unpack_pack 1 (f.toNat) _ _ (by omega), unpack_pack 1 (e.toNat) _ _ (by omega), unpack_pack 3 (0) _ _ (by omega), unpack_pack 4 (b.val) _ _ (by omega), unpack_pack 4 (a.val) _ _ (by omega), unpack_pack 4 (d.val) _ _ (by omega), unpack_pack 8 (op) _ _ (by omega), unpack_pack 4 (g.val) _ _ (by omega)]
  simp only [unpack]
  refine (checked_ok _ _ (by simp; omega)).trans (by simp)

theorem shV_gdabjeft.encode_op (op : Nat) (ho : op < 256) (g : Fin 16) (d : Fin 16) (a : Fin 16) (b : Fin 16) (j : Fin 4) (e : Bool) (f : Bool) (t : MxFmt) :
    shV_gdabjeft.enc op g d a b j e f t / 2 ^ 20 % 256 = op := by
  have h_g := g.isLt
  have h_d := d.isLt
  have h_a := a.isLt
  have h_b := b.isLt
  have h_j := j.isLt
  have h_e := toNat_lt_two e
  have h_f := toNat_lt_two f
  have h_t : t.code < 3 := by cases t <;> decide
  simp only [shV_gdabjeft.enc, pack]; omega

theorem shV_gdabjeft.decode_encode (mk : Fin 16 → Fin 16 → Fin 16 → Fin 16 → Fin 4 → Bool → Bool → MxFmt → Instr) (op : Nat) (ho : op < 256) (g : Fin 16) (d : Fin 16) (a : Fin 16) (b : Fin 16) (j : Fin 4) (e : Bool) (f : Bool) (t : MxFmt) :
    shV_gdabjeft.dec mk (shV_gdabjeft.enc op g d a b j e f t) = .ok (mk g d a b j e f t) := by
  have h_g := g.isLt
  have h_d := d.isLt
  have h_a := a.isLt
  have h_b := b.isLt
  have h_j := j.isLt
  have h_e := toNat_lt_two e
  have h_f := toNat_lt_two f
  have h_t : t.code < 3 := by cases t <;> decide
  simp only [shV_gdabjeft.enc, shV_gdabjeft.dec]
  rw [unpack_pack 3 (t.code) _ _ (by omega), unpack_pack 1 (f.toNat) _ _ (by omega), unpack_pack 1 (e.toNat) _ _ (by omega), unpack_pack 3 (j.val) _ _ (by omega), unpack_pack 4 (b.val) _ _ (by omega), unpack_pack 4 (a.val) _ _ (by omega), unpack_pack 4 (d.val) _ _ (by omega), unpack_pack 8 (op) _ _ (by omega), unpack_pack 4 (g.val) _ _ (by omega)]
  simp only [unpack]
  refine (checked_ok _ _ (by simp; omega)).trans (by simp)

theorem shV_gdamet5.encode_op (op : Nat) (ho : op < 256) (g : Fin 16) (d : Fin 16) (a : Fin 16) (m : Fin 8) (e : Bool) (t : Fin 8) :
    shV_gdamet5.enc op g d a m e t / 2 ^ 20 % 256 = op := by
  have h_g := g.isLt
  have h_d := d.isLt
  have h_a := a.isLt
  have h_m := m.isLt
  have h_e := toNat_lt_two e
  have h_t := t.isLt
  simp only [shV_gdamet5.enc, pack]; omega

theorem shV_gdamet5.decode_encode (mk : Fin 16 → Fin 16 → Fin 16 → Fin 8 → Bool → Fin 8 → Instr) (op : Nat) (ho : op < 256) (g : Fin 16) (d : Fin 16) (a : Fin 16) (m : Fin 8) (e : Bool) (t : Fin 8) :
    shV_gdamet5.dec mk (shV_gdamet5.enc op g d a m e t) = .ok (mk g d a m e t) := by
  have h_g := g.isLt
  have h_d := d.isLt
  have h_a := a.isLt
  have h_m := m.isLt
  have h_e := toNat_lt_two e
  have h_t := t.isLt
  simp only [shV_gdamet5.enc, shV_gdamet5.dec]
  rw [unpack_pack 3 (t.val) _ _ (by omega), unpack_pack 1 (0) _ _ (by omega), unpack_pack 1 (e.toNat) _ _ (by omega), unpack_pack 3 (m.val) _ _ (by omega), unpack_pack 4 (0) _ _ (by omega), unpack_pack 4 (a.val) _ _ (by omega), unpack_pack 4 (d.val) _ _ (by omega), unpack_pack 8 (op) _ _ (by omega), unpack_pack 4 (g.val) _ _ (by omega)]
  simp only [unpack]
  refine (checked_ok _ _ (by simp)).trans (by simp)

theorem shV_gdabmeft5.encode_op (op : Nat) (ho : op < 256) (g : Fin 16) (d : Fin 16) (a : Fin 16) (b : Fin 16) (m : Fin 8) (e : Bool) (f : Bool) (t : Fin 8) :
    shV_gdabmeft5.enc op g d a b m e f t / 2 ^ 20 % 256 = op := by
  have h_g := g.isLt
  have h_d := d.isLt
  have h_a := a.isLt
  have h_b := b.isLt
  have h_m := m.isLt
  have h_e := toNat_lt_two e
  have h_f := toNat_lt_two f
  have h_t := t.isLt
  simp only [shV_gdabmeft5.enc, pack]; omega

theorem shV_gdabmeft5.decode_encode (mk : Fin 16 → Fin 16 → Fin 16 → Fin 16 → Fin 8 → Bool → Bool → Fin 8 → Instr) (op : Nat) (ho : op < 256) (g : Fin 16) (d : Fin 16) (a : Fin 16) (b : Fin 16) (m : Fin 8) (e : Bool) (f : Bool) (t : Fin 8) :
    shV_gdabmeft5.dec mk (shV_gdabmeft5.enc op g d a b m e f t) = .ok (mk g d a b m e f t) := by
  have h_g := g.isLt
  have h_d := d.isLt
  have h_a := a.isLt
  have h_b := b.isLt
  have h_m := m.isLt
  have h_e := toNat_lt_two e
  have h_f := toNat_lt_two f
  have h_t := t.isLt
  simp only [shV_gdabmeft5.enc, shV_gdabmeft5.dec]
  rw [unpack_pack 3 (t.val) _ _ (by omega), unpack_pack 1 (f.toNat) _ _ (by omega), unpack_pack 1 (e.toNat) _ _ (by omega), unpack_pack 3 (m.val) _ _ (by omega), unpack_pack 4 (b.val) _ _ (by omega), unpack_pack 4 (a.val) _ _ (by omega), unpack_pack 4 (d.val) _ _ (by omega), unpack_pack 8 (op) _ _ (by omega), unpack_pack 4 (g.val) _ _ (by omega)]
  simp only [unpack]
  refine (checked_ok _ _ (by simp)).trans (by simp)

theorem shV_gdahmet.encode_op (op : Nat) (ho : op < 256) (g : Fin 16) (d : Fin 16) (a : Fin 16) (h : Fin 16) (m : Fin 8) (e : Bool) (t : Fin 8) :
    shV_gdahmet.enc op g d a h m e t / 2 ^ 20 % 256 = op := by
  have h_g := g.isLt
  have h_d := d.isLt
  have h_a := a.isLt
  have h_h := h.isLt
  have h_m := m.isLt
  have h_e := toNat_lt_two e
  have h_t := t.isLt
  simp only [shV_gdahmet.enc, pack]; omega

theorem shV_gdahmet.decode_encode (mk : Fin 16 → Fin 16 → Fin 16 → Fin 16 → Fin 8 → Bool → Fin 8 → Instr) (op : Nat) (ho : op < 256) (g : Fin 16) (d : Fin 16) (a : Fin 16) (h : Fin 16) (m : Fin 8) (e : Bool) (t : Fin 8) :
    shV_gdahmet.dec mk (shV_gdahmet.enc op g d a h m e t) = .ok (mk g d a h m e t) := by
  have h_g := g.isLt
  have h_d := d.isLt
  have h_a := a.isLt
  have h_h := h.isLt
  have h_m := m.isLt
  have h_e := toNat_lt_two e
  have h_t := t.isLt
  simp only [shV_gdahmet.enc, shV_gdahmet.dec]
  rw [unpack_pack 3 (t.val) _ _ (by omega), unpack_pack 1 (0) _ _ (by omega), unpack_pack 1 (e.toNat) _ _ (by omega), unpack_pack 3 (m.val) _ _ (by omega), unpack_pack 4 (h.val) _ _ (by omega), unpack_pack 4 (a.val) _ _ (by omega), unpack_pack 4 (d.val) _ _ (by omega), unpack_pack 8 (op) _ _ (by omega), unpack_pack 4 (g.val) _ _ (by omega)]
  simp only [unpack]
  refine (checked_ok _ _ (by simp)).trans (by simp)

theorem shV_game.encode_op (op : Nat) (ho : op < 256) (g : Fin 16) (a : Fin 16) (m : Fin 8) (e : Bool) :
    shV_game.enc op g a m e / 2 ^ 20 % 256 = op := by
  have h_g := g.isLt
  have h_a := a.isLt
  have h_m := m.isLt
  have h_e := toNat_lt_two e
  simp only [shV_game.enc, pack]; omega

theorem shV_game.decode_encode (mk : Fin 16 → Fin 16 → Fin 8 → Bool → Instr) (op : Nat) (ho : op < 256) (g : Fin 16) (a : Fin 16) (m : Fin 8) (e : Bool) :
    shV_game.dec mk (shV_game.enc op g a m e) = .ok (mk g a m e) := by
  have h_g := g.isLt
  have h_a := a.isLt
  have h_m := m.isLt
  have h_e := toNat_lt_two e
  simp only [shV_game.enc, shV_game.dec]
  rw [unpack_pack 3 (0) _ _ (by omega), unpack_pack 1 (0) _ _ (by omega), unpack_pack 1 (e.toNat) _ _ (by omega), unpack_pack 3 (m.val) _ _ (by omega), unpack_pack 4 (0) _ _ (by omega), unpack_pack 4 (a.val) _ _ (by omega), unpack_pack 4 (0) _ _ (by omega), unpack_pack 8 (op) _ _ (by omega), unpack_pack 4 (g.val) _ _ (by omega)]
  simp only [unpack]
  refine (checked_ok _ _ (by simp)).trans (by simp)

theorem shV_gdabmefs.encode_op (op : Nat) (ho : op < 256) (g : Fin 16) (d : Fin 16) (a : Fin 16) (b : Fin 16) (m : Fin 8) (e : Bool) (f : Bool) (s : Space) :
    shV_gdabmefs.enc op g d a b m e f s / 2 ^ 20 % 256 = op := by
  have h_g := g.isLt
  have h_d := d.isLt
  have h_a := a.isLt
  have h_b := b.isLt
  have h_m := m.isLt
  have h_e := toNat_lt_two e
  have h_f := toNat_lt_two f
  have h_s : s.code < 4 := by cases s <;> decide
  simp only [shV_gdabmefs.enc, pack]; omega

theorem shV_gdabmefs.decode_encode (mk : Fin 16 → Fin 16 → Fin 16 → Fin 16 → Fin 8 → Bool → Bool → Space → Instr) (op : Nat) (ho : op < 256) (g : Fin 16) (d : Fin 16) (a : Fin 16) (b : Fin 16) (m : Fin 8) (e : Bool) (f : Bool) (s : Space) :
    shV_gdabmefs.dec mk (shV_gdabmefs.enc op g d a b m e f s) = .ok (mk g d a b m e f s) := by
  have h_g := g.isLt
  have h_d := d.isLt
  have h_a := a.isLt
  have h_b := b.isLt
  have h_m := m.isLt
  have h_e := toNat_lt_two e
  have h_f := toNat_lt_two f
  have h_s : s.code < 4 := by cases s <;> decide
  simp only [shV_gdabmefs.enc, shV_gdabmefs.dec]
  rw [unpack_pack 2 (s.code) _ _ (by omega), unpack_pack 1 (0) _ _ (by omega), unpack_pack 1 (f.toNat) _ _ (by omega), unpack_pack 1 (e.toNat) _ _ (by omega), unpack_pack 3 (m.val) _ _ (by omega), unpack_pack 4 (b.val) _ _ (by omega), unpack_pack 4 (a.val) _ _ (by omega), unpack_pack 4 (d.val) _ _ (by omega), unpack_pack 8 (op) _ _ (by omega), unpack_pack 4 (g.val) _ _ (by omega)]
  simp only [unpack]
  refine (checked_ok _ _ (by simp)).trans (by simp)

theorem shV_gdhbmfc.encode_op (op : Nat) (ho : op < 256) (g : Fin 16) (d : Fin 16) (h : Fin 16) (b : Fin 8) (m : Fin 8) (f : Bool) (c : Bool) :
    shV_gdhbmfc.enc op g d h b m f c / 2 ^ 20 % 256 = op := by
  have h_g := g.isLt
  have h_d := d.isLt
  have h_h := h.isLt
  have h_b := b.isLt
  have h_m := m.isLt
  have h_f := toNat_lt_two f
  have h_c := toNat_lt_two c
  simp only [shV_gdhbmfc.enc, pack]; omega

theorem shV_gdhbmfc.decode_encode (mk : Fin 16 → Fin 16 → Fin 16 → Fin 8 → Fin 8 → Bool → Bool → Instr) (op : Nat) (ho : op < 256) (g : Fin 16) (d : Fin 16) (h : Fin 16) (b : Fin 8) (m : Fin 8) (f : Bool) (c : Bool) :
    shV_gdhbmfc.dec mk (shV_gdhbmfc.enc op g d h b m f c) = .ok (mk g d h b m f c) := by
  have h_g := g.isLt
  have h_d := d.isLt
  have h_h := h.isLt
  have h_b := b.isLt
  have h_m := m.isLt
  have h_f := toNat_lt_two f
  have h_c := toNat_lt_two c
  simp only [shV_gdhbmfc.enc, shV_gdhbmfc.dec]
  rw [unpack_pack 1 (c.toNat) _ _ (by omega), unpack_pack 2 (0) _ _ (by omega), unpack_pack 1 (f.toNat) _ _ (by omega), unpack_pack 1 (0) _ _ (by omega), unpack_pack 3 (m.val) _ _ (by omega), unpack_pack 4 (2 * b.val) _ _ (by omega), unpack_pack 4 (h.val) _ _ (by omega), unpack_pack 4 (d.val) _ _ (by omega), unpack_pack 8 (op) _ _ (by omega), unpack_pack 4 (g.val) _ _ (by omega)]
  simp only [unpack]
  refine (checked_ok _ _ (by simp)).trans (by simp)

theorem shV_gdabmefks.encode_op (op : Nat) (ho : op < 256) (g : Fin 16) (d : Fin 16) (a : Fin 16) (b : Fin 16) (m : Fin 8) (e : Bool) (f : Bool) (k : Bool) (s : Space) :
    shV_gdabmefks.enc op g d a b m e f k s / 2 ^ 20 % 256 = op := by
  have h_g := g.isLt
  have h_d := d.isLt
  have h_a := a.isLt
  have h_b := b.isLt
  have h_m := m.isLt
  have h_e := toNat_lt_two e
  have h_f := toNat_lt_two f
  have h_k := toNat_lt_two k
  have h_s : s.code < 4 := by cases s <;> decide
  simp only [shV_gdabmefks.enc, pack]; omega

theorem shV_gdabmefks.decode_encode (mk : Fin 16 → Fin 16 → Fin 16 → Fin 16 → Fin 8 → Bool → Bool → Bool → Space → Instr) (op : Nat) (ho : op < 256) (g : Fin 16) (d : Fin 16) (a : Fin 16) (b : Fin 16) (m : Fin 8) (e : Bool) (f : Bool) (k : Bool) (s : Space) :
    shV_gdabmefks.dec mk (shV_gdabmefks.enc op g d a b m e f k s) = .ok (mk g d a b m e f k s) := by
  have h_g := g.isLt
  have h_d := d.isLt
  have h_a := a.isLt
  have h_b := b.isLt
  have h_m := m.isLt
  have h_e := toNat_lt_two e
  have h_f := toNat_lt_two f
  have h_k := toNat_lt_two k
  have h_s : s.code < 4 := by cases s <;> decide
  simp only [shV_gdabmefks.enc, shV_gdabmefks.dec]
  rw [unpack_pack 2 (s.code) _ _ (by omega), unpack_pack 1 (k.toNat) _ _ (by omega), unpack_pack 1 (f.toNat) _ _ (by omega), unpack_pack 1 (e.toNat) _ _ (by omega), unpack_pack 3 (m.val) _ _ (by omega), unpack_pack 4 (b.val) _ _ (by omega), unpack_pack 4 (a.val) _ _ (by omega), unpack_pack 4 (d.val) _ _ (by omega), unpack_pack 8 (op) _ _ (by omega), unpack_pack 4 (g.val) _ _ (by omega)]
  simp only [unpack]
  refine (checked_ok _ _ (by simp)).trans (by simp)

theorem shV_gdab.encode_op (op : Nat) (ho : op < 256) (g : Fin 16) (d : Fin 8) (a : Fin 8) (b : Fin 8) :
    shV_gdab.enc op g d a b / 2 ^ 20 % 256 = op := by
  have h_g := g.isLt
  have h_d := d.isLt
  have h_a := a.isLt
  have h_b := b.isLt
  simp only [shV_gdab.enc, pack]; omega

theorem shV_gdab.decode_encode (mk : Fin 16 → Fin 8 → Fin 8 → Fin 8 → Instr) (op : Nat) (ho : op < 256) (g : Fin 16) (d : Fin 8) (a : Fin 8) (b : Fin 8) :
    shV_gdab.dec mk (shV_gdab.enc op g d a b) = .ok (mk g d a b) := by
  have h_g := g.isLt
  have h_d := d.isLt
  have h_a := a.isLt
  have h_b := b.isLt
  simp only [shV_gdab.enc, shV_gdab.dec]
  rw [unpack_pack 3 (0) _ _ (by omega), unpack_pack 5 (0) _ _ (by omega), unpack_pack 3 (b.val) _ _ (by omega), unpack_pack 1 (0) _ _ (by omega), unpack_pack 3 (a.val) _ _ (by omega), unpack_pack 1 (0) _ _ (by omega), unpack_pack 3 (d.val) _ _ (by omega), unpack_pack 1 (0) _ _ (by omega), unpack_pack 8 (op) _ _ (by omega), unpack_pack 4 (g.val) _ _ (by omega)]
  simp only [unpack]
  refine (checked_ok _ _ (by simp)).trans (by simp)

theorem shV_gda.encode_op (op : Nat) (ho : op < 256) (g : Fin 16) (d : Fin 8) (a : Fin 8) :
    shV_gda.enc op g d a / 2 ^ 20 % 256 = op := by
  have h_g := g.isLt
  have h_d := d.isLt
  have h_a := a.isLt
  simp only [shV_gda.enc, pack]; omega

theorem shV_gda.decode_encode (mk : Fin 16 → Fin 8 → Fin 8 → Instr) (op : Nat) (ho : op < 256) (g : Fin 16) (d : Fin 8) (a : Fin 8) :
    shV_gda.dec mk (shV_gda.enc op g d a) = .ok (mk g d a) := by
  have h_g := g.isLt
  have h_d := d.isLt
  have h_a := a.isLt
  simp only [shV_gda.enc, shV_gda.dec]
  rw [unpack_pack 3 (0) _ _ (by omega), unpack_pack 9 (0) _ _ (by omega), unpack_pack 3 (a.val) _ _ (by omega), unpack_pack 1 (0) _ _ (by omega), unpack_pack 3 (d.val) _ _ (by omega), unpack_pack 1 (0) _ _ (by omega), unpack_pack 8 (op) _ _ (by omega), unpack_pack 4 (g.val) _ _ (by omega)]
  simp only [unpack]
  refine (checked_ok _ _ (by simp)).trans (by simp)

theorem shV_gdae.encode_op (op : Nat) (ho : op < 256) (g : Fin 16) (d : Fin 8) (a : Fin 16) (e : Bool) :
    shV_gdae.enc op g d a e / 2 ^ 20 % 256 = op := by
  have h_g := g.isLt
  have h_d := d.isLt
  have h_a := a.isLt
  have h_e := toNat_lt_two e
  simp only [shV_gdae.enc, pack]; omega

theorem shV_gdae.decode_encode (mk : Fin 16 → Fin 8 → Fin 16 → Bool → Instr) (op : Nat) (ho : op < 256) (g : Fin 16) (d : Fin 8) (a : Fin 16) (e : Bool) :
    shV_gdae.dec mk (shV_gdae.enc op g d a e) = .ok (mk g d a e) := by
  have h_g := g.isLt
  have h_d := d.isLt
  have h_a := a.isLt
  have h_e := toNat_lt_two e
  simp only [shV_gdae.enc, shV_gdae.dec]
  rw [unpack_pack 3 (0) _ _ (by omega), unpack_pack 1 (0) _ _ (by omega), unpack_pack 1 (e.toNat) _ _ (by omega), unpack_pack 7 (0) _ _ (by omega), unpack_pack 4 (a.val) _ _ (by omega), unpack_pack 3 (d.val) _ _ (by omega), unpack_pack 1 (0) _ _ (by omega), unpack_pack 8 (op) _ _ (by omega), unpack_pack 4 (g.val) _ _ (by omega)]
  simp only [unpack]
  refine (checked_ok _ _ (by simp)).trans (by simp)

theorem shV_gda2.encode_op (op : Nat) (ho : op < 256) (g : Fin 16) (d : Fin 16) (a : Fin 8) :
    shV_gda2.enc op g d a / 2 ^ 20 % 256 = op := by
  have h_g := g.isLt
  have h_d := d.isLt
  have h_a := a.isLt
  simp only [shV_gda2.enc, pack]; omega

theorem shV_gda2.decode_encode (mk : Fin 16 → Fin 16 → Fin 8 → Instr) (op : Nat) (ho : op < 256) (g : Fin 16) (d : Fin 16) (a : Fin 8) :
    shV_gda2.dec mk (shV_gda2.enc op g d a) = .ok (mk g d a) := by
  have h_g := g.isLt
  have h_d := d.isLt
  have h_a := a.isLt
  simp only [shV_gda2.enc, shV_gda2.dec]
  rw [unpack_pack 3 (1) _ _ (by omega), unpack_pack 9 (0) _ _ (by omega), unpack_pack 3 (a.val) _ _ (by omega), unpack_pack 1 (0) _ _ (by omega), unpack_pack 4 (d.val) _ _ (by omega), unpack_pack 8 (op) _ _ (by omega), unpack_pack 4 (g.val) _ _ (by omega)]
  simp only [unpack]
  refine (checked_ok _ _ (by simp)).trans (by simp)

theorem shV_gdnbmfc.encode_op (op : Nat) (ho : op < 256) (g : Fin 16) (d : Fin 16) (n : Fin 8) (b : Fin 16) (m : Fin 8) (f : Bool) (c : Bool) :
    shV_gdnbmfc.enc op g d n b m f c / 2 ^ 20 % 256 = op := by
  have h_g := g.isLt
  have h_d := d.isLt
  have h_n := n.isLt
  have h_b := b.isLt
  have h_m := m.isLt
  have h_f := toNat_lt_two f
  have h_c := toNat_lt_two c
  simp only [shV_gdnbmfc.enc, pack]; omega

theorem shV_gdnbmfc.decode_encode (mk : Fin 16 → Fin 16 → Fin 8 → Fin 16 → Fin 8 → Bool → Bool → Instr) (op : Nat) (ho : op < 256) (g : Fin 16) (d : Fin 16) (n : Fin 8) (b : Fin 16) (m : Fin 8) (f : Bool) (c : Bool) :
    shV_gdnbmfc.dec mk (shV_gdnbmfc.enc op g d n b m f c) = .ok (mk g d n b m f c) := by
  have h_g := g.isLt
  have h_d := d.isLt
  have h_n := n.isLt
  have h_b := b.isLt
  have h_m := m.isLt
  have h_f := toNat_lt_two f
  have h_c := toNat_lt_two c
  simp only [shV_gdnbmfc.enc, shV_gdnbmfc.dec]
  rw [unpack_pack 1 (c.toNat) _ _ (by omega), unpack_pack 2 (0) _ _ (by omega), unpack_pack 1 (f.toNat) _ _ (by omega), unpack_pack 1 (0) _ _ (by omega), unpack_pack 3 (m.val) _ _ (by omega), unpack_pack 4 (b.val) _ _ (by omega), unpack_pack 4 (n.val) _ _ (by omega), unpack_pack 4 (d.val) _ _ (by omega), unpack_pack 8 (op) _ _ (by omega), unpack_pack 4 (g.val) _ _ (by omega)]
  simp only [unpack]
  refine (checked_ok _ _ (by simp)).trans (by simp)

theorem shV_gnabmefc.encode_op (op : Nat) (ho : op < 256) (g : Fin 16) (n : Fin 8) (a : Fin 16) (b : Fin 16) (m : Fin 8) (e : Bool) (f : Bool) (c : Bool) :
    shV_gnabmefc.enc op g n a b m e f c / 2 ^ 20 % 256 = op := by
  have h_g := g.isLt
  have h_n := n.isLt
  have h_a := a.isLt
  have h_b := b.isLt
  have h_m := m.isLt
  have h_e := toNat_lt_two e
  have h_f := toNat_lt_two f
  have h_c := toNat_lt_two c
  simp only [shV_gnabmefc.enc, pack]; omega

theorem shV_gnabmefc.decode_encode (mk : Fin 16 → Fin 8 → Fin 16 → Fin 16 → Fin 8 → Bool → Bool → Bool → Instr) (op : Nat) (ho : op < 256) (g : Fin 16) (n : Fin 8) (a : Fin 16) (b : Fin 16) (m : Fin 8) (e : Bool) (f : Bool) (c : Bool) :
    shV_gnabmefc.dec mk (shV_gnabmefc.enc op g n a b m e f c) = .ok (mk g n a b m e f c) := by
  have h_g := g.isLt
  have h_n := n.isLt
  have h_a := a.isLt
  have h_b := b.isLt
  have h_m := m.isLt
  have h_e := toNat_lt_two e
  have h_f := toNat_lt_two f
  have h_c := toNat_lt_two c
  simp only [shV_gnabmefc.enc, shV_gnabmefc.dec]
  rw [unpack_pack 1 (c.toNat) _ _ (by omega), unpack_pack 2 (0) _ _ (by omega), unpack_pack 1 (f.toNat) _ _ (by omega), unpack_pack 1 (e.toNat) _ _ (by omega), unpack_pack 3 (m.val) _ _ (by omega), unpack_pack 4 (b.val) _ _ (by omega), unpack_pack 4 (a.val) _ _ (by omega), unpack_pack 4 (n.val) _ _ (by omega), unpack_pack 8 (op) _ _ (by omega), unpack_pack 4 (g.val) _ _ (by omega)]
  simp only [unpack]
  refine (checked_ok _ _ (by simp)).trans (by simp)

theorem shV_gdabmeft6.encode_op (op : Nat) (ho : op < 256) (g : Fin 16) (d : Fin 16) (a : Fin 16) (b : Fin 16) (m : Fin 8) (e : Bool) (f : Bool) (t : Dot4Ty) :
    shV_gdabmeft6.enc op g d a b m e f t / 2 ^ 20 % 256 = op := by
  have h_g := g.isLt
  have h_d := d.isLt
  have h_a := a.isLt
  have h_b := b.isLt
  have h_m := m.isLt
  have h_e := toNat_lt_two e
  have h_f := toNat_lt_two f
  have h_t : t.code < 7 := by cases t <;> decide
  simp only [shV_gdabmeft6.enc, pack]; omega

theorem shV_gdabmeft6.decode_encode (mk : Fin 16 → Fin 16 → Fin 16 → Fin 16 → Fin 8 → Bool → Bool → Dot4Ty → Instr) (op : Nat) (ho : op < 256) (g : Fin 16) (d : Fin 16) (a : Fin 16) (b : Fin 16) (m : Fin 8) (e : Bool) (f : Bool) (t : Dot4Ty) :
    shV_gdabmeft6.dec mk (shV_gdabmeft6.enc op g d a b m e f t) = .ok (mk g d a b m e f t) := by
  have h_g := g.isLt
  have h_d := d.isLt
  have h_a := a.isLt
  have h_b := b.isLt
  have h_m := m.isLt
  have h_e := toNat_lt_two e
  have h_f := toNat_lt_two f
  have h_t : t.code < 7 := by cases t <;> decide
  simp only [shV_gdabmeft6.enc, shV_gdabmeft6.dec]
  rw [unpack_pack 3 (t.code) _ _ (by omega), unpack_pack 1 (f.toNat) _ _ (by omega), unpack_pack 1 (e.toNat) _ _ (by omega), unpack_pack 3 (m.val) _ _ (by omega), unpack_pack 4 (b.val) _ _ (by omega), unpack_pack 4 (a.val) _ _ (by omega), unpack_pack 4 (d.val) _ _ (by omega), unpack_pack 8 (op) _ _ (by omega), unpack_pack 4 (g.val) _ _ (by omega)]
  simp only [unpack]
  refine (checked_ok _ _ (by simp; omega)).trans (by simp)

theorem shV_gdabmeft7.encode_op (op : Nat) (ho : op < 256) (g : Fin 16) (d : Fin 16) (a : Fin 16) (b : Fin 16) (m : Fin 8) (e : Bool) (f : Bool) (t : Bool) :
    shV_gdabmeft7.enc op g d a b m e f t / 2 ^ 20 % 256 = op := by
  have h_g := g.isLt
  have h_d := d.isLt
  have h_a := a.isLt
  have h_b := b.isLt
  have h_m := m.isLt
  have h_e := toNat_lt_two e
  have h_f := toNat_lt_two f
  have h_t := toNat_lt_two t
  simp only [shV_gdabmeft7.enc, pack]; omega

theorem shV_gdabmeft7.decode_encode (mk : Fin 16 → Fin 16 → Fin 16 → Fin 16 → Fin 8 → Bool → Bool → Bool → Instr) (op : Nat) (ho : op < 256) (g : Fin 16) (d : Fin 16) (a : Fin 16) (b : Fin 16) (m : Fin 8) (e : Bool) (f : Bool) (t : Bool) :
    shV_gdabmeft7.dec mk (shV_gdabmeft7.enc op g d a b m e f t) = .ok (mk g d a b m e f t) := by
  have h_g := g.isLt
  have h_d := d.isLt
  have h_a := a.isLt
  have h_b := b.isLt
  have h_m := m.isLt
  have h_e := toNat_lt_two e
  have h_f := toNat_lt_two f
  have h_t := toNat_lt_two t
  simp only [shV_gdabmeft7.enc, shV_gdabmeft7.dec]
  rw [unpack_pack 1 (t.toNat) _ _ (by omega), unpack_pack 2 (0) _ _ (by omega), unpack_pack 1 (f.toNat) _ _ (by omega), unpack_pack 1 (e.toNat) _ _ (by omega), unpack_pack 3 (m.val) _ _ (by omega), unpack_pack 4 (b.val) _ _ (by omega), unpack_pack 4 (a.val) _ _ (by omega), unpack_pack 4 (d.val) _ _ (by omega), unpack_pack 8 (op) _ _ (by omega), unpack_pack 4 (g.val) _ _ (by omega)]
  simp only [unpack]
  refine (checked_ok _ _ (by simp)).trans (by simp)

theorem shM_gk.encode_op (op : Nat) (ho : op < 256) (g : Fin 16) (k : Fin 256) :
    shM_gk.enc op g k / 2 ^ 20 % 256 = op := by
  have h_g := g.isLt
  have h_k := k.isLt
  simp only [shM_gk.enc, pack]; omega

theorem shM_gk.decode_encode (mk : Fin 16 → Fin 256 → Instr) (op : Nat) (ho : op < 256) (g : Fin 16) (k : Fin 256) :
    shM_gk.dec mk (shM_gk.enc op g k) = .ok (mk g k) := by
  have h_g := g.isLt
  have h_k := k.isLt
  simp only [shM_gk.enc, shM_gk.dec]
  rw [unpack_pack 12 (0) _ _ (by omega), unpack_pack 8 (k.val) _ _ (by omega), unpack_pack 8 (op) _ _ (by omega), unpack_pack 4 (g.val) _ _ (by omega)]
  simp only [unpack]
  refine (checked_ok _ _ (by simp)).trans (by simp)

theorem shM_g.encode_op (op : Nat) (ho : op < 256) (g : Fin 16) :
    shM_g.enc op g / 2 ^ 20 % 256 = op := by
  have h_g := g.isLt
  simp only [shM_g.enc, pack]; omega

theorem shM_g.decode_encode (mk : Fin 16 → Instr) (op : Nat) (ho : op < 256) (g : Fin 16) :
    shM_g.dec mk (shM_g.enc op g) = .ok (mk g) := by
  have h_g := g.isLt
  simp only [shM_g.enc, shM_g.dec]
  rw [unpack_pack 20 (0) _ _ (by omega), unpack_pack 8 (op) _ _ (by omega), unpack_pack 4 (g.val) _ _ (by omega)]
  simp only [unpack]
  refine (checked_ok _ _ (by simp)).trans (by simp)

theorem shM_gfi.encode_op (op : Nat) (ho : op < 256) (g : Fin 16) (f : Fin 4) (i : Fin 4) :
    shM_gfi.enc op g f i / 2 ^ 20 % 256 = op := by
  have h_g := g.isLt
  have h_f := f.isLt
  have h_i := i.isLt
  simp only [shM_gfi.enc, pack]; omega

theorem shM_gfi.decode_encode (mk : Fin 16 → Fin 4 → Fin 4 → Instr) (op : Nat) (ho : op < 256) (g : Fin 16) (f : Fin 4) (i : Fin 4) :
    shM_gfi.dec mk (shM_gfi.enc op g f i) = .ok (mk g f i) := by
  have h_g := g.isLt
  have h_f := f.isLt
  have h_i := i.isLt
  simp only [shM_gfi.enc, shM_gfi.dec]
  rw [unpack_pack 16 (0) _ _ (by omega), unpack_pack 2 (i.val) _ _ (by omega), unpack_pack 2 (f.val) _ _ (by omega), unpack_pack 8 (op) _ _ (by omega), unpack_pack 4 (g.val) _ _ (by omega)]
  simp only [unpack]
  refine (checked_ok _ _ (by simp)).trans (by simp)

theorem shM_gi.encode_op (op : Nat) (ho : op < 256) (g : Fin 16) (i : Fin 4) :
    shM_gi.enc op g i / 2 ^ 20 % 256 = op := by
  have h_g := g.isLt
  have h_i := i.isLt
  simp only [shM_gi.enc, pack]; omega

theorem shM_gi.decode_encode (mk : Fin 16 → Fin 4 → Instr) (op : Nat) (ho : op < 256) (g : Fin 16) (i : Fin 4) :
    shM_gi.dec mk (shM_gi.enc op g i) = .ok (mk g i) := by
  have h_g := g.isLt
  have h_i := i.isLt
  simp only [shM_gi.enc, shM_gi.dec]
  rw [unpack_pack 16 (0) _ _ (by omega), unpack_pack 2 (i.val) _ _ (by omega), unpack_pack 2 (0) _ _ (by omega), unpack_pack 8 (op) _ _ (by omega), unpack_pack 4 (g.val) _ _ (by omega)]
  simp only [unpack]
  refine (checked_ok _ _ (by simp)).trans (by simp)

theorem shM_gif.encode_op (op : Nat) (ho : op < 256) (g : Fin 16) (i : BitVec 4) (f : BitVec 4) :
    shM_gif.enc op g i f / 2 ^ 20 % 256 = op := by
  have h_g := g.isLt
  have h_i := i.isLt
  have h_f := f.isLt
  simp only [shM_gif.enc, pack]; omega

theorem shM_gif.decode_encode (mk : Fin 16 → BitVec 4 → BitVec 4 → Instr) (op : Nat) (ho : op < 256) (g : Fin 16) (i : BitVec 4) (f : BitVec 4) :
    shM_gif.dec mk (shM_gif.enc op g i f) = .ok (mk g i f) := by
  have h_g := g.isLt
  have h_i := i.isLt
  have h_f := f.isLt
  simp only [shM_gif.enc, shM_gif.dec]
  rw [unpack_pack 12 (0) _ _ (by omega), unpack_pack 4 (f.toNat) _ _ (by omega), unpack_pack 4 (i.toNat) _ _ (by omega), unpack_pack 8 (op) _ _ (by omega), unpack_pack 4 (g.val) _ _ (by omega)]
  simp only [unpack]
  refine (checked_ok _ _ (by simp)).trans (by simp)

theorem shM_gae.encode_op (op : Nat) (ho : op < 256) (g : Fin 16) (a : Src) (e : Bool) :
    shM_gae.enc op g a e / 2 ^ 20 % 256 = op := by
  have h_g := g.isLt
  have h_a := Src.code_lt a
  have h_e := toNat_lt_two e
  simp only [shM_gae.enc, pack]; omega

theorem shM_gae.decode_encode (mk : Fin 16 → Src → Bool → Instr) (op : Nat) (ho : op < 256) (g : Fin 16) (a : Src) (e : Bool) :
    shM_gae.dec mk (shM_gae.enc op g a e) = .ok (mk g a e) := by
  have h_g := g.isLt
  have h_a := Src.code_lt a
  have h_e := toNat_lt_two e
  simp only [shM_gae.enc, shM_gae.dec]
  rw [unpack_pack 14 (0) _ _ (by omega), unpack_pack 1 (e.toNat) _ _ (by omega), unpack_pack 5 (a.code) _ _ (by omega), unpack_pack 8 (op) _ _ (by omega), unpack_pack 4 (g.val) _ _ (by omega)]
  simp only [unpack]
  refine (checked_ok _ _ (by simp)).trans (by simp)

theorem shM_gabef.encode_op (op : Nat) (ho : op < 256) (g : Fin 16) (a : Src) (b : Src) (e : Bool) (f : Bool) :
    shM_gabef.enc op g a b e f / 2 ^ 20 % 256 = op := by
  have h_g := g.isLt
  have h_a := Src.code_lt a
  have h_b := Src.code_lt b
  have h_e := toNat_lt_two e
  have h_f := toNat_lt_two f
  simp only [shM_gabef.enc, pack]; omega

theorem shM_gabef.decode_encode (mk : Fin 16 → Src → Src → Bool → Bool → Instr) (op : Nat) (ho : op < 256) (g : Fin 16) (a : Src) (b : Src) (e : Bool) (f : Bool) :
    shM_gabef.dec mk (shM_gabef.enc op g a b e f) = .ok (mk g a b e f) := by
  have h_g := g.isLt
  have h_a := Src.code_lt a
  have h_b := Src.code_lt b
  have h_e := toNat_lt_two e
  have h_f := toNat_lt_two f
  simp only [shM_gabef.enc, shM_gabef.dec]
  rw [unpack_pack 8 (0) _ _ (by omega), unpack_pack 1 (f.toNat) _ _ (by omega), unpack_pack 1 (e.toNat) _ _ (by omega), unpack_pack 5 (b.code) _ _ (by omega), unpack_pack 5 (a.code) _ _ (by omega), unpack_pack 8 (op) _ _ (by omega), unpack_pack 4 (g.val) _ _ (by omega)]
  simp only [unpack]
  refine (checked_ok _ _ (by simp)).trans (by simp)

theorem shM_gabl.encode_op (op : Nat) (ho : op < 256) (g : Fin 16) (a : Bool) (b : Bool) (l : Bool) :
    shM_gabl.enc op g a b l / 2 ^ 20 % 256 = op := by
  have h_g := g.isLt
  have h_a := toNat_lt_two a
  have h_b := toNat_lt_two b
  have h_l := toNat_lt_two l
  simp only [shM_gabl.enc, pack]; omega

theorem shM_gabl.decode_encode (mk : Fin 16 → Bool → Bool → Bool → Instr) (op : Nat) (ho : op < 256) (g : Fin 16) (a : Bool) (b : Bool) (l : Bool) :
    shM_gabl.dec mk (shM_gabl.enc op g a b l) = .ok (mk g a b l) := by
  have h_g := g.isLt
  have h_a := toNat_lt_two a
  have h_b := toNat_lt_two b
  have h_l := toNat_lt_two l
  simp only [shM_gabl.enc, shM_gabl.dec]
  rw [unpack_pack 17 (0) _ _ (by omega), unpack_pack 1 (l.toNat) _ _ (by omega), unpack_pack 1 (b.toNat) _ _ (by omega), unpack_pack 1 (a.toNat) _ _ (by omega), unpack_pack 8 (op) _ _ (by omega), unpack_pack 4 (g.val) _ _ (by omega)]
  simp only [unpack]
  refine (checked_ok _ _ (by simp)).trans (by simp)

theorem shM_gd.encode_op (op : Nat) (ho : op < 256) (g : Fin 16) (d : Dst) :
    shM_gd.enc op g d / 2 ^ 20 % 256 = op := by
  have h_g := g.isLt
  have h_d := Dst.code_le d
  simp only [shM_gd.enc, pack]; omega

theorem shM_gd.decode_encode (mk : Fin 16 → Dst → Instr) (op : Nat) (ho : op < 256) (g : Fin 16) (d : Dst) :
    shM_gd.dec mk (shM_gd.enc op g d) = .ok (mk g d) := by
  have h_g := g.isLt
  have h_d := Dst.code_le d
  simp only [shM_gd.enc, shM_gd.dec]
  rw [unpack_pack 15 (0) _ _ (by omega), unpack_pack 5 (d.code) _ _ (by omega), unpack_pack 8 (op) _ _ (by omega), unpack_pack 4 (g.val) _ _ (by omega)]
  simp only [unpack]
  refine (checked_ok _ _ (by simp; omega)).trans (by simp)

theorem shM_gn.encode_op (op : Nat) (ho : op < 256) (g : Fin 16) (n : Bool) :
    shM_gn.enc op g n / 2 ^ 20 % 256 = op := by
  have h_g := g.isLt
  have h_n := toNat_lt_two n
  simp only [shM_gn.enc, pack]; omega

theorem shM_gn.decode_encode (mk : Fin 16 → Bool → Instr) (op : Nat) (ho : op < 256) (g : Fin 16) (n : Bool) :
    shM_gn.dec mk (shM_gn.enc op g n) = .ok (mk g n) := by
  have h_g := g.isLt
  have h_n := toNat_lt_two n
  simp only [shM_gn.enc, shM_gn.dec]
  rw [unpack_pack 19 (0) _ _ (by omega), unpack_pack 1 (n.toNat) _ _ (by omega), unpack_pack 8 (op) _ _ (by omega), unpack_pack 4 (g.val) _ _ (by omega)]
  simp only [unpack]
  refine (checked_ok _ _ (by simp)).trans (by simp)

theorem shM_gdi.encode_op (op : Nat) (ho : op < 256) (g : Fin 16) (d : Dst) (i : Fin 4) :
    shM_gdi.enc op g d i / 2 ^ 20 % 256 = op := by
  have h_g := g.isLt
  have h_d := Dst.code_le d
  have h_i := i.isLt
  simp only [shM_gdi.enc, pack]; omega

theorem shM_gdi.decode_encode (mk : Fin 16 → Dst → Fin 4 → Instr) (op : Nat) (ho : op < 256) (g : Fin 16) (d : Dst) (i : Fin 4) :
    shM_gdi.dec mk (shM_gdi.enc op g d i) = .ok (mk g d i) := by
  have h_g := g.isLt
  have h_d := Dst.code_le d
  have h_i := i.isLt
  simp only [shM_gdi.enc, shM_gdi.dec]
  rw [unpack_pack 13 (0) _ _ (by omega), unpack_pack 2 (i.val) _ _ (by omega), unpack_pack 5 (d.code) _ _ (by omega), unpack_pack 8 (op) _ _ (by omega), unpack_pack 4 (g.val) _ _ (by omega)]
  simp only [unpack]
  refine (checked_ok _ _ (by simp; omega)).trans (by simp)

theorem shM_gfix.encode_op (op : Nat) (ho : op < 256) (g : Fin 16) (f : Fin 4) (i : Fin 4) (x : BitVec 8) :
    shM_gfix.enc op g f i x / 2 ^ 20 % 256 = op := by
  have h_g := g.isLt
  have h_f := f.isLt
  have h_i := i.isLt
  have h_x := x.isLt
  simp only [shM_gfix.enc, pack]; omega

theorem shM_gfix.decode_encode (mk : Fin 16 → Fin 4 → Fin 4 → BitVec 8 → Instr) (op : Nat) (ho : op < 256) (g : Fin 16) (f : Fin 4) (i : Fin 4) (x : BitVec 8) :
    shM_gfix.dec mk (shM_gfix.enc op g f i x) = .ok (mk g f i x) := by
  have h_g := g.isLt
  have h_f := f.isLt
  have h_i := i.isLt
  have h_x := x.isLt
  simp only [shM_gfix.enc, shM_gfix.dec]
  rw [unpack_pack 8 (0) _ _ (by omega), unpack_pack 8 (x.toNat) _ _ (by omega), unpack_pack 2 (i.val) _ _ (by omega), unpack_pack 2 (f.val) _ _ (by omega), unpack_pack 8 (op) _ _ (by omega), unpack_pack 4 (g.val) _ _ (by omega)]
  simp only [unpack]
  refine (checked_ok _ _ (by simp)).trans (by simp)

theorem shM_gds.encode_op (op : Nat) (ho : op < 256) (g : Fin 16) (d : Fin 8) (s : Fin 8) :
    shM_gds.enc op g d s / 2 ^ 20 % 256 = op := by
  have h_g := g.isLt
  have h_d := d.isLt
  have h_s := s.isLt
  simp only [shM_gds.enc, pack]; omega

theorem shM_gds.decode_encode (mk : Fin 16 → Fin 8 → Fin 8 → Instr) (op : Nat) (ho : op < 256) (g : Fin 16) (d : Fin 8) (s : Fin 8) :
    shM_gds.dec mk (shM_gds.enc op g d s) = .ok (mk g d s) := by
  have h_g := g.isLt
  have h_d := d.isLt
  have h_s := s.isLt
  simp only [shM_gds.enc, shM_gds.dec]
  rw [unpack_pack 14 (0) _ _ (by omega), unpack_pack 3 (s.val) _ _ (by omega), unpack_pack 3 (d.val) _ _ (by omega), unpack_pack 8 (op) _ _ (by omega), unpack_pack 4 (g.val) _ _ (by omega)]
  simp only [unpack]
  refine (checked_ok _ _ (by simp)).trans (by simp)

theorem shC_gaec.encode_op (op : Nat) (ho : op < 256) (g : Fin 16) (a : Src) (e : Bool) (c : Fin 4) :
    shC_gaec.enc op g a e c / 2 ^ 20 % 256 = op := by
  have h_g := g.isLt
  have h_a := Src.code_lt a
  have h_e := toNat_lt_two e
  have h_c := c.isLt
  simp only [shC_gaec.enc, pack]; omega

theorem shC_gaec.decode_encode (mk : Fin 16 → Src → Bool → Fin 4 → EngSyl) (op : Nat) (ho : op < 256) (g : Fin 16) (a : Src) (e : Bool) (c : Fin 4) :
    shC_gaec.dec mk (shC_gaec.enc op g a e c) = .ok (mk g a e c) := by
  have h_g := g.isLt
  have h_a := Src.code_lt a
  have h_e := toNat_lt_two e
  have h_c := c.isLt
  simp only [shC_gaec.enc, shC_gaec.dec]
  rw [unpack_pack 2 (c.val) _ _ (by omega), unpack_pack 2 (0) _ _ (by omega), unpack_pack 1 (e.toNat) _ _ (by omega), unpack_pack 5 (0) _ _ (by omega), unpack_pack 5 (a.code) _ _ (by omega), unpack_pack 5 (0) _ _ (by omega), unpack_pack 8 (op) _ _ (by omega), unpack_pack 4 (g.val) _ _ (by omega)]
  simp only [unpack]
  refine (checked_ok _ _ (by simp)).trans (by simp)

theorem shC_gabefc.encode_op (op : Nat) (ho : op < 256) (g : Fin 16) (a : Src) (b : Src) (e : Bool) (f : Bool) (c : Fin 4) :
    shC_gabefc.enc op g a b e f c / 2 ^ 20 % 256 = op := by
  have h_g := g.isLt
  have h_a := Src.code_lt a
  have h_b := Src.code_lt b
  have h_e := toNat_lt_two e
  have h_f := toNat_lt_two f
  have h_c := c.isLt
  simp only [shC_gabefc.enc, pack]; omega

theorem shC_gabefc.decode_encode (mk : Fin 16 → Src → Src → Bool → Bool → Fin 4 → EngSyl) (op : Nat) (ho : op < 256) (g : Fin 16) (a : Src) (b : Src) (e : Bool) (f : Bool) (c : Fin 4) :
    shC_gabefc.dec mk (shC_gabefc.enc op g a b e f c) = .ok (mk g a b e f c) := by
  have h_g := g.isLt
  have h_a := Src.code_lt a
  have h_b := Src.code_lt b
  have h_e := toNat_lt_two e
  have h_f := toNat_lt_two f
  have h_c := c.isLt
  simp only [shC_gabefc.enc, shC_gabefc.dec]
  rw [unpack_pack 2 (c.val) _ _ (by omega), unpack_pack 1 (0) _ _ (by omega), unpack_pack 1 (f.toNat) _ _ (by omega), unpack_pack 1 (e.toNat) _ _ (by omega), unpack_pack 5 (b.code) _ _ (by omega), unpack_pack 5 (a.code) _ _ (by omega), unpack_pack 5 (0) _ _ (by omega), unpack_pack 8 (op) _ _ (by omega), unpack_pack 4 (g.val) _ _ (by omega)]
  simp only [unpack]
  refine (checked_ok _ _ (by simp)).trans (by simp)

theorem shC_gc.encode_op (op : Nat) (ho : op < 256) (g : Fin 16) (c : Fin 4) :
    shC_gc.enc op g c / 2 ^ 20 % 256 = op := by
  have h_g := g.isLt
  have h_c := c.isLt
  simp only [shC_gc.enc, pack]; omega

theorem shC_gc.decode_encode (mk : Fin 16 → Fin 4 → EngSyl) (op : Nat) (ho : op < 256) (g : Fin 16) (c : Fin 4) :
    shC_gc.dec mk (shC_gc.enc op g c) = .ok (mk g c) := by
  have h_g := g.isLt
  have h_c := c.isLt
  simp only [shC_gc.enc, shC_gc.dec]
  rw [unpack_pack 2 (c.val) _ _ (by omega), unpack_pack 18 (0) _ _ (by omega), unpack_pack 8 (op) _ _ (by omega), unpack_pack 4 (g.val) _ _ (by omega)]
  simp only [unpack]
  refine (checked_ok _ _ (by simp)).trans (by simp)

theorem shC_gdc.encode_op (op : Nat) (ho : op < 256) (g : Fin 16) (d : Dst) (c : Fin 4) :
    shC_gdc.enc op g d c / 2 ^ 20 % 256 = op := by
  have h_g := g.isLt
  have h_d := Dst.code_le d
  have h_c := c.isLt
  simp only [shC_gdc.enc, pack]; omega

theorem shC_gdc.decode_encode (mk : Fin 16 → Dst → Fin 4 → EngSyl) (op : Nat) (ho : op < 256) (g : Fin 16) (d : Dst) (c : Fin 4) :
    shC_gdc.dec mk (shC_gdc.enc op g d c) = .ok (mk g d c) := by
  have h_g := g.isLt
  have h_d := Dst.code_le d
  have h_c := c.isLt
  simp only [shC_gdc.enc, shC_gdc.dec]
  rw [unpack_pack 2 (c.val) _ _ (by omega), unpack_pack 13 (0) _ _ (by omega), unpack_pack 5 (d.code) _ _ (by omega), unpack_pack 8 (op) _ _ (by omega), unpack_pack 4 (g.val) _ _ (by omega)]
  simp only [unpack]
  refine (checked_ok _ _ (by simp; omega)).trans (by simp)

theorem shC_gae.encode_op (op : Nat) (ho : op < 256) (g : Fin 16) (a : Src) (e : Bool) :
    shC_gae.enc op g a e / 2 ^ 20 % 256 = op := by
  have h_g := g.isLt
  have h_a := Src.code_lt a
  have h_e := toNat_lt_two e
  simp only [shC_gae.enc, pack]; omega

theorem shC_gae.decode_encode (mk : Fin 16 → Src → Bool → EngSyl) (op : Nat) (ho : op < 256) (g : Fin 16) (a : Src) (e : Bool) :
    shC_gae.dec mk (shC_gae.enc op g a e) = .ok (mk g a e) := by
  have h_g := g.isLt
  have h_a := Src.code_lt a
  have h_e := toNat_lt_two e
  simp only [shC_gae.enc, shC_gae.dec]
  rw [unpack_pack 4 (0) _ _ (by omega), unpack_pack 1 (e.toNat) _ _ (by omega), unpack_pack 5 (0) _ _ (by omega), unpack_pack 5 (a.code) _ _ (by omega), unpack_pack 5 (0) _ _ (by omega), unpack_pack 8 (op) _ _ (by omega), unpack_pack 4 (g.val) _ _ (by omega)]
  simp only [unpack]
  refine (checked_ok _ _ (by simp)).trans (by simp)

theorem shC_ghc.encode_op (op : Nat) (ho : op < 256) (g : Fin 16) (h : Fin 16) (c : Fin 4) :
    shC_ghc.enc op g h c / 2 ^ 20 % 256 = op := by
  have h_g := g.isLt
  have h_h := h.isLt
  have h_c := c.isLt
  simp only [shC_ghc.enc, pack]; omega

theorem shC_ghc.decode_encode (mk : Fin 16 → Fin 16 → Fin 4 → EngSyl) (op : Nat) (ho : op < 256) (g : Fin 16) (h : Fin 16) (c : Fin 4) :
    shC_ghc.dec mk (shC_ghc.enc op g h c) = .ok (mk g h c) := by
  have h_g := g.isLt
  have h_h := h.isLt
  have h_c := c.isLt
  simp only [shC_ghc.enc, shC_ghc.dec]
  rw [unpack_pack 2 (c.val) _ _ (by omega), unpack_pack 14 (0) _ _ (by omega), unpack_pack 4 (h.val) _ _ (by omega), unpack_pack 8 (op) _ _ (by omega), unpack_pack 4 (g.val) _ _ (by omega)]
  simp only [unpack]
  refine (checked_ok _ _ (by simp)).trans (by simp)

theorem shC_gdsab.encode_op (op : Nat) (ho : op < 256) (g : Fin 16) (d : Fin 16) (s : Fin 16) (a : Fin 8) (b : Fin 8) :
    shC_gdsab.enc op g d s a b / 2 ^ 20 % 256 = op := by
  have h_g := g.isLt
  have h_d := d.isLt
  have h_s := s.isLt
  have h_a := a.isLt
  have h_b := b.isLt
  simp only [shC_gdsab.enc, pack]; omega

theorem shC_gdsab.decode_encode (mk : Fin 16 → Fin 16 → Fin 16 → Fin 8 → Fin 8 → EngSyl) (op : Nat) (ho : op < 256) (g : Fin 16) (d : Fin 16) (s : Fin 16) (a : Fin 8) (b : Fin 8) :
    shC_gdsab.dec mk (shC_gdsab.enc op g d s a b) = .ok (mk g d s a b) := by
  have h_g := g.isLt
  have h_d := d.isLt
  have h_s := s.isLt
  have h_a := a.isLt
  have h_b := b.isLt
  simp only [shC_gdsab.enc, shC_gdsab.dec]
  rw [unpack_pack 6 (0) _ _ (by omega), unpack_pack 3 (b.val) _ _ (by omega), unpack_pack 3 (a.val) _ _ (by omega), unpack_pack 4 (s.val) _ _ (by omega), unpack_pack 4 (d.val) _ _ (by omega), unpack_pack 8 (op) _ _ (by omega), unpack_pack 4 (g.val) _ _ (by omega)]
  simp only [unpack]
  refine (checked_ok _ _ (by simp)).trans (by simp)

theorem shC_ghabef.encode_op (op : Nat) (ho : op < 256) (g : Fin 16) (h : Fin 16) (a : Src) (b : Src) (e : Bool) (f : Bool) :
    shC_ghabef.enc op g h a b e f / 2 ^ 20 % 256 = op := by
  have h_g := g.isLt
  have h_h := h.isLt
  have h_a := Src.code_lt a
  have h_b := Src.code_lt b
  have h_e := toNat_lt_two e
  have h_f := toNat_lt_two f
  simp only [shC_ghabef.enc, pack]; omega

theorem shC_ghabef.decode_encode (mk : Fin 16 → Fin 16 → Src → Src → Bool → Bool → EngSyl) (op : Nat) (ho : op < 256) (g : Fin 16) (h : Fin 16) (a : Src) (b : Src) (e : Bool) (f : Bool) :
    shC_ghabef.dec mk (shC_ghabef.enc op g h a b e f) = .ok (mk g h a b e f) := by
  have h_g := g.isLt
  have h_h := h.isLt
  have h_a := Src.code_lt a
  have h_b := Src.code_lt b
  have h_e := toNat_lt_two e
  have h_f := toNat_lt_two f
  simp only [shC_ghabef.enc, shC_ghabef.dec]
  rw [unpack_pack 4 (0) _ _ (by omega), unpack_pack 1 (f.toNat) _ _ (by omega), unpack_pack 1 (e.toNat) _ _ (by omega), unpack_pack 5 (b.code) _ _ (by omega), unpack_pack 5 (a.code) _ _ (by omega), unpack_pack 4 (h.val) _ _ (by omega), unpack_pack 8 (op) _ _ (by omega), unpack_pack 4 (g.val) _ _ (by omega)]
  simp only [unpack]
  refine (checked_ok _ _ (by simp)).trans (by simp)

theorem shC_gh.encode_op (op : Nat) (ho : op < 256) (g : Fin 16) (h : Fin 16) :
    shC_gh.enc op g h / 2 ^ 20 % 256 = op := by
  have h_g := g.isLt
  have h_h := h.isLt
  simp only [shC_gh.enc, pack]; omega

theorem shC_gh.decode_encode (mk : Fin 16 → Fin 16 → EngSyl) (op : Nat) (ho : op < 256) (g : Fin 16) (h : Fin 16) :
    shC_gh.dec mk (shC_gh.enc op g h) = .ok (mk g h) := by
  have h_g := g.isLt
  have h_h := h.isLt
  simp only [shC_gh.enc, shC_gh.dec]
  rw [unpack_pack 16 (0) _ _ (by omega), unpack_pack 4 (h.val) _ _ (by omega), unpack_pack 8 (op) _ _ (by omega), unpack_pack 4 (g.val) _ _ (by omega)]
  simp only [unpack]
  refine (checked_ok _ _ (by simp)).trans (by simp)

theorem shC_gdae.encode_op (op : Nat) (ho : op < 256) (g : Fin 16) (d : Dst) (a : Src) (e : Bool) :
    shC_gdae.enc op g d a e / 2 ^ 20 % 256 = op := by
  have h_g := g.isLt
  have h_d := Dst.code_le d
  have h_a := Src.code_lt a
  have h_e := toNat_lt_two e
  simp only [shC_gdae.enc, pack]; omega

theorem shC_gdae.decode_encode (mk : Fin 16 → Dst → Src → Bool → EngSyl) (op : Nat) (ho : op < 256) (g : Fin 16) (d : Dst) (a : Src) (e : Bool) :
    shC_gdae.dec mk (shC_gdae.enc op g d a e) = .ok (mk g d a e) := by
  have h_g := g.isLt
  have h_d := Dst.code_le d
  have h_a := Src.code_lt a
  have h_e := toNat_lt_two e
  simp only [shC_gdae.enc, shC_gdae.dec]
  rw [unpack_pack 4 (0) _ _ (by omega), unpack_pack 1 (e.toNat) _ _ (by omega), unpack_pack 5 (0) _ _ (by omega), unpack_pack 5 (a.code) _ _ (by omega), unpack_pack 5 (d.code) _ _ (by omega), unpack_pack 8 (op) _ _ (by omega), unpack_pack 4 (g.val) _ _ (by omega)]
  simp only [unpack]
  refine (checked_ok _ _ (by simp; omega)).trans (by simp)

theorem shC_gabef.encode_op (op : Nat) (ho : op < 256) (g : Fin 16) (a : Src) (b : Src) (e : Bool) (f : Bool) :
    shC_gabef.enc op g a b e f / 2 ^ 20 % 256 = op := by
  have h_g := g.isLt
  have h_a := Src.code_lt a
  have h_b := Src.code_lt b
  have h_e := toNat_lt_two e
  have h_f := toNat_lt_two f
  simp only [shC_gabef.enc, pack]; omega

theorem shC_gabef.decode_encode (mk : Fin 16 → Src → Src → Bool → Bool → EngSyl) (op : Nat) (ho : op < 256) (g : Fin 16) (a : Src) (b : Src) (e : Bool) (f : Bool) :
    shC_gabef.dec mk (shC_gabef.enc op g a b e f) = .ok (mk g a b e f) := by
  have h_g := g.isLt
  have h_a := Src.code_lt a
  have h_b := Src.code_lt b
  have h_e := toNat_lt_two e
  have h_f := toNat_lt_two f
  simp only [shC_gabef.enc, shC_gabef.dec]
  rw [unpack_pack 3 (0) _ _ (by omega), unpack_pack 1 (f.toNat) _ _ (by omega), unpack_pack 1 (e.toNat) _ _ (by omega), unpack_pack 5 (b.code) _ _ (by omega), unpack_pack 5 (a.code) _ _ (by omega), unpack_pack 5 (0) _ _ (by omega), unpack_pack 8 (op) _ _ (by omega), unpack_pack 4 (g.val) _ _ (by omega)]
  simp only [unpack]
  refine (checked_ok _ _ (by simp)).trans (by simp)

theorem shC_gckabef.encode_op (op : Nat) (ho : op < 256) (g : Fin 16) (c : Fin 4) (k : Fin 4) (a : Src) (b : Src) (e : Bool) (f : Bool) :
    shC_gckabef.enc op g c k a b e f / 2 ^ 20 % 256 = op := by
  have h_g := g.isLt
  have h_c := c.isLt
  have h_k := k.isLt
  have h_a := Src.code_lt a
  have h_b := Src.code_lt b
  have h_e := toNat_lt_two e
  have h_f := toNat_lt_two f
  simp only [shC_gckabef.enc, pack]; omega

theorem shC_gckabef.decode_encode (mk : Fin 16 → Fin 4 → Fin 4 → Src → Src → Bool → Bool → EngSyl) (op : Nat) (ho : op < 256) (g : Fin 16) (c : Fin 4) (k : Fin 4) (a : Src) (b : Src) (e : Bool) (f : Bool) :
    shC_gckabef.dec mk (shC_gckabef.enc op g c k a b e f) = .ok (mk g c k a b e f) := by
  have h_g := g.isLt
  have h_c := c.isLt
  have h_k := k.isLt
  have h_a := Src.code_lt a
  have h_b := Src.code_lt b
  have h_e := toNat_lt_two e
  have h_f := toNat_lt_two f
  simp only [shC_gckabef.enc, shC_gckabef.dec]
  rw [unpack_pack 3 (0) _ _ (by omega), unpack_pack 1 (f.toNat) _ _ (by omega), unpack_pack 1 (e.toNat) _ _ (by omega), unpack_pack 5 (b.code) _ _ (by omega), unpack_pack 5 (a.code) _ _ (by omega), unpack_pack 2 (k.val) _ _ (by omega), unpack_pack 2 (c.val) _ _ (by omega), unpack_pack 1 (0) _ _ (by omega), unpack_pack 8 (op) _ _ (by omega), unpack_pack 4 (g.val) _ _ (by omega)]
  simp only [unpack]
  refine (checked_ok _ _ (by simp)).trans (by simp)

theorem shC_gk.encode_op (op : Nat) (ho : op < 256) (g : Fin 16) (k : Fin 4) :
    shC_gk.enc op g k / 2 ^ 20 % 256 = op := by
  have h_g := g.isLt
  have h_k := k.isLt
  simp only [shC_gk.enc, pack]; omega

theorem shC_gk.decode_encode (mk : Fin 16 → Fin 4 → EngSyl) (op : Nat) (ho : op < 256) (g : Fin 16) (k : Fin 4) :
    shC_gk.dec mk (shC_gk.enc op g k) = .ok (mk g k) := by
  have h_g := g.isLt
  have h_k := k.isLt
  simp only [shC_gk.enc, shC_gk.dec]
  rw [unpack_pack 2 (k.val) _ _ (by omega), unpack_pack 18 (0) _ _ (by omega), unpack_pack 8 (op) _ _ (by omega), unpack_pack 4 (g.val) _ _ (by omega)]
  simp only [unpack]
  refine (checked_ok _ _ (by simp)).trans (by simp)

theorem shC_gdk.encode_op (op : Nat) (ho : op < 256) (g : Fin 16) (d : Dst) (k : Fin 4) :
    shC_gdk.enc op g d k / 2 ^ 20 % 256 = op := by
  have h_g := g.isLt
  have h_d := Dst.code_le d
  have h_k := k.isLt
  simp only [shC_gdk.enc, pack]; omega

theorem shC_gdk.decode_encode (mk : Fin 16 → Dst → Fin 4 → EngSyl) (op : Nat) (ho : op < 256) (g : Fin 16) (d : Dst) (k : Fin 4) :
    shC_gdk.dec mk (shC_gdk.enc op g d k) = .ok (mk g d k) := by
  have h_g := g.isLt
  have h_d := Dst.code_le d
  have h_k := k.isLt
  simp only [shC_gdk.enc, shC_gdk.dec]
  rw [unpack_pack 2 (k.val) _ _ (by omega), unpack_pack 13 (0) _ _ (by omega), unpack_pack 5 (d.code) _ _ (by omega), unpack_pack 8 (op) _ _ (by omega), unpack_pack 4 (g.val) _ _ (by omega)]
  simp only [unpack]
  refine (checked_ok _ _ (by simp; omega)).trans (by simp)

theorem shF_ghae.encode_op (op : Nat) (ho : op < 256) (g : Fin 16) (h : Fin 16) (a : Src) (e : Bool) :
    shF_ghae.enc op g h a e / 2 ^ 20 % 256 = op := by
  have h_g := g.isLt
  have h_h := h.isLt
  have h_a := Src.code_lt a
  have h_e := toNat_lt_two e
  simp only [shF_ghae.enc, pack]; omega

theorem shF_ghae.decode_encode (mk : Fin 16 → Fin 16 → Src → Bool → EngSyl) (op : Nat) (ho : op < 256) (g : Fin 16) (h : Fin 16) (a : Src) (e : Bool) :
    shF_ghae.dec mk (shF_ghae.enc op g h a e) = .ok (mk g h a e) := by
  have h_g := g.isLt
  have h_h := h.isLt
  have h_a := Src.code_lt a
  have h_e := toNat_lt_two e
  simp only [shF_ghae.enc, shF_ghae.dec]
  rw [unpack_pack 5 (0) _ _ (by omega), unpack_pack 1 (e.toNat) _ _ (by omega), unpack_pack 5 (0) _ _ (by omega), unpack_pack 5 (a.code) _ _ (by omega), unpack_pack 4 (h.val) _ _ (by omega), unpack_pack 8 (op) _ _ (by omega), unpack_pack 4 (g.val) _ _ (by omega)]
  simp only [unpack]
  refine (checked_ok _ _ (by simp)).trans (by simp)

theorem shF_gvae.encode_op (op : Nat) (ho : op < 256) (g : Fin 16) (v : Fin 16) (a : Src) (e : Bool) :
    shF_gvae.enc op g v a e / 2 ^ 20 % 256 = op := by
  have h_g := g.isLt
  have h_v := v.isLt
  have h_a := Src.code_lt a
  have h_e := toNat_lt_two e
  simp only [shF_gvae.enc, pack]; omega

theorem shF_gvae.decode_encode (mk : Fin 16 → Fin 16 → Src → Bool → EngSyl) (op : Nat) (ho : op < 256) (g : Fin 16) (v : Fin 16) (a : Src) (e : Bool) :
    shF_gvae.dec mk (shF_gvae.enc op g v a e) = .ok (mk g v a e) := by
  have h_g := g.isLt
  have h_v := v.isLt
  have h_a := Src.code_lt a
  have h_e := toNat_lt_two e
  simp only [shF_gvae.enc, shF_gvae.dec]
  rw [unpack_pack 5 (0) _ _ (by omega), unpack_pack 1 (e.toNat) _ _ (by omega), unpack_pack 5 (0) _ _ (by omega), unpack_pack 5 (a.code) _ _ (by omega), unpack_pack 4 (v.val) _ _ (by omega), unpack_pack 8 (op) _ _ (by omega), unpack_pack 4 (g.val) _ _ (by omega)]
  simp only [unpack]
  refine (checked_ok _ _ (by simp)).trans (by simp)

theorem shF_gabef.encode_op (op : Nat) (ho : op < 256) (g : Fin 16) (a : Src) (b : Fin 8) (e : Bool) (f : Bool) :
    shF_gabef.enc op g a b e f / 2 ^ 20 % 256 = op := by
  have h_g := g.isLt
  have h_a := Src.code_lt a
  have h_b := b.isLt
  have h_e := toNat_lt_two e
  have h_f := toNat_lt_two f
  simp only [shF_gabef.enc, pack]; omega

theorem shF_gabef.decode_encode (mk : Fin 16 → Src → Fin 8 → Bool → Bool → EngSyl) (op : Nat) (ho : op < 256) (g : Fin 16) (a : Src) (b : Fin 8) (e : Bool) (f : Bool) :
    shF_gabef.dec mk (shF_gabef.enc op g a b e f) = .ok (mk g a b e f) := by
  have h_g := g.isLt
  have h_a := Src.code_lt a
  have h_b := b.isLt
  have h_e := toNat_lt_two e
  have h_f := toNat_lt_two f
  simp only [shF_gabef.enc, shF_gabef.dec]
  rw [unpack_pack 3 (0) _ _ (by omega), unpack_pack 1 (f.toNat) _ _ (by omega), unpack_pack 1 (e.toNat) _ _ (by omega), unpack_pack 5 (2 * b.val) _ _ (by omega), unpack_pack 5 (a.code) _ _ (by omega), unpack_pack 5 (0) _ _ (by omega), unpack_pack 8 (op) _ _ (by omega), unpack_pack 4 (g.val) _ _ (by omega)]
  simp only [unpack]
  refine (checked_ok _ _ (by simp; omega)).trans (by simp)

theorem shF_ghabef.encode_op (op : Nat) (ho : op < 256) (g : Fin 16) (h : Fin 16) (a : Fin 8) (b : Src) (e : Bool) (f : Bool) :
    shF_ghabef.enc op g h a b e f / 2 ^ 20 % 256 = op := by
  have h_g := g.isLt
  have h_h := h.isLt
  have h_a := a.isLt
  have h_b := Src.code_lt b
  have h_e := toNat_lt_two e
  have h_f := toNat_lt_two f
  simp only [shF_ghabef.enc, pack]; omega

theorem shF_ghabef.decode_encode (mk : Fin 16 → Fin 16 → Fin 8 → Src → Bool → Bool → EngSyl) (op : Nat) (ho : op < 256) (g : Fin 16) (h : Fin 16) (a : Fin 8) (b : Src) (e : Bool) (f : Bool) :
    shF_ghabef.dec mk (shF_ghabef.enc op g h a b e f) = .ok (mk g h a b e f) := by
  have h_g := g.isLt
  have h_h := h.isLt
  have h_a := a.isLt
  have h_b := Src.code_lt b
  have h_e := toNat_lt_two e
  have h_f := toNat_lt_two f
  simp only [shF_ghabef.enc, shF_ghabef.dec]
  rw [unpack_pack 4 (0) _ _ (by omega), unpack_pack 1 (f.toNat) _ _ (by omega), unpack_pack 1 (e.toNat) _ _ (by omega), unpack_pack 5 (b.code) _ _ (by omega), unpack_pack 5 (2 * a.val) _ _ (by omega), unpack_pack 4 (h.val) _ _ (by omega), unpack_pack 8 (op) _ _ (by omega), unpack_pack 4 (g.val) _ _ (by omega)]
  simp only [unpack]
  refine (checked_ok _ _ (by simp; omega)).trans (by simp)

theorem shF_gdae.encode_op (op : Nat) (ho : op < 256) (g : Fin 16) (d : Dst) (a : Src) (e : Bool) :
    shF_gdae.enc op g d a e / 2 ^ 20 % 256 = op := by
  have h_g := g.isLt
  have h_d := Dst.code_le d
  have h_a := Src.code_lt a
  have h_e := toNat_lt_two e
  simp only [shF_gdae.enc, pack]; omega

theorem shF_gdae.decode_encode (mk : Fin 16 → Dst → Src → Bool → EngSyl) (op : Nat) (ho : op < 256) (g : Fin 16) (d : Dst) (a : Src) (e : Bool) :
    shF_gdae.dec mk (shF_gdae.enc op g d a e) = .ok (mk g d a e) := by
  have h_g := g.isLt
  have h_d := Dst.code_le d
  have h_a := Src.code_lt a
  have h_e := toNat_lt_two e
  simp only [shF_gdae.enc, shF_gdae.dec]
  rw [unpack_pack 4 (0) _ _ (by omega), unpack_pack 1 (e.toNat) _ _ (by omega), unpack_pack 5 (0) _ _ (by omega), unpack_pack 5 (a.code) _ _ (by omega), unpack_pack 5 (d.code) _ _ (by omega), unpack_pack 8 (op) _ _ (by omega), unpack_pack 4 (g.val) _ _ (by omega)]
  simp only [unpack]
  refine (checked_ok _ _ (by simp; omega)).trans (by simp)

theorem shF_gdae2.encode_op (op : Nat) (ho : op < 256) (g : Fin 16) (d : Dst) (a : Fin 8) (e : Bool) :
    shF_gdae2.enc op g d a e / 2 ^ 20 % 256 = op := by
  have h_g := g.isLt
  have h_d := Dst.code_le d
  have h_a := a.isLt
  have h_e := toNat_lt_two e
  simp only [shF_gdae2.enc, pack]; omega

theorem shF_gdae2.decode_encode (mk : Fin 16 → Dst → Fin 8 → Bool → EngSyl) (op : Nat) (ho : op < 256) (g : Fin 16) (d : Dst) (a : Fin 8) (e : Bool) :
    shF_gdae2.dec mk (shF_gdae2.enc op g d a e) = .ok (mk g d a e) := by
  have h_g := g.isLt
  have h_d := Dst.code_le d
  have h_a := a.isLt
  have h_e := toNat_lt_two e
  simp only [shF_gdae2.enc, shF_gdae2.dec]
  rw [unpack_pack 4 (0) _ _ (by omega), unpack_pack 1 (e.toNat) _ _ (by omega), unpack_pack 5 (0) _ _ (by omega), unpack_pack 5 (2 * a.val) _ _ (by omega), unpack_pack 5 (d.code) _ _ (by omega), unpack_pack 8 (op) _ _ (by omega), unpack_pack 4 (g.val) _ _ (by omega)]
  simp only [unpack]
  refine (checked_ok _ _ (by simp; omega)).trans (by simp)

theorem shF_g.encode_op (op : Nat) (ho : op < 256) (g : Fin 16) :
    shF_g.enc op g / 2 ^ 20 % 256 = op := by
  have h_g := g.isLt
  simp only [shF_g.enc, pack]; omega

theorem shF_g.decode_encode (mk : Fin 16 → EngSyl) (op : Nat) (ho : op < 256) (g : Fin 16) :
    shF_g.dec mk (shF_g.enc op g) = .ok (mk g) := by
  have h_g := g.isLt
  simp only [shF_g.enc, shF_g.dec]
  rw [unpack_pack 20 (0) _ _ (by omega), unpack_pack 8 (op) _ _ (by omega), unpack_pack 4 (g.val) _ _ (by omega)]
  simp only [unpack]
  refine (checked_ok _ _ (by simp)).trans (by simp)

theorem shF_gae.encode_op (op : Nat) (ho : op < 256) (g : Fin 16) (a : Src) (e : Bool) :
    shF_gae.enc op g a e / 2 ^ 20 % 256 = op := by
  have h_g := g.isLt
  have h_a := Src.code_lt a
  have h_e := toNat_lt_two e
  simp only [shF_gae.enc, pack]; omega

theorem shF_gae.decode_encode (mk : Fin 16 → Src → Bool → EngSyl) (op : Nat) (ho : op < 256) (g : Fin 16) (a : Src) (e : Bool) :
    shF_gae.dec mk (shF_gae.enc op g a e) = .ok (mk g a e) := by
  have h_g := g.isLt
  have h_a := Src.code_lt a
  have h_e := toNat_lt_two e
  simp only [shF_gae.enc, shF_gae.dec]
  rw [unpack_pack 4 (0) _ _ (by omega), unpack_pack 1 (e.toNat) _ _ (by omega), unpack_pack 5 (0) _ _ (by omega), unpack_pack 5 (a.code) _ _ (by omega), unpack_pack 5 (0) _ _ (by omega), unpack_pack 8 (op) _ _ (by omega), unpack_pack 4 (g.val) _ _ (by omega)]
  simp only [unpack]
  refine (checked_ok _ _ (by simp)).trans (by simp)

theorem shF_gd.encode_op (op : Nat) (ho : op < 256) (g : Fin 16) (d : Dst) :
    shF_gd.enc op g d / 2 ^ 20 % 256 = op := by
  have h_g := g.isLt
  have h_d := Dst.code_le d
  simp only [shF_gd.enc, pack]; omega

theorem shF_gd.decode_encode (mk : Fin 16 → Dst → EngSyl) (op : Nat) (ho : op < 256) (g : Fin 16) (d : Dst) :
    shF_gd.dec mk (shF_gd.enc op g d) = .ok (mk g d) := by
  have h_g := g.isLt
  have h_d := Dst.code_le d
  simp only [shF_gd.enc, shF_gd.dec]
  rw [unpack_pack 15 (0) _ _ (by omega), unpack_pack 5 (d.code) _ _ (by omega), unpack_pack 8 (op) _ _ (by omega), unpack_pack 4 (g.val) _ _ (by omega)]
  simp only [unpack]
  refine (checked_ok _ _ (by simp; omega)).trans (by simp)

theorem shF_gabef2.encode_op (op : Nat) (ho : op < 256) (g : Fin 16) (a : Src) (b : Src) (e : Bool) (f : Bool) :
    shF_gabef2.enc op g a b e f / 2 ^ 20 % 256 = op := by
  have h_g := g.isLt
  have h_a := Src.code_lt a
  have h_b := Src.code_lt b
  have h_e := toNat_lt_two e
  have h_f := toNat_lt_two f
  simp only [shF_gabef2.enc, pack]; omega

theorem shF_gabef2.decode_encode (mk : Fin 16 → Src → Src → Bool → Bool → EngSyl) (op : Nat) (ho : op < 256) (g : Fin 16) (a : Src) (b : Src) (e : Bool) (f : Bool) :
    shF_gabef2.dec mk (shF_gabef2.enc op g a b e f) = .ok (mk g a b e f) := by
  have h_g := g.isLt
  have h_a := Src.code_lt a
  have h_b := Src.code_lt b
  have h_e := toNat_lt_two e
  have h_f := toNat_lt_two f
  simp only [shF_gabef2.enc, shF_gabef2.dec]
  rw [unpack_pack 3 (0) _ _ (by omega), unpack_pack 1 (f.toNat) _ _ (by omega), unpack_pack 1 (e.toNat) _ _ (by omega), unpack_pack 5 (b.code) _ _ (by omega), unpack_pack 5 (a.code) _ _ (by omega), unpack_pack 5 (0) _ _ (by omega), unpack_pack 8 (op) _ _ (by omega), unpack_pack 4 (g.val) _ _ (by omega)]
  simp only [unpack]
  refine (checked_ok _ _ (by simp)).trans (by simp)

theorem shF_gdn.encode_op (op : Nat) (ho : op < 256) (g : Fin 16) (d : Dst) (n : Fin 4) :
    shF_gdn.enc op g d n / 2 ^ 20 % 256 = op := by
  have h_g := g.isLt
  have h_d := Dst.code_le d
  have h_n := n.isLt
  simp only [shF_gdn.enc, pack]; omega

theorem shF_gdn.decode_encode (mk : Fin 16 → Dst → Fin 4 → EngSyl) (op : Nat) (ho : op < 256) (g : Fin 16) (d : Dst) (n : Fin 4) :
    shF_gdn.dec mk (shF_gdn.enc op g d n) = .ok (mk g d n) := by
  have h_g := g.isLt
  have h_d := Dst.code_le d
  have h_n := n.isLt
  simp only [shF_gdn.enc, shF_gdn.dec]
  rw [unpack_pack 2 (n.val) _ _ (by omega), unpack_pack 13 (0) _ _ (by omega), unpack_pack 5 (d.code) _ _ (by omega), unpack_pack 8 (op) _ _ (by omega), unpack_pack 4 (g.val) _ _ (by omega)]
  simp only [unpack]
  refine (checked_ok _ _ (by simp; omega)).trans (by simp)

end Sys2Proof
end

