-- ==== Sys2Proof/Laws/Syllable.lean ====
section
/-! SUPPORT. How every syllable runs: the checks, then its effect from the state it begins in. -/

namespace Sys2Proof.Machine

/-! ## The state a syllable begins in -/

theorem State.markViol_eq (s : State) (xs : List Slotted) :
    ∃ w, s.markViol xs = { s with cx := { s.cx with regs := { s.cx.regs with issuectl := w } } } := by
  unfold State.markViol
  split
  · exact ⟨_, rfl⟩
  · exact ⟨s.cx.regs.issuectl, rfl⟩

/-- Beginning changes ISSUECTL.VIOL and the record of the last end, and nothing else. -/
theorem State.begun_eq (s : State) (i : Instr) :
    ∃ w, s.begun i = { s with evt := .done, cx := { s.cx with regs := { s.cx.regs with issuectl := w } } } := by
  unfold State.begun
  split
  · exact ⟨s.cx.regs.issuectl, rfl⟩
  · obtain ⟨w, h⟩ := State.markViol_eq s.idle [(s.issue.slot, Instr.info s i)]
    exact ⟨w, by rw [h]; rfl⟩

section Begun
variable (s : State) (i : Instr)

@[simp] theorem State.begun_cid : (s.begun i).cid = s.cid := by obtain ⟨w, h⟩ := s.begun_eq i; rw [h]
@[simp] theorem State.begun_core : (s.begun i).core = s.core := by obtain ⟨w, h⟩ := s.begun_eq i; rw [h]
@[simp] theorem State.begun_ctxs : (s.begun i).ctxs = s.ctxs := by obtain ⟨w, h⟩ := s.begun_eq i; rw [h]
@[simp] theorem State.begun_cores : (s.begun i).cores = s.cores := by obtain ⟨w, h⟩ := s.begun_eq i; rw [h]
@[simp] theorem State.begun_clusters : (s.begun i).clusters = s.clusters := by obtain ⟨w, h⟩ := s.begun_eq i; rw [h]
@[simp] theorem State.begun_dies : (s.begun i).dies = s.dies := by obtain ⟨w, h⟩ := s.begun_eq i; rw [h]
@[simp] theorem State.begun_mem : (s.begun i).mem = s.mem := by obtain ⟨w, h⟩ := s.begun_eq i; rw [h]
@[simp] theorem State.begun_regs : (s.begun i).regs = s.regs := by obtain ⟨w, h⟩ := s.begun_eq i; rw [h]
@[simp] theorem State.begun_prot : (s.begun i).prot = s.prot := by obtain ⟨w, h⟩ := s.begun_eq i; rw [h]
@[simp] theorem State.begun_fab : (s.begun i).fab = s.fab := by obtain ⟨w, h⟩ := s.begun_eq i; rw [h]
@[simp] theorem State.begun_pool : (s.begun i).pool = s.pool := by obtain ⟨w, h⟩ := s.begun_eq i; rw [h]
@[simp] theorem State.begun_pwr : (s.begun i).pwr = s.pwr := by obtain ⟨w, h⟩ := s.begun_eq i; rw [h]
@[simp] theorem State.begun_mgmt : (s.begun i).mgmt = s.mgmt := by obtain ⟨w, h⟩ := s.begun_eq i; rw [h]
@[simp] theorem State.begun_relayouts : (s.begun i).relayouts = s.relayouts := by obtain ⟨w, h⟩ := s.begun_eq i; rw [h]
@[simp] theorem State.begun_remotes : (s.begun i).remotes = s.remotes := by obtain ⟨w, h⟩ := s.begun_eq i; rw [h]
@[simp] theorem State.begun_outbox : (s.begun i).outbox = s.outbox := by obtain ⟨w, h⟩ := s.begun_eq i; rw [h]
@[simp] theorem State.begun_tick : (s.begun i).tick = s.tick := by obtain ⟨w, h⟩ := s.begun_eq i; rw [h]
@[simp] theorem State.begun_nextId : (s.begun i).nextId = s.nextId := by obtain ⟨w, h⟩ := s.begun_eq i; rw [h]
@[simp] theorem State.begun_issue : (s.begun i).issue = s.issue := by obtain ⟨w, h⟩ := s.begun_eq i; rw [h]
@[simp] theorem State.begun_agenda : (s.begun i).agenda = s.agenda := by obtain ⟨w, h⟩ := s.begun_eq i; rw [h]
@[simp] theorem State.begun_evt : (s.begun i).evt = .done := by obtain ⟨w, h⟩ := s.begun_eq i; rw [h]
@[simp] theorem State.begun_freeCount : (s.begun i).freeCount = s.freeCount := by obtain ⟨w, h⟩ := s.begun_eq i; rw [h]
@[simp] theorem State.begun_fresh : (s.begun i).cx.fresh = s.cx.fresh := by obtain ⟨w, h⟩ := s.begun_eq i; rw [h]
@[simp] theorem State.begun_inflight : (s.begun i).cx.inflight = s.cx.inflight := by obtain ⟨w, h⟩ := s.begun_eq i; rw [h]
@[simp] theorem State.begun_readS (k : Fin 16) : (s.begun i).readS k = s.readS k := by
  obtain ⟨w, h⟩ := s.begun_eq i; rw [h]; rfl
@[simp] theorem State.begun_readSrc (x : Src) : (s.begun i).readSrc x = s.readSrc x := by
  obtain ⟨w, h⟩ := s.begun_eq i; rw [h]; rfl
@[simp] theorem State.begun_readP (k : Fin 16) : (s.begun i).readP k = s.readP k := by
  obtain ⟨w, h⟩ := s.begun_eq i; rw [h]; rfl
@[simp] theorem State.begun_readM (k : Fin 8) : (s.begun i).readM k = s.readM k := by
  obtain ⟨w, h⟩ := s.begun_eq i; rw [h]; rfl
@[simp] theorem State.begun_readV (k : Fin 16) : (s.begun i).readV k = s.readV k := by
  obtain ⟨w, h⟩ := s.begun_eq i; rw [h]; rfl
@[simp] theorem State.begun_readH (k : Fin 16) : (s.begun i).readH k = s.readH k := by
  obtain ⟨w, h⟩ := s.begun_eq i; rw [h]; rfl
@[simp] theorem State.begun_readA (k : Fin 8) : (s.begun i).readA k = s.readA k := by
  obtain ⟨w, h⟩ := s.begun_eq i; rw [h]; rfl
@[simp] theorem State.begun_imm (v : BitVec 9) : (s.begun i).imm v = s.imm v := by
  obtain ⟨w, h⟩ := s.begun_eq i; rw [h]; rfl
@[simp] theorem State.begun_now : (s.begun i).now = s.now := by obtain ⟨w, h⟩ := s.begun_eq i; rw [h]; rfl
@[simp] theorem State.begun_s_r : (s.begun i).cx.regs.s = s.cx.regs.s := by obtain ⟨w, h⟩ := s.begun_eq i; rw [h]
@[simp] theorem State.begun_qr_r : (s.begun i).cx.regs.qr = s.cx.regs.qr := by obtain ⟨w, h⟩ := s.begun_eq i; rw [h]
@[simp] theorem State.begun_qp_r : (s.begun i).cx.regs.qp = s.cx.regs.qp := by obtain ⟨w, h⟩ := s.begun_eq i; rw [h]
@[simp] theorem State.begun_p_r : (s.begun i).cx.regs.p = s.cx.regs.p := by obtain ⟨w, h⟩ := s.begun_eq i; rw [h]
@[simp] theorem State.begun_m_r : (s.begun i).cx.regs.m = s.cx.regs.m := by obtain ⟨w, h⟩ := s.begun_eq i; rw [h]
@[simp] theorem State.begun_v_r : (s.begun i).cx.regs.v = s.cx.regs.v := by obtain ⟨w, h⟩ := s.begun_eq i; rw [h]
@[simp] theorem State.begun_vinvalid_r : (s.begun i).cx.regs.vinvalid = s.cx.regs.vinvalid := by obtain ⟨w, h⟩ := s.begun_eq i; rw [h]
@[simp] theorem State.begun_h_r : (s.begun i).cx.regs.h = s.cx.regs.h := by obtain ⟨w, h⟩ := s.begun_eq i; rw [h]
@[simp] theorem State.begun_a_r : (s.begun i).cx.regs.a = s.cx.regs.a := by obtain ⟨w, h⟩ := s.begun_eq i; rw [h]
@[simp] theorem State.begun_rstack_r : (s.begun i).cx.regs.rstack = s.cx.regs.rstack := by obtain ⟨w, h⟩ := s.begun_eq i; rw [h]
@[simp] theorem State.begun_mstack_r : (s.begun i).cx.regs.mstack = s.cx.regs.mstack := by obtain ⟨w, h⟩ := s.begun_eq i; rw [h]
@[simp] theorem State.begun_pc_r : (s.begun i).cx.regs.pc = s.cx.regs.pc := by obtain ⟨w, h⟩ := s.begun_eq i; rw [h]
@[simp] theorem State.begun_lcount_r : (s.begun i).cx.regs.lcount = s.cx.regs.lcount := by obtain ⟨w, h⟩ := s.begun_eq i; rw [h]
@[simp] theorem State.begun_pin_r : (s.begun i).cx.regs.pin = s.cx.regs.pin := by obtain ⟨w, h⟩ := s.begun_eq i; rw [h]
@[simp] theorem State.begun_fpmode_r : (s.begun i).cx.regs.fpmode = s.cx.regs.fpmode := by obtain ⟨w, h⟩ := s.begun_eq i; rw [h]
@[simp] theorem State.begun_spillptr_r : (s.begun i).cx.regs.spillptr = s.cx.regs.spillptr := by obtain ⟨w, h⟩ := s.begun_eq i; rw [h]
@[simp] theorem State.begun_lfsr_r : (s.begun i).cx.regs.lfsr = s.cx.regs.lfsr := by obtain ⟨w, h⟩ := s.begun_eq i; rw [h]
@[simp] theorem State.begun_noise_r : (s.begun i).cx.regs.noise = s.cx.regs.noise := by obtain ⟨w, h⟩ := s.begun_eq i; rw [h]
@[simp] theorem State.begun_energy_c : (s.begun i).cx.energy = s.cx.energy := by obtain ⟨w, h⟩ := s.begun_eq i; rw [h]
@[simp] theorem State.begun_dsbjournal_c : (s.begun i).cx.dsbjournal = s.cx.dsbjournal := by obtain ⟨w, h⟩ := s.begun_eq i; rw [h]
@[simp] theorem State.begun_estat_c : (s.begun i).cx.estat = s.cx.estat := by obtain ⟨w, h⟩ := s.begun_eq i; rw [h]
@[simp] theorem State.begun_epc_c : (s.begun i).cx.epc = s.cx.epc := by obtain ⟨w, h⟩ := s.begun_eq i; rw [h]
@[simp] theorem State.begun_ecode_c : (s.begun i).cx.ecode = s.cx.ecode := by obtain ⟨w, h⟩ := s.begun_eq i; rw [h]
@[simp] theorem State.begun_eaddr_c : (s.begun i).cx.eaddr = s.cx.eaddr := by obtain ⟨w, h⟩ := s.begun_eq i; rw [h]
@[simp] theorem State.begun_einfo_c : (s.begun i).cx.einfo = s.cx.einfo := by obtain ⟨w, h⟩ := s.begun_eq i; rw [h]
@[simp] theorem State.begun_trapbase_c : (s.begun i).cx.trapbase = s.cx.trapbase := by obtain ⟨w, h⟩ := s.begun_eq i; rw [h]
@[simp] theorem State.begun_half0_c : (s.begun i).cx.half0 = s.cx.half0 := by obtain ⟨w, h⟩ := s.begun_eq i; rw [h]
@[simp] theorem State.begun_half1_c : (s.begun i).cx.half1 = s.cx.half1 := by obtain ⟨w, h⟩ := s.begun_eq i; rw [h]
@[simp] theorem State.begun_half_c : (s.begun i).cx.half = s.cx.half := by obtain ⟨w, h⟩ := s.begun_eq i; rw [h]
@[simp] theorem State.begun_stopCount_c : (s.begun i).cx.stopCount = s.cx.stopCount := by obtain ⟨w, h⟩ := s.begun_eq i; rw [h]
@[simp] theorem State.begun_lastIssue_c : (s.begun i).cx.lastIssue = s.cx.lastIssue := by obtain ⟨w, h⟩ := s.begun_eq i; rw [h]
@[simp] theorem State.begun_issued_c : (s.begun i).cx.issued = s.cx.issued := by obtain ⟨w, h⟩ := s.begun_eq i; rw [h]
@[simp] theorem State.begun_exempt_c : (s.begun i).cx.exempt = s.cx.exempt := by obtain ⟨w, h⟩ := s.begun_eq i; rw [h]
@[simp] theorem State.begun_dsb_c : (s.begun i).cx.dsb = s.cx.dsb := by obtain ⟨w, h⟩ := s.begun_eq i; rw [h]
@[simp] theorem State.begun_journal_c : (s.begun i).cx.journal = s.cx.journal := by obtain ⟨w, h⟩ := s.begun_eq i; rw [h]
@[simp] theorem State.begun_journalPos_c : (s.begun i).cx.journalPos = s.cx.journalPos := by obtain ⟨w, h⟩ := s.begun_eq i; rw [h]
@[simp] theorem State.begun_filter_c : (s.begun i).cx.filter = s.cx.filter := by obtain ⟨w, h⟩ := s.begun_eq i; rw [h]
@[simp] theorem State.begun_awaiting_c : (s.begun i).cx.awaiting = s.cx.awaiting := by obtain ⟨w, h⟩ := s.begun_eq i; rw [h]
@[simp] theorem State.begun_lineId_c : (s.begun i).cx.lineId = s.cx.lineId := by obtain ⟨w, h⟩ := s.begun_eq i; rw [h]
@[simp] theorem State.begun_pairs_c : (s.begun i).cx.pairs = s.cx.pairs := by obtain ⟨w, h⟩ := s.begun_eq i; rw [h]
@[simp] theorem State.begun_ckpt_c : (s.begun i).cx.ckpt = s.cx.ckpt := by obtain ⟨w, h⟩ := s.begun_eq i; rw [h]
@[simp] theorem State.begun_barriers_c : (s.begun i).cx.barriers = s.cx.barriers := by obtain ⟨w, h⟩ := s.begun_eq i; rw [h]
@[simp] theorem State.begun_parity_c : (s.begun i).cx.parity = s.cx.parity := by obtain ⟨w, h⟩ := s.begun_eq i; rw [h]
@[simp] theorem State.begun_parityGen_c : (s.begun i).cx.parityGen = s.cx.parityGen := by obtain ⟨w, h⟩ := s.begun_eq i; rw [h]
@[simp] theorem State.begun_nohold_c : (s.begun i).cx.nohold = s.cx.nohold := by obtain ⟨w, h⟩ := s.begun_eq i; rw [h]
@[simp] theorem State.begun_nopar_c : (s.begun i).cx.nopar = s.cx.nopar := by obtain ⟨w, h⟩ := s.begun_eq i; rw [h]
@[simp] theorem State.begun_boostReq_c : (s.begun i).cx.boostReq = s.cx.boostReq := by obtain ⟨w, h⟩ := s.begun_eq i; rw [h]
@[simp] theorem State.begun_status_c : (s.begun i).cx.status = s.cx.status := by obtain ⟨w, h⟩ := s.begun_eq i; rw [h]
@[simp] theorem State.begun_wait_c : (s.begun i).cx.wait = s.cx.wait := by obtain ⟨w, h⟩ := s.begun_eq i; rw [h]
@[simp] theorem State.begun_resumeAt_c : (s.begun i).cx.resumeAt = s.cx.resumeAt := by obtain ⟨w, h⟩ := s.begun_eq i; rw [h]
@[simp] theorem State.begun_marks_c : (s.begun i).cx.marks = s.cx.marks := by obtain ⟨w, h⟩ := s.begun_eq i; rw [h]
@[simp] theorem State.begun_moves_c : (s.begun i).cx.moves = s.cx.moves := by obtain ⟨w, h⟩ := s.begun_eq i; rw [h]
@[simp] theorem State.begun_preSave_c : (s.begun i).cx.preSave = s.cx.preSave := by obtain ⟨w, h⟩ := s.begun_eq i; rw [h]
@[simp] theorem State.begun_retained_c : (s.begun i).cx.retained = s.cx.retained := by obtain ⟨w, h⟩ := s.begun_eq i; rw [h]
@[simp] theorem State.begun_inst_c : (s.begun i).cx.inst = s.cx.inst := by obtain ⟨w, h⟩ := s.begun_eq i; rw [h]
@[simp] theorem State.begun_pending_c : (s.begun i).cx.pending = s.cx.pending := by obtain ⟨w, h⟩ := s.begun_eq i; rw [h]
@[simp] theorem State.begun_held_c : (s.begun i).cx.held = s.cx.held := by obtain ⟨w, h⟩ := s.begun_eq i; rw [h]
@[simp] theorem State.begun_stopReq_c : (s.begun i).cx.stopReq = s.cx.stopReq := by obtain ⟨w, h⟩ := s.begun_eq i; rw [h]
@[simp] theorem State.begun_ringPhase_c : (s.begun i).cx.ringPhase = s.cx.ringPhase := by obtain ⟨w, h⟩ := s.begun_eq i; rw [h]
@[simp] theorem State.begun_ringPend_c : (s.begun i).cx.ringPend = s.cx.ringPend := by obtain ⟨w, h⟩ := s.begun_eq i; rw [h]
@[simp] theorem State.begun_fetched_c : (s.begun i).cx.fetched = s.cx.fetched := by obtain ⟨w, h⟩ := s.begun_eq i; rw [h]
@[simp] theorem State.begun_part_c : (s.begun i).cx.part = s.cx.part := by obtain ⟨w, h⟩ := s.begun_eq i; rw [h]
@[simp] theorem State.begun_vector_c : (s.begun i).cx.vector = s.cx.vector := by obtain ⟨w, h⟩ := s.begun_eq i; rw [h]
@[simp] theorem State.begun_joinMark_c : (s.begun i).cx.joinMark = s.cx.joinMark := by obtain ⟨w, h⟩ := s.begun_eq i; rw [h]
@[simp] theorem State.begun_synced_c : (s.begun i).cx.synced = s.cx.synced := by obtain ⟨w, h⟩ := s.begun_eq i; rw [h]
@[simp] theorem State.begun_walkFault_c : (s.begun i).cx.walkFault = s.cx.walkFault := by obtain ⟨w, h⟩ := s.begun_eq i; rw [h]

end Begun

/-! ## A syllable that issues -/

/-- A syllable that issues has its effect. -/
theorem State.syl_of_issues {i : Instr} {s : State} (h : Issues i s) (body : State → State) :
    s.syl (Instr.info s i) body = .next (body (s.begun i)) := by
  obtain ⟨hg, hc⟩ := h
  have hg' : ∀ w, (s.idle.markViol w).readP (Instr.info s i).guard = true := fun w => by
    obtain ⟨x, hx⟩ := State.markViol_eq s.idle w
    rw [hx]; exact hg
  have hg0 : s.idle.readP (Instr.info s i).guard = true := hg
  unfold State.syl State.runSyl State.begun
  change Host.Outcome.next (if s.issue.checked = true then (if s.idle.readP _ then body s.idle else s.idle) else _) = _
  by_cases hk : s.issue.checked = true
  · simp [hk, hg0]
  · have hc' := hc.resolve_left hk
    simp only [hk]
    simp only [State.idle] at hc' hg' ⊢
    simp [hc', hg']

/-- A syllable whose guard reads 0 has no effect once it is checked (R201). -/
theorem State.syl_of_guard_off {i : Instr} {s : State} (hg : s.readP (Instr.info s i).guard = false)
    (hc : s.issue.checked = true) (body : State → State) : s.syl (Instr.info s i) body = .next s.idle := by
  unfold State.syl State.runSyl
  change Host.Outcome.next (if s.issue.checked = true then (if s.idle.readP _ then body s.idle else s.idle) else _) = _
  have hg0 : s.idle.readP (Instr.info s i).guard = false := hg
  simp [hc, hg0]

/-- Every syllable's meaning is the checks and then an effect of its own. -/
theorem exec_eq_syl (i : Instr) (h : i.cls ≠ .micro) (h' : i.cls ≠ .event) :
    ∃ body : State → State, ∀ s, exec i s = s.syl (Instr.info s i) body := by
  cases i
  all_goals first
    | exact absurd rfl h
    | exact absurd rfl h'
    | exact ⟨_, fun s => rfl⟩

/-- A syllable whose bundle's checks have not been made makes its own. -/
theorem State.syl_unchecked {i : Instr} {s : State} (hk : s.issue.checked = false) (body : State → State) :
    s.syl (Instr.info s i) body = .next (match s.idle.checks [(s.issue.slot, Instr.info s i)] with
      | .fault t _ => s.idle.trap t
      | .block => s.idle.blockBundle
      | .wake => s.idle.wakeBank
      | .walk va wr => s.idle.parkSpill va wr
      | .go =>
        let u := s.idle.markViol [(s.issue.slot, Instr.info s i)]
        if u.readP (Instr.info s i).guard then body u else u) := by
  unfold State.syl State.runSyl
  change Host.Outcome.next (if s.issue.checked = true then _ else _) = _
  rw [hk]
  simp only [Bool.false_eq_true, if_false]
  change Host.Outcome.next (match s.idle.checks [(s.issue.slot, Instr.info s i)] with
    | .fault t _ => _ | .block => _ | .wake => _ | .walk va wr => _ | .go => _) = _
  cases s.idle.checks [(s.issue.slot, Instr.info s i)] <;> rfl

end Sys2Proof.Machine
end

