-- ==== Sys2Proof/Tests/Slice0.lean ====
section
/-! SUPPORT. Tests: ill-formed terms are refused, words written out from the spec decode to their instructions, single steps whose
results the spec gives, and for each statement a state and operands that meet its hypotheses. -/

namespace Sys2Proof.Tests

open Sys2Proof Sys2Proof.Machine

-- one at a time: each `decide +kernel` waits for the kernel, and many waiting at once take a thread each
set_option Elab.async false

/-! ## States -/

/-- The state right after reset, in the middle of a bundle whose checks have been made. -/
def rdy : State := { State.reset with issue := { State.reset.issue with checked := true } }

/-- The same with changed registers of the current context. -/
def rdyRegs (f : Regs → Regs) : State := rdy.modRegs f

/-- Scalar register k of `rdy` set. -/
def rdyS (k : Fin 16) (v : Word) : State := rdyRegs fun r => { r with s := r.s.set k v }

/-- The instruction goes on and its bundle is not ended early. -/
def endsDone : Host.Outcome State Fault Refusal → Bool
  | .next t => t.evt == .done
  | _ => false

/-- What a context sees of an outcome. -/
def seen {α : Type} (x : α) (f : State → α) : Host.Outcome State Fault Refusal → α
  | .next t => f t
  | _ => x

/-- A computation that answers a value. -/
def okay {ε α : Type} : Except ε α → Bool
  | .ok _ => true
  | .error _ => false

/-! ## Ill-formed terms are refused (R206, R225, R236, R271, R272, R289, R291) -/

theorem test_wf_loop_pin : (Instr.loopPin 0 (.s 1) false 0).wf = false ∧ (Instr.loopPin 0 (.s 1) false 65).wf = false ∧
    decodeB 0x00508000 = .error 0x0E := by decide +kernel

theorem test_wf_bfi : (Instr.bfi 0 .queue (.s 1) (.s 2) false false).wf = false := by decide +kernel

theorem test_wf_vpack : (Instr.vpack 0 1 2 4 0 false false 2).wf = false ∧ (Instr.vpack 0 1 2 3 0 false false 2).wf = true := by
  decide +kernel

theorem test_wf_vunpk : (Instr.vunpk 0 1 2 2 0 false 0).wf = false ∧ (Instr.vunpk 0 1 2 3 0 false 2).wf = true := by decide +kernel

theorem test_wf_micro : (Instr.nop ⟨.always, 1, 2⟩).wf = false ∧ (Instr.waitq ⟨.always, 1, 0⟩ true true 5).wf = false ∧
    (Instr.waitq ⟨.always, 1, 0⟩ true true 0).wf = false ∧ decodeMicro 0x0000100200000000 = none ∧
    decodeMicro 0xE0001000C0000005 = none := by decide +kernel

/-! ## Microwords (R289 to R291) -/

theorem test_words_micro : ([
    (0x0112345600000000, .nop ⟨.c0z, 0x123, 0x456⟩),
    (0x100050008000ABCD, .ldc ⟨.always, 5, 0⟩ 2 (.imm 0xABCD)),
    (0x1000600060030002, .ldc ⟨.always, 6, 0⟩ 1 (.areg 3 2)),
    (0x2200700AC0000000, .decc ⟨.c1z, 7, 10⟩ 3),
    (0x3001000000050000, .jmp 0x10 5),
    (0x400110220003003F, .jcnd 0x11 0x22 3 63),
    (0x5501203400000000, .pulla ⟨.aempty, 0x12, 0x34⟩),
    (0x6601203400000000, .pullb ⟨.bempty, 0x12, 0x34⟩),
    (0x7000100050000000, .mac ⟨.always, 1, 0⟩ ⟨false, true, false, true⟩),
    (0x87001002A0000000, .macb ⟨.seg, 1, 2⟩ ⟨true, false, true, false⟩),
    (0x9801203400000000, .segcut ⟨.busy, 0x12, 0x34⟩),
    (0xA000100000000000, .ckacc ⟨.always, 1, 0⟩),
    (0xB901203400000000, .ckcmp ⟨.ckmis, 0x12, 0x34⟩),
    (0xC000100000001234, .postp ⟨.always, 1, 0⟩ 0x1234),
    (0xDA01203400000000, .halfp ⟨.half, 0x12, 0x34⟩),
    (0xE0002000C0000004, .waitq ⟨.always, 2, 0⟩ true true 4),
    (0xF000000000000000, .endRoutine)] : List (Nat × Micro)).all (fun x => decide (decodeMicro x.1 = some x.2)) = true := by
  decide +kernel

/-- COND 11 is reserved, and END has NT 0. -/
theorem test_words_micro_refused : decodeMicro 0x0B01203400000000 = none ∧ decodeMicro 0xF000100000000000 = none := by decide +kernel

/-! ## Meanings -/

/-- A sum wraps at 2^64 and goes to the named register and the queue (R232, R192). -/
theorem test_add_wraps : seen [] (fun t => t.cx.fresh.map fun f => (f.reg, f.val))
    (exec (.add 0 (.s 3) (.s 1) (.s 1) false false) (rdyS 1 0x8000000000000001)) = [(.s 3, .word 2), (.qr 0, .word 2)] := by decide +kernel

/-- −8 shifted right by 1 is −4 (R232). -/
theorem test_srai_sign : seen [] (fun t => t.cx.fresh.map (·.val))
    (exec (.srai 0 .queue (.s 1) false 1) (rdyS 1 0xFFFFFFFFFFFFFFF8)) = [.word 0xFFFFFFFFFFFFFFFC] := by decide +kernel

/-- −7 / 2 truncates to −3 (R233). -/
theorem test_div_truncates : seen [] (fun t => t.cx.fresh.map (·.val))
    (exec (.div 0 .queue (.s 1) (.s 2) false false)
      (rdyRegs fun r => { r with s := (r.s.set 1 0xFFFFFFFFFFFFFFF9).set 2 2 })) = [.word 0xFFFFFFFFFFFFFFFD] := by decide +kernel

/-- The compare writes both registers of its pair (R235). -/
theorem test_cmp_pair : seen [] (fun t => t.cx.fresh.map fun f => (f.reg, f.val))
    (exec (.cmpLt 0 2 (.s 1) (.s 2) false false) (rdyS 1 0xFFFFFFFFFFFFFFFF)) = [(.p 4, .word 1), (.p 5, .word 0)] := by decide +kernel

/-- 1.5 + 2.25 in binary32 (R176, R260). -/
theorem test_vfadd : seen 0 (fun t => (t.cx.fresh.map fun f => at_ f.val.toVec 5 0).headD 0)
    (exec (.vfadd 0 3 1 2 0 false false .f32) (rdyRegs fun r => { r with
      v := (r.v.set 1 (Vector.replicate 64 0x3FC00000)).set 2 (Vector.replicate 64 0x40100000) })) = 0x40700000 := by decide +kernel

/-- A byte store to the unit store changes that byte, and a signed load reads it back (R241, R242). -/
theorem test_store_unit : seen (0, 0, 0) (fun t => (t.byteAt (unitStore 0 + 4), t.byteAt (unitStore 0 + 5), t.byteAt (unitStore 0 + 6)))
    (exec (.stB 0 .u (.s 1) (.s 2) false false) (rdyRegs fun r => { r with s := (r.s.set 1 5).set 2 0x1FE })) = (0, 0xFE, 0) := by
  decide +kernel

theorem test_load_unit : seen [] (fun t => t.cx.fresh.map (·.val))
    (exec (.ldB 0 .queue (.s 1) (.s 0) false false .u true)
      { rdyS 1 5 with mem := ⟨[(unitStore 0 + 5, 0xFE)], [], [], [], []⟩ }) = [.word 0xFFFFFFFFFFFFFFFE] := by decide +kernel

/-- `brk` takes the breakpoint fault with n in EINFO; with TRAPBASE at 2^14 control goes to its vector 0x18 (R230, R409). -/
theorem test_brk : seen (0, 0, 0, 0) (fun t => (t.cx.ecode, t.cx.einfo, t.cx.regs.pc, t.cx.estat))
    (exec (.brk 0 9) { rdy with cx := { rdy.cx with trapbase := 0x4000, estat := 0 } }) = (0x18, 9, 0x4600, 1) := by decide +kernel

/-- `eret` goes to EPC at the saved privilege (R230). -/
theorem test_eret : seen (none, 0) (fun t => (t.issue.jump, t.cx.estat))
    (exec (.eret 0) { rdy with cx := { rdy.cx with epc := 0x1240, estat := 3 } }) = (some 0x1240, 3) := by decide +kernel

/-- `movi s3, 5` runs from the place of the next instruction: its value is in flight, and control goes on. -/
theorem test_place : seen [] (fun t => (t.ctx 0).inflight.map fun f => (f.reg, f.val)) (step (State.reset.withFetchWord 32 0x01C18005)) =
    [(.s 3, .word 5), (.qr 0, .word 5)] := by decide +kernel
/-! ## Every syllable from a word written out from the opcode table: opcode, then each field at a value of its own (R202 to R205, R220, R221, R223) -/

theorem test_words_B0 : ([
    (0xA0009D98, .br 10 630 24),
    (0xF0115FED, .brL 15 1407 45),
    (0x402D8000, .brx 4 (.q 11) false),
    (0x90384000, .brxL 9 (.q 0) true),
    (0xE0400000, .ret 14),
    (0x50565D80, .loopPin 5 (.s 12) true 59),
    (0x10600000, .loopEnd 1),
    (0x80752B16, .loopBrk 8 5292 22),
    (0xD085ED6B, .segAlt 13 6069 43),
    (0x20920000, .mpush 2 1),
    (0x00AE0000, .mpop 0 7),
    (0xE0BB0000, .mjoin 14 5 4),
    (0x30C00000, .endNode 3),
    (0xA0D00000, .yield 10),
    (0x10EC4000, .parkT 1 (.q 8) true),
    (0x60F34000, .waitEv 6 13),
    (0x4106C000, .sigEv 4 27),
    (0x21148137, .spawn 2 (.s 9) 0 311),
    (0xE12FA000, .trap 14 250),
    (0xC1300000, .eret 12),
    (0x31403000, .brk 3 3),
    (0x11544000, .katArm 1 (.s 8) true),
    (0x616E8000, .haltCtx 6 (.q 13) false),
    (0xB1700000, .illegal 11)] : List (Nat × Instr)).all (fun x => decide (decodeB x.1 = .ok x.2)) = true := by decide +kernel

theorem test_words_S0 : ([
    (0x200480E8, .add 2 (.s 9) (.s 0) (.s 7) false true),
    (0xC010AA28, .sub 12 (.s 1) (.s 10) (.q 1) false true),
    (0x60295368, .mul 6 (.a 1) (.q 4) (.q 11) false true),
    (0x003578A8, .mulh 0 (.s 10) (.q 14) (.s 5) false true),
    (0xA04121E8, .mulhu 10 (.s 2) (.s 8) (.s 15) false true),
    (0x4059CB28, .div 4 (.a 2) (.q 2) (.q 9) false true),
    (0xE065F068, .divu 14 (.s 11) (.q 12) (.s 3) false true),
    (0x807199A8, .rem 8 (.s 3) (.s 6) (.s 13) false true),
    (0x208A42E8, .remu 2 (.a 3) (.q 0) (.q 7) false true),
    (0xC0966828, .and 12 (.s 12) (.q 10) (.s 1) false true),
    (0x60A21168, .or 6 (.s 4) (.s 4) (.s 11) false true),
    (0x00BABAA8, .xor 0 (.a 4) (.s 14) (.q 5) false true),
    (0xA0C6E3E8, .andn 10 (.s 13) (.q 8) (.q 15) false true),
    (0x40D28928, .shl 4 (.s 5) (.s 2) (.s 9) false true),
    (0xE0EB3268, .shr 14 (.a 5) (.s 12) (.q 3) false true),
    (0x80F75BA8, .sra 8 (.s 14) (.q 6) (.q 13) false true),
    (0x210300E8, .rotl 2 (.s 6) (.s 0) (.s 7) false true),
    (0xC11BAA28, .min 12 (.a 6) (.s 10) (.q 1) false true),
    (0x6127D368, .max 6 (.s 15) (.q 4) (.q 11) false true),
    (0x0133F8A8, .minu 0 (.s 7) (.q 14) (.s 5) false true),
    (0xA14C21E8, .maxu 10 (.a 7) (.s 8) (.s 15) false true),
    (0x41584BA1, .addi 4 .queue (.q 2) true 417),
    (0x7160D4B0, .andi 7 (.s 1) (.q 5) false 176),
    (0xA175E3BF, .ori 10 (.s 11) (.q 8) true 447)] : List (Nat × Instr)).all (fun x => decide (decodeS 2 x.1 = .ok x.2)) = true := by decide +kernel

theorem test_words_S1 : ([
    (0xD18AECCE, .xori 13 (.a 4) (.q 11) false 206),
    (0x01937BDD, .shli 0 (.s 6) (.q 14) true 477),
    (0x31A804EC, .shri 3 .queue (.s 1) false 236),
    (0x61B093FB, .srai 6 (.s 1) (.s 4) true 507),
    (0x91C58104, .movi 9 (.s 11) 260),
    (0xE1D3F213, .movhi 14 (.s 7) (.q 12) true 19),
    (0x11E07CD0, .cmpEq 1 0 (.q 15) (.s 6) true false),
    (0xB1F12610, .cmpNe 11 2 (.s 9) (.q 0) true false),
    (0x52024F50, .cmpLt 5 4 (.q 3) (.q 10) true false),
    (0xF2137490, .cmpGe 15 6 (.q 13) (.s 4) true false),
    (0x92201DD0, .cmpLtu 9 0 (.s 7) (.s 14) true false),
    (0x32314710, .cmpGeu 3 2 (.q 1) (.q 8) true false),
    (0xD2426D8E, .cmpiEq 13 4 (.q 11) false 398),
    (0x0253FA9D, .cmpiLt 0 7 (.q 14) true 157),
    (0x326105AC, .cmpiLtu 3 2 (.s 1) false 428),
    (0x627C1010, .clz 6 (.a 7) (.s 4) true),
    (0x22810010, .ctz 2 (.s 2) (.s 0) true),
    (0xE292F010, .popc 14 (.s 5) (.q 12) true),
    (0xA2A463E8, .bfx 10 (.s 8) (.q 8) (.q 15) false true false),
    (0xB2B3A610, .bfi 11 (.s 7) (.s 9) (.q 0) true false),
    (0x52CC4C00, .sext 5 (.a 7) (.q 3) false .b),
    (0x82D4DBAA, .sel 8 (.s 9) (.q 6) (.q 13) false true 2),
    (0x92E41DD3, .lea 9 (.s 8) (.s 7) (.s 14) true false 3),
    (0xA2F3E3EC, .hcoord 10 (.s 7) (.q 8) (.q 15) false true 4)] : List (Nat × Instr)).all (fun x => decide (decodeS 2 x.1 = .ok x.2)) = true := by decide +kernel

theorem test_words_S2 : ([
    (0xB3012401, .pand 11 2 9 0 true),
    (0xE312B060, .por 14 5 12 3 false),
    (0x13203CC1, .pxor 1 0 15 6 true),
    (0x43302C02, .mpar 4 (.s 11) false .u),
    (0x03470006, .mova 0 (.s 14) 6),
    (0x53560C02, .hld 5 12 (.s 3) false .u),
    (0x83679810, .hst 8 15 (.s 6) true .g),
    (0xB3712610, .hset 11 2 (.s 9) (.q 0) true false),
    (0x538B4F56, .ldB 5 (.a 5) (.q 3) (.q 10) true false .d false),
    (0xD391AE56, .ldH 13 (.s 3) (.s 11) (.q 2) true false .d false),
    (0x53A48D56, .ldW 5 (.s 9) (.s 3) (.s 10) true false .d false),
    (0xD3B7EC56, .ldD 13 (.s 15) (.q 11) (.s 2) true false .d),
    (0xE3C73314, .ldsB 14 (.s 14) (.s 12) .d false true .pod),
    (0xF3D6F483, .ldsH 15 (.s 13) (.q 13) .g true false .dev),
    (0x03E63912, .ldsW 0 (.s 12) (.s 14) .u false true .die),
    (0x13F5FE81, .ldsD 1 (.s 11) (.q 15) .c true false .clus),
    (0x240442E8, .stB 2 .u (.q 0) (.q 7) false true),
    (0xC41C6828, .stH 12 .d (.q 10) (.s 1) false true),
    (0x64241168, .stW 6 .u (.s 4) (.s 11) false true),
    (0x043C3AA8, .stD 0 .d (.s 14) (.q 5) false true),
    (0xA4447CD0, .stsB 10 .u false (.q 15) (.s 6) true false .core),
    (0x24545FD1, .stsH 2 .u false (.q 7) (.q 14) true false .clus),
    (0xA4643ED2, .stsW 10 .u false (.s 15) (.q 6) true false .die),
    (0x24741DD3, .stsD 2 .u false (.s 7) (.s 14) true false .dev)] : List (Nat × Instr)).all (fun x => decide (decodeS 2 x.1 = .ok x.2)) = true := by decide +kernel

theorem test_words_S3 : ([
    (0xA48599A9, .amoAdd 10 .u false .sc (.s 6) (.s 13) false true .clus),
    (0x94931594, .amoAnd 9 .g true .rel (.s 5) (.s 12) true false .pod),
    (0x84AC916A, .amoOr 8 .d false .acq (.s 4) (.s 11) false true .die),
    (0x74BA0D50, .amoXor 7 .c true .rlx (.s 3) (.s 10) true false .core),
    (0x64C5892B, .amoMin 6 .u false .sc (.s 2) (.s 9) false true .dev),
    (0x54D30511, .amoMax 5 .g true .rel (.s 1) (.s 8) true false .clus),
    (0x44EC80EC, .amoMinu 4 .d false .acq (.s 0) (.s 7) false true .pod),
    (0x34FA7CD2, .amoMaxu 3 .c true .rlx (.q 15) (.s 6) true false .die),
    (0x2505F8A8, .amoSwap 2 .u false .sc (.q 14) (.s 5) false true .core),
    (0x15137513, .amoCas 1 .g true .rel (.q 13) 4 true false .dev),
    (0x05201DD6, .fxinit 0 (.s 7) (.s 14) true false .d),
    (0xA5304712, .fxaddF32 10 (.q 1) (.q 8) true false .u),
    (0x45406C56, .fxaddH 4 (.q 11) (.s 2) true false .d),
    (0xE5543014, .fxrd 14 (.s 8) (.s 12) true .c),
    (0x15600000, .fence 1 .rel .core),
    (0x65700000, .fenceSurv 6),
    (0xD5800080, .mls 13 4),
    (0xB5900040, .mlsArr 11 2),
    (0x95A00000, .mlsWt 9 0),
    (0x75B680A0, .mlsQ 7 (.s 13) 5),
    (0xC5C48140, .sysrd 12 (.s 9) .ecode),
    (0x15D02BE0, .syswr 1 .ecode (.q 15)),
    (0x65E08000, .time 6 (.s 1)),
    (0x45F78000, .energy 4 (.s 15))] : List (Nat × Instr)).all (fun x => decide (decodeS 2 x.1 = .ok x.2)) = true := by decide +kernel

theorem test_words_S4 : ([
    (0x26020000, .cycle 2 (.s 4)),
    (0x06105C00, .tlbPf 0 (.q 7) false),
    (0x56203268, .pgInv 5 (.s 12) (.q 3) false true),
    (0x86303C00, .pwrReq 8 (.s 15) false),
    (0xD6400000, .pwrRel 13),
    (0x46510040, .lvlIdx 4 (.s 2) 2),
    (0x966B80E0, .lvlCnt 9 (.a 6) 7),
    (0xE679F068, .crc 14 (.a 2) (.q 12) (.s 3) false true 0)] : List (Nat × Instr)).all (fun x => decide (decodeS 2 x.1 = .ok x.2)) = true := by decide +kernel

theorem test_words_V0 : ([
    (0xF006D468, .vfadd 15 6 13 4 3 false true .f32),
    (0x701E5C69, .vfsub 7 14 5 12 3 false true .bf16),
    (0xF026D46A, .vfmul 15 6 13 4 3 false true .f16),
    (0x703E5C6B, .vfma 7 14 5 12 3 false true .e4m3),
    (0xF046D46C, .vfms 15 6 13 4 3 false true .e5m2),
    (0x705E5C68, .vfnma 7 14 5 12 3 false true .f32),
    (0xF066D469, .vfmin 15 6 13 4 3 false true .bf16),
    (0x707E5C6A, .vfmax 7 14 5 12 3 false true .f16),
    (0xF086D094, .vfabs 15 6 13 4 true .e5m2),
    (0x909070D1, .vfneg 9 0 7 6 true .bf16),
    (0x30AA18EA, .vfcpys 3 10 1 8 7 false true .f16),
    (0xB0B29014, .vrcp 11 2 9 0 true .e5m2),
    (0x50CC3051, .vrsq 5 12 3 2 true .bf16),
    (0xF0D6D093, .vsqrt 15 6 13 4 true .e4m3),
    (0x90E070D0, .vexp2 9 0 7 6 true .f32),
    (0x30FA1012, .vlog2 3 10 1 0 true .f16),
    (0xD104B054, .vtanh 13 4 11 2 true .e5m2),
    (0x711E5091, .vsig 7 14 5 4 true .bf16),
    (0x1128F6AA, .vdiv 1 8 15 6 5 false true .f16),
    (0x91307EAB, .vfcmpEq 9 0 7 14 5 false true .e4m3),
    (0x1140F6AC, .vfcmpLt 1 0 15 6 5 false true .e5m2),
    (0x91507EA8, .vfcmpLe 9 0 7 14 5 false true .f32),
    (0x1160F6A9, .vfcmpUn 1 0 15 6 5 false true .bf16),
    (0x91707EAA, .vadd 9 0 7 14 5 false true .i8)] : List (Nat × Instr)).all (fun x => decide (decodeV x.1 = .ok x.2)) = true := by decide +kernel

theorem test_words_V1 : ([
    (0x1188F6AA, .vsub 1 8 15 6 5 false true .i8),
    (0x91907EAA, .vmul 9 0 7 14 5 false true .i8),
    (0x11A8F6AA, .vmulh 1 8 15 6 5 false true .i8),
    (0x91B07EAA, .vmin 9 0 7 14 5 false true .i8),
    (0x11C8F6AA, .vmax 1 8 15 6 5 false true .i8),
    (0x91D07EAA, .vminu 9 0 7 14 5 false true .i8),
    (0x11E8F6AA, .vmaxu 1 8 15 6 5 false true .i8),
    (0x91F07EA8, .vand 9 0 7 14 5 false true),
    (0xA2018FD0, .vor 10 1 8 15 6 true false),
    (0xB21290E8, .vxor 11 2 9 0 7 false true),
    (0xC223A111, .vshl 12 3 10 1 0 true false .i16),
    (0x423B2911, .vshr 4 11 2 9 0 true false .i16),
    (0xC243A111, .vsra 12 3 10 1 0 true false .i16),
    (0x425B2023, .vabs 4 11 2 1 false .u8),
    (0xE261C353, .vcmpEq 14 1 12 3 2 true false .u8),
    (0x62714B53, .vcmpLt 6 1 4 11 2 true false .u8),
    (0xE281C353, .vcmpLtu 14 1 12 3 2 true false .u8),
    (0x629D4060, .vmov 6 13 4 3 false),
    (0x92A070D4, .vsplat 9 0 7 6 true .i32),
    (0x32BA18EC, .vins 3 10 1 8 7 false true .i32),
    (0xB2C29015, .vext 11 2 9 0 true false .i16),
    (0xC2D3A110, .vsel 12 3 10 1 0 true false),
    (0xD2E4B228, .vperm 13 4 11 2 1 false true),
    (0xE2F5C350, .vrot 14 5 12 3 2 true false)] : List (Nat × Instr)).all (fun x => decide (decodeV x.1 = .ok x.2)) = true := by decide +kernel

theorem test_words_V2 : ([
    (0xF306D468, .vzip 15 6 13 4 3 false true .f32),
    (0x731E5C68, .vidx 7 14 5 12 3 false true),
    (0x832F60A3, .vrsum 8 15 6 5 false .e4m3),
    (0x233900E5, .vrmax 2 9 0 7 false .i16),
    (0xC343A027, .vrmin 12 3 10 1 false .u8),
    (0x635D4061, .vrmaxi 6 13 4 3 false .bf16),
    (0x036700C0, .vrpop 0 7 6),
    (0x537C3A28, .vtopk 5 12 3 10 1 false true .f32),
    (0xD384B228, .vtopkI 13 4 11 2 1 false true .f32),
    (0x539C3050, .vsort 5 12 3 2 true .f32),
    (0xF3A6D090, .vrank 15 6 13 4 true .f32),
    (0x93B07E11, .vqnt 9 0 7 14 true false .int6),
    (0xA3C18F50, .vdqnt 10 1 8 15 2 true false .int8),
    (0x23D900E1, .vcvt 2 9 0 7 false 1),
    (0xC3E3A111, .vpack 12 3 10 1 0 true false 1),
    (0x43FB2111, .vunpk 4 11 2 1 0 true 1),
    (0x5400C060, .vsrnd 5 12 3 false),
    (0x1418F6AA, .vld 1 8 15 6 5 false true .c),
    (0x94207EAA, .vst 9 0 7 14 5 false true .c),
    (0x1438FCA1, .vldT 1 8 15 6 5 false true),
    (0x24490EC8, .vstT 2 9 0 7 6 true false),
    (0x345A18EB, .vgat 3 10 1 8 7 false true false .d),
    (0x246907D6, .vsca 2 9 0 7 6 true false true .c),
    (0x1478F6AA, .vldB 1 8 15 6 5 false true .c)] : List (Nat × Instr)).all (fun x => decide (decodeV x.1 = .ok x.2)) = true := by decide +kernel

theorem test_words_V3 : ([
    (0x94807600, .mand 9 0 7 6),
    (0x54943200, .mor 5 4 3 2),
    (0x14A07600, .mxor 1 0 7 6),
    (0xD4B43000, .mnot 13 4 3),
    (0x24C10000, .mfirst 2 1 0),
    (0x74D65000, .mset 7 6 5 false),
    (0x34DA1001, .msetRd 3 10 1),
    (0x84EF6D88, .vaccRd 8 15 6 13 4 true false),
    (0x94F07EA1, .vaccPk 9 0 7 14 5 false true),
    (0xA5018FD1, .vaccWr 10 1 8 15 6 true false true),
    (0x251907D3, .vclamp 2 9 0 7 6 true false .e4m3),
    (0xA5218FD3, .vdot4 10 1 8 15 6 true false .e5m2),
    (0x253900E3, .vfrnd 2 9 0 7 false .e4m3),
    (0xC543A020, .vfexp 12 3 10 1 false .f32),
    (0x655D4B51, .vscl 6 13 4 11 2 true false .bf16),
    (0xE565C064, .vcompress 14 5 12 3 false .i32),
    (0x857F60A4, .vexpand 8 15 6 5 false .i32),
    (0x258900E5, .vscan 2 9 0 7 false .i16),
    (0xC593A111, .vlut 12 3 10 1 0 true false true),
    (0x45AB2023, .vclz 4 11 2 1 false .u8),
    (0xE5B5C061, .vpopc 14 5 12 3 false .i16),
    (0x85CF6D91, .vbfx 8 15 6 13 4 true false .i16),
    (0x05D7E0A3, .vrev 0 7 14 5 false .e4m3),
    (0xA5E180E1, .vhist 10 1 8 7 false .i16)] : List (Nat × Instr)).all (fun x => decide (decodeV x.1 = .ok x.2)) = true := by decide +kernel

theorem test_words_V4 : ([
    (0x45FB2915, .vbcast 4 11 2 9 0 true false .i16)] : List (Nat × Instr)).all (fun x => decide (decodeV x.1 = .ok x.2)) = true := by decide +kernel

theorem test_words_M0 : ([
    (0xC00E3000, .mcall 12 227),
    (0xA01F1000, .mcallB 10 241),
    (0x80200000, .mwait 8),
    (0xF0390000, .mscale 15 2 1),
    (0x40430000, .mdrain 4 3),
    (0x205E1000, .mclr 2 14 1),
    (0x706F4000, .mldMs 7 (.q 14) true),
    (0xC079EA00, .mstMs 12 (.q 3) (.q 10) true false),
    (0xF0840000, .mqClr 15 false true false),
    (0xB0960000, .mqSt 11 (.s 12)),
    (0x90A00000, .mhalf 9 false),
    (0x70B7A000, .mchk 7 (.s 15) 1),
    (0xC0CE3600, .mfix 12 3 2 54),
    (0x80DF8000, .mmov 8 7 6),
    (0xD0E50000, .mstat 13 (.s 10)),
    (0xB0F00000, .mabort 11)] : List (Nat × Instr)).all (fun x => decide (decodeM x.1 = .ok x.2)) = true := by decide +kernel

theorem test_words_C0 : ([
    (0x20002403, .cpyGo 2 (.s 9) false 3),
    (0xE0101591, .cpyGq 14 (.s 5) (.s 12) true false 1),
    (0x80200003, .cpyDrn 8 3),
    (0x60378000, .cpySt 6 (.s 15) 0),
    (0xB0404810, .cpyPb 11 (.q 2) true),
    (0x00501C00, .cpyInv 0 (.s 7) false),
    (0x506C0003, .cpyZero 5 12 3),
    (0xA0704711, .cpyFill 10 (.q 1) (.q 8) true false 1),
    (0x40806C01, .cpyCvt 4 (.q 11) false 1),
    (0x00900003, .cpyCancel 0 3),
    (0xE0A5C680, .tmov 14 5 12 3 2),
    (0x10B8FD40, .tmovH 1 8 15 6 5),
    (0x40CB9650, .rlay 4 11 (.q 2) (.q 9) false true),
    (0xE0D50000, .rlayWt 14 5),
    (0xC0E30000, .rlaySt 12 3),
    (0xA0FBE010, .bcDrv 10 (.a 6) (.q 8) true),
    (0x6100D010, .bcLat 6 (.s 1) (.q 4) true),
    (0x21102610, .bcSync 2 (.s 9) (.q 0) true false),
    (0x5121E828, .bufArm 5 0 3 (.q 10) (.s 1) false true),
    (0x61300001, .bufSwp 6 1),
    (0x41410002, .bufSt 4 (.s 2) 2),
    (0x915000E8, .pfG 9 (.s 0) (.s 7) false true)] : List (Nat × EngSyl)).all (fun x => decide (decodeC x.1 = .ok x.2)) = true := by decide +kernel

theorem test_words_F0 : ([
    (0xC0035020, .fsend 12 3 (.s 10) true),
    (0x801F3020, .fsendV 8 15 (.s 6) true),
    (0x40206C90, .fsendM 4 (.q 11) 2 true false),
    (0x703E5320, .rpost 7 14 5 (.s 12) true false),
    (0x104875A0, .rpostW 1 8 7 (.q 6) true false),
    (0xB0546400, .rcancel 11 (.s 8) (.q 9) false),
    (0x7065D400, .rprobe 7 (.s 11) (.q 5) false),
    (0x30774400, .rwait 3 (.s 14) (.q 1) false),
    (0xF088A800, .rlbQ 15 (.a 0) 5 false),
    (0xB0900000, .fdrn 11),
    (0x20A98020, .collRed 2 9 (.q 0) true),
    (0xE0B56020, .collAg 14 5 (.s 12) true),
    (0xA0C14020, .collRs 10 1 (.s 8) true),
    (0x60DD2020, .collA2a 6 13 (.s 4) true),
    (0x20E06400, .collBar 2 (.q 9) false),
    (0x70F50000, .collSt 7 (.s 10)),
    (0x51007068, .collRing 5 (.q 12) (.s 3) false true),
    (0x81148002, .noiseRd 8 (.s 9) 2),
    (0xD1200000, .noiseClr 13),
    (0x41360810, .fpeer 4 (.s 12) (.s 2) true),
    (0x0147F810, .fslot 0 (.s 15) (.q 14) true),
    (0xC1596810, .fbays 12 (.a 1) (.q 10) true),
    (0x816A8000, .fevt 8 (.a 4)),
    (0x61707400, .fretune 6 (.q 13) false)] : List (Nat × EngSyl)).all (fun x => decide (decodeF x.1 = .ok x.2)) = true := by decide +kernel

theorem test_words_F1 : ([
    (0xB1804B28, .frepair 11 (.q 2) (.q 9) false true),
    (0xE1905400, .fgrant 14 (.q 5) false)] : List (Nat × EngSyl)).all (fun x => decide (decodeF x.1 = .ok x.2)) = true := by decide +kernel
/-! ## States that meet the hypotheses of the statements

A theorem `test_meets_X` shows, for each clause of `Obligations.X` that has hypotheses, a state and operands that meet them all. -/

/-- In the middle of a bundle whose checks have been made, a syllable issues when its guard reads 1. -/
theorem issues (i : Instr) (s : State) (h : (s.readP (Instr.info s i).guard && s.issue.checked) = true) : Issues i s := by
  simp only [Bool.and_eq_true] at h
  exact ⟨h.1, .inl h.2⟩

/-- A test of the pieces of an access that can be reached. -/
def onPieces (r : Except XErr (List Piece)) (f : List Piece → Bool) : Bool :=
  match r with
  | .ok ps => f ps
  | .error _ => false

theorem test_meets_RoundTrip : (Instr.br 15 0x3FFF 63).wf = true ∧ (Instr.br 15 0x3FFF 63).cls = .b ∧
    (Instr.addi 15 (.a 7) (.q 15) true 0x1FF).wf = true ∧ (Instr.addi 15 (.a 7) (.q 15) true 0x1FF).cls = .s ∧
    (Instr.vfma 15 15 15 15 7 true true .e5m2).wf = true ∧ (Instr.vfma 15 15 15 15 7 true true .e5m2).cls = .v ∧
    (Instr.mcall 15 255).wf = true ∧ (Instr.mcall 15 255).cls = .m ∧ (Instr.cpyGo 15 (.q 15) true 3).wf = true ∧
    (Instr.cpyGo 15 (.q 15) true 3).cls = .c ∧ (Instr.fgrant 15 (.q 15) true).wf = true ∧ (Instr.fgrant 15 (.q 15) true).cls = .f ∧
    (Instr.nop ⟨.half, 4095, 4095⟩).wf = true ∧ (Instr.nop ⟨.half, 4095, 4095⟩).cls = .micro := by decide +kernel

theorem test_meets_ScalarResults : (scalarResult (rdy.begun (.movi 0 (.s 3) 5)) (.movi 0 (.s 3) 5)).isSome = true ∧
    Issues (.movi 0 (.s 3) 5) rdy := ⟨by decide +kernel, issues _ _ (by decide +kernel)⟩

theorem test_meets_PairsAndConstants : (pairResult rdy (.cmpEq 0 7 (.s 0) (.s 1) false false)).isSome = true ∧
    Issues (.cmpEq 0 7 (.s 0) (.s 1) false false) rdy ∧
    (compareResult (rdy.begun (.vcmpEq 0 3 1 2 0 false false .i32)) (.vcmpEq 0 3 1 2 0 false false .i32)).isSome = true ∧
    Issues (.vcmpEq 0 3 1 2 0 false false .i32) rdy :=
  ⟨by decide +kernel, issues _ _ (by decide +kernel), by decide +kernel, issues _ _ (by decide +kernel)⟩

theorem test_meets_VectorResults :
    (vecResult (rdy.begun (.vadd 0 3 1 2 0 false false .i32)) (.vadd 0 3 1 2 0 false false .i32)).isSome = true ∧
    Issues (.vadd 0 3 1 2 0 false false .i32) rdy ∧ (maskResult rdy (.mnot 0 2 3)).isSome = true ∧ Issues (.mnot 0 2 3) rdy :=
  ⟨by decide +kernel, issues _ _ (by decide +kernel), by decide +kernel, issues _ _ (by decide +kernel)⟩

theorem test_meets_Division : (quotient (rdyS 2 7) (.div 0 .queue (.s 1) (.s 2) false false)).isSome = true ∧
    Issues (.div 0 .queue (.s 1) (.s 2) false false) (rdyS 2 7) ∧ (rdyS 2 7).readSrc (.s 2) ≠ 0 ∧
    Issues (.div 0 .queue (.s 1) (.s 2) false false) rdy ∧ rdy.readSrc (.s 2) = 0 :=
  ⟨by decide +kernel, issues _ _ (by decide +kernel), by decide +kernel, issues _ _ (by decide +kernel), by decide +kernel⟩

theorem test_meets_ComputeFrame : computes rdy (.movi 0 (.s 3) 5) = true ∧ endsDone (exec (.movi 0 (.s 3) 5) rdy) = true := by
  decide +kernel

theorem test_meets_Branches : Issues (.br 0 1 2) rdy ∧ Issues (.brx 0 (.s 1) false) rdy ∧ Issues (.brL 0 1 2) rdy ∧
    rdy.cx.regs.rstack.length < 16 ∧ Issues (.ret 0) (rdyRegs fun r => { r with rstack := [7] }) ∧
    (rdyRegs fun r => { r with rstack := [7] }).cx.regs.rstack = [7] ∧
    (let s := rdyRegs fun r => { r with spillptr := 0x10000000000, rstack := List.replicate 16 7, mstack := List.replicate 8 9 }
     s.cx.regs.rstack.length = 16 ∧ s.cx.regs.mstack.length = 8 ∧ okay (s.spillPlace false (s.spilled false) .write) = true ∧
       okay (s.spillPlace true (s.spilled true) .write) = true) ∧
    (let s := rdyRegs fun r => { r with spillptr := 0x10000000000 + 2 ^ 4 + 2 ^ 56 }
     s.cx.regs.rstack = [] ∧ s.cx.regs.mstack = [] ∧ s.spilled false ≠ 0 ∧ s.spilled true ≠ 0 ∧
       okay (s.spillPlace false (s.spilled false - 1) .read) = true ∧ okay (s.spillPlace true (s.spilled true - 1) .read) = true ∧
       okay (s.readBlocking s.spillWho false [] .g (s.spillAddr false (s.spilled false - 1)) 8) = true ∧
       okay (s.readBlocking s.spillWho false [] .g (s.spillAddr true (s.spilled true - 1)) 8) = true) :=
  ⟨issues _ _ (by decide +kernel), issues _ _ (by decide +kernel), issues _ _ (by decide +kernel), by decide +kernel,
    issues _ _ (by decide +kernel), by decide +kernel, by decide +kernel, by decide +kernel⟩

/-- A context that executes bundle 0 of a segment of three bundles, with the NEXT given. -/
def inSegment (next : Word) : State := { rdyS 1 2 with cx := { (rdyS 1 2).cx with
  half0 := some ⟨0, next, 0, List.replicate 3 (.bundle 0x80000000 [])⟩, half := false } }

theorem test_meets_LoopsAndMasks : (rdyS 1 2).cx.regs.pin = none ∧ (inSegment 64).cx.regs.pin = none ∧ (inSegment 0).cx.regs.pin = none ∧
    (let s := rdyRegs fun r => { r with pin := some ⟨0, 1, 2, false⟩ }
     Issues (.loopPin 0 (.s 1) false 2) s ∧ s.pinned = true) ∧ rdy.pinned = false ∧ Issues (.loopEnd 0) rdy ∧ Issues (.loopBrk 0 1 0) rdy ∧
    Issues (.loopPin 0 (.s 1) false 2) (rdyS 1 2) ∧ (rdyS 1 2).readSrc (.s 1) ≠ 0 ∧
    Issues (.loopPin 0 (.s 2) false 1) (inSegment 64) ∧ (inSegment 64).readSrc (.s 2) = 0 ∧
    ((inSegment 64).successor (segOf (inSegment 64).cx.regs.pc + word (indexOf (inSegment 64).cx.regs.pc + 1))).isSome = true ∧
    Issues (.loopPin 0 (.s 2) false 2) (inSegment 0) ∧ (inSegment 0).successor (segOf (inSegment 0).cx.regs.pc + word (indexOf (inSegment 0).cx.regs.pc + 2)) = none ∧
    (let s := rdyRegs fun r => { r with lcount := 2, pin := some ⟨0, 1, 2, false⟩ }
     Issues (.loopEnd 0) s ∧ 1 < s.cx.regs.lcount.toNat ∧ s.cx.regs.pin = some ⟨0, 1, 2, false⟩ ∧ Issues (.loopBrk 0 1 0) s) ∧
    (let s := rdyRegs fun r => { r with lcount := 1, pin := some ⟨0, 1, 2, false⟩ }
     Issues (.loopEnd 0) s ∧ s.cx.regs.lcount.toNat ≤ 1) ∧
    Issues (.mpush 0 2) rdy ∧ rdy.cx.regs.mstack.length < 8 ∧
    (let s := rdyRegs fun r => { r with mstack := [5] }
     Issues (.mpop 0 2) s ∧ Issues (.mjoin 0 2 3) s ∧ s.cx.regs.mstack = [5]) :=
  ⟨by decide +kernel, by decide +kernel, by decide +kernel, ⟨issues _ _ (by decide +kernel), by decide +kernel⟩, by decide +kernel,
    issues _ _ (by decide +kernel), issues _ _ (by decide +kernel), issues _ _ (by decide +kernel), by decide +kernel, issues _ _ (by decide +kernel), by decide +kernel, by decide +kernel,
    issues _ _ (by decide +kernel), by decide +kernel,
    ⟨issues _ _ (by decide +kernel), by decide +kernel, by decide +kernel, issues _ _ (by decide +kernel)⟩,
    ⟨issues _ _ (by decide +kernel), by decide +kernel⟩, issues _ _ (by decide +kernel), by decide +kernel,
    ⟨issues _ _ (by decide +kernel), issues _ _ (by decide +kernel), by decide +kernel⟩⟩

/-- Event counter 63 of the first cluster holds 1. -/
def counted : State := { rdy with clusters := [(0, { Cluster.reset with events := [(63, 1)] })] }

theorem test_meets_TimeAndEvents : Issues (.yield 0) rdy ∧ Issues (.parkT 0 (.s 1) false) rdy ∧
    (rdy.readSrc (.s 1)).toNat ≤ rdy.now ∧ Issues (.parkT 0 (.s 1) false) (rdyS 1 1) ∧ (rdyS 1 1).now < ((rdyS 1 1).readSrc (.s 1)).toNat ∧
    Issues (.waitEv 0 63) counted ∧ (counted.begun (.waitEv 0 63)).waitersOf 63 = [] ∧
    look 0 63 (counted.clusterAt (clusterOf counted.cid)).events ≠ 0 ∧ Issues (.sigEv 0 63) rdy ∧
    (rdy.begun (.sigEv 0 63)).publish.published = true ∧ Issues (.segAlt 0 1 0) rdy :=
  ⟨issues _ _ (by decide +kernel), issues _ _ (by decide +kernel), by decide +kernel, issues _ _ (by decide +kernel), by decide +kernel,
    issues _ _ (by decide +kernel), by decide +kernel, by decide +kernel, issues _ _ (by decide +kernel), by decide +kernel,
    issues _ _ (by decide +kernel)⟩

theorem test_meets_SoftwareTraps : Issues (.trap 0 255) { rdy with issue := { rdy.issue with link := some 64 } } ∧ Issues (.brk 0 255) rdy ∧
    Issues (.eret 0) rdy ∧ State.reset.issue.checked = false :=
  ⟨issues _ _ (by decide +kernel), issues _ _ (by decide +kernel), issues _ _ (by decide +kernel), by decide +kernel⟩

theorem test_meets_TrapEntry : ({ rdy with cx := { rdy.cx with trapbase := 0x4000 } } : State).landAll.vectorBase ≠ 0 := by decide +kernel

/-- Loads, strong loads at the last aligned address of the unit store, and a misaligned one. -/
theorem test_meets_Loads :
    (let s := rdyS 1 0x1FFFFF
     let i : Instr := .ldB 0 .queue (.s 1) (.s 0) false false .u true
     loadForm s i = some ⟨false, 1, .queue, 0x1FFFFF, .u, true⟩ ∧ Issues i s ∧ s.plain ∧ scratch s.cid .u 0x1FFFFF 1 = some (unitStore 0 + 0x1FFFFF) ∧
       okay (s.resolve s.who .u 0x1FFFFF 1 .read) = true) ∧
    (let s := rdyS 1 0x1FFFF8
     let i : Instr := .ldsD 0 .queue (.s 1) .u false false .core
     loadForm s i = some ⟨true, 8, .queue, 0x1FFFF8, .u, false⟩ ∧ Issues i s ∧ (0x1FFFF8 : Word).toNat % 8 = 0) :=
  ⟨⟨by decide +kernel, issues _ _ (by decide +kernel), by unfold State.plain; decide +kernel, by decide +kernel, by decide +kernel⟩,
    by decide +kernel, issues _ _ (by decide +kernel), by decide +kernel⟩

theorem test_meets_StrongMisaligned : strongAddr (rdyS 1 0x1FFFF9) (.ldsD 0 .queue (.s 1) .u false false .core) = some (0x1FFFF9, 8) ∧
    Issues (.ldsD 0 .queue (.s 1) .u false false .core) (rdyS 1 0x1FFFF9) ∧ (0x1FFFF9 : Word).toNat % 8 ≠ 0 :=
  ⟨by decide +kernel, issues _ _ (by decide +kernel), by decide +kernel⟩

theorem test_meets_Stores :
    (let s := rdyS 1 0x1FFFF8
     let i : Instr := .stD 0 .u (.s 1) (.s 2) false false
     let j : Instr := .stsD 0 .d false (.s 1) (.s 2) false false .dev
     storeForm s i = some ⟨false, 8, 0x1FFFF8, .u, 0, false⟩ ∧ Issues i s ∧ s.plain ∧ scratch s.cid .u 0x1FFFF8 8 = some (unitStore 0 + 0x1FFFF8) ∧
       storeForm s j = some ⟨true, 8, 0x1FFFF8, .d, 0, false⟩ ∧ Issues j s ∧ scratch s.cid .d 0x1FFFF8 8 = some (dieStore 0 + 0x1FFFF8)) ∧
    (let s := rdyS 1 8
     let i : Instr := .stsD 0 .u true (.s 1) (.s 2) false false .dev
     let b := s.begun i
     storeForm s i = some ⟨true, 8, 8, .u, 0, true⟩ ∧ Issues i s ∧
       seen false (fun _ => true) (.next b) = true ∧ okay (b.resolve b.who .u 8 8 .write) = true ∧ b.publish.published = true) :=
  ⟨⟨by decide +kernel, issues _ _ (by decide +kernel), by unfold State.plain; decide +kernel, by decide +kernel, by decide +kernel,
    issues _ _ (by decide +kernel), by decide +kernel⟩,
    by decide +kernel, issues _ _ (by decide +kernel), by decide +kernel, by decide +kernel, by decide +kernel⟩

theorem test_meets_DeferredStores :
    (let s := rdyS 1 8
     let i : Instr := .stD 0 .d (.s 1) (.s 2) false false
     let b := s.begun i
     storeForm s i = some ⟨false, 8, 8, .d, 0, false⟩ ∧ Issues i s ∧ (b.resolve b.who .d 8 8 .write).toOption.isSome = true ∧
       onPieces (b.resolve b.who .d 8 8 .write) (fun ps =>
         s.cx.dsb.length + ps.length ≤ 128 && ps.all fun p => okay (s.deferPiece p p.mask 0)) = true) :=
  ⟨by decide +kernel, issues _ _ (by decide +kernel), by decide +kernel, by decide +kernel⟩

theorem test_meets_Atomics :
    (let s := rdyS 1 0x1FFFF8
     let i : Instr := .amoAdd 0 .u true .rlx (.s 1) (.s 2) false false .dev
     amoForm s i = some ⟨.add, .u, true, .rlx, 0x1FFFF8, 0, 0⟩ ∧ Issues i s ∧ s.plain ∧ (0x1FFFF8 : Word).toNat % 8 = 0 ∧
       scratch s.cid .u 0x1FFFF8 8 = some (unitStore 0 + 0x1FFFF8) ∧
       (let b := s.begun i
        onPieces (b.resolve b.who .u 0x1FFFF8 8 .write) (fun ps => ps.length == 1 && ps.all fun p =>
          p.at_.dev == s.device && p.line < sysBase && !b.writeWaits [p] && (b.touch p.line p.mask).poisonAt p p.mask == none) = true)) ∧
    (let s := rdyS 1 8
     let i : Instr := .amoCas 0 .d false .sc (.s 1) 2 false false .dev
     let b := s.begun i
     amoForm s i = some ⟨.cas, .d, false, .sc, 8, 0, 0⟩ ∧ Issues i s ∧ b.publish.published = true ∧
       b.publish.markOutbound.mgmt.devnum = s.mgmt.devnum ∧ b.publish.markOutbound.cid = s.cid) :=
  ⟨⟨by decide +kernel, issues _ _ (by decide +kernel), by unfold State.plain; decide +kernel, by decide +kernel, by decide +kernel,
    by decide +kernel⟩, by decide +kernel, issues _ _ (by decide +kernel), by decide +kernel, by decide +kernel, by decide +kernel⟩

theorem test_meets_ScratchCells :
    (let s := rdyS 1 0x1FFFE0
     let i : Instr := .fxinit 0 (.s 1) (.s 2) false false .u
     let j : Instr := .fxrd 0 .queue (.s 1) false .u
     cellForm s i = some (.init, .u, 0x1FFFE0, 0) ∧ Issues i s ∧ s.plain ∧ (0x1FFFE0 : Word).toNat % 32 = 0 ∧
       scratch s.cid .u 0x1FFFE0 32 = some (unitStore 0 + 0x1FFFE0) ∧ Issues j s ∧ (s.readSrc (.s 1)).toNat % 32 = 0) :=
  ⟨by decide +kernel, issues _ _ (by decide +kernel), by unfold State.plain; decide +kernel, by decide +kernel, by decide +kernel,
    issues _ _ (by decide +kernel), by decide +kernel⟩

/-- A node of two instances that declares barrier 15 at level 0, and its graph. -/
def node1 : NodeEntry := ⟨0x1000, 0, false, 3, false, 1, [], [(15, 0)], 2, 0⟩
def graph1 : Graph := ⟨0, 0, 0, 2, [⟨0, 0, 1⟩, ⟨0, 0, 2⟩], [node1], [], [], 5⟩
def inst1 : Inst := ⟨0, 1, [0, 1], 0x2000, 0, false, 0, 3, 0, 1, 0, false, false, false, none⟩

/-- The current context runs instance 1 of that node; barrier 15 has its state and the context takes the part given. -/
def atBarrier (x : Barrier) (p : BarrierPart) : State :=
  { rdy with pool := { rdy.pool with graph := some graph1, barriers := [x] },
             cx := { rdy.cx with inst := some inst1, barriers := rdy.cx.barriers.set 15 p } }

theorem test_meets_FencesAndMilestones :
    (Issues (.fence 0 .sc .dev) rdy ∧ (rdy.begun (.fence 0 .sc .dev)).publish.published = true ∧
      (rdy.begun (.fence 0 .sc .dev)).publish.markOutbound.readsBound = true ∧ Issues (.fence 0 .acq .pod) rdy ∧ rdy.readsBound = true) ∧
    (Issues (.fenceSurv 0) rdy ∧ rdy.protDrained = true ∧ rdy.cx.parity = 0 ∧ rdy.cx.nohold = none ∧ rdy.cx.nopar = none) ∧
    (let s := atBarrier ⟨0, 15, 0, false, 1, 0, 2⟩ ⟨1, true, some 0⟩
     Issues (.mlsWt 0 15) s ∧ s.myBarrier 15 = some ⟨0, 15, 0, false, 1, 0, 2⟩ ∧ s.cx.barriers[15].pend = true ∧
       Barrier.done ⟨0, 15, 0, false, 1, 0, 2⟩ (s.cx.barriers[15].next - 1) = false) ∧
    (let s := atBarrier ⟨0, 15, 0, true, 0, 0, 2⟩ ⟨1, true, some 0⟩
     Issues (.mls 0 15) s ∧ s.myBarrier 15 = some ⟨0, 15, 0, true, 0, 0, 2⟩ ∧ s.cx.barriers[15].waiting = some s.cx.regs.pc ∧
       Barrier.done ⟨0, 15, 0, true, 0, 0, 2⟩ (s.cx.barriers[15].next - 1) = true) ∧
    (let s := atBarrier ⟨0, 15, 0, false, 0, 0, 2⟩ ⟨0, false, none⟩
     Issues (.mlsArr 0 15) s ∧ (s.myBarrier 15).isSome = true ∧ s.cx.barriers[15].pend = false ∧
       (s.begun (.mlsArr 0 15)).publish.published = true ∧ (s.begun (.mlsArr 0 15)).publish.markOutbound.allJoins = [] ∧
       (s.begun (.mlsArr 0 15)).publish.markOutbound.ownRelayouts = [] ∧ s.myBarrier 14 = none) :=
  ⟨⟨issues _ _ (by decide +kernel), by decide +kernel, by decide +kernel, issues _ _ (by decide +kernel), by decide +kernel⟩,
    ⟨issues _ _ (by decide +kernel), by decide +kernel, by decide +kernel, by decide +kernel, by decide +kernel⟩,
    ⟨issues _ _ (by decide +kernel), by decide +kernel, by decide +kernel, by decide +kernel⟩,
    ⟨issues _ _ (by decide +kernel), by decide +kernel, by decide +kernel, by decide +kernel⟩,
    ⟨issues _ _ (by decide +kernel), by decide +kernel, by decide +kernel, by decide +kernel, by decide +kernel, by decide +kernel,
      by decide +kernel⟩⟩

/-! ### Handles, system registers, vectors -/

/-- A descriptor of 64 rows of 4 bytes at virtual address b. -/
def tensorAt (b : Nat) : Line :=
  setDField (setDField (setDField (setDField (setDField 0 0 56 b) 56 8 1) 440 3 2) 64 32 64) 96 32 4

/-- Handle register 0 holds it, with the given DADDR; s1 and s2 hold values. -/
def withTensor (d : Line) (x y : Word) : State :=
  rdyRegs fun r => { r with h := r.h.set 0 ⟨d, 0x10000000040⟩, s := (r.s.set 1 x).set 2 y }

/-- The unit store of core 0 holds a descriptor at address 64. -/
def storedTensor : State := { rdyS 1 64 with mem := (rdyS 1 64).mem.setStored (unitStore 0 + 64) (BitVec.allOnes 64) (tensorAt 0x10000000000) }

def atElement : Elem → Bool
  | .at_ _ => true
  | _ => false

theorem test_meets_Handles :
    Issues (.hset 0 0 (.s 1) (.s 2) false false) (withTensor (tensorAt 64) 63 4) ∧
    Desc.rly ((withTensor (tensorAt 64) 63 4).readH 0).desc = false ∧
    hsetField[field ((withTensor (tensorAt 64) 63 4).readSrc (.s 2)) 0 4]? = some (64, 32) ∧
    ((withTensor (tensorAt 64) 63 4).readSrc (.s 1)).toNat < 2 ^ 32 ∧ descCause (setDField (tensorAt 64) 64 32 63) = none ∧
    Desc.rly ((withTensor (setDField (tensorAt 64) 511 1 1) 0 0).readH 0).desc = true ∧
    Issues (.hset 0 0 (.s 1) (.s 2) false false) (withTensor (setDField (tensorAt 64) 511 1 1) 0 0) ∧
    Issues (.hst 0 0 (.s 1) false .u) (withTensor (tensorAt 64) 64 0) ∧
    ((withTensor (tensorAt 64) 64 0).begun (.hst 0 0 (.s 1) false .u)).evt = .done ∧
    endsDone (exec (.hst 0 0 (.s 1) false .u) (withTensor (tensorAt 64) 64 0)) = true ∧
    Issues (.hcoord 0 .queue (.s 1) (.s 2) false false 0) (withTensor (tensorAt 64) 0 0x300000000) ∧
    missingDim (Desc.exts (tensorAt 64)) 0 3 = false ∧
    atElement ((withTensor (tensorAt 64) 0 0x300000000).element rdy.who ⟨tensorAt 64, 0x10000000040⟩ (batchCoords (Desc.exts (tensorAt 64)) 0 3 0) false)
      = true ∧
    Issues (.hld 0 0 (.s 1) false .u) storedTensor ∧ storedTensor.plain ∧ scratch storedTensor.cid .u 64 64 = some (unitStore 0 + 64) ∧
    descCause (BitVec.ofNat 512 (ofBytes (storedTensor.bytesAt (unitStore 0 + 64) 64))) = none ∧
    Issues (.hld 0 0 (.s 1) false .u) (rdyS 1 64) ∧ descCause (BitVec.ofNat 512 (ofBytes ((rdyS 1 64).bytesAt (unitStore 0 + 64) 64))) = some 3 ∧
    Issues (.mpar 0 (.s 1) false .u) storedTensor := by
  and_intros <;> first | exact issues _ _ (by decide +kernel) | decide +kernel

theorem test_meets_SystemRegisters : (SysReg.epc ≠ SysReg.eaddr) ∧ (field (0x4040 : Word) 8 7 ≤ 64 ∧ field (0x4040 : Word) 0 7 ≤ field (0x4040 : Word) 8 7) ∧
    ¬ (field (0x4041 : Word) 8 7 ≤ 64 ∧ field (0x4041 : Word) 0 7 ≤ field (0x4041 : Word) 8 7) ∧ flag (0x1 : Word) 0 = true ∧
    slotmapLegal 0xff8090400000 = true ∧ flag (0xff8090400000 : Word) 0 = false ∧ slotmapLegal 0 = false ∧ (5 : Nat) < 10 := by decide +kernel

theorem test_meets_SystemInstructions :
    Issues (.syswr 0 .epc (.s 1)) rdy ∧ Issues (.pwrReq 0 (.s 1) false) (rdyS 1 2) ∧ ((rdyS 1 2).readSrc (.s 1)).toNat ≤ 2 ∧
    Issues (.pwrReq 0 (.s 1) false) (rdyS 1 3) ∧ 2 < ((rdyS 1 3).readSrc (.s 1)).toNat ∧ Issues (.pwrRel 0) rdy ∧
    Issues (.tlbPf 0 (.s 1) false) rdy ∧ Issues (.pgInv 0 (.s 1) (.s 2) false false) rdy ∧
    (rdy.begun (.pgInv 0 (.s 1) (.s 2) false false)).publish.published = true ∧
    Issues (.katArm 0 (.s 1) false) rdy ∧ rdy.readSrc (.s 1) &&& katReserved = 0 ∧
    Issues (.katArm 0 (.s 1) false) (rdyS 1 (BitVec.allOnes 64)) ∧ (rdyS 1 (BitVec.allOnes 64)).readSrc (.s 1) &&& katReserved ≠ 0 ∧
    Issues (.haltCtx 0 (.s 1) false) (rdyS 1 18431) ∧ (rdyS 1 18431).live 18431 = false ∧
    Issues (.haltCtx 0 (.s 1) false) (rdyS 1 18432) ∧ 18432 ≤ ((rdyS 1 18432).readSrc (.s 1)).toNat ∧
    ({ rdyS 1 4 with ctxs := [(4, { Ctx.reset with status := .ready })] } : State).live 4 = true ∧
    Issues (.haltCtx 0 (.s 1) false) { rdyS 1 4 with ctxs := [(4, { Ctx.reset with status := .ready })] } := by
  and_intros <;> first | exact issues _ _ (by decide +kernel) | decide +kernel

theorem test_meets_ChecksBeforeIssue :
    State.reset.issue.checked = false ∧ (Instr.info State.reset (.movi 0 (.s 3) 5)).cause = none ∧
    State.reset.absent (Instr.info State.reset (.movi 0 (.s 3) 5)).engine = false ∧
    (Instr.info State.reset (.illegal 0)).cause.isSome = true ∧ (Instr.info State.reset (.eret 0)).priv = true ∧ State.reset.system = false ∧
    State.reset.idle.checks [(State.reset.issue.slot, Instr.info State.reset (.movi 1 (.s 3) 5))] = .go ∧ State.reset.readP 1 = false ∧
    ({ State.reset with cid := 336 } : State).absent (Instr.info { State.reset with cid := 336 } (.mwait 0)).engine = true ∧
    (let s : State := { State.reset with cx := { State.reset.cx with inflight := [⟨.s 1, .word 0, none, 0, false, 0⟩] } }
     s.idle.checks [(s.issue.slot, Instr.info s (.addi 0 (.s 3) (.s 1) false 5))] = .block) ∧
    (let s : State := { State.reset with cx := { State.reset.cx with retained := true } }
     s.idle.checks [(s.issue.slot, Instr.info s (.vsrnd 0 1 0 false))] = .wake) ∧
    ({ State.reset with issue := { State.reset.issue with checked := true } } : State).readP 1 = false := by
  and_intros <;> decide +kernel

/-- The state after reset with changed registers, or with a value for s1 in flight, landing as given. -/
def fresh (f : Regs → Regs) : State :=
  let s := State.reset.modRegs f
  { s with issue := { s.issue with stop := true, link := some 64 }, regs := { s.regs with ptroot := 1 } }
def flying (r : Reg) (l : Option Nat) (strict : Word) : State :=
  { fresh (fun r => { r with issuectl := strict }) with cx := { (fresh fun r => { r with issuectl := strict }).cx with
    inflight := [⟨r, .word 0, l, 0, false, 0⟩] } }

/-- The instruction is legal, has its engine and its privilege, and its guard reads 1: step 4 is what is left. -/
def atStep4 (s : State) (i : Instr) : Bool :=
  let f := Instr.info s i
  !s.issue.checked && f.cause.isNone && !s.absent f.engine && (!f.priv || s.system) && s.readP f.guard

/-- A source that traps when empty and one that waits, a destination, an entry that a push takes, a bank in retention, an invalid source,
and a fixed-latency write to come under STRICT. -/
theorem test_meets_SourceChecks :
    (let i : Instr := .addi 0 (.s 3) (.s 1) true 5
     let j : Instr := .addi 0 (.s 3) (.s 1) false 5
     atStep4 (flying (.s 1) none 0) i = true ∧ (Instr.info (flying (.s 1) none 0) i).stack = .none ∧
       ((Instr.info (flying (.s 1) none 0) i).uses.any fun u => u.trap && u.reg == .s 1) = true ∧
       ((Instr.info (flying (.s 1) none 0) j).uses.any fun u => !u.trap && u.reg == .s 1) = true ∧
       (Instr.info (flying (.s 3) none 0) j).dsts.contains (.s 3) = true ∧
       0 < (Instr.info (flying (.qr 0) none 0) j).pushes ∧ (flying (.qr 0) none 0).cx.regs.qp = 0 ∧
       State.reset.issue.cycle < State.reset.issue.cycle + 1 ∧ flag (flying (.s 1) (some 1) 1).cx.regs.issuectl 0 = true ∧
       (Reg.s 1).isConst = false) ∧
    (let i : Instr := .vadd 0 3 1 2 0 false false .i32
     let s : State := { State.reset with cx := { State.reset.cx with retained := true } }
     let t := fresh fun r => { r with vinvalid := 2 }
     atStep4 s i = true ∧ s.cx.retained = true ∧ (Instr.info s i).dsts.any Reg.isVector = true ∧ atStep4 t i = true ∧ t.cx.retained = false ∧
       ((Instr.info t i).uses.any fun u => u.reg == .v 1) = true ∧ t.cx.regs.vinvalid.getLsbD 1 = true) := by
  and_intros <;> decide +kernel

def missed {α : Type} : Except XErr α → Bool
  | .error (.miss _) => true
  | _ => false

/-- A push and a pop of each stack at the ends of its spill area, and at a place that misses. -/
theorem test_meets_SpillChecks :
    (let full := fun (p : Word) => fresh fun r => { r with spillptr := p, rstack := List.replicate 16 7, mstack := List.replicate 8 9 }
     let none_ := fun (p : Word) => fresh fun r => { r with spillptr := p }
     atStep4 (full 0) (.brL 0 1 2) = true ∧ (Instr.info (full 0) (.brL 0 1 2)).stack = .pushR ∧ (full 0).cx.regs.rstack.length = 16 ∧
       field (255 * 2 ^ 56 : Word) 56 8 = 255 ∧ field (255 * 2 ^ 4 : Word) 4 8 = 255 ∧ field (0 : Word) 56 8 ≠ 255 ∧
       atStep4 (full 0) (.mpush 0 2) = true ∧ (Instr.info (full 0) (.mpush 0 2)).stack = .pushM ∧
       atStep4 (none_ 0) (.ret 0) = true ∧ (Instr.info (none_ 0) (.ret 0)).stack = .popR ∧ (none_ 0).cx.regs.rstack = [] ∧
       atStep4 (none_ 0) (.mpop 0 2) = true ∧ (Instr.info (none_ 0) (.mpop 0 2)).stack = .popM ∧
       missed ((full 0x1000).spillPlace false 0 .write) = true ∧ missed ((none_ (0x1000 + 2 ^ 56)).spillPlace false 0 .read) = true) := by
  and_intros <;> decide +kernel

theorem test_meets_Conversions : Issues (.vrsum 0 1 2 0 false .i32) rdy ∧ Issues (.vrmax 0 1 2 0 false .i32) rdy ∧
    Issues (.vrmin 0 1 2 0 false .i32) rdy ∧ XTy.fmt .i32 = none ∧
    (activeSeq (XTy.width .i32) (rdy.readM 0) (rdy.readV 2)).length = 64 ∧
    (convForm rdy (.vcvt 0 1 2 0 false 1)).isSome = true ∧ Issues (.vcvt 0 1 2 0 false 1) rdy ∧
    (toIntForm (.vcvt 0 1 2 0 false 0)).isSome = true ∧ Issues (.vcvt 0 1 2 0 false 0) rdy ∧
    Issues (.vunpk 0 1 2 1 0 false 0) rdy ∧ Fmt.f32.width = 32 ∧ 63 < elemCount Fmt.f32.width ∧ Issues (.vsrnd 0 1 0 false) rdy := by
  and_intros <;> first | exact issues _ _ (by decide +kernel) | decide +kernel

/-- s5 holds the control word of a row of one register. -/
def quantOne : State := rdyS 5 0x0100000000

theorem test_meets_VectorMemory :
    (laneForm (rdyS 1 0x1FFFFC) (.vldB 0 3 1 2 0 false false .u)).isSome = true ∧ Issues (.vldB 0 3 1 2 0 false false .u) (rdyS 1 0x1FFFFC) ∧
    okay ((rdyS 1 0x1FFFFC).resolveLanes .u .read [⟨0, 0x1FFFFC, 4⟩]) = true ∧
    Issues (.vst 0 3 1 2 1 false false .u) rdy ∧ (laneForm rdy (.vst 0 3 1 2 1 false false .u)).isSome = true ∧
    okay (rdy.resolveLanes .u .write (wordLanes (rdy.readM 1) fun l => word (4 * l))) = true ∧
    Issues (.vst 0 3 1 2 1 false false .d) rdy ∧ okay (rdy.resolveLanes .d .write (wordLanes (rdy.readM 1) fun l => word (4 * l))) = true ∧
    vectorHandleCause (setDField (tensorAt 0x10000000000) 56 8 15) false ≠ none ∧
    Issues (.vldT 0 3 0 1 0 false false) (withTensor (setDField (tensorAt 0x10000000000) 56 8 15) 0 0) ∧
    Issues (.vstT 0 3 0 1 0 false false) (withTensor (setDField (tensorAt 0x10000000000) 56 8 15) 0 0) := by
  and_intros <;> first | exact issues _ _ (by decide +kernel) | decide +kernel

theorem test_meets_ScratchVectors :
    (laneAddr (rdyS 1 0x1FFFFC) (.vldB 0 3 1 2 0 false false .u)).isSome = true ∧ (rdyS 1 0x1FFFFC).plain ∧
    scratch 0 .u 0x1FFFFC 4 = some (unitStore 0 + 0x1FFFFC) ∧ Issues (.vldB 0 3 1 2 0 false false .u) (rdyS 1 0x1FFFFC) ∧
    (laneAddr (rdyS 1 0x1FFF00) (.vst 0 3 1 2 0 false false .u)).isSome = true ∧ Issues (.vst 0 3 1 2 0 false false .u) (rdyS 1 0x1FFF00) ∧
    (∀ l < 64, scratch 0 .u (0x1FFF00 + word (4 * l)) 4 = some (unitStore 0 + 0x1FFF00 + 4 * l)) := by
  and_intros <;> first | exact issues _ _ (by decide +kernel) | decide +kernel

theorem test_meets_Quantisers : Issues (.vqnt 0 14 15 5 false false .int8) rdy ∧ 15 + groupCount (rdy.readS 5) ≤ 16 ∧
    0 < groupCount (rdy.readS 5) ∧ Issues (.vqnt 0 15 14 5 false false .int8) rdy ∧ Issues (.vdqnt 0 1 2 3 3 false false .int4) rdy := by
  and_intros <;> first | exact issues _ _ (by decide +kernel) | decide +kernel

/-- The active elements of a row through register 0: a load or a store with the indices in s2 and s3, under m2. -/
def rowElems (s : State) (i : Instr) (store : Bool) : List Elem :=
  let x := s.readH 0
  let u := (s.begun i).touchDone s.who x
  let es := Desc.exts x.desc
  let n := typeSize (Desc.type x.desc)
  let b := (s.readS (evenP 1)).toNat
  let q := field (s.readS (oddP 1)) 0 32
  let r := field (s.readS (oddP 1)) 32 32
  ((List.range (256 / n)).filter fun j => (s.readM 2).getLsbD (j * n / 4)).map fun j =>
    if missingDim es b r then .bad 0x07 6 else u.element s.who x (batchCoords es b r (q + j)) store

def isBad : Elem → Bool
  | .bad _ _ => true
  | _ => false
def isWait : Elem → Bool
  | .wait => true
  | _ => false
def isStop : Elem → Bool
  | .stop _ => true
  | _ => false

/-- Register 0 holds descriptor d with binary32 elements, m2 its lanes, s2 and s3 the indices; `t` is the relayout of its tensor. -/
def rowOn (d : Line) (m x y : Word) (t : List Relayout) : State :=
  let s := (withTensor (setDField d 56 8 8) 0 0).modRegs fun r => { r with m := r.m.set 2 m, s := (r.s.set 2 x).set 3 y }
  { s with relayouts := t, cx := { s.cx with estat := 1 } }

/-- A relayout of the tensor of register 0 that has no tile done, with its bitmap at the address given. -/
def rowRelayout (done : Word) : Relayout :=
  ⟨0, ⟨setDField (tensorAt 0x10000000000) 511 1 1, 0x10000000040⟩, 0, 0x10000100000, done, 1, 0, 0, 0, false, 0, .active, none, false, false, []⟩

/-- Rows of no active element, of one that has an address, of the last and of one outside its extent, of one for a dimension that the rank
lacks, of a store through RO, of a tile that is being converted, and of one whose done bit cannot be read. -/
theorem test_meets_HandleRows :
    (let ld : Instr := .vldT 0 3 0 1 2 false false
     let st : Instr := .vstT 0 3 0 1 2 false false
     let t := tensorAt 0x10000000000
     let a := rowOn t 1 0 0x3F00000003 []
     let b := rowOn t 3 0 0x3F00000003 []
     let c := rowOn t 1 1 0 []
     let e := rowOn (setDField t 510 1 1) 1 0 0 []
     let f := rowOn t 1 0 0 [rowRelayout 0x10000200000]
     let g := rowOn t 1 0 0 [rowRelayout 0]
     vectorHandleCause t false = none ∧ Issues ld (rowOn t 0 0 0 []) ∧ rowElems (rowOn t 0 0 0 []) ld false = [] ∧
       Issues ld a ∧ (rowElems a ld false).all atElement = true ∧ (rowElems a ld false).length = 1 ∧
       okay (a.resolveLanes .g .read [⟨0, 0x100000003FC, 4⟩]) = true ∧
       Issues ld b ∧ (rowElems b ld false).map isBad = [false, true] ∧ Issues ld c ∧ rowElems c ld false = [.bad 0x07 6] ∧
       Issues st e ∧ vectorHandleCause (e.readH 0).desc false = none ∧ rowElems e st true = [.bad 0x0B 0] ∧
       Issues st f ∧ (rowElems f st true).map isWait = [true] ∧ Issues ld g ∧ (rowElems g ld false).map isStop = [true]) ∧
    (let zs : List Int := [63, 3]
     0 < Desc.rank (tensorAt 64) ∧ Desc.rank (tensorAt 64) ≤ 6 ∧ zs.length = (Desc.exts (tensorAt 64)).length) := by
  and_intros <;> first | exact issues _ _ (by decide +kernel) | decide +kernel

/-! ### The matrix engine -/

/-- The core's matrix engine changed. -/
def rdyMx (f : Matrix → Matrix) : State := { rdy with core := { rdy.core with mx := f rdy.core.mx } }

/-- Parameter register 0 set to a valid call: plane set 1, both formats 8 bits wide. -/
def rdyCall : State := rdyRegs fun r => { r with a := r.a.set 0 0x160 }

/-- A matrix operation of context 0. -/
def mop (k : MKind) : MOp := ⟨7, 0, 0, k, Vector.replicate 8 0, 0, false, none, 0, 0⟩

/-- A routine of context 0 in microword 0, with operation 9. -/
def routine1 (p : Option (Fin 4)) : Routine :=
  ⟨9, 0, 200, false, (Vector.replicate 8 0).set 0 0x160, Vector.replicate 4 1, 0, p, 0, 0, 0, false, Vector.replicate 64 0, Vector.replicate 64 0⟩

def onRoutine (p : Option (Fin 4)) (f : Matrix → Matrix) : State := rdyMx fun m => f { m with routine := some (routine1 p) }

/-- Plane p in state x, with its checksums held, opened by the routine. -/
def withPlane (p : Fin 4) (x : PlaneState) (m : Matrix) : Matrix :=
  m.setPlane p { IPlane.reset with state := x, owner := 9, ctx := 0, sealRec := if x = .isSealed then some ⟨3, 0, 0, 1⟩ else none }

theorem test_meets_MatrixForks :
    forkKind (.mdrain 0 3) = some (.drain 3) ∧ Issues (.mdrain 0 3) rdy ∧ forkKind (.mcall 0 255) = some (.routine 255 false) ∧
    a0Valid rdyCall.cx.regs.a[0] = true ∧ Issues (.mcall 0 255) rdyCall ∧ a0Valid rdy.cx.regs.a[0] = false ∧ Issues (.mcall 0 255) rdy ∧
    Issues (.mclr 0 0 0) rdy ∧ Issues (.mmov 0 7 7) rdy ∧ Issues (.mchk 0 .queue 3) rdy ∧ Issues (.vaccRd 0 1 5 7 0 false false) rdy ∧
    Issues (.vaccPk 0 1 5 7 0 false true) rdy ∧ Issues (.vaccWr 0 7 1 5 0 false false true) rdy ∧
    rdy.core.mx.notBusy rdy.nextId 7 = true ∧ rdy.core.mx.clearOf rdy.nextId (1#8 <<< 7) = true := by
  and_intros <;> first | exact issues _ _ (by decide +kernel) | decide +kernel

/-- Die store 0 holds an image of one word at word 1024 for entry 255. -/
def withImage : State :=
  { rdyS 1 0x10000000000 with
    cx := { (rdyS 1 0x10000000000).cx with estat := 1 }
    mem := rdy.mem.setStored dieStore0 (BitVec.allOnes 64) (BitVec.ofNat 512 (255 + 1024 * 256 + 1 * 2 ^ 20 + 2 ^ 64 * 0xF000000000000000)) }
where dieStore0 := dieStore 0

/-- What `mld.ms` reads of an image, the header and then the words, is there and allowed. -/
def imageThere (s : State) (x : Word) : Bool :=
  match s.readBlocking s.who true [] .g x 8 with
  | .error _ => false
  | .ok (bs, u) => imageValid (word (ofBytes bs)) && u.system &&
      (match u.readBlocking u.who true [] .g (x + 8) (8 * field (word (ofBytes bs)) 20 12) with
        | .error _ => false
        | .ok (_, t) => !t.core.mx.anyRoutine)

theorem test_meets_MatrixControl :
    Issues (.mwait 0) rdy ∧ (rdy.begun (.mwait 0)).matrixJoins = [] ∧ Issues (.mwait 0) (rdyMx fun m => { m with ops := [mop (.drain 3)] }) ∧
    ((rdyMx fun m => { m with ops := [mop (.drain 3)] }).matrixJoins.any fun o => !o.complete) = true ∧
    Issues (.mqClr 0 true true true) rdy ∧ rdy.core.mx.anyRoutine = false ∧
    Issues (.mqSt 0 .queue) (rdyMx fun m => { m with log := [5] }) ∧ (rdyMx fun m => { m with log := [5] }).core.mx.log = [5] ∧
    Issues (.mhalf 0 true) rdy ∧ Issues (.mstat 0 .queue) rdy ∧ Issues (.mabort 0) rdy ∧
    Issues (.mstMs 0 (.s 1) (.s 2) false false) { (rdyRegs fun r => { r with s := (r.s.set 1 0x10000000000).set 2 0x1FFF }) with
      cx := { (rdyRegs fun r => { r with s := (r.s.set 1 0x10000000000).set 2 0x1FFF }).cx with estat := 1 } } ∧
    field (0x1FFF : Word) 12 12 ≠ 0 ∧ field (0x1FFF : Word) 0 12 + field (0x1FFF : Word) 12 12 ≤ 4096 ∧
    okay (withImage.resolve withImage.who .g 0x10000000000 8 .write) = true ∧
    Issues (.mldMs 0 (.s 1) false) withImage ∧ imageThere withImage 0x10000000000 = true := by
  and_intros <;> first | exact issues _ _ (by decide +kernel) | decide +kernel

/-- An item of ones, and a marker. -/
def ones : QItem := .data (Vector.replicate 64 1) none
def marker : QItem := .mark (Vector.replicate 64 7) 0

theorem test_meets_MicroOps :
    (onRoutine none id).core.mx.routine = some (routine1 none) ∧ (onRoutine (some 3) id).core.mx.routine.bind (·.plane) = some 3 ∧
    stepsPerMac (routine1 none).params[0] = 1 ∧
    (onRoutine none fun m => { m with aq := [ones], bq := [ones] }).core.mx.aq = [ones] ∧
    (onRoutine none id).core.mx.aq = [] ∧
    ((onRoutine none fun m => { m with aq := [ones, ones], bq := [ones] }).core.mx.aq.all fun q => q.isMark = false) = true ∧
    ((onRoutine none id).core.mx.plane (firstPlane (routine1 none).params[0])).state = .idle ∧
    (onRoutine none fun m => { m with aq := [marker], bq := [marker] }).core.mx.clearOf 9 (1#8 <<< (firstPlane (routine1 none).params[0]).val) = true ∧
    ((onRoutine (some 0) (withPlane 0 .acc)).core.mx.plane 0).accFor (routine1 (some 0)) = true ∧
    ((onRoutine (some 0) fun m => m.setPlane 0 { IPlane.reset with chk := true }).core.mx.plane 0).chk = true ∧
    (let r := { routine1 (some 0) with kcount := 1 }
     r.kstart < r.kcount ∧ ((rdyMx fun m => { withPlane 0 .acc m with routine := some r }).core.mx.plane 0).state = .acc) := by
  and_intros <;> decide +kernel

/-- A plane whose checksums hold. -/
def summed (x : IPlane) : IPlane := { x with ccol := x.rowSums, crow := x.colSums }

theorem summed_holds (x : IPlane) : (summed x).ccol = (summed x).rowSums ∧ (summed x).crow = (summed x).colSums := ⟨rfl, rfl⟩

theorem test_meets_Checksums : (summed IPlane.reset).ccol = (summed IPlane.reset).rowSums ∧
    (summed IPlane.reset).crow = (summed IPlane.reset).colSums ∧ ((1 : Word32) != planeElem (summed IPlane.reset).e 63 63) = true :=
  ⟨(summed_holds _).1, (summed_holds _).2, by decide +kernel⟩

/-- A sealed plane whose checksums hold; with an element wrong; with two row sums that differ. -/
def sealedPlane : IPlane := { summed IPlane.reset with state := .isSealed, sealRec := some ⟨3, 1, 0, 1⟩ }
def wrong (i j : Fin 64) (y : IPlane) : IPlane := { y with chk := false, e := y.e.set i (y.e[i].set j 1) }
def twoWrong : IPlane := { IPlane.reset with state := .isSealed, ccol := (IPlane.reset.ccol.set 0 1).set 63 1 }

theorem reset_rowSums : twoWrong.rowSums = Vector.replicate 64 0 := by
  have h : (Vector.replicate 64 (0 : Word32)).foldl (· + ·) 0 = 0 := by decide +kernel
  simp only [IPlane.rowSums, twoWrong, IPlane.reset, Vector.map_replicate, h]

theorem twoWrong_bad (c : VReg) : (twoWrong.check twoWrong.rowSums c).1 = .bad := by
  rw [reset_rowSums]
  have h : ((List.range 64).filterMap fun i =>
      let d := at_ twoWrong.ccol i 0 - at_ (Vector.replicate 64 (0 : Word32)) i 0
      if d = 0 then none else some (i, d)) = [(0, 1), (63, 1)] := by decide +kernel
  simp only [IPlane.check, h]

theorem test_meets_FoldAndDrain :
    (let m := Matrix.reset.setPlane 3 (wrong 63 63 sealedPlane)
     sealedPlane.state = .isSealed ∧ ((1 : Word32) != planeElem sealedPlane.e 63 63) = true ∧ m.plane 3 = wrong 63 63 sealedPlane ∧
       m.olderSeal 3 = false) ∧
    (let m := Matrix.reset.setPlane 3 twoWrong
     (m.plane 3).state = .isSealed ∧ (m.plane 3).chk = false ∧ m.olderSeal 3 = false ∧
       ((m.plane 3).check (m.plane 3).rowSums (m.plane 3).colSums).1 = .bad) ∧
    (let m := (Matrix.reset.setPlane 3 sealedPlane).setPlane 0 { sealedPlane with sealRec := some ⟨3, 0, 0, 1⟩ }
     (m.plane 3).chk = false ∧ m.olderSeal 3 = true) :=
  ⟨⟨rfl, by decide +kernel, rfl, by decide +kernel⟩, ⟨by decide +kernel, by decide +kernel, by decide +kernel, twoWrong_bad _⟩,
    by decide +kernel, by decide +kernel⟩

theorem test_meets_PlaneOperations : rdy.cid = 4 * 0 ∧
    (rdyMx fun m => { withPlane 3 .isSealed m with ops := [mop (.drain 3)] }).core.mx.pick (fun k => match k with | .drain _ => true | _ => false)
      = some (mop (.drain 3)) ∧
    (rdyMx fun m => { m with ops := [mop (.clr 15 15)] }).core.mx.pick (fun k => match k with | .clr _ _ => true | _ => false)
      = some (mop (.clr 15 15)) ∧
    (rdyMx fun m => { m with ops := [mop (.mov 7 0)] }).core.mx.pick (fun k => match k with | .mov _ _ => true | _ => false)
      = some (mop (.mov 7 0)) ∧
    (rdyMx fun m => { withPlane 3 .isSealed m with ops := [mop (.scale 3 3)] }).core.mx.pick
      (fun k => match k with | .scale _ _ | .fix _ _ _ => true | _ => false) = some (mop (.scale 3 3)) ∧
    (rdyMx fun m => { m with ops := [mop (.accRd 7 63 true 1)] }).core.mx.pick (fun k => match k with | .accRd _ _ _ _ | .chk _ => true | _ => false)
      = some (mop (.accRd 7 63 true 1)) ∧
    (rdyMx fun m => { m with ops := [mop (.routine 255 true)] }).core.mx.pick MKind.isRoutine = some (mop (.routine 255 true)) ∧
    (let m := (Matrix.reset).setPlane 3 { IPlane.reset with state := .isSealed, chk := true, sealRec := some ⟨3, 0, 0, 1⟩ }
     (m.plane 3).state = .isSealed ∧ m.olderSeal 3 = false ∧ (m.plane 3).chk = true ∧ (m.plane 0).state = .idle) ∧
    ((withPlane 3 .bad Matrix.reset).plane 3).state = .bad := by
  and_intros <;> decide +kernel

/-! ### Copies, buffer pairs, tiles and relayouts -/

/-- A parameter block: source and destination bases, the control word, one loop of 4 elements. -/
def blockOf (src dst ctl : Nat) : List Byte :=
  bytesOf 8 src ++ bytesOf 8 dst ++ bytesOf 8 ctl ++ bytesOf 48 0 ++ bytesOf 8 (2 * 2 ^ 48 + 4 * 2 ^ 21 + 4) ++
    (List.range 5).flatMap (fun _ => bytesOf 8 (2 ^ 48)) ++ bytesOf 8 0

def goBlock : List Byte := blockOf (2 ^ 60 + 0x1000) (2 ^ 60 + 0x4000) (4 * 2 ^ 48 + 4 * 2 ^ 39)
def emptyBlock : List Byte := bytesOf 8 (2 ^ 60 + 0x1000) ++ bytesOf 8 (2 ^ 60 + 0x4000) ++ bytesOf 8 (4 * 2 ^ 48 + 4 * 2 ^ 39) ++ bytesOf 104 0
def fillBlock : List Byte := blockOf (7 * 2 ^ 60) (2 ^ 60 + 0x4000) (4 * 2 ^ 48 + 4 * 2 ^ 39)
def illBlock : List Byte := blockOf (2 ^ 60 + 0x1000) (2 ^ 60 + 0x4000) (3 * 2 ^ 48 + 4 * 2 ^ 39)
def badHandleBlock : List Byte := blockOf (4 * 2 ^ 60 + 2 * 2 ^ 56) (2 ^ 60 + 0x4000) (4 * 2 ^ 48 + 4 * 2 ^ 39 + 2 ^ 36)

/-- A block cached at address 128, which s1 names. -/
def withBlock (bs : List Byte) : State := { rdyS 1 128 with core := { rdy.core with pbCache := [(128, bs)] } }

theorem cached_block (s : State) (a : Word) (e : Nat × List Byte) (h : field a 56 8 = 0) (h' : a.toNat % 64 = 0)
    (h'' : s.core.pbCache.find? (·.1 == a.toNat) = some e) : s.BlockAt a e.2 s := by
  refine ⟨h, h', ?_⟩
  rw [h'']
  exact ⟨rfl, rfl⟩

theorem test_meets_CopiesIssue :
    (copyForm (withBlock goBlock) (.cpyGo 0 (.s 1) false 3)).isSome = true ∧ Issues (.cpyGo 0 (.s 1) false 3) (withBlock goBlock) ∧
    ((withBlock goBlock).begun (.cpyGo 0 (.s 1) false 3)).BlockAt 128 goBlock (withBlock goBlock) ∧
    (withBlock goBlock).blockErr .go (parseBlock goBlock) = none ∧ (withBlock fillBlock).blockErr .fill (parseBlock fillBlock) = none ∧
    (withBlock illBlock).blockErr .go (parseBlock illBlock) = some .ill ∧
    (match (withBlock badHandleBlock).blockErr .go (parseBlock badHandleBlock) with | some (.handle _ _ _) => true | _ => false) = true ∧
    rdy.busyCopies 3 < 16 ∧ ((withBlock goBlock).captured (parseBlock goBlock)).total ≠ 0 ∧ (rdy.captured (parseBlock emptyBlock)).total = 0 ∧
    Issues (.cpyZero 0 0 3) (withTensor (tensorAt 0x10000000000) 0 0) ∧ descCause (tensorAt 0x10000000000) = none ∧
    (withTensor (tensorAt 0x10000000000) 0 0).relayoutOf 0x10000000040 = none ∧ Desc.ro (tensorAt 0x10000000000) = false ∧
    Desc.ro (setDField (tensorAt 0x10000000000) 510 1 1) = true ∧ descCause (setDField (tensorAt 0x10000000000) 510 1 1) = none ∧
    Issues (.cpyPb 0 (.s 1) false) (withBlock goBlock) ∧ (blockFits (parseBlock goBlock)).isSome = true ∧
    Issues (.cpyInv 0 (.s 1) false) (withBlock goBlock) := by
  and_intros <;> first
    | exact issues _ _ (by decide +kernel)
    | exact cached_block _ _ (128, goBlock) (by decide +kernel) (by decide +kernel) (by decide +kernel)
    | decide +kernel

/-- A block of a copy to a queue: 64 elements of a tensor. -/
def queueA : List Byte := blockOf (2 ^ 60 + 0x1000) (5 * 2 ^ 60) (2 ^ 48 + 64 * 2 ^ 39)
def queueB : List Byte := blockOf (2 ^ 60 + 0x2000) (6 * 2 ^ 60) (2 ^ 48 + 64 * 2 ^ 39)

def channel3 (y : Copy) : State := { rdy with core := { rdy.core with ch := rdy.core.ch.set 3 [y] } }

/-- A copy of context 0 on channel 3. -/
def copy1 (bs : List Byte) (k : CopyKind) : Copy := ⟨5, 0, false, k, rdy.captured (parseBlock bs), 0, false, 0, 0, [], false, false, none, 0, 0, false⟩

theorem test_meets_ChannelControl :
    Issues (.cpyDrn 0 3) { rdy with nextId := 9 } ∧
    ((channel3 { copy1 goBlock .go with finished := true }).channelJoins 3).all (fun o => o.complete && o.fault.isNone) = true ∧
    ((channel3 (copy1 goBlock .go)).channelJoins 3).any (fun o => !o.complete && decide (o.id < 9)) = true ∧
    rdy.dueChecks = [] ∧
    (let x := channel3 { copy1 goBlock .go with finished := true, fault := some ⟨0x07, 9, 0⟩ }
     Issues (.cpyDrn 0 3) { x with nextId := 9 } ∧
       (x.channelJoins 3).map (fun o => (o.complete, o.fault, decide (o.id < 9))) = [(true, some ⟨0x07, 9, 0⟩, true)]) ∧
    Issues (.cpySt 0 .queue 3) rdy ∧ Issues (.cpyCancel 0 3) (channel3 (copy1 goBlock .go)) := by
  and_intros <;> first | exact issues _ _ (by decide +kernel) | decide +kernel

def runMoved (x : RunEnd) : Bool := match x with | .moved _ u => u.cid == 0 | _ => false
def runFailed (x : RunEnd) : Bool := match x with | .failed _ u => u.cid == 0 | _ => false

theorem test_meets_CopyEngine : (channel3 (copy1 fillBlock (.fill 7))).cid = 4 * 0 ∧
    (((channel3 (copy1 fillBlock (.fill 7))).core.ch[3]).find? fun z => !z.finished) = some (copy1 fillBlock (.fill 7)) ∧
    (copy1 fillBlock (.fill 7)).over = false ∧ runMoved (rdy.idle.copyRun (copy1 fillBlock (.fill 7)) PeerView.none) = true ∧
    runFailed (rdy.idle.copyRun (copy1 (blockOf (7 * 2 ^ 60) (2 ^ 60 + 0x1FFFFC) (4 * 2 ^ 48 + 4 * 2 ^ 39)) (.fill 7)) PeerView.none) = true ∧
    ({ copy1 fillBlock (.fill 7) with pos := 4 } : Copy).over = true ∧ rdy.plain ∧
    (copy1 fillBlock (.fill 7)).block.dst = .addr .u 0x4000 ∧ (copy1 fillBlock (.fill 7)).block.esize ∈ [1, 2, 4, 8] ∧
    (scratch 0 .u 0x4000 16).isSome = true := by
  and_intros <;> decide +kernel

/-- s1 and s2 name two extents of one line each. -/
def extents (x y : Word) : State := rdyRegs fun r => { r with s := (r.s.set 1 x).set 2 y }

theorem test_meets_BufferPairs :
    Issues (.bufArm 0 3 3 (.s 1) (.s 2) false false) (extents 0 0) ∧ field ((extents 0 0).readSrc (.s 1)) 36 26 = 0 ∧
    Issues (.bufArm 0 3 3 (.s 1) (.s 2) false false) (extents 0x4000001000000000 0x4000001000000040) ∧ field (0x4000001000000000 : Word) 36 26 ≠ 0 ∧
    (extents 0x4000001000000000 0x4000001000000040).badExtents 0x4000001000000000 0x4000001000000040 = false ∧ (extents 0x4000001000000000 0x4000001000000000).badExtents 0x4000001000000000 0x4000001000000000 = true ∧
    (let s : State := { rdy with cx := { rdy.cx with pairs := rdy.cx.pairs.set 3 { rdy.cx.pairs[3] with armed := true, len := 64, ea1 := 64, ch := 3 } } }
     s.cx.pairs[3].armed = true ∧ s.core.ch[s.cx.pairs[3].ch] = []) ∧
    Issues (.bufSwp 0 3) rdy ∧ Issues (.bufSt 0 .queue 3) rdy ∧ Issues (.pfG 0 (.s 1) (.s 2) false false) rdy := by
  and_intros <;> first | exact issues _ _ (by decide +kernel) | decide +kernel

/-! ### Tiles, the broadcast bus, relayouts -/

/-- A descriptor of a 2 by 2 binary32 tensor at virtual address b. -/
def smallAt (b : Nat) : Line :=
  setDField (setDField (setDField (setDField (setDField 0 0 56 b) 56 8 1) 440 3 2) 64 32 2) 96 32 2

/-- A system context, translation disabled, with two small tensors of die store 0 in h0 and h1. -/
def twoTensors : State :=
  let s := rdyRegs fun r => { r with h := (r.h.set 0 ⟨smallAt 0x10000000000, 0x10000001000⟩).set 1 ⟨smallAt 0x10000000100, 0x10000001040⟩ }
  { s with cx := { s.cx with estat := 1 } }

/-- A tile move's reads and writes can be made. -/
def tileMoves (b : State) (flip : Bool) : Bool :=
  let w : Who := ⟨b.cid, b.system, some b.nextId⟩
  let ps := b.tilePairs w 0 1 (b.readH 0) (b.readH 1) (0, 0, 0) (0, 0, 0) flip
  ps.length == 4 && (ps.all fun p => p.2 != .wait) &&
    match ({ b with nextId := b.nextId + 1 } : State).readElems w PeerView.none 4 (ps.map (·.1)) with
    | (.ok bs, u) => match u.writeElems w ((ps.map (·.2)).zip bs) with
      | (some (.ok _), v) => b.mayRun v && !v.engAwaits b.nextId
      | _ => false
    | (.error _, _) => false

/-- What core c drove onto the bus in the first cycle. -/
def beat (c : Nat) : BusOp := ⟨0, c, 4 * c, [.qr 0], some (List.replicate 256 7, []), 0⟩

/-- Core k of cluster 0 in a cycle in which core c has driven the bus. -/
def onBus (k c : Nat) : State :=
  { rdy with cid := 4 * k, clusters := [(0, { Cluster.reset with bus := [{ beat c with cycle := rdy.slotCycle }] })] }

/-- Accesses of operation 9 of context 0, at system privilege. -/
def who9 : Who := ⟨0, true, some 9⟩

theorem test_meets_TilesAndBus :
    Issues (.tmov 0 0 1 0 0) twoTensors ∧ tileMoves (twoTensors.begun (.tmov 0 0 1 0 0)) false = true ∧
    Issues (.tmovH 0 0 1 0 0) twoTensors ∧ tileMoves (twoTensors.begun (.tmovH 0 0 1 0 0)) true = true ∧
    twoTensors.originFault who9 1 (twoTensors.readH 1) 0 0 0 false = none ∧
    twoTensors.originFault who9 0 (twoTensors.readH 0) 0 0 0 true = none ∧ (twoTensors.originFault who9 1 (twoTensors.readH 1) 0 2 0 false).isSome = true ∧
    Issues (.tmov 0 0 1 0 0) rdy ∧ Desc.rank (rdy.readH 1).desc = 0 ∧
    Issues (.bcDrv 0 .queue (.s 1) false) (rdyS 1 0x1FFF00) ∧ (rdyS 1 0x1FFF00).plain ∧ scratch 0 .u 0x1FFF00 256 = some (unitStore 0 + 0x1FFF00) ∧
    (rdyS 1 0x1FFF00).busNow = [] ∧ (rdyS 1 0x1FFF00).beatNow = none ∧ ((onBus 5 0).beatNow.map BusOp.core) = some 0 ∧
    ((onBus 5 0).beatNow.bind BusOp.out) = some (List.replicate 256 7, []) ∧ 0 < (onBus 5 0).gcore % 96 ∧ (onBus 5 0).plain ∧
    Issues (.bcDrv 0 .queue (.s 1) false) (onBus 5 0) ∧ Issues (.bcLat 0 .queue (.s 1) false) (onBus 5 0) ∧
    ((onBus 5 95).busNow.map BusOp.core) = [95] ∧ (onBus 5 95).gcore % 96 < 95 ∧
    Issues (.bcDrv 0 .queue (.s 1) false) (rdyS 1 1) ∧ Issues (.bcLat 0 .queue (.s 1) false) (rdyS 1 255) ∧ (255 : Word).toNat % 256 ≠ 0 ∧
    (List.replicate 256 (7 : Byte)).length = 256 ∧ Issues (.bcLat 0 .queue (.s 1) false) (rdyS 1 0x1FFF00) ∧
    Issues (.bcSync 0 (.s 1) (.s 2) false false) (extents 15 96) ∧ (extents 15 96).cx.synced = false ∧
    0 < ((extents 15 96).readSrc (.s 2)).toNat ∧ ((extents 15 96).readSrc (.s 2)).toNat ≤ 96 ∧
    Issues (.bcSync 0 (.s 1) (.s 2) false false) { rdy with cx := { rdy.cx with synced := true } } ∧
    Issues (.bcSync 0 (.s 1) (.s 2) false false) (extents 0 97) ∧ 96 < ((extents 0 97).readSrc (.s 2)).toNat := by
  and_intros <;> first | exact issues _ _ (by decide +kernel) | decide +kernel

/-- An entry of the relayout table for h0's tensor. -/
def relayout1 (st : RlyState) : Relayout :=
  ⟨63, ⟨smallAt 0x10000000000, 0x10000001000⟩, 1, 0x10000002000, 0x10000003000, 1, 0, 0, 0, true, 7, st, none, false, false, []⟩

def relaying (st : RlyState) : State := { twoTensors with relayouts := [relayout1 st] }

/-- An engine's writes have all been made. -/
def done? {ε α : Type} : Option (Except ε α) → Bool
  | some (.ok _) => true
  | _ => false

/-- `rlay` of h0 to layout 1, shadow at die store + 0x2000, done bits at + 0x3000. -/
def startRelayout : State := twoTensors.modRegs fun r => { r with s := (r.s.set 1 0x10000002000).set 2 (0x0100000000000000 + 0x10000003000) }

theorem test_meets_Relayouts :
    Issues (.rlay 0 0 (.s 1) (.s 2) false false) startRelayout ∧
    startRelayout.rlayCause (startRelayout.readH 0) 1 0x10000002000 0x10000003000 = none ∧
    okay ((startRelayout.begun (.rlay 0 0 (.s 1) (.s 2) false false)).resolveWrites
      [(0x10000003000, [0]), (0x10000001000 + 32, List.replicate 32 0)]) = true ∧
    (startRelayout.begun (.rlay 0 0 (.s 1) (.s 2) false false)).publish.published = true ∧
    Issues (.rlay 0 0 (.s 1) (.s 2) false false) (relaying .active) ∧ ((relaying .active).rlayCause ((relaying .active).readH 0) 0 0 0).isSome = true ∧
    Issues (.rlayWt 0 0) twoTensors ∧ twoTensors.relayoutOf (twoTensors.readH 0).daddr = none ∧ Desc.rly (twoTensors.readH 0).desc = false ∧
    Issues (.rlayWt 0 0) (relaying .active) ∧ (relaying .active).relayoutOf 0x10000001000 = some (relayout1 .active) ∧
    Issues (.rlaySt 0 0) twoTensors ∧ (relaying .complete).relayoutOf 0x10000001000 = some (relayout1 .complete) ∧
    okay (((relaying .complete).begun (.rlayWt 0 0)).resolveWrites [(0x10000001000, List.replicate 64 0)]) = true ∧
    (relaying .active).nextRelayout 0 = some (relayout1 .active) ∧
    (let b := (relaying .active).idle.modDie 0 fun k => { k with engineNext := 0 }
     let r := b.convertTile (relayout1 .active) PeerView.none
     done? r.1 = true ∧ r.2.engAwaits 7 = false ∧ done? (r.2.setDoneBit { relayout1 .active with conv := true } PeerView.none).1 = true ∧
       (relaying .active).mayRun (r.2.setDoneBit { relayout1 .active with conv := true } PeerView.none).2 = true) := by
  and_intros <;> first | exact issues _ _ (by decide +kernel) | decide +kernel

/-! ### The fabric -/

/-- The fabric on, with members 0 and 1. -/
def twoMembers : State := { rdy with fab := { rdy.fab with fabctl := rdy.fab.fabctl ||| 1, podmask := 3 } }

def errTrap {α : Type} : Except Trap α × State → Bool
  | (.error _, _) => true
  | _ => false

/-- A send of register v0 in state s, its word in s1. -/
def sending (s : State) (w : Word) : State := s.modRegs fun r => { r with s := r.s.set 1 w }

theorem test_meets_Sends :
    Issues (.fsendV 0 0 (.s 1) false) (sending twoMembers 0x500000001) ∧
    (sendForm (sending twoMembers 0x500000001) 0 (.fsendV 0 0 (.s 1) false)).isSome = true ∧ (sending twoMembers 0x500000001).fabricFull = false ∧
    (sending twoMembers 0x500000001).reachable 1 = true ∧ (1 : Nat) ≠ (sending twoMembers 0x500000001).device ∧
    (sendForm rdy 0 (.fsendV 0 0 (.s 1) false)).isSome = true ∧ rdy.reachable 0 = true ∧ rdy.device = 0 ∧
    (sendForm (sending rdy 63) 0 (.fsendV 0 0 (.s 1) false)).isSome = true ∧ (sending rdy 63).reachable 63 = false ∧
    (match sendForm (sending (withTensor (smallAt 0x40) 0 0) 1) 0 (.fsend 0 0 (.s 1) false) with
      | some (_, _, read) => errTrap (read (sending (withTensor (smallAt 0x40) 0 0) 1))
      | none => false) = true := by
  and_intros <;> first | exact issues _ _ (by decide +kernel) | decide +kernel

/-- A message of member 1 with tag 0x42, and a receive that takes any tag of member 1. -/
def msg1 : MsgArrival := ⟨1, 1, 0, 9, 0, 0x42, [1, 2, 3, 4], [], none⟩
def posted1 (m : Option MsgArrival) (landed : Bool) : Posted :=
  ⟨4095, 0, 0, true, 0, ⟨smallAt 0x10000000000, 0⟩, 1, 0x3F, none, m, false, landed, 3, none, 0, false⟩

def receiving (p : List Posted) : State := { twoTensors with fab := { twoTensors.fab with posted := p }, nextId := 9 }

theorem test_meets_MessageMatching :
    (receiving [posted1 none false]).postFor msg1 = some (posted1 none false) ∧ (receiving []).postFor msg1 = none ∧
    ({ rdy with fab := { rdy.fab with rxctl := 1 } } : State).laybyRoom 4 = true ∧ rdy.laybyRoom 4 = false ∧
    rdy.fab.withheldMsgs = [] ∧ rdy.fab.posted.length < 4096 ∧
    (rdy.nextMsg msg1 = msg1.num ∧ rdy.fab.early = [] ∧ rdy.nextMsg { msg1 with num := 1 } < 1) ∧
    ({ rdy with fab := { rdy.fab with layby := [⟨msg1, 4, [(0, 4)]⟩] } } : State).fab.layby.find? (fun y => matches_ 1 0x3F y.msg)
      = some ⟨msg1, 4, [(0, 4)]⟩ ∧ rdy.fab.layby.find? (fun y => matches_ 1 0x3F y.msg) = none ∧ matches_ 0x4200000001 0xFFFFFFFF0000003F msg1 = true ∧
    matches_ 0x4300000001 0xFFFFFFFF0000003F msg1 = false := by decide +kernel

/-- A receive of h0 with match word, mask and control 0, and one that has landed. -/
def waiting1 (p : Posted) : State := (receiving [p]).modRegs fun r => { r with s := r.s.set 1 p.ticket }

def sendOp (f : Option Trap) (c : Bool) : FOp := ⟨5, 0, false, .send 1 7 .vector, 0, false, c, false, f, 0, none, 0⟩
def withOps (l : List FOp) : State := { twoMembers with fab := { twoMembers.fab with fops := l } }

theorem test_meets_Receives :
    Issues (.rpost 0 0 1 (.s 5) false false) twoTensors ∧ descCause (twoTensors.readH 0).desc = none ∧
    isMx (Desc.type (twoTensors.readH 0).desc) = false ∧ Desc.ro (twoTensors.readH 0).desc = false ∧ badPeerWord 0 = false ∧
    Issues (.rcancel 0 .queue (.s 1) false) (waiting1 (posted1 none false)) ∧
    (waiting1 (posted1 none false)).fab.posted.find? (fun q => q.ticket == (waiting1 (posted1 none false)).readSrc (.s 1) && q.ctx == 0)
      = some (posted1 none false) ∧
    (waiting1 (posted1 (some msg1) false)).fab.posted.find? (fun q => q.ticket == (waiting1 (posted1 none false)).readSrc (.s 1) && q.ctx == 0)
      = some (posted1 (some msg1) false) ∧
    Issues (.rcancel 0 .queue (.s 1) false) rdy ∧ rdy.fab.posted = [] ∧
    Issues (.rprobe 0 .queue (.s 1) false) (rdyS 1 0x13F) ∧ (0x13F : Word) &&& 0xFFFFFFFFFFFFFEC0 = 0 ∧ Issues (.rlbQ 0 .queue 1 false) rdy ∧
    (receiving [posted1 (some msg1) false]).fab.posted.find? (fun q => q.entry == 4095 && q.msg.isSome && !q.landed)
      = some (posted1 (some msg1) false) ∧
    (let s := receiving [posted1 (some msg1) false]
     let p := posted1 (some msg1) false
     let s1 := s.idle.touchDone p.who p.handle
     let l := s1.landingItems p msg1
     let r := s1.writeItems p.who (l.drop p.pos)
     0 < l.length ∧ r.1.fault = none ∧ p.pos + r.1.count = l.length ∧ r.2.engAwaits p.order = false) ∧
    Issues (.rwait 0 .queue (.s 1) false) (waiting1 (posted1 (some msg1) true)) ∧
    Issues (.rwait 0 .queue (.s 1) false) (waiting1 (posted1 none false)) ∧
    Issues (.rpostW 0 0 1 (.s 5) false false) { receiving [posted1 (some msg1) true] with
      cx := { (receiving []).cx with joinMark := 3 } } ∧
    Issues (.fdrn 0) (withOps [sendOp none true]) ∧ ((withOps [sendOp none true]).fabricJoins.all fun o => o.complete && o.fault.isNone) = true ∧
    ((withOps [sendOp none false]).fabricJoins.any fun o => !o.complete) = true ∧ Issues (.collSt 0 .queue) rdy ∧
    (withOps [sendOp none false]).fab.fops.find? (fun y => y.id == 5 && !y.complete) = some (sendOp none false) ∧ 0 < noCtx := by
  and_intros <;> first | exact issues _ _ (by decide +kernel) | decide +kernel

/-- Ring 15 of members 0 and 1. -/
def ringed (l : List FOp) : State :=
  { twoTensors with fab := { twoTensors.fab with fabctl := rdy.fab.fabctl ||| 1, podmask := 3, rings := [(15, ⟨[0, 1], false⟩)], fops := l }, nextId := 9 }

def barOp (c : Bool) : FOp := ⟨5, 0, false, .bar 15 7, 0, false, c, false, none, 0, none, 0⟩

/-- Die store 0 holds the descriptor of a ring of 0 and 1 at + 0x40. -/
def ringBytes : State := { (ringed []).modRegs (fun r => { r with s := (r.s.set 1 15).set 2 0x10000000040 }) with
  mem := rdy.mem.setStored (dieStore 0 + 64) (BitVec.allOnes 64) (BitVec.ofNat 512 (2 ^ 512 - 2 ^ 16 + 0x100)) }

theorem test_meets_Collectives :
    collForm ((ringed []).modRegs fun r => { r with s := r.s.set 1 0x70000000F }) (.collRed 0 0 (.s 1) false) = some (0x0A, 0, 0x70000000F) ∧
    Issues (.collRed 0 0 (.s 1) false) (ringed []) ∧ (ringed []).ring 15 = some ⟨[0, 1], false⟩ ∧ badControl 0x0A 0x70000000F = false ∧
    (ringed []).fabricFull = false ∧ (ringed []).ringBusy 15 < 4 ∧
    okay ((ringed []).collTensor ⟨0, true, some 9⟩ 0 ((ringed []).readH 0)).1 = true ∧ (ringed []).unreachedOf [0, 1] = none ∧
    (ringed []).ring 14 = none ∧ Issues (.collRing 0 (.s 1) (.s 2) false false) ringBytes ∧ (0x20F : Word) &&& 0xFFFFFFFFFFFFFCF0 = 0 ∧
    (match ringBytes.readBlocking ringBytes.who true [] .g 0x10000000040 64 with
      | .ok (raw, v) => v.ringMembers raw == some [0, 1] && v.fab.circuitRing.isNone
      | .error _ => false) = true ∧
    (let s : State := { ringed [barOp true] with cx := { (ringed []).cx with joinMark := 5 } }
     s.cx.joinMark ≠ 0 ∧ s.fab.fops.find? (fun y => y.id == 5) = some (barOp true)) ∧
    Issues (.collBar 0 (.s 1) false) ringBytes ∧ field (15 : Word) 4 28 = 0 ∧
    (let m := (ringBytes.begun (.collBar 0 (.s 1) false)).publish
     m.published = true ∧ m.markOutbound.allJoins = [] ∧ m.markOutbound.ownRelayouts = [] ∧ m.markOutbound.draining = false ∧
       m.markOutbound.nextId ≠ 0 ∧ m.markOutbound.reachable 1 = true) := by
  and_intros <;> first | exact issues _ _ (by decide +kernel) | decide +kernel

/-- An all-reduce of one word on ring 15, and the other member's part. -/
def redOp : FOp := ⟨5, 0, false, .coll 15 0x0A 0 false 7 0 ⟨smallAt 0x10000000000, 0⟩ [1, 2, 3, 4] [] false, 0, false, false, false, none, 0, none, 0⟩

theorem test_meets_CollectiveResults : chunkAt 10 3 9 = 2 ∧ (chunkOf 10 3 2).1 ≤ 9 ∧ 9 < (chunkOf 10 3 2).2 ∧
    (let s := ringed [redOp]
     let mine := s.idle.contribution [0, 1] redOp
     let other : CollPeer := { mine with dev := 1, pos := 1 }
     s.ringOp 15 [other] = some redOp ∧ memberList [0, 1] mine [other] = some [mine, other] ∧ other.failed = false ∧
       membersDiffer mine [mine, other] = false ∧ membersDiffer mine [mine, { other with pos := 0 }] = true ∧ mine.kind = 0x0A ∧
       memberList [0, 1] mine [] = none) ∧
    (let s := ringed [barOp false]
     let mine := s.idle.contribution [0, 1] (barOp false)
     let other : CollPeer := { mine with dev := 1, pos := 1 }
     s.ringOp 15 [other] = some (barOp false) ∧ (memberList [0, 1] mine [other]).isSome = true) := by
  and_intros <;> decide +kernel

theorem test_meets_FabricQueries :
    Issues (.noiseRd 0 .queue 3) rdy ∧ Issues (.noiseClr 0) rdy ∧ Issues (.fpeer 0 .queue (.s 1) false) (rdyS 1 63) ∧
    rdy.fab.detourOf ((63 + 64 - rdy.device) % 64) = none ∧ Issues (.fpeer 0 .queue (.s 1) false) (rdyS 1 64) ∧
    Issues (.fslot 0 .queue (.s 1) false) (rdyS 1 0x7FF) ∧ field (0x7FF : Word) 8 8 < rdy.fab.plen ∧ rdy.fab.profile ≠ 1 ∧
    (let s : State := { rdy with fab := { rdy.fab with links := [Link.fresh 31 63 1] } }
     Issues (.fbays 0 .queue (.s 1) false) s ∧ s.fab.link 31 63 = some (Link.fresh 31 63 1)) ∧ (0x3F1F : Word) &&& 0xFFFFFFFFFFFFC0E0 = 0 ∧
    Issues (.fevt 0 .queue) rdy ∧ Issues (.fretune 0 (.s 1) false) (rdyS 1 0x101) ∧ (0x101 : Word) &&& 0xFFFFFFFFFFFFFEFC = 0 ∧
    Issues (.frepair 0 (.s 1) (.s 2) false false) (extents 0x7FF 5) ∧ Issues (.fgrant 0 (.s 1) false) (rdyS 1 0x807F) ∧
    64 ≤ field (0x807F : Word) 0 7 ∧ rdy.fab.reserveRoom 127 = true := by
  and_intros <;> first | exact issues _ _ (by decide +kernel) | decide +kernel

/-! ### Steps, the pool, scheduling -/

/-- The place of `movi s3, 5`, ready to issue. -/
def placed5 : State := State.reset.withFetchWord 32 0x01C18005

/-- The hypotheses of the last clause of `Obligations.StepRuns` hold of context c with syllable i in slot k. -/
def stepsTo (s : State) (c : Nat) (k : Fin 8) (i : Instr) : Bool :=
  match (s.focus c).idle.goTo (s.focus c).cx.regs.pc with
  | .error _ => false
  | .ok b =>
    match b.lineAtPc (s.focus c).cx.regs.pc with
    | .ok (h, w :: lits) =>
      let y : Syl := .core i
      let r := b.reachCycle (b.issueCycle h)
      let x := ({ r with cx := r.cx.findMarks (s.focus c).cx.regs.pc } : State).openBundle h lits [(k, y)]
      let z : State := { x with
        issue := { x.issue with checked := true, slots := [k], point := y.blockPoint && !(x.cx.synced && k == 6) },
        core := { x.core with used := (x.core.cycle, x.usage 0 (x.splitBundle [(k, y)])) } }
      slotsOf (presOf h) == [k] && stopOf h && !badHeader h && (match decodeSlot k (nlitOf h) w.toNat with | .ok (.core j) => decide (j = i) | _ => false)
        && r.agenda == b.agenda && x.cx.part.isNone && x.cx.held.isEmpty && x.cx.pending.isEmpty && x.cx.stopReq.isNone && !x.quantumDue
        && (x.recorded x.cx.regs.pc).isEmpty && !y.accesses
        && x.readP (y.info x).guard && (match x.verdict [(k, .ok y)] with | .go => true | _ => false)
        && (match z.checkClash [] [(k, y.info z)] with | .go => true | _ => false)
        && (match exec i (z.inSlot k) with | .next u => u.evt == .done | _ => false)
        && (match exec i ((z.markViol [(k, y.info z)]).inSlot k) with | .next t => t.evt == .done | _ => false)
    | _ => false

/-- Power state OFF, with the agenda given. -/
def off (l : List Event) : State := { rdy with pwr := { rdy.pwr with pwrstat := setField rdy.pwr.pwrstat 45 2 3 }, agenda := l }

theorem test_meets_StepRuns : (off []).powerState = 3 ∧ (off []).agenda = [] ∧ (off [.powerLoss]).agenda = [.powerLoss] ∧
    rdy.powerState ≠ 3 ∧ ({ rdy with agenda := [.powerLoss] } : State).agenda = [.powerLoss] ∧ placed5.powerState ≠ 3 ∧
    (match placed5.nextAction with | .issue c => c == 0 | _ => false) = true ∧ stepsTo placed5 0 2 (.movi 0 (.s 3) 5) = true ∧
    (match (State.reset.withFetchWord 64 0x0112345600000000).nextAction with | .microOp g => g == 0 | _ => false) = true := by
  and_intros <;> decide +kernel

theorem test_meets_MemoryForm : State.reset.mem.wf = true ∧ rdy.mem.wf = true := by decide +kernel

/-- The self-test is over, and the context area given. -/
def ready0 : State := { rdy with
  mgmt := { rdy.mgmt with bootstat := setField rdy.mgmt.bootstat 62 2 2 }, regs := { rdy.regs with ctxarea := 1 } }

/-- Die store 0 holds a graph of one node on one device level, and KICK names it. -/
def kicked : State := { ready0 with
  regs := { ready0.regs with kick := [0x10000000000, 0, 0, 77, 0, 0, 0, 0] }
  mem := (rdy.mem.setStored (dieStore 0) (BitVec.allOnes 64) (BitVec.ofNat 512 (ofBytes (bytesOf 4 0x4F474A4B ++ bytesOf 2 1 ++ bytesOf 2 1 ++
    bytesOf 4 0 ++ bytesOf 4 64 ++ bytesOf 4 128 ++ bytesOf 4 256 ++ bytesOf 4 256 ++ bytesOf 4 0 ++ bytesOf 4 256 ++ bytesOf 4 0 ++
    bytesOf 4 256 ++ bytesOf 4 64 ++ bytesOf 4 0 ++ bytesOf 4 0 ++ bytesOf 4 320 ++ bytesOf 4 0)))).setStored (dieStore 0 + 64)
      (BitVec.allOnes 64) 0x9300000000000001 }

/-- What loading its graph comes to: no error, and whether the replay is over at once. -/
def loads (s : State) : Option Bool :=
  let k := s.regs.kickGos.headD s.regs.kick
  let b : State := { s.idle with regs := { s.regs with kickGos := s.regs.kickGos.drop 1, kickPend := none } }
  match (b.loadGraph s.regs.kickView k).then fun x s => (s.patches b.regs.kickView k x.2).then fun l s => (.ok (x.1, l), s) with
  | (.ok (g, _), u) => some ((({ Pool.reset with graph := some g, stopped := u.pool.stopped } : Pool).expand g).mark g u.now |>.done g)
  | (.error _, _) => none

def graph2 : Graph := ⟨0, 0, 0, 0, [⟨3, 1, 1⟩], [⟨0x1000, 0, true, 3, false, 0, [], [], 1, 1⟩], [], [], 5⟩
def inst2 : Inst := ⟨0, 0, [0], 0x2000, 0, false, 0, 3, 0, 1, 0, false, false, false, none⟩

/-- A replay of `graph2` with one instance that waits in the pool, or in the queue of die 0 bound to context c. -/
def replaying (w : List Inst) (q : List Inst) : State := { ready0 with
  regs := { ready0.regs with kickstat := 3 }, pool := { Pool.reset with graph := some graph2, waiting := w, seq := 1 },
  dies := [(0, { Die.reset with queue := q })] }

theorem test_meets_Replays : field kicked.mgmt.bootstat 62 2 = 2 ∧ kicked.vacating = false ∧ field kicked.pwr.pwrstat 45 2 = 0 ∧
    loads kicked = some false ∧ loads ready0 = none ∧ field (replaying [] []).regs.kickstat 0 4 = 3 ∧
    ({ kicked with pwr := { kicked.pwr with pwrstat := setField 0 45 2 1 } } : State).vacating = false ∧
    (replaying [] []).engAwaits 9 = false ∧ (replaying [inst2] []).pool.patching = none ∧
    (let g : Graph := { graph2 with nodes := [] }
     ((({ Pool.reset with graph := some g } : Pool).expand g).mark g 0).done g = true) ∧
    (replaying [inst2] []).poolRuns = true ∧ (replaying [inst2] []).idle.settlePool.pool.order = [inst2] ∧
    (replaying [inst2] []).idle.settlePool.pool.waiting.find? (Inst.same inst2) = some inst2 ∧
    ((replaying [inst2] []).idle.settlePool.chooseDie graph2 ⟨0x1000, 0, true, 3, false, 0, [], [], 1, 1⟩ [] inst2 none).isSome = true ∧
    ((replaying [] [{ inst2 with bound := some 3 }]).dieAt 0).queue = [{ inst2 with bound := some 3 }] ∧
    ((replaying [] [{ inst2 with bound := some 3 }]).ctx 3).status = .free ∧
    (let s := replaying [] [inst2]
     let n : NodeEntry := ⟨0x1000, 0, true, 3, false, 0, [], [], 1, 1⟩
     (s.dieAt 0).queue = [inst2] ∧ (s.queuePlace graph2 s.keptCtxs 0 n inst2).isSome = true ∧ s.queuePlace graph2 s.keptCtxs 24 n inst2 = none ∧
       s.pool.patching = none ∧ s.pool.starting = false ∧ (s.idle.settlePool.originDie graph2 n 0).2.evt.isHub = false) := by
  and_intros <;> decide +kernel

theorem test_meets_SpawnAndEnd :
    Issues (.spawn 0 (.s 1) 3 0) (replaying [] []) ∧ ((replaying [] []).begun (.spawn 0 (.s 1) 3 0)).publish.published = true ∧
    ((replaying [] []).begun (.spawn 0 (.s 1) 3 0)).publish.markOutbound.pool.graph = some graph2 ∧
    (((replaying [] []).begun (.spawn 0 (.s 1) 3 0)).publish.markOutbound.pool.spawnQ.length < 1024) ∧ rdy.pool.graph = none ∧
    Issues (.endNode 0) rdy ∧ (rdy.begun (.endNode 0)).mergeFresh.cx.inflight = [] ∧ (rdy.begun (.endNode 0)).mergeFresh.allJoins = [] ∧
    (rdy.begun (.endNode 0)).mergeFresh.ownRelayouts = [] ∧ (rdy.begun (.endNode 0)).mergeFresh.publish.published = true ∧
    (rdy.begun (.endNode 0)).mergeFresh.publish.markOutbound.cx.pending = [] ∧
    Issues (.spawn 0 (.s 1) 3 4095) (rdyS 1 63) ∧ field ((rdyS 1 63).readSrc (.s 1)) 0 6 ≠ 0 ∧ field ((rdyS 1 (2 ^ 56)).readSrc (.s 1)) 56 8 ≠ 0 ∧
    field ((replaying [] []).readSrc (.s 1)) 0 6 = 0 ∧ field ((replaying [] []).readSrc (.s 1)) 56 8 = 0 ∧
    graph2.nodes[1]? = none ∧ (graph2.nodes[0]?).isSome = true ∧ field (replaying [] []).regs.kickstat 0 4 = 3 ∧
    ((withOps [sendOp none false]).begun (.endNode 0)).mergeFresh.allJoins.any (fun y => !y.complete) = true ∧
    (((withOps [sendOp (some ⟨0x0A, 0, 0⟩) true]).begun (.endNode 0)).mergeFresh.allJoins.find? fun y => y.fault.isSome).isSome = true ∧
    ((relaying .active).begun (.endNode 0)).mergeFresh.ownRelayouts = [relayout1 .active] ∧ (relaying .active).cx.inst = none ∧
    (atBarrier ⟨0, 15, 0, false, 1, 0, 2⟩ ⟨1, true, some 0⟩).cx.inst = some inst1 ∧
    (atBarrier ⟨0, 15, 0, false, 1, 0, 2⟩ ⟨1, true, some 0⟩).pool.graph = some graph1 ∧
    rdy.cx.inst = none ∧
    (({ rdy with cx := { rdy.cx with fresh := [⟨.s 1, .word 0, none, 0, false, 0⟩] } } : State).begun (.endNode 0)).mergeFresh.cx.inflight
      = [⟨.s 1, .word 0, none, 0, false, 0⟩] := by
  and_intros <;> first | exact issues _ _ (by decide +kernel) | decide +kernel

def withCtx (c : Nat) (x : Ctx) : State := { rdy with ctxs := [(c, x)] }
def inState (st : Status) (w : Wait) : Ctx := { Ctx.reset with status := st, wait := w }

/-- Context 0 runs on core 0, its quantum is over, and context 3 is READY. -/
def overdue : State := { withCtx 3 (inState .ready .none) with
  cx := { rdy.cx with status := .running, issued := 4096 }, core := { rdy.core with running := some 0 } }

/-- A round of two participants, contexts 1 and 2, which have arrived. -/
def roundFull : State := { rdy with
  ctxs := [(1, inState .blocked (.round 15)), (2, inState .blocked (.round 15))]
  clusters := [(0, { Cluster.reset with rounds := [⟨15, 2, [1, 2]⟩] })] }

theorem test_meets_Scheduling :
    (let s : State := { rdy with cx := { rdy.cx with inflight := [⟨.s 15, .word 9, none, 0, true, 0⟩], status := .blocked, wait := .bundle } }
     s.cx.inflight[0]? = some ⟨.s 15, .word 9, none, 0, true, 0⟩ ∧
       s.cx.inflight.filter (fun x => x.land.isNone && x.ready && x.tag == 0) = [⟨.s 15, .word 9, none, 0, true, 0⟩] ∧ s.cx.inflight[1]? = none) ∧
    ((withCtx 5 (inState .blocked .bundle)).ctx 5).status = .blocked ∧ ((withCtx 5 (inState .blocked (.time 0))).ctx 5).wait = .time 0 ∧
    ((withCtx 3 (inState .ready .none)).coreAt 0).running = none ∧ (withCtx 3 (inState .ready .none)).nextReady 0 = some 3 ∧
    overdue.core.running = some (Fin.ofNat 4 overdue.cid) ∧ overdue.quantumDue = true ∧
    63 ≤ ({ rdy with cx := { rdy.cx with stopCount := 63 } } : State).cx.stopCount ∧
    (let s : State := { placed5 with cx := { placed5.cx with half0 := some ⟨0x10000000000, 0x10000000000, 0, [.bundle 0 []]⟩ } }
     s.refillAddr = none) ∧
    (roundFull.clusterAt 0).rounds.find? (·.id == 15) = some ⟨15, 2, [1, 2]⟩ ∧ (roundFull.ctx 2).wait = .round 15 ∧
    (({ rdy with core := { rdy.core with katctl := 1, used := (0, [[]]), cycle := 1 } } : State).coreAt 0).katCycle 7 = some 0 ∧ (rdy.coreAt 0).katCycle 7 = none ∧
    ((withCtx 5 (inState .blocked (.time 1))).ctx 5).wait = .time 1 ∧ rdy.now < 1 ∧ (rdy.coreAt 0).running = none ∧ rdy.nextReady 0 = none ∧
    rdy.cx.stopCount < 63 ∧ (rdy.clusterAt 0).rounds.find? (·.id == 15) = none ∧
    flag (rdy.coreAt 0).katsig 63 = false := by
  and_intros <;> decide +kernel

/-- A committed checkpoint with nothing sent. -/
def point : Checkpoint := ⟨Regs.reset, false, true, 0, 0⟩

/-- Context 0 stopped long ago for a save, and its routine still runs. -/
def lateSave : State := { onRoutine none id with
  cx := { rdy.cx with status := .blocked, stopReq := some 0, ckpt := some point }, tick := 200000 * 378 }

theorem test_meets_Preemption :
    (let s : State := { withCtx 5 (inState .ready .none) with mgmt := { rdy.mgmt with savebase := 1 } }
     flag s.mgmt.preempt 0 = false ∧ flag s.mgmt.savebase 0 = true ∧ 5 ∈ s.knownCtxs ∧ s.inScope 5 = true ∧ s.live 5 = true) ∧
    (let s := withCtx 5 { inState .blocked .bundle with stopReq := some 0 }
     s.saveReady 5 = true ∧ ((s.idle.inCtx 5 State.joinForSave).ctx 5).parity = 0) ∧ rdy.saveReady 5 = false ∧
    (let s : State := { withCtx 5 { inState .blocked .bundle with stopReq := some 0 } with
       core := { rdy.core with ch := rdy.core.ch }
       cores := [(1, { rdy.core with ch := rdy.core.ch.set 3 [{ copy1 goBlock .go with ctx := 5, finished := true }] })]
       prot := { rdy.prot with opCounts := [(5, 2)] } }
     s.saveReady 5 = true ∧ ((s.idle.inCtx 5 State.joinForSave).ctx 5).parity = 2) ∧
    (rdy.mgmt.preempt = 0 ∧ flag rdy.mgmt.savebase 0 = false) ∧ rdy.knownCtxs.filter rdy.saveLate = [] ∧ (rdy.ctx 5).status = .free ∧
    (let s : State := { rdy with mgmt := { rdy.mgmt with savebase := 1 } }
     (s.knownCtxs.all fun d => !s.live d && (s.ctx d).stopReq == none) = true) ∧
    ((withCtx 5 (inState .saved .none)).ctx 5).status = .saved ∧ lateSave.knownCtxs.filter lateSave.saveLate = [lateSave.cid] ∧
    lateSave.cx.ckpt = some point ∧ ((withCtx 5 (inState .ready .none)).ctx 5).status ≠ .free := by
  and_intros <;> decide +kernel

/-! ### Memory traffic between devices -/

/-- A request of context 9 of device 1 for the line at address a. -/
def request (k : RemoteKind) (a : Nat) : RemoteReq := ⟨4, 1, 9, none, k, a, 0, BitVec.allOnes 64, 7, 0, 0, false, 0⟩

theorem test_meets_HomeAnswers :
    (let s : State := { ready0 with pwr := { ready0.pwr with pwrstat := setField 0 45 2 2 } }
     field s.pwr.pwrstat 45 2 = 2) ∧
    (ready0.lost 0 = false ∧ ready0.lost 1 = false ∧ ready0.lost 2 = false ∧ ready0.lost 3 = false ∧
      ready0.lost 4 = false ∧ ready0.lost 5 = false ∧ ready0.lost 6 = false ∧ ready0.lost 7 = false) ∧ regionOf (2 ^ 40 - 64 + 2 ^ 45) = .hole ∧
    regionOf sysBase = .sys ∧ (ready0.key 0).isNone = true ∧
    (let s : State := { ready0 with mgmt := { ready0.mgmt with keys := [(2047, 5)] } }
     (s.key 2047).isSome = true ∧ flag s.regs.framemap 0 = false ∧ s.protRow 0 false = none ∧ s.mem.soft = [] ∧ s.mem.hard = [] ∧ s.mem.poison = []) ∧
    (let s : State := { ready0 with regs := { ready0.regs with framemap := 1, frameCache := [(0, 3)] } }
     flag s.regs.framemap 0 = true ∧ s.regs.frameCache.find? (·.1 == 0) = some (0, 3)) := by
  and_intros <;> decide +kernel

def pend1 (keep prot : Bool) : RemotePend := ⟨4, 0, 1, 0, BitVec.allOnes 64, 0, [], 0, keep, false, [], none, none, prot, 0, 0⟩
def parked (w : Wait) (l : List RemotePend) : State := { rdy with cx := { rdy.cx with status := .parked, wait := w }, remotes := l }

theorem test_meets_RepliesArrive :
    (parked .remote [pend1 false false]).remotes.find? (·.id == 4) = some (pend1 false false) ∧ (parked .remote []).cx.status = .parked ∧
    (parked .remote [pend1 true false]).remotes.find? (·.id == 4) = some (pend1 true false) ∧
    ((parked (.walk 0x10000000000 false true) []).ctx 0).wait = .walk 0x10000000000 false true ∧
    (parked .remote [{ pend1 false true with eng := some 7 }]).remotes.find? (·.id == 4) = some { pend1 false true with eng := some 7 } ∧
    (parked .remote [{ pend1 false false with flight := 6 }]).remotes.find? (·.id == 4) = some { pend1 false false with flight := 6 } ∧
    rdy.remotes.find? (·.id == 4) = none ∧
    (match ((parked (.walk 0x10000000000 false true) []).idle.walk ⟨0, true, none⟩ 0x10000000000 .read) with
      | (.error _, u) => u.cx.status == .parked
      | _ => false) = true ∧
    rdy.mem.flips = [] ∧ eccSymbol (unitOf (unitStore 0)) 0 ≠ eccSymbol (unitOf (unitStore 0)) 1 ∧
    isMemory (unitStore 0) = true ∧ (unitOf (unitStore 0)) ∉ rdy.mem.poison ∧ (unitOf (unitStore 0)) ∉ rdy.mem.hard ∧
    (let s : State := { rdy with mem := { rdy.mem with soft := [unitOf (unitStore 0)] } }
     (unitOf (unitStore 0)) ∈ s.mem.soft) ∧
    (let s : State := { rdy with cx := { rdy.cx with status := .running, ckpt := some point, trapbase := 0x4000 } }
     s.cx.status ≠ .free ∧ s.cx.status ≠ .saved ∧ point.rolls < s.rollLimit ∧ s.vectorBase ≠ 0) := by
  and_intros <;> decide +kernel

/-- Two protected frames from frame 0 on, protection enabled: this device holds the parity of frame 0. -/
def protecting : State := { ready0 with prot := { ready0.prot with protctl := 1, protregion := 2 + 2 ^ 33 } }

theorem test_meets_ParityPath :
    protecting.lostDevice 1 = false ∧ protecting.prot.heldDeltas = [] ∧ protecting.nextDelta 1 = 0 ∧
    protecting.parityFrame 8 = false ∧
    (let s : State := { protecting with prot := { protecting.prot with protregion := 2 ^ 33 } }
     s.parityFrame 0 = true ∧ s.rebuildFrames 0 = [0, 1] ∧ flag s.prot.rebuild 63 = false ∧ s.rebuildFrames 2 = [0]) ∧
    (let s : State := { protecting with prot := { protecting.prot with protctl := 0x201 } }
     s.lostDevice 1 = true) ∧ rdy.cx.parityGen = 0 ∧ rdy.device = 0 ∧ rdy.cid < noCtx ∧
    (let s : State := { rdy with prot := { rdy.prot with opCounts := [(7, 1)] } }
     0 < look 0 7 s.prot.opCounts) ∧ rdy.inRegion 0 = false := by
  and_intros <;> decide +kernel

/-! ### Light, power, management -/

def linked (l : Link) : State := { twoMembers with fab := { twoMembers.fab with links := [l] } }

theorem test_meets_Links :
    (linked (Link.fresh 31 1 3)).fab.link 31 1 = some (Link.fresh 31 1 3) ∧ (Link.fresh 31 1 3).expected = 0 ∧
    (Link.fresh 31 1 3).bays.length < 64 ∧ (linked (Link.fresh 31 1 3)).relayRefuses 3 0 = false ∧
    (linked (Link.fresh 31 1 3)).relayRefuses 8 (BitVec.ofNat 128 (2 ^ 120)) = true ∧ (linked (Link.fresh 31 1 3)).fab.passFor 31 1 1 = none ∧
    ({ rdy.fab with passes := [(passKey 31 1 1, 1)] } : Fabric).passFor 31 1 1 ≠ none ∧ flitGood (mkFlit 0 3 5) = true ∧
    ((List.range 8).any fun n => (List.range 32).any fun k =>
      ({ twoMembers with fab := { twoMembers.fab with slot := n } } : State).hears k 1) = true ∧ dataKind 3 = true ∧ dataKind 1 = false ∧
    ({ rdy.fab with relaytab := [(0, fieldsWord [(63, 1, 1), (50, 6, 1), (44, 6, 2)])] } : Fabric).relays 1 2 = true ∧
    rdy.fab.relays 1 2 = false ∧ twoMembers.draining = false ∧ flag twoMembers.fab.fabctl 0 = true ∧ twoMembers.fab.link 31 1 = none ∧
    (let s : State := { linked { Link.fresh 31 1 3 with pause := some 0 } with tick := 4000 * 378 + 1 }
     s.pauseOver { Link.fresh 31 1 3 with pause := some 0 } = true) ∧ twoMembers.pauseOver (Link.fresh 31 1 3) = false := by
  and_intros <;> decide +kernel

theorem test_meets_Rotor : flag rdy.fab.fabctl 0 = false ∧ flag twoMembers.fab.fabctl 0 = true ∧
    ({ twoMembers with fab := { twoMembers.fab with slot := 7 } } : State).fab.plen ≤ 8 ∧ twoMembers.fab.slot + 1 < twoMembers.fab.plen ∧
    12 < ((0x0D : BitVec 8)).toInt.natAbs ∧ rdy.fab.lineState 1 63 = 0 ∧
    (let s : State := { twoMembers with tick := 10000000 * 378, fab := { twoMembers.fab with fabctl := twoMembers.fab.fabctl ||| 2 ^ 58 } }
     s.markLost = true) ∧
    (let s : State := { twoMembers with fab := { twoMembers.fab with fabctl := twoMembers.fab.fabctl ||| 4 } }
     s.draining = true ∧ s.quiet = true) := by
  and_intros <;> decide +kernel

theorem test_meets_TollBoundaries : pwrctlLegal 0x960240C000000000 = true ∧ pwrctlLegal 0 = false ∧ thermctlLegal 0x555F69 = true ∧
    thermctlLegal 0x695F55 = false ∧ permitsLegal 0x4040 = true ∧ permitsLegal 0xFFFF = false ∧ rdy.regs.kickPend = none := by
  and_intros <;> decide +kernel

theorem test_meets_BringUp :
    (let x : CoreTest := ⟨4607, 1, 2, 1, false, 0⟩
     testFailure ⟨none, none, [x], none, none⟩ = none ∧ coresTested ⟨none, none, [x], none, none⟩ = [x] ∧ coreGood x = true) ∧
    testFailure ⟨none, none, [⟨0, 1, 1, 1, false, 0⟩], none, some 7⟩ = some (3, 0) ∧ coreGood ⟨0, 1, 1, 1, false, 0⟩ = false ∧
    testFailure ⟨none, some 9, [], some 1, none⟩ = some (2, 9) ∧ testFailure SelfTest.pass = none ∧ field (setField (0 : Word) 62 2 1) 62 2 = 1 ∧
    field rdy.mgmt.bootstat 62 2 ≠ 1 ∧ 8191 + 1 ≤ 8192 ∧ rdy.prot.stripeWritten = false ∧
    flag rdy.mgmt.attest 62 = false ∧ rdy.mgmt.signatures < 2 ^ 20 ∧ flag (setFlag rdy.mgmt.attest 62 true) 62 = true ∧
    field (2047 : Word) 0 11 ≠ 0 ∧ sysBase ≤ sysBase + 8 ∧ sysBase + 8 < 2 ^ 42 ∧ (sysBase + 8) % 8 + 8 ≤ 8 ∧
    (let h : HostAccess := ⟨false, false, 2 ^ 36 - 64, 64, 0⟩
     h.size ≤ 64 ∧ h.off + h.size ≤ 2 ^ 36 ∧ rdy.powerState ≠ 3) := by
  and_intros <;> decide +kernel

/-- Vacating, in the state given. -/
def vacates (n : Nat) : State := { twoMembers with mgmt := { rdy.mgmt with vacate := setField 1 60 3 n } }

theorem test_meets_Vacating : rdy.fab.vacateIn.headD .go = .go ∧ (vacates 1).vacating = true ∧ rdy.vacating = false ∧ rdy.allSaved = true ∧
    (withCtx 5 (inState .ready .none)).allSaved = false ∧ rdy.spare.val = rdy.device ∧
    (vacates 0).vacating = false ∧ (vacates 0).allSaved = true ∧ (vacates 0).reachable (vacates 0).spare.val = true ∧
    (vacates 0).spare.val ≠ (vacates 0).device ∧ flag (vacates 0).fab.fabctl 3 = false ∧
    (let s : State := { vacates 0 with fab := { (vacates 0).fab with fabctl := setFlag (vacates 0).fab.fabctl 3 true } }
     flag s.fab.fabctl 3 = true ∧ s.reachable s.spare.val = true ∧ s.allSaved = true) ∧
    (let s : State := { rdy with mgmt := { rdy.mgmt with vacate := setField 0 60 3 3 }, tick := 2000000000 * 378 }
     s.vacateLate = true) ∧ rdy.vacateLate = false ∧ (vacates 2).vacateState = 2 ∧ flag (vacates 2).fab.podmask 1 = true ∧
    (let s : State := { twoMembers with fab := { twoMembers.fab with vacateIn := [.rekey 1 63 16], rekeys := [⟨1, 63, 16⟩] } }
     s.fab.vacateIn.headD .go = .rekey 1 63 16 ∧ s.fab.periodno.toNat < 16 ∧
       16 ≤ ({ s with fab := { s.fab with periodno := 16 } } : State).fab.periodno.toNat) ∧
    ({ rdy.fab with vacateIn := [.copied rdy.podCopy] } : Fabric).vacateIn.headD .go = .copied rdy.podCopy ∧ rdy.mem.soft = [] ∧
    rdy.mem.hard = [] := by
  and_intros <;> decide +kernel

/-! ### Peers, poison, and releases that are not complete -/

/-- The core's TLB maps virtual page 1 to a writable page of device 1; s1 holds an address in it. -/
def mapped (s : State) : State := { sending s 0x1FFF8 with
  core := { s.core with tlb := [⟨1, 0, 0x8400008000002000⟩] }, regs := { s.regs with ptroot := 1 } }

/-- The context has a store at a peer that is not acknowledged. -/
def unacked (s : State) : State := { s with remotes := [{ pend1 false false with write := true }] }

/-- The fabric drains. -/
def drainingOf (s : State) : State := { s with fab := { s.fab with fabctl := s.fab.fabctl ||| 4 } }

/-- What a load finds: the poison, and how many pieces must be asked for. -/
def finds (s : State) (x0 : Space) (ea : Word) (n : Nat) : Option (Bool × Nat) :=
  match s.resolve s.who x0 ea n .read with
  | .ok ps => let l := (s.loadPieces true ps).1; some (l.poison.isSome, l.ask.length)
  | .error _ => none

/-- The single piece of a write, where it goes. -/
def writesTo (s : State) (x0 : Space) (ea : Word) (n : Nat) : Option (Nat × Bool) :=
  match s.resolve s.who x0 ea n .write with
  | .ok [p] => some (p.at_.dev, s.writeWaits [p])
  | _ => none

theorem test_meets_peer_loads :
    (let i : Instr := .ldD 0 .queue (.s 1) (.s 0) false false .g
     Issues i (mapped twoMembers) ∧ (loadForm (mapped twoMembers) i).isSome = true ∧ finds (mapped twoMembers) .g 0x1FFF8 8 = some (false, 1) ∧
       (mapped twoMembers).draining = false ∧ Issues i (drainingOf (mapped twoMembers)) ∧ (drainingOf (mapped twoMembers)).draining = true ∧
       finds (drainingOf (mapped twoMembers)) .g 0x1FFF8 8 = some (false, 1)) ∧
    (let s : State := { rdyS 1 0x1FFFF8 with mem := { rdy.mem with poison := [unitOf (unitStore 0 + 0x1FFFF8)] } }
     Issues (.ldD 0 .queue (.s 1) (.s 0) false false .u) s ∧ finds s .u 0x1FFFF8 8 = some (true, 0)) ∧
    Issues (.ldD 0 .queue (.s 1) (.s 0) false false .u) (rdyS 1 0x200000) ∧ finds (rdyS 1 0x200000) .u 0x200000 8 = none ∧
    (let i : Instr := .vldB 0 3 1 0 2 false false .g
     let s := (mapped twoMembers).modRegs fun r => { r with m := r.m.set 2 1 }
     Issues i s ∧ (laneForm s i).isSome = true ∧
       (match s.resolveLanes .g .read (wordLanes (s.readM 2) fun _ => 0x1FFF8) with
        | .ok ps => (s.loadPieces true ps).1.ask.length == 1
        | .error _ => false) = true) ∧
    (let i : Instr := .vldB 0 3 1 0 2 false false .u
     let s := (rdyS 1 0x200000).modRegs fun r => { r with m := r.m.set 2 1 }
     Issues i s ∧ okay (s.resolveLanes .u .read (wordLanes (s.readM 2) fun _ => 0x200000)) = false) := by
  and_intros <;> first | exact issues _ _ (by decide +kernel) | decide +kernel

theorem test_meets_peer_writes :
    Issues (.stsD 0 .g false (.s 1) (.s 2) false false .dev) (mapped twoMembers) ∧ writesTo (mapped twoMembers) .g 0x1FFF8 8 = some (1, false) ∧
    Issues (.amoAdd 0 .g false .rlx (.s 1) (.s 2) false false .dev) (mapped twoMembers) ∧
    Issues (.amoAdd 0 .g false .rlx (.s 1) (.s 2) false false .dev) (drainingOf (mapped twoMembers)) ∧
    writesTo (drainingOf (mapped twoMembers)) .g 0x1FFF8 8 = some (1, true) ∧
    (match twoTensors.resolve twoTensors.who .g (word sysBase) 8 .write with
      | .ok (p :: _) => twoTensors.noAtomicUnit p
      | _ => false) = true ∧
    (let s : State := { rdyS 1 8 with mem := { rdy.mem with poison := [unitOf (dieStore 0 + 8)] } }
     Issues (.amoAdd 0 .d false .rlx (.s 1) (.s 2) false false .dev) s ∧ writesTo s .d 8 4 = some (0, false)) := by
  and_intros <;> first | exact issues _ _ (by decide +kernel) | decide +kernel

theorem test_meets_unpublished :
    Issues (.sigEv 0 63) (unacked rdy) ∧ ((unacked rdy).begun (.sigEv 0 63)).publish.published = false ∧
    Issues (.stsD 0 .d true (.s 1) (.s 2) false false .dev) (unacked rdy) ∧
    ((unacked rdy).begun (.stsD 0 .d true (.s 1) (.s 2) false false .dev)).publish.published = false ∧
    Issues (.fence 0 .rel .dev) (unacked rdy) ∧ ((unacked rdy).begun (.fence 0 .rel .dev)).publish.published = false ∧
    Issues (.pgInv 0 (.s 1) (.s 2) false false) (unacked rdy) ∧
    ((unacked rdy).begun (.pgInv 0 (.s 1) (.s 2) false false)).publish.published = false ∧
    ((unacked (replaying [] [])).begun (.spawn 0 (.s 1) 3 0)).publish.published = false ∧
    Issues (.amoAdd 0 .d false .sc (.s 1) (.s 2) false false .dev) (unacked rdy) ∧
    (let s : State := { rdy with remotes := [pend1 false false] }
     Issues (.fence 0 .acq .dev) s ∧ s.readsBound = false) ∧
    ((unacked rdy).begun (.endNode 0)).mergeFresh.publish.published = false ∧ ((unacked rdy).begun (.collBar 0 (.s 1) false)).publish.published = false := by
  and_intros <;> first | exact issues _ _ (by decide +kernel) | decide +kernel

/-! ### Further clauses of the statements -/

/-- Counter 63 holds 1 and context 8 has begun to wait for it before. -/
def queued : State := { rdy with clusters := [(0, { Cluster.reset with events := [(63, 1)], waiters := [(63, 8)] })] }

theorem test_meets_waiting : Issues (.waitEv 0 63) rdy ∧ look 0 63 (rdy.clusterAt (clusterOf rdy.cid)).events = 0 ∧
    Issues (.waitEv 0 63) queued ∧ queued.waitersOf 63 = [8] ∧ 8 ≠ queued.cid ∧ rdy.landAll.vectorBase = 0 ∧ rdy.cx.inst = none := by
  and_intros <;> first | exact issues _ _ (by decide +kernel) | decide +kernel

theorem test_meets_barriers :
    (let s : State := { rdy with cx := { rdy.cx with parity := 1 } }
     Issues (.fenceSurv 0) s ∧ s.protDrained = true ∧ s.cx.parity ≠ 0) ∧
    (let s : State := { rdy with cx := { rdy.cx with nohold := some 63 } }
     Issues (.fenceSurv 0) s ∧ s.cx.nohold = some 63) ∧
    (let s : State := { rdy with cx := { rdy.cx with nopar := some 63 } }
     Issues (.fenceSurv 0) s ∧ s.cx.nohold = none ∧ s.cx.nopar = some 63) ∧
    (let s := atBarrier ⟨0, 15, 0, false, 0, 0, 2⟩ ⟨0, false, none⟩
     Issues (.mlsWt 0 15) s ∧ s.cx.barriers[15].pend = false ∧ Issues (.mls 0 15) s ∧ s.cx.barriers[15].waiting ≠ some s.cx.regs.pc ∧
       (s.begun (.mls 0 15)).publish.published = true ∧ (s.begun (.mls 0 15)).publish.markOutbound.allJoins = [] ∧ Issues (.mlsQ 0 .queue 15) s) ∧
    (let s := atBarrier ⟨0, 15, 0, false, 1, 0, 2⟩ ⟨1, true, some 0⟩
     Issues (.mlsArr 0 15) s ∧ (s.myBarrier 15).map (fun x => x.done (s.cx.barriers[15].next - 1)) = some false ∧ Issues (.mls 0 15) s) ∧
    (let s := atBarrier ⟨0, 15, 0, true, 0, 0, 2⟩ ⟨1, true, some 0⟩
     Issues (.mlsWt 0 15) s ∧ (s.myBarrier 15).map (fun x => x.done (s.cx.barriers[15].next - 1)) = some true) ∧
    (let s : State := { rdy with issue := { rdy.issue with checked := false, stop := true } }
     s.issue.checked = false ∧ s.myBarrier 15 = none ∧ s.issue.stop = true) := by
  and_intros <;> first | exact issues _ _ (by decide +kernel) | decide +kernel

theorem test_meets_handle_clauses :
    Issues (.hcoord 0 .queue (.s 1) (.s 2) false false 0) (withTensor (tensorAt 64) 1 0) ∧
    missingDim (Desc.exts (tensorAt 64)) 1 0 = true ∧
    (let s := withTensor (tensorAt 64) 0 0x4000000040
     Issues (.hcoord 0 .queue (.s 1) (.s 2) false false 0) s ∧ missingDim (Desc.exts (tensorAt 64)) 0 64 = false ∧
       (match s.element s.who (s.readH 0) (batchCoords (Desc.exts (tensorAt 64)) 0 64 64) false with | .bad _ _ => true | _ => false) = true) ∧
    hsetField[field (15 : Word) 0 4]? = none ∧ Issues (.hset 0 0 (.s 1) (.s 2) false false) (withTensor (tensorAt 64) 0 15) ∧
    Issues (.hset 0 0 (.s 1) (.s 2) false false) (withTensor (tensorAt 64) (2 ^ 32) 4) ∧
    (let s : State := { rdyS 1 64 with mem := { rdy.mem with poison := [unitOf (unitStore 0 + 64)] } }
     Issues (.hld 0 0 (.s 1) false .u) s ∧ okay (s.readBlocking s.who true [.h 0] .u 64 64) = false ∧ Issues (.mpar 0 (.s 1) false .u) s) ∧
    okay (storedTensor.readBlocking storedTensor.who true [.h 0] .u 64 64) = true := by
  and_intros <;> first | exact issues _ _ (by decide +kernel) | decide +kernel

theorem test_meets_relayout_clauses :
    (let s := (relaying .failed).modRegs fun r => r
     let f : Relayout := { relayout1 .failed with fault := some ⟨0x0F, 7, 0⟩ }
     let s1 : State := { s with relayouts := [f] }
     let s2 : State := { s with relayouts := [{ f with raised := [(s.cid, s.cx.regs.pc)] }] }
     Issues (.rlayWt 0 0) s1 ∧ s1.relayoutOf 0x10000001000 = some f ∧ f.raised.contains (s1.cid, s1.cx.regs.pc) = false ∧
       Issues (.rlayWt 0 0) s2 ∧ (s2.relayoutOf 0x10000001000).map (fun r => r.raised.contains (s2.cid, s2.cx.regs.pc)) = some true) ∧
    (let d := setDField (smallAt 0x10000000000) 511 1 1
     let s := twoTensors.modRegs fun r => { r with h := r.h.set 0 ⟨d, 0⟩ }
     Issues (.rlayWt 0 0) s ∧ s.relayoutOf 0 = none ∧ Desc.rly (s.readH 0).desc = true ∧ (s.readH 0).daddr = 0) ∧
    (let d := setDField (smallAt 0x10000000000) 511 1 1
     let s : State := { twoTensors.modRegs fun r => { r with h := r.h.set 0 ⟨d, 0x10000001000⟩ } with
       mem := rdy.mem.setStored (dieStore 0 + 0x1000) (BitVec.allOnes 64) (smallAt 0x10000000000) }
     Issues (.rlayWt 0 0) s ∧ s.relayoutOf 0x10000001000 = none ∧ (s.readH 0).daddr ≠ 0 ∧
       (match s.readBlocking s.who false [] .g 0x10000001000 64 with
        | .ok (bs, _) => descCause (BitVec.ofNat 512 (ofBytes bs)) == none
        | .error _ => false) = true) := by
  and_intros <;> first | exact issues _ _ (by decide +kernel) | decide +kernel

/-- 64 sends outstanding. -/
def busy64 : State := { sending twoMembers 0x500000001 with fab := { twoMembers.fab with fops := List.replicate 64 (sendOp none false) } }

theorem test_meets_fabric_clauses :
    Issues (.fsendV 0 0 (.s 1) false) busy64 ∧ busy64.fabricFull = true ∧ (sendForm busy64 0 (.fsendV 0 0 (.s 1) false)).isSome = true ∧
    badPeerWord 64 = true ∧ Issues (.fsendV 0 0 (.s 1) false) (sending twoMembers 64) ∧
    Issues (.rpost 0 0 1 (.s 5) false false) (rdyS 5 128) ∧ field (128 : Word) 7 57 ≠ 0 ∧
    (let s : State := { twoTensors with fab := { twoTensors.fab with posted := List.replicate 4096 (posted1 none false) } }
     Issues (.rpost 0 0 1 (.s 5) false false) s ∧ 4096 ≤ s.fab.posted.length) ∧
    (let p : Posted := { posted1 (some msg1) true with fault := some ⟨0x0F, 7, 0⟩ }
     Issues (.rwait 0 .queue (.s 1) false) (waiting1 p) ∧ p.landed = true ∧
       (waiting1 p).fab.posted.find? (fun q => q.ticket == (waiting1 p).readSrc (.s 1) && q.ctx == 0) = some p) ∧
    (let s := receiving [{ posted1 (some msg1) false with pos := 99 }]
     s.engAwaits 3 = false ∧ ({ s with remotes := [{ pend1 false false with eng := some 3 }] } : State).engAwaits 3 = true) ∧
    Issues (.fdrn 0) (withOps [sendOp (some ⟨0x0A, 7, 0⟩) true]) ∧
    ((withOps [sendOp (some ⟨0x0A, 7, 0⟩) true]).fabricJoins.find? fun o => o.fault.isSome).isSome = true ∧
    (let s := (ringed (List.replicate 4 redOp)).modRegs fun r => { r with s := r.s.set 1 0x70000000F }
     Issues (.collRed 0 0 (.s 1) false) s ∧ 4 ≤ s.ringBusy 15) ∧
    badControl 0x0A 0x80 = true ∧ (ringed []).ring 0 = none ∧ Issues (.collRing 0 (.s 1) (.s 2) false false) (rdyS 1 0x400) ∧
    (0x400 : Word) &&& 0xFFFFFFFFFFFFFCF0 ≠ 0 ∧ rdy.ringBusy 0 = 0 ∧ (0x200 : Word).getLsbD 9 = true ∧ rdy.ringMembers [0xFF] = none ∧
    Issues (.collBar 0 (.s 1) false) rdy ∧ rdy.ring 0 = none := by
  and_intros <;> first | exact issues _ _ (by decide +kernel) | decide +kernel

/-- Context 0 issues a bundle of `cpy.drn 3` with a complete copy on the channel, and is asked to stop for a save. -/
def drainStop (t : Option Trap) : State :=
  let s := State.reset.booted.seat 0 (word (dieStore 0))
  { s with
    nextId := 9, mem := { s.mem with cells := Cells.setAll (dieStore 0) (oneBundle 6 0x00200003) s.mem.cells },
    cx := { s.cx with stopReq := some 0, trapbase := 0x4000 },
    core := { s.core with ch := s.core.ch.set 3 [{ copy1 goBlock .go with finished := true, fault := t }] } }

/-- R408: a recorded fault is taken before the save, and the save before the bundle. -/
theorem test_join_fault_before_save :
    (match step (drainStop (some ⟨0x07, 9, 0⟩)) with
     | .next t => t.cx.ecode == 7 && t.cx.stopReq.isSome && t.agenda.isEmpty
     | _ => false) = true ∧
    (match step (drainStop none) with
     | .next t => t.cx.ecode == 0 && t.agenda.any fun e => e == Event.contextSaved 0
     | _ => false) = true := by decide +kernel

/-! ### Clauses for what waits, what is lost, and what another agent has already done -/

/-- An own write to the line that `mapped` stores to is on its way. -/
def writeUnderWay (s : State) : State := { s with remotes := [{ pend1 false false with line := 0x1FFC0, write := true }] }

/-- A line of the deferred-store partition at another line than the one stored to. -/
def otherLine : DLine := ⟨0x1000, 1, 0, 0, false, false, 0, false⟩
def fullPartition : State := { rdyS 1 8 with cx := { (rdyS 1 8).cx with dsb := List.replicate 128 otherLine } }

theorem test_meets_waiting_writes :
    (let i : Instr := .stD 0 .d (.s 1) (.s 2) false false
     Issues i fullPartition ∧ fullPartition.cx.dsb.length = 128 ∧ flag fullPartition.cx.dsbjournal 0 = false ∧
       onPieces ((fullPartition.begun i).resolve fullPartition.who .d 8 8 .write) (fun ps =>
         ps.all fun p => !fullPartition.cx.mergeable p.pod p.at_.key p.at_.prot) = true) ∧
    (let i : Instr := .stsD 0 .g false (.s 1) (.s 2) false false .dev
     let j : Instr := .stsD 0 .g true (.s 1) (.s 2) false false .dev
     Issues i (drainingOf (mapped twoMembers)) ∧ Issues j (drainingOf (mapped twoMembers)) ∧
       ((drainingOf (mapped twoMembers)).begun j).publish.published = true) ∧
    writesTo (mapped twoMembers) .g 0x1FFF8 8 = some (1, false) ∧
    (let s : State := { rdy with cx := { rdy.cx with awaiting := [{ otherLine with prot := true }] } }
     Issues (.fenceSurv 0) s ∧ s.protDrained = true ∧ (s.cx.awaiting.any fun l => l.prot) = true) := by
  and_intros <;> first | exact issues _ _ (by decide +kernel) | decide +kernel

/-- A tile move of operation 4 that has made its writes. -/
def moving (f : Option Trap) : State := { twoTensors with cx := { twoTensors.cx with joinMark := 4, moves := [⟨4, f, false⟩] } }

theorem test_meets_tile_clauses :
    Issues (.tmov 0 0 1 0 0) (moving none) ∧ (moving none).cx.moves.find? (fun m => m.id == (moving none).cx.joinMark) = some ⟨4, none, false⟩ ∧
    (moving none).engAwaits 4 = false ∧ (moving none).dueChecks = [] ∧
    ({ moving none with remotes := [{ pend1 false false with eng := some 4 }] } : State).engAwaits 4 = true ∧
    Issues (.tmovH 0 0 1 0 0) (moving (some ⟨0x0A, 7, 0⟩)) ∧
    (let s : State := { relaying .active with relayouts := [{ relayout1 .active with conv := true }] }
     let b := s.idle.modDie 0 fun k => { k with engineNext := 0 }
     s.nextRelayout 0 = some { relayout1 .active with conv := true } ∧
       done? (b.setDoneBit { relayout1 .active with conv := true } PeerView.none).1 = true) ∧
    (let r : Relayout := { relayout1 .active with shadow := 0 }
     let s : State := { relaying .active with relayouts := [r] }
     let b := s.idle.modDie 0 fun k => { k with engineNext := 0 }
     s.nextRelayout 0 = some r ∧ (match (b.convertTile r PeerView.none).1 with | some (.error _) => true | _ => false) = true) ∧
    (relaying .active).dueChecks = [] := by
  and_intros <;> first | exact issues _ _ (by decide +kernel) | decide +kernel

/-- The fabric with a table entry changed: a position of circuits that are not installed, or a detour over member 9 to shift 1. -/
def tabled (p : Nat) (e : BitVec 16) : State := { rdyS 1 0 with fab := { rdy.fab with profile := p, table := [(entryKey 0 0 0, e)] } }

theorem test_meets_fabric_query_clauses :
    (tabled 0 (BitVec.ofNat 16 (0x4000 + 0x100 + 0x40 + 9))).fab.detourOf 1 = some 9 ∧
    Issues (.fpeer 0 .queue (.s 1) false) (rdyS 1 1) ∧ 2 ^ 16 ≤ ((rdyS 1 65536).readSrc (.s 1)).toNat ∧
    Issues (.fslot 0 .queue (.s 1) false) (rdyS 1 65536) ∧ Issues (.fslot 0 .queue (.s 1) false) (tabled 1 (slotEntry 3 0)) ∧
    (tabled 1 (slotEntry 3 0)).fab.profile = 1 ∧ (tabled 1 (slotEntry 3 0)).fab.entry 0 0 0 = slotEntry 3 0 ∧ 0 < (tabled 1 0).fab.plen ∧
    Issues (.fbays 0 .queue (.s 1) false) (rdyS 1 0x20) ∧ (0x20 : Word) &&& 0xFFFFFFFFFFFFC0E0 ≠ 0 ∧
    Issues (.fbays 0 .queue (.s 1) false) (rdyS 1 0x3F1F) ∧ rdy.fab.link 31 63 = none ∧
    Issues (.fretune 0 (.s 1) false) (rdyS 1 2) ∧ 2 ≤ field (2 : Word) 0 2 ∧
    Issues (.frepair 0 (.s 1) (.s 2) false false) (extents 0 0x10000) ∧ field (0x10000 : Word) 16 16 ≠ 0 ∧
    Issues (.fgrant 0 (.s 1) false) (rdyS 1 0x10000) ∧ (0x10000 : Word).getLsbD 15 = false ∧
    Issues (.fgrant 0 (.s 1) false) (rdyS 1 0x803F) ∧ field (0x803F : Word) 0 7 < 64 ∧ Issues (.fgrant 0 (.s 1) false) (rdyS 1 0x7F) ∧
    (let s : State := { rdyS 1 0x807F with fab := { rdy.fab with granted := [(127, 1, 0), (127, 2, 0), (127, 3, 0), (127, 4, 0)] } }
     Issues (.fgrant 0 (.s 1) false) s ∧ s.fab.granted.contains (127, 0, 0) = false ∧ s.fab.reserveRoom 127 = false) := by
  and_intros <;> first | exact issues _ _ (by decide +kernel) | decide +kernel

/-- A receive posted earlier that another sender's messages alone match. -/
def otherPost : Posted := { posted1 none false with entry := 7, matchWord := 2, order := 2 }

theorem test_meets_matching_clauses :
    (receiving [otherPost, posted1 none false]).postFor msg1 = some (posted1 none false) ∧ matches_ 2 0x3F msg1 = false ∧
    (receiving [otherPost]).postFor msg1 = none ∧
    (let p := posted1 (some msg1) false
     let s : State := { receiving [p] with remotes := [{ pend1 false false with eng := some 3 }] }
     let s1 := s.idle.touchDone p.who p.handle
     (s1.writeItems p.who ((s1.landingItems p msg1).drop p.pos)).2.engAwaits p.order = true) := by decide +kernel

/-- The routine of operation 9 is late, and a save has recorded context 5 with its PC in the save area. -/
def recorded5 : State :=
  { withCtx 5 { inState .saved .none with recorded := true } with mgmt := { rdy.mgmt with savebase := 1 } }

theorem test_meets_engine_clauses :
    needsNoPower (.powerOn SelfTest.pass) = true ∧ needsNoPower .powerLoss = false ∧ (off [.powerOn SelfTest.pass]).powerState = 3 ∧
    5 ∈ recorded5.knownCtxs ∧ recorded5.inScope 5 = true ∧ flag recorded5.mgmt.preempt 0 = false ∧ flag recorded5.mgmt.savebase 0 = true ∧
    (recorded5.ctx 5).recorded = true ∧ (recorded5.ctx 5).status = .saved ∧ recorded5.mem.soft = [] ∧ recorded5.mem.hard = [] ∧
    recorded5.mem.poison = [] ∧
    (let s : State := { overdue with core := { overdue.core with running := some (Fin.ofNat 4 overdue.cid) } }
     s.atStop = false ∧ s.quantumDue = true) ∧
    (let r : SyncRound := ⟨15, 2, [1]⟩
     let s : State := { rdy with clusters := [(0, { Cluster.reset with rounds := [r] })] }
     (s.clusterAt 0).rounds.find? (·.id == 15) = some r ∧ r.arrived.length < r.n) ∧
    ((rdy.dieAt (dieOf 0)).walks.any (·.1 == missPage 0x1000) = false ∧ (rdy.dieAt (dieOf 0)).walks.length < 96) ∧
    (let s : State := { rdy with dies := [(0, { Die.reset with walks := (List.range 96).map fun k => (k + 2, k) })] }
     (s.dieAt (dieOf 0)).walks.any (·.1 == missPage 0x1000) = false ∧ 96 ≤ (s.dieAt (dieOf 0)).walks.length ∧
       (s.dieAt (dieOf 0)).walks.any (·.1 == missPage (word (2 * 65536))) = true) := by
  and_intros <;> decide +kernel

theorem test_meets_draining_clauses :
    (let s := drainingOf { protecting with prot := { protecting.prot with rebuild := setField 0 26 26 2 } }
     s.draining = true ∧ s.inRegion (field s.prot.rebuild 26 26) = true ∧ (s.rebuildFrames 1)[0]? = some 2) ∧
    (let s : State := { drainingOf protecting with mgmt := { protecting.mgmt with keys := [(0, 5)] } }
     let r : RemoteReq := { request .store 0x20040 with mask := 1, data := 7, prot := true, key := 0 }
     let q := s.idle.freeFlits r.src 1 (1 + requestFlits r.kind)
     s.draining = true ∧ s.prot.unacked.length < (q.answer r).2.prot.unacked.length) ∧
    (let r := request .rebuild 0x40
     r.line < 2 ^ 40 ∧ r.kind = .rebuild) ∧
    (let s : State := { rdy with prot := { rdy.prot with lateAcks := [(1, 2, 5)] } }
     (1, 2, 5) ∈ s.prot.lateAcks) ∧
    (let l : Link := { Link.fresh 31 1 3 with failed := true }
     let m : Link := { Link.fresh 31 1 3 with rate := 0 }
     let n : Link := { Link.fresh 31 1 3 with resync := true }
     (linked l).fab.link 31 1 = some l ∧ l.failed = true ∧ (linked m).fab.link 31 1 = some m ∧ m.rate = 0 ∧ m.pause = none ∧
       (linked n).fab.link 31 1 = some n ∧ n.resync = true) ∧
    (vacates 1).vacateState = 1 ∧ rdy.vacateState ≠ 1 := by
  and_intros <;> decide +kernel

end Sys2Proof.Tests
end

section
/-! PROOFS. Power-on, loss of power, the host port, keys, attestation and vacating (R5, R37, R422 to R429): fields of a word, what the
self-test leaves, what the management events do, what errors found in memory leave as it was, and the parts of a vacate. -/

namespace Sys2Proof.Machine

/-! ## Fields of a word -/

/-- Bit j of a number that is cut to len bits and moved up to bit lo. -/
theorem getLsbD_ofNat_mul_two_pow (lo len v j : Nat) (hj : j < 64) :
    (BitVec.ofNat 64 (v % 2 ^ len * 2 ^ lo)).getLsbD j = (decide (lo ≤ j ∧ j < lo + len) && v.testBit (j - lo)) := by
  rw [BitVec.getLsbD_ofNat, Nat.testBit_mul_two_pow, Nat.testBit_mod_two_pow]
  by_cases hlo : lo ≤ j
  · simp [hj, hlo, show j - lo < len ↔ j < lo + len by omega]
  · simp [hlo]

/-- Bit j of a word after a field is written. -/
theorem getLsbD_setField (w : Word) (lo len v j : Nat) (hj : j < 64) :
    (setField w lo len v).getLsbD j = if lo ≤ j ∧ j < lo + len then v.testBit (j - lo) else w.getLsbD j := by
  have hones : (ones lo len).getLsbD j = decide (lo ≤ j ∧ j < lo + len) := by
    have h := getLsbD_ofNat_mul_two_pow lo len (2 ^ len - 1) j hj
    rw [Nat.mod_eq_of_lt (Nat.sub_lt (Nat.two_pow_pos len) Nat.one_pos), Nat.testBit_two_pow_sub_one] at h
    rw [ones, h, ← Bool.decide_and]
    exact decide_eq_decide.2 (by omega)
  rw [setField, BitVec.getLsbD_or, BitVec.getLsbD_and, BitVec.getLsbD_not, hones, getLsbD_ofNat_mul_two_pow lo len v j hj]
  by_cases h : lo ≤ j ∧ j < lo + len <;> simp [h, hj]

theorem testBit_field (w : Word) (lo len i : Nat) : (field w lo len).testBit i = (decide (i < len) && w.getLsbD (lo + i)) := by
  rw [field, Nat.testBit_mod_two_pow, Nat.testBit_div_two_pow, Nat.add_comm i lo]
  rfl

/-- A field that lies within the field written. -/
theorem field_setField_within (w : Word) (lo len lo' len' v : Nat) (h : lo + len ≤ 64) (hlo : lo ≤ lo') (hhi : lo' + len' ≤ lo + len) :
    field (setField w lo len v) lo' len' = v / 2 ^ (lo' - lo) % 2 ^ len' := by
  refine Nat.eq_of_testBit_eq fun i => ?_
  rw [testBit_field, Nat.testBit_mod_two_pow, Nat.testBit_div_two_pow]
  by_cases hi : i < len'
  · rw [getLsbD_setField _ _ _ _ _ (by omega), if_pos (by omega), show lo' + i - lo = i + (lo' - lo) by omega]
  · simp [hi]

/-- A field that was written reads back. -/
@[simp] theorem field_setField_same (w : Word) (lo len v : Nat) (h : lo + len ≤ 64) :
    field (setField w lo len v) lo len = v % 2 ^ len := by
  simp [field_setField_within w lo len lo len v h]

/-- Writing one field leaves a field that does not meet it. -/
@[simp] theorem field_setField_disjoint (w : Word) (lo len lo' len' v : Nat) (h : lo + len ≤ lo' ∨ lo' + len' ≤ lo) :
    field (setField w lo' len' v) lo len = field w lo len := by
  refine Nat.eq_of_testBit_eq fun i => ?_
  rw [testBit_field, testBit_field]
  by_cases hi : i < len
  · by_cases hj : lo + i < 64
    · rw [getLsbD_setField _ _ _ _ _ hj, if_neg (by omega)]
    · rw [BitVec.getLsbD_of_ge _ _ (by omega), BitVec.getLsbD_of_ge _ _ (by omega)]
  · simp [hi]

theorem field_or (u v : Word) (lo len : Nat) : field (u ||| v) lo len = field u lo len ||| field v lo len := by
  refine Nat.eq_of_testBit_eq fun i => ?_
  simp only [Nat.testBit_or, testBit_field, BitVec.getLsbD_or]
  cases decide (i < len) <;> rfl

@[simp] theorem field_zero (lo len : Nat) : field (0#64) lo len = 0 := by
  simp [field]

theorem field_lt (w : Word) (lo len : Nat) : field w lo len < 2 ^ len := Nat.mod_lt _ (Nat.two_pow_pos len)

/-- A flag is a bit of a field that holds it. -/
theorem flag_eq_testBit_field (w : Word) {lo len i : Nat} (h : i < len) : flag w (lo + i) = (field w lo len).testBit i := by
  rw [testBit_field, flag]
  simp [h]

@[simp] theorem flag_setFlag_same (w : Word) (lo : Nat) (b : Bool) (h : lo < 64) : flag (setFlag w lo b) lo = b := by
  rw [flag, setFlag, getLsbD_setField _ _ _ _ _ h]
  cases b <;> simp

@[simp] theorem flag_setFlag_ne (w : Word) (lo lo' : Nat) (b : Bool) (h : lo < 64) (hne : lo ≠ lo') :
    flag (setFlag w lo' b) lo = flag w lo := by
  rw [flag, setFlag, getLsbD_setField _ _ _ _ _ h, if_neg (by omega), flag]

/-! ## Tables -/

theorem look_put {κ α : Type} [DecidableEq κ] (d v : α) (k k' : κ) (l : List (κ × α)) :
    look d k' (put k v l) = if k' = k then v else look d k' l := by
  induction l with
  | nil => grind [look, put]
  | cons e l ih =>
    obtain ⟨k₁, v₁⟩ := e
    by_cases h : k₁ = k
    · grind [look, put]
    · rw [put, if_neg h, look, ih]
      grind [look]

/-- What a core is after one core was changed. -/
theorem State.coreAt_modCore (s : State) (g g' : Nat) (f : Core → Core) :
    (s.modCore g f).coreAt g' = if g' = g then f (s.coreAt g) else s.coreAt g' := by
  unfold State.modCore State.setCore
  split
  case isTrue hg =>
    subst hg
    change (if g' = s.gcore then f (s.coreAt s.gcore) else look Core.reset g' s.cores) = _
    by_cases h : g' = s.gcore <;> simp [h, State.coreAt]
  case isFalse hg =>
    change (if g' = s.gcore then s.core else look Core.reset g' (put g (f (s.coreAt g)) s.cores)) = _
    rw [look_put]
    by_cases h : g' = s.gcore
    · simp [h, State.coreAt, Ne.symm hg]
    · simp [h, State.coreAt]

/-! ## The outcome of a self-test (R422) -/

/-- Nothing fails exactly when each of the five steps passes. -/
theorem testFailure_eq_none {r : SelfTest} : testFailure r = none ↔
    r.image = none ∧ r.bank = none ∧ (∀ x ∈ coresTested r, coreGood x = true) ∧ r.line = none ∧ r.plane = none := by
  simp [testFailure]

/-- With no failure, the lines and the planes pass too. -/
theorem lines_passed {r : SelfTest} (h : testFailure r = none) : r.line = none ∧ r.plane = none := by
  obtain ⟨-, -, -, hline, hplane⟩ := testFailure_eq_none.1 h
  exact ⟨hline, hplane⟩

/-- The step that fails is one of the five. -/
theorem testFailure_step_lt {r : SelfTest} {k : Nat} {y : BitVec 16} (h : testFailure r = some (k, y)) : k < 2 ^ 8 := by
  simp only [testFailure, Option.or_eq_some_iff, Option.map_eq_some_iff, Prod.mk.injEq] at h
  grind

theorem testFailure_of_image {r : SelfTest} {y : BitVec 16} (h : r.image = some y) : testFailure r = some (1, y) := by
  simp [testFailure, h]

theorem testFailure_of_bank {r : SelfTest} {y : BitVec 16} (hi : r.image = none) (hb : r.bank = some y) :
    testFailure r = some (2, y) := by
  simp [testFailure, hi, hb]

/-- Cores are tested only when the first two steps pass. -/
theorem steps_passed_of_tested {r : SelfTest} {x : CoreTest} (hx : x ∈ coresTested r) : r.image = none ∧ r.bank = none := by
  unfold coresTested at hx
  split at hx
  case isTrue => simp at hx
  case isFalse h => simpa using h

/-- A core that is not usable is a failure of step 3. -/
theorem testFailure_of_core {r : SelfTest} {x : CoreTest} (hx : x ∈ coresTested r) (hbad : coreGood x = false) :
    ∃ c, testFailure r = some (3, c) := by
  obtain ⟨hi, hb⟩ := steps_passed_of_tested hx
  obtain ⟨b, hfind⟩ := Option.isSome_iff_exists.1 (List.find?_isSome (p := fun t => !coreGood t).2 ⟨x, hx, by simp [hbad]⟩)
  exact ⟨BitVec.ofNat 16 b.core, by simp [testFailure, hi, hb, hfind]⟩

/-- A self-test that passes keeps every core that it tests. -/
theorem coresKept_of_passed {r : SelfTest} (h : testFailure r = none) : coresKept r = coresTested r := by
  obtain ⟨-, -, hgood, -, -⟩ := testFailure_eq_none.1 h
  exact List.takeWhile_eq_self_iff.2 hgood

theorem oncePerCore_pairwise (l : List CoreTest) : (oncePerCore l).Pairwise fun a b => a.core ≠ b.core := by
  induction l with
  | nil => exact List.Pairwise.nil
  | cons x l ih =>
    refine List.Pairwise.cons (fun b hb => ?_) (ih.filter _)
    have hne := (List.mem_filter.1 hb).2
    exact fun he => by simp [he] at hne

theorem coresTested_pairwise (r : SelfTest) : (coresTested r).Pairwise fun a b => a.core ≠ b.core := by
  unfold coresTested
  split
  · exact List.Pairwise.nil
  · exact (oncePerCore_pairwise _).filter _

/-! ## BOOTSTAT after a self-test (R423) -/

theorem bootstatOf_passed {r : SelfTest} (h : testFailure r = none) : field (bootstatOf r) 62 2 = 2 := by
  simp [bootstatOf, h, fieldsWord]

theorem bootstatOf_failed {r : SelfTest} {k : Nat} {y : BitVec 16} (h : testFailure r = some (k, y)) :
    field (bootstatOf r) 62 2 = 1 ∧ field (bootstatOf r) 40 8 = k ∧ field (bootstatOf r) 0 16 = y.toNat := by
  have hk : k < 256 := testFailure_step_lt h
  simp [bootstatOf, h, fieldsWord, Nat.mod_eq_of_lt hk, Nat.mod_eq_of_lt y.isLt]

/-! ## The map of a core (R360, assumption 3) -/

/-- The map from the lowest instances on. -/
def lowestMap (t : CoreTest) : Word :=
  let lg := fun i => (passed 5 t.lgs.toNat).getD i 7
  let alu := fun i => (passed 3 t.alus.toNat).getD i ((passed 3 t.alus.toNat).getD 0 0)
  coreOkBits t ||| fieldsWord [(45, 3, lg 3), (42, 3, lg 2), (39, 3, lg 1), (36, 3, lg 0), (26, 2, alu 0), (24, 2, alu 1)]

/-- The map given where it is DEAD or legal, else the lowest. -/
theorem coreBound_cases (t : CoreTest) :
    (flag (coreBound t) 0 = true ∨ slotmapLegal (coreBound t) = true) ∨ coreBound t = lowestMap t := by
  unfold coreBound
  dsimp only
  split
  case isTrue h => exact .inl (by simpa using h)
  case isFalse => exact .inr rfl

theorem passed_lg_lt (n k : Nat) : (passed 5 n).getD k 7 < 8 := by
  rw [List.getD_eq_getElem?_getD]
  cases hk : (passed 5 n)[k]? with
  | none => decide
  | some x =>
    have hx := List.mem_range.1 (List.mem_filter.1 (List.mem_of_getElem? hk)).1
    exact Nat.lt_trans hx (by decide)

section
variable (t : CoreTest)

theorem lowestMap_lgsOk : field (lowestMap t) 31 5 = t.lgs.toNat := by
  simp [lowestMap, coreOkBits, fieldsWord, field_or, Nat.mod_eq_of_lt t.lgs.isLt]

theorem lowestMap_alusOk : field (lowestMap t) 28 3 = t.alus.toNat := by
  simp [lowestMap, coreOkBits, fieldsWord, field_or, Nat.mod_eq_of_lt t.alus.isLt]

theorem lowestMap_busOk : field (lowestMap t) 22 2 = t.bus.toNat := by
  simp [lowestMap, coreOkBits, fieldsWord, field_or, Nat.mod_eq_of_lt t.bus.isLt]

theorem lowestMap_lg {k : Nat} (hk : k < 4) : field (lowestMap t) (36 + 3 * k) 3 = (passed 5 t.lgs.toNat).getD k 7 := by
  have hlt : (passed 5 t.lgs.toNat).getD k 7 % 8 = (passed 5 t.lgs.toNat).getD k 7 := Nat.mod_eq_of_lt (passed_lg_lt _ k)
  interval_cases k <;>
    simpa [lowestMap, coreOkBits, fieldsWord, field_or, -List.getD_eq_getElem?_getD] using hlt

theorem lowestMap_alu {k : Nat} (hk : k < 2) :
    field (lowestMap t) (26 - 2 * k) 2 = (passed 3 t.alus.toNat).getD k ((passed 3 t.alus.toNat).getD 0 0) % 4 := by
  interval_cases k <;> simp [lowestMap, coreOkBits, fieldsWord, field_or, -List.getD_eq_getElem?_getD]

end

/-- The lane groups of a map are legal: from LG0 on different ones that pass, then none. -/
def lgLegal (lg : List Nat) (ok : Nat → Bool) : Bool :=
  let run := lg.takeWhile (· != 7)
  let rest := lg.dropWhile (· != 7)
  !run.isEmpty && run.Nodup && rest.all (· == 7) && run.all fun x => x < 5 && ok x

/-- A map is legal in its lane groups, its two ALUs and its branch units. -/
theorem slotmapLegal_eq (v : Word) : slotmapLegal v =
    (lgLegal ((List.range 4).map fun k => field v (36 + 3 * k) 3) (fun x => flag v (31 + x)) &&
      (decide (field v 26 2 < 3) && flag v (28 + field v 26 2)) && (decide (field v 24 2 < 3) && flag v (28 + field v 24 2)) &&
      field v 22 2 != 0) := rfl

theorem lgLegal_congr {lg : List Nat} {ok ok' : Nat → Bool} (h : ∀ x < 5, ok x = ok' x) : lgLegal lg ok = lgLegal lg ok' := by
  have hall : (fun x => decide (x < 5) && ok x) = fun x => decide (x < 5) && ok' x := by
    funext x
    by_cases hx : x < 5
    · rw [h x hx]
    · simp [hx]
  rw [lgLegal, lgLegal, hall]

/-- The lane groups that pass, from the lowest on, are legal: each of the 31 sets is looked at. -/
theorem passed_lgLegal : ∀ n < 32, n ≠ 0 → lgLegal ((List.range 4).map fun k => (passed 5 n).getD k 7) n.testBit = true := by
  decide

/-- An ALU that passes, or the lowest one in its place: each of the 7 sets is looked at. -/
theorem passed_alu_legal : ∀ n < 8, n ≠ 0 → ∀ k < 2,
    (passed 3 n).getD k ((passed 3 n).getD 0 0) % 4 < 3 ∧ n.testBit ((passed 3 n).getD k ((passed 3 n).getD 0 0) % 4) = true := by
  decide

/-- An ALU that passes by the OK bits of a map passes the map's check. -/
theorem alu_checked {v : Word} {n x : Nat} (hn : field v 28 3 = n) (h : x < 3 ∧ n.testBit x = true) :
    (decide (x < 3) && flag v (28 + x)) = true := by
  obtain ⟨hlt, hok⟩ := h
  simp [flag_eq_testBit_field v hlt, hn, hok, hlt]

theorem lowestMap_legal {t : CoreTest} (h : coreGood t = true) : slotmapLegal (lowestMap t) = true := by
  simp only [coreGood, Bool.and_eq_true, bne_iff_ne] at h
  obtain ⟨⟨⟨hl, ha⟩, hb⟩, -⟩ := h
  have hl : t.lgs.toNat ≠ 0 := fun e => hl (BitVec.eq_of_toNat_eq e)
  have ha : t.alus.toNat ≠ 0 := fun e => ha (BitVec.eq_of_toNat_eq e)
  have hb : t.bus.toNat ≠ 0 := fun e => hb (BitVec.eq_of_toNat_eq e)
  have hlg : lgLegal ((List.range 4).map fun k => field (lowestMap t) (36 + 3 * k) 3) (fun x => flag (lowestMap t) (31 + x)) = true := by
    rw [List.map_congr_left fun k hk => lowestMap_lg t (List.mem_range.1 hk),
      lgLegal_congr fun x hx => (flag_eq_testBit_field (lowestMap t) hx).trans (congrArg (Nat.testBit · x) (lowestMap_lgsOk t))]
    exact passed_lgLegal _ t.lgs.isLt hl
  have halu := fun k hk => alu_checked (lowestMap_alusOk t) (passed_alu_legal _ t.alus.isLt ha k hk)
  have halu1 : field (lowestMap t) 26 2 = _ := lowestMap_alu t (k := 0) (by decide)
  have halu2 : field (lowestMap t) 24 2 = _ := lowestMap_alu t (k := 1) (by decide)
  rw [slotmapLegal_eq, hlg, halu1, halu2, halu 0 (by decide), halu 1 (by decide), lowestMap_busOk]
  simp [hb]

/-- A usable core is left with a legal map, or is DEAD. -/
theorem coreBound_legal {t : CoreTest} (h : coreGood t = true) :
    flag (coreBound t) 0 = true ∨ slotmapLegal (coreBound t) = true := by
  rcases coreBound_cases t with hgiven | hlowest
  · exact hgiven
  · exact .inr (hlowest ▸ lowestMap_legal h)

/-! ## The state after a self-test -/

/-- Binding maps changes cores alone. -/
theorem State.bindMaps_eq (l : List CoreTest) (s : State) :
    ∃ x cs, l.foldl State.bindMap s = { s with core := x, cores := cs } := by
  induction l generalizing s with
  | nil => exact ⟨_, _, rfl⟩
  | cons t l ih =>
    have hone : ∃ x cs, s.bindMap t = { s with core := x, cores := cs } := by
      unfold State.bindMap State.modCore State.setCore
      split <;> exact ⟨_, _, rfl⟩
    obtain ⟨x, cs, hx⟩ := hone
    obtain ⟨x', cs', hx'⟩ := ih (s.bindMap t)
    exact ⟨x', cs', by rw [List.foldl_cons, hx', hx]⟩

/-- A core that no test names stays as it is. -/
theorem State.coreAt_bindMaps_of_not_mem {l : List CoreTest} {g : Nat} (s : State) (h : ∀ t ∈ l, t.core ≠ g) :
    (l.foldl State.bindMap s).coreAt g = s.coreAt g := by
  induction l generalizing s with
  | nil => rfl
  | cons t l ih =>
    rw [List.foldl_cons, ih _ fun u hu => h u (List.mem_cons_of_mem t hu), State.bindMap, State.coreAt_modCore,
      if_neg (Ne.symm (h t List.mem_cons_self))]

/-- Each core tested has the map bound for it, where no two tests are of one core. -/
theorem State.slotmap_bindMaps {l : List CoreTest} {x : CoreTest} (s : State) (hl : l.Pairwise fun a b => a.core ≠ b.core) (hx : x ∈ l) :
    ((l.foldl State.bindMap s).coreAt x.core).slotmap = coreBound x := by
  induction l generalizing s with
  | nil => simp at hx
  | cons t l ih =>
    obtain ⟨ht, hl⟩ := List.pairwise_cons.1 hl
    rw [List.foldl_cons]
    rcases List.mem_cons.1 hx with rfl | hx
    · rw [State.coreAt_bindMaps_of_not_mem _ fun u hu => (ht u hu).symm, State.bindMap, State.coreAt_modCore, if_pos rfl]
    · exact ih _ hl hx

/-- The self-test that passes leaves the state as reset does but for the cores, BOOTSTAT, the boot key and what outlives the power. -/
theorem State.selfTest_passed (s : State) {r : SelfTest} (h : testFailure r = none) : ∃ x cs w,
    s.selfTest r = { s.cleared with core := x, cores := cs, mgmt := { s.cleared.mgmt with
      bootstat := bootstatOf r, powerOns := s.mgmt.powerOns + 1, keys := [(0, Config.bootKey s.mgmt.powerOns)], health := w } } := by
  unfold State.selfTest
  simp only [h, Option.isNone_none, if_true]
  obtain ⟨x, cs, hx⟩ := State.bindMaps_eq (coresKept r) { s.cleared with mgmt := { s.cleared.mgmt with
    bootstat := bootstatOf r, powerOns := s.mgmt.powerOns + 1, keys := [(0, Config.bootKey s.mgmt.powerOns)] } }
  exact ⟨x, cs, _, congrArg State.writeHealth hx⟩

/-- The self-test that fails changes cores, BOOTSTAT, the count of power-ons and the health word. -/
theorem State.selfTest_failed (s : State) {r : SelfTest} {f : Nat × BitVec 16} (h : testFailure r = some f) : ∃ x cs w,
    s.selfTest r = { s with core := x, cores := cs, mgmt := { s.mgmt with
      bootstat := bootstatOf r, powerOns := s.mgmt.powerOns + 1, health := w } } := by
  unfold State.selfTest
  simp only [h, Option.isNone_some, Bool.false_eq_true, if_false]
  obtain ⟨x, cs, hx⟩ := State.bindMaps_eq (coresKept r) { s with mgmt := { s.mgmt with
    bootstat := bootstatOf r, powerOns := s.mgmt.powerOns + 1 } }
  exact ⟨x, cs, _, congrArg State.writeHealth hx⟩

/-- Every core that the passing self-test tests has its map. -/
theorem State.slotmap_selfTest (s : State) {r : SelfTest} {x : CoreTest} (h : testFailure r = none) (hx : x ∈ coresTested r) :
    ((s.selfTest r).coreAt x.core).slotmap = coreBound x := by
  unfold State.selfTest
  rw [coresKept_of_passed h]
  exact State.slotmap_bindMaps _ (coresTested_pairwise r) hx

/-! ## Power-on, loss of power, RETEST -/

theorem exec_powerOn (r : SelfTest) (s : State) : exec (.powerOn r) s = .next (s.idle.cleared.selfTest r) := rfl

theorem exec_powerLoss (s : State) : exec .powerLoss s =
    .next { s.idle.cleared with pwr := { s.pwr with pwrstat := setField s.pwr.pwrstat 44 3 6 } } := rfl

theorem exec_selftestRetest (r : SelfTest) (s : State) : exec (.selftestRetest r) s =
    .next (if field s.mgmt.bootstat 62 2 = 1 then s.idle.selfTest r else s.idle) := rfl

/-- A power-on whose self-test passes (R422, R423). -/
theorem powerOn_passed (s : State) (r : SelfTest) (h : testFailure r = none) :
    ∃ t, exec (.powerOn r) s = .next t ∧ field t.mgmt.bootstat 62 2 = 2 ∧ t.mem = State.reset.mem ∧
      t.cx = State.reset.cx ∧ t.regs = State.reset.regs ∧ t.fab = State.reset.fab ∧ t.mgmt.powerOns = s.mgmt.powerOns + 1 ∧
      t.key 0 = some (Config.bootKey s.mgmt.powerOns) ∧
      (∀ x ∈ coresTested r, coreGood x = true ∧ (t.coreAt x.core).slotmap = coreBound x ∧
        (flag (coreBound x) 0 = true ∨ slotmapLegal (coreBound x) = true)) := by
  obtain ⟨-, -, hgood, -, -⟩ := testFailure_eq_none.1 h
  have hcores := fun x hx => (s.idle.cleared).slotmap_selfTest (x := x) h hx
  obtain ⟨x, cs, w, ht⟩ := (s.idle.cleared).selfTest_passed h
  refine ⟨_, exec_powerOn r s, ?_, ?_, ?_, ?_, ?_, ?_, ?_, fun x hx => ⟨hgood x hx, hcores x hx, coreBound_legal (hgood x hx)⟩⟩ <;>
    rw [ht]
  case refine_1 => exact bootstatOf_passed h
  all_goals rfl

/-- A power-on whose self-test fails stays in HOLD with the step and its unit (R422, R423). -/
theorem powerOn_failed (s : State) (r : SelfTest) (k : Nat) (y : BitVec 16) (h : testFailure r = some (k, y)) :
    ∃ t, exec (.powerOn r) s = .next t ∧ field t.mgmt.bootstat 62 2 = 1 ∧
      field t.mgmt.bootstat 40 8 = k ∧ field t.mgmt.bootstat 0 16 = y.toNat := by
  obtain ⟨x, cs, w, ht⟩ := (s.idle.cleared).selfTest_failed h
  refine ⟨_, exec_powerOn r s, ?_⟩
  rw [ht]
  exact bootstatOf_failed h

/-- Loss of power (R37, R396, R397). -/
theorem powerLoss_clears (s : State) : ∃ t, exec .powerLoss s = .next t ∧ t.powerState = 3 ∧ t.mem = State.reset.mem ∧ t.key 0 = none ∧
    t.mgmt.signatures = s.mgmt.signatures ∧ t.pwr.pwrctl = s.pwr.pwrctl ∧ t.pwr.thermctl = s.pwr.thermctl := by
  refine ⟨_, exec_powerLoss s, ?_, rfl, rfl, rfl, rfl, rfl⟩
  exact field_setField_within s.pwr.pwrstat 44 3 45 2 6 (by decide) (by decide) (by decide)

theorem retest_passed (s : State) (r : SelfTest) (hold : field s.mgmt.bootstat 62 2 = 1) (h : testFailure r = none) :
    ∃ t, exec (.selftestRetest r) s = .next t ∧ field t.mgmt.bootstat 62 2 = 2 ∧ t.mem = State.reset.mem ∧ t.regs = State.reset.regs := by
  obtain ⟨x, cs, w, ht⟩ := s.idle.selfTest_passed h
  refine ⟨s.idle.selfTest r, by rw [exec_selftestRetest, if_pos hold], ?_⟩
  rw [ht]
  exact ⟨bootstatOf_passed h, rfl, rfl⟩

theorem retest_failed (s : State) (r : SelfTest) (k : Nat) (y : BitVec 16) (hold : field s.mgmt.bootstat 62 2 = 1)
    (h : testFailure r = some (k, y)) : ∃ t, exec (.selftestRetest r) s = .next t ∧
      field t.mgmt.bootstat 62 2 = 1 ∧ field t.mgmt.bootstat 40 8 = k ∧ t.mem = s.mem := by
  obtain ⟨x, cs, w, ht⟩ := s.idle.selfTest_failed h
  obtain ⟨hstate, hstep, -⟩ := bootstatOf_failed h
  refine ⟨s.idle.selfTest r, by rw [exec_selftestRetest, if_pos hold], ?_⟩
  rw [ht]
  exact ⟨hstate, hstep, rfl⟩

theorem retest_ignored (s : State) (r : SelfTest) (h : field s.mgmt.bootstat 62 2 ≠ 1) :
    exec (.selftestRetest r) s = .next s.idle := by
  rw [exec_selftestRetest, if_neg h]

/-! ## The host port, the FRU and DEVNUM (R423 to R425) -/

theorem exec_pcieLinkTraining (g : Fin 8) (s : State) : exec (.pcieLinkTraining g) s =
    .next { s.idle with mgmt := { s.mgmt with pcieGen := if g.val < 5 then 0 else g.val } } := rfl

theorem exec_fruRead (a n : Nat) (s : State) : exec (.fruRead a n) s =
    .next (if a + n ≤ 8192 then s.idle.send (.busData ((List.range n).map fun i => s.fruAt (a + i))) else s.idle) := rfl

theorem exec_devnumWrite (v : BitVec 64) (s : State) : exec (.devnumWrite v) s = .next (s.idle.writeDevnum (field v 0 6)) := rfl

theorem exec_registerWrite (a n : Nat) (v : BitVec 64) (s : State) : exec (.registerWrite a n v) s =
    .next (if sysBase ≤ a ∧ a < 2 ^ 42 ∧ a % 8 + n ≤ 8 then
      s.idle.regWriteLine none true (lineOf a) (byteMask (a % 64) n) (lineAt (a % 64) (v.toNat % 2 ^ (8 * n))) else s.idle) := rfl

/-- What the host port does with an access that is in range. -/
def State.hostServe (s : State) (h : HostAccess) : State :=
  let base := if h.bar2 then 0 else sysBase
  let ps := lineParts (base + h.off) h.size
  if h.write then s.hostWrite (base + h.off) h.data ps
  else (s.hostRead (base + h.off) ps).2.send (.hostData (s.hostRead (base + h.off) ps).1)

theorem exec_hostBarAccess (h : HostAccess) (s : State) : exec (.hostBarAccess h) s =
    .next (if s.powerState = 3 ∧ h.bar2 then s.idle
      else if h.size ≤ 64 ∧ h.off + h.size ≤ (if h.bar2 then 2 ^ 40 else 2 ^ 36) then s.idle.hostServe h else s.idle) := rfl

theorem fruRead_inside (s : State) {a n : Nat} (h : a + n ≤ 8192) :
    exec (.fruRead a n) s = .next (s.idle.send (.busData ((List.range n).map fun i => s.fruAt (a + i)))) := by
  rw [exec_fruRead, if_pos h]

theorem fruRead_outside (s : State) {a n : Nat} (h : 8192 < a + n) : exec (.fruRead a n) s = .next s.idle := by
  rw [exec_fruRead, if_neg (by omega)]

theorem registerWrite_inside (s : State) {a n : Nat} {v : BitVec 64} (hlo : sysBase ≤ a) (hhi : a < 2 ^ 42) (hn : a % 8 + n ≤ 8) :
    exec (.registerWrite a n v) s = .next
      (s.idle.regWriteLine none true (lineOf a) (byteMask (a % 64) n) (lineAt (a % 64) (v.toNat % 2 ^ (8 * n)))) := by
  rw [exec_registerWrite, if_pos ⟨hlo, hhi, hn⟩]

theorem registerWrite_outside (s : State) {a n : Nat} {v : BitVec 64} (h : a < sysBase ∨ 2 ^ 42 ≤ a ∨ 8 < a % 8 + n) :
    exec (.registerWrite a n v) s = .next s.idle := by
  rw [exec_registerWrite, if_neg (by omega)]

/-- The fields of the STRIPEMAP of a device number (R128). -/
theorem stripeFor_self (d : Nat) : field (stripeFor d) 48 3 = d % 8 := by
  simp [stripeFor, fieldsWord, List.range_succ]

theorem stripeFor_member (d m : Nat) (hd : d < 64) (hm : m < 8) : field (stripeFor d) (6 * m) 6 = d / 8 * 8 + m := by
  have hlt : d / 8 * 8 + m < 64 := by omega
  interval_cases m <;> simp [stripeFor, fieldsWord, List.range_succ] <;> omega

/-- What a write of DEVNUM sets while the fabric is off. -/
theorem State.writeDevnum_dark (s : State) (d : Nat) (h : flag s.fab.fabctl 0 = false) : s.writeDevnum d =
    { s with mgmt := { s.mgmt with devnum := BitVec.ofNat 6 d },
             prot := { s.prot with stripemap := if s.prot.stripeWritten then s.prot.stripemap else stripeFor (d % 64) } } := by
  rw [State.writeDevnum, if_neg (by simp [h])]
  dsimp only
  by_cases hw : s.prot.stripeWritten = true
  · rw [if_pos hw, if_pos hw]
  · rw [if_neg hw, if_neg hw]

/-- A write of DEVNUM while the fabric is off (R423). -/
theorem devnumWrite_dark (s : State) (v : BitVec 64) (h : flag s.fab.fabctl 0 = false) :
    ∃ t, exec (.devnumWrite v) s = .next t ∧ t.device = field v 0 6 ∧ t.mem = s.mem ∧
      (s.prot.stripeWritten = false → t.selfMember = field v 0 6 % 8 ∧ ∀ m < 8, t.member m = field v 0 6 / 8 * 8 + m) ∧
      (s.prot.stripeWritten = true → t.prot.stripemap = s.prot.stripemap) := by
  have hd : field v 0 6 < 2 ^ 6 := field_lt v 0 6
  have hmod : field v 0 6 % 64 = field v 0 6 := Nat.mod_eq_of_lt hd
  refine ⟨_, (exec_devnumWrite v s).trans (congrArg _ (s.idle.writeDevnum_dark _ h)), Nat.mod_eq_of_lt hd, rfl, fun hw => ?_, fun hw => ?_⟩
  · simp only [State.selfMember, State.member, State.idle, hw, Bool.false_eq_true, if_false, hmod]
    exact ⟨stripeFor_self _, fun m hm => stripeFor_member _ m hd hm⟩
  · simp only [State.idle, hw, if_true]

theorem devnumWrite_lit (s : State) (v : BitVec 64) (h : flag s.fab.fabctl 0 = true) : exec (.devnumWrite v) s = .next s.idle := by
  have hon : flag s.idle.fab.fabctl 0 = true := h
  rw [exec_devnumWrite, State.writeDevnum, if_pos hon]

/-- A host access in range, where HBM is there for BAR2 (R396, R424). -/
theorem hostBarAccess_served (s : State) (h : HostAccess)
    (hfits : (s.powerState ≠ 3 ∨ h.bar2 = false) ∧ h.size ≤ 64 ∧ h.off + h.size ≤ (if h.bar2 then 2 ^ 40 else 2 ^ 36)) :
    exec (.hostBarAccess h) s = .next (s.idle.hostServe h) := by
  obtain ⟨hup, hrange⟩ := hfits
  rw [exec_hostBarAccess, if_neg (by rintro ⟨h3, hb⟩; simp [h3, hb] at hup), if_pos hrange]

theorem hostBarAccess_ignored (s : State) (h : HostAccess)
    (hfits : ¬ ((s.powerState ≠ 3 ∨ h.bar2 = false) ∧ h.size ≤ 64 ∧ h.off + h.size ≤ (if h.bar2 then 2 ^ 40 else 2 ^ 36))) :
    exec (.hostBarAccess h) s = .next s.idle := by
  rw [exec_hostBarAccess]
  split
  case isTrue => rfl
  case isFalse hup => rw [if_neg fun hrange => hfits ⟨by grind, hrange⟩]

/-! ## Key slots (R429) -/

theorem exec_keyLoad (s : State) : exec .keyLoad s = .next s.idle.keyLoad := rfl
theorem exec_keyErase (s : State) : exec .keyErase s = .next s.idle.keyErase := rfl

/-- What the slots hold after slot k is cleared. -/
theorem find?_filter_ne {α : Type} (l : List (Nat × α)) (k j : Nat) :
    (l.filter (·.1 != k)).find? (·.1 == j) = if j = k then none else l.find? (·.1 == j) := by
  rw [List.find?_filter]
  split
  case isTrue h => exact List.find?_eq_none.2 fun e _ => by grind
  case isFalse h => exact congrArg (List.find? · l) (funext fun e => by grind)

theorem State.key_eq (s : State) (k : Nat) : s.key k = (s.mgmt.keys.find? (·.1 == k)).map (·.2) := by
  unfold State.key
  split <;> simp [*]

theorem State.key_keyLoad (s : State) (j : Nat) (h : field s.mgmt.keyctl 0 11 ≠ 0) :
    s.keyLoad.key j = if j = field s.mgmt.keyctl 0 11 then some s.mgmt.keybuf else s.key j := by
  rw [State.keyLoad, if_neg h, State.key_eq, State.key_eq]
  split
  case isTrue hj => rw [List.find?_cons_of_pos (by simp [hj]), Option.map_some]
  case isFalse hj => rw [List.find?_cons_of_neg (by simp [Ne.symm hj]), find?_filter_ne, if_neg hj]

theorem State.key_keyErase (s : State) (j : Nat) (h : field s.mgmt.keyctl 0 11 ≠ 0) :
    s.keyErase.key j = if j = field s.mgmt.keyctl 0 11 then none else s.key j := by
  rw [State.keyErase, if_neg h, State.key_eq, State.key_eq, find?_filter_ne]
  split <;> rfl

/-- LOAD installs KEYBUF in its slot and clears KEYBUF. -/
theorem keyLoad_slot (s : State) (hk : field s.mgmt.keyctl 0 11 ≠ 0) : ∃ t, exec .keyLoad s = .next t ∧
    t.key (field s.mgmt.keyctl 0 11) = some s.mgmt.keybuf ∧ t.mgmt.keybuf = 0 ∧ ∀ j, j ≠ field s.mgmt.keyctl 0 11 → t.key j = s.key j := by
  refine ⟨_, exec_keyLoad s, (s.idle.key_keyLoad _ hk).trans (if_pos rfl), ?_, fun j hj => (s.idle.key_keyLoad j hk).trans (if_neg hj)⟩
  rw [State.keyLoad, if_neg (show field s.idle.mgmt.keyctl 0 11 ≠ 0 from hk)]

/-- ERASE clears its slot. -/
theorem keyErase_slot (s : State) (hk : field s.mgmt.keyctl 0 11 ≠ 0) : ∃ t, exec .keyErase s = .next t ∧
    t.key (field s.mgmt.keyctl 0 11) = none ∧ ∀ j, j ≠ field s.mgmt.keyctl 0 11 → t.key j = s.key j :=
  ⟨_, exec_keyErase s, (s.idle.key_keyErase _ hk).trans (if_pos rfl), fun j hj => (s.idle.key_keyErase j hk).trans (if_neg hj)⟩

/-- Slot 0 stays. -/
theorem key_zero_stays (s : State) (hk : field s.mgmt.keyctl 0 11 = 0) :
    exec .keyLoad s = .next s.idle ∧ exec .keyErase s = .next s.idle := by
  have hk' : field s.idle.mgmt.keyctl 0 11 = 0 := hk
  rw [exec_keyLoad, exec_keyErase, State.keyLoad, State.keyErase, if_pos hk', if_pos hk']
  exact ⟨rfl, rfl⟩

/-! ## What finding errors in memory leaves as it was (R48 to R51) -/

/-- t is s but for memory and for what errors found in it count and raise: at the dies, in INTSTAT, at the service counter and as messages. -/
def State.SameButErrors (s t : State) : Prop :=
  ∃ cl d m i o a, t = { s with clusters := cl, dies := d, mem := m, mgmt := { s.mgmt with intstat := i }, outbox := o, agenda := a }

theorem State.SameButErrors.refl (s : State) : s.SameButErrors s := ⟨_, _, _, _, _, _, rfl⟩

theorem State.SameButErrors.trans {s t u : State} (h : s.SameButErrors t) (h' : t.SameButErrors u) : s.SameButErrors u := by
  obtain ⟨cl, d, m, i, o, a, rfl⟩ := h
  obtain ⟨cl', d', m', i', o', a', rfl⟩ := h'
  exact ⟨_, _, _, _, _, _, rfl⟩

theorem State.sameButErrors_mem (s : State) (m : Memory) : s.SameButErrors { s with mem := m } := ⟨_, _, _, _, _, _, rfl⟩

theorem State.sameButErrors_foldl {α : Type} (f : State → α → State) (hf : ∀ s x, State.SameButErrors s (f s x)) (l : List α) (s : State) :
    s.SameButErrors (l.foldl f s) := by
  induction l generalizing s with
  | nil => exact .refl s
  | cons x l ih => exact (hf s x).trans (ih (f s x))

theorem State.interrupt_sameButErrors (s : State) (k : Nat) : s.SameButErrors (s.interrupt k) := by
  have hraised : ∃ cl a, (if flag s.mgmt.intctl (32 + k) = true then
      ({ s with mgmt := { s.mgmt with intstat := setFlag s.mgmt.intstat k true } } : State).signal (field s.mgmt.intctl 16 6) 63
      else { s with mgmt := { s.mgmt with intstat := setFlag s.mgmt.intstat k true } }) =
      { s with mgmt := { s.mgmt with intstat := setFlag s.mgmt.intstat k true }, clusters := cl, agenda := a } := by
    split
    · exact State.signal_eq _ _ _
    · exact ⟨_, _, rfl⟩
  obtain ⟨cl, a, hraised⟩ := hraised
  unfold State.interrupt
  split
  case isTrue => exact .refl s
  case isFalse =>
    dsimp only
    rw [hraised]
    split <;> exact ⟨_, _, _, _, _, _, rfl⟩

theorem State.countCorrected_sameButErrors (s : State) (u : Nat) : s.SameButErrors (s.countCorrected u) := ⟨_, _, _, _, _, _, rfl⟩

theorem State.countUncorrectable_sameButErrors (s : State) (u : Nat) : s.SameButErrors (s.countUncorrectable u) := by
  unfold State.countUncorrectable
  dsimp only
  split
  · exact .trans ⟨_, _, _, _, _, _, rfl⟩ (State.interrupt_sameButErrors _ 2)
  · exact ⟨_, _, _, _, _, _, rfl⟩

theorem State.detect_sameButErrors (s : State) (u : Nat) : s.SameButErrors (s.detect u) := by
  unfold State.detect
  split
  · exact (s.sameButErrors_mem _).trans (State.countCorrected_sameButErrors _ u)
  · split
    · exact (s.sameButErrors_mem _).trans (State.countUncorrectable_sameButErrors _ u)
    · exact .refl s

theorem State.touch_sameButErrors (s : State) (line : Nat) (mask : BitVec 64) : s.SameButErrors (s.touch line mask) :=
  State.sameButErrors_foldl _ State.detect_sameButErrors _ s

/-- A read of memory without errors changes nothing. -/
theorem State.touch_clean {s : State} (hs : s.mem.soft = []) (hh : s.mem.hard = []) (line : Nat) (mask : BitVec 64) :
    s.touch line mask = s := by
  simp [State.touch, State.faulty, hs, hh]

/-- A write of memory that is not protected changes memory, and finds errors. -/
theorem State.perform_sameButErrors (s : State) (w : Writer) {line : Nat} (key : Nat) (mask : BitVec 64) (data : Line) (pois : BitVec 64)
    (hl : line < sysBase) : s.SameButErrors (s.perform w line key false mask data pois) := by
  rw [State.perform, if_neg (by omega)]
  exact ((s.sameButErrors_mem _).trans (State.touch_sameButErrors _ line mask)).trans (State.sameButErrors_mem _ _)

/-- Memory after such a write, where it holds no error. -/
theorem State.perform_mem_clean {s : State} (hs : s.mem.soft = []) (hh : s.mem.hard = []) (w : Writer) {line : Nat} (key : Nat)
    (mask : BitVec 64) (data : Line) (pois : BitVec 64) (hl : line < sysBase) :
    (s.perform w line key false mask data pois).mem =
      { s.mem.setStored line (storedMask line mask) (s.writtenLine key line mask data) with
        flips := s.mem.flips.filter fun e => !covered line mask e.1
        poison := markPoison line pois (clearedPoison line mask s.mem.poison) } := by
  rw [State.perform, if_neg (by omega)]
  simp only [Bool.false_and, Bool.false_eq_true, if_false]
  rw [State.touch_clean (by simp [hs]) (by simp [hh])]
  simp only [Memory.setStored, hs, hh, List.filter_nil]
  rfl

/-! ## A line of the device's own (assumption 80) -/

theorem lineParts_line {a : Nat} (h : a % 64 = 0) : lineParts a 64 = [(0, 64)] := by
  rw [lineParts, h]
  decide

/-- A whole line of bytes is one write, unless the protected region refuses it. -/
theorem State.putBytes_line (s : State) {a : Nat} {bs : List Byte} (ha : a % 64 = 0) (hb : bs.length = 64) :
    s.putBytes a bs = if (s.protRow a false).isSome then s
      else s.perform (s.writer false) (lineOf a) 0 false (byteMask 0 64) (lineAt 0 (ofBytes bs)) 0 := by
  rw [State.putBytes, hb, lineParts_line ha]
  simp [ha, List.take_of_length_le (le_of_eq hb)]

theorem lineOf_lt_sysBase {a : Nat} (h : a < 2 ^ 40) : lineOf a < sysBase := by
  unfold lineOf sysBase
  omega

theorem State.putBytes_line_sameButErrors (s : State) {a : Nat} {bs : List Byte} (ha : a % 64 = 0) (hb : bs.length = 64) (hlt : a < 2 ^ 40) :
    s.SameButErrors (s.putBytes a bs) := by
  rw [s.putBytes_line ha hb]
  split
  · exact .refl s
  · exact s.perform_sameButErrors _ 0 _ _ _ (lineOf_lt_sysBase hlt)

/-! ## Attestation (R427, R428) -/

/-- A write of ATTEST by the device itself. -/
def State.withAttest (s : State) (w : Word) : State := { s with mgmt := { s.mgmt with attest := w } }

/-- The quote over a nonce. -/
def State.quote (s : State) (nonce : Line) : List Byte :=
  (List.range 64).map fun i => Config.quoteByte s.mgmt.signatures (ofBytes (lineBytes nonce 0 32)) (s.regRead 0x100) i

/-- The line of the nonce, from ADDR of ATTEST. -/
def State.nonceLine (s : State) : Nat := field s.mgmt.attest 0 42 / 64 * 64

theorem State.quote_length (s : State) (nonce : Line) : (s.quote nonce).length = 64 := by
  rw [State.quote, List.length_map, List.length_range]

/-- The quote is written, where ADDR leaves room for it. -/
def State.writeQuote (s : State) (a : Nat) : State :=
  if a + 64 < 2 ^ 40 then
    let t := s.touch a (byteMask 0 32)
    t.putBytes (a + 64) (t.quote (t.readLine 0 a))
  else s

theorem exec_attestGo (s : State) : exec .attestGo s =
    .next (if flag s.mgmt.attest 62 then s.idle
      else if 2 ^ 20 ≤ s.mgmt.signatures then s.idle.withAttest (setFlag s.mgmt.attest 61 true)
      else ({ s.idle with mgmt := { s.mgmt with attest := setFlag s.mgmt.attest 62 true, signatures := s.mgmt.signatures + 1 } }).enqueue
        .attestDone) := rfl

/-- What is left of ATTEST once the quote is made: BUSY 0, and EXH as it was or once the last signature is made. -/
def State.attestEnd (s : State) : Word :=
  setFlag (setFlag s.mgmt.attest 62 false) 61 (flag s.mgmt.attest 61 || decide (2 ^ 20 ≤ s.mgmt.signatures))

theorem exec_attestDone (s : State) : exec .attestDone s =
    .next (if flag s.mgmt.attest 62 then (s.idle.withAttest s.attestEnd).writeQuote s.nonceLine else s.idle) := rfl

theorem attestGo_busy (s : State) (h : flag s.mgmt.attest 62 = true) : exec .attestGo s = .next s.idle := by
  rw [exec_attestGo, if_pos h]

theorem attestGo_signs (s : State) (h : flag s.mgmt.attest 62 = false) (hroom : s.mgmt.signatures < 2 ^ 20) :
    ∃ t, exec .attestGo s = .next t ∧ flag t.mgmt.attest 62 = true ∧ t.mgmt.signatures = s.mgmt.signatures + 1 ∧ t.mem = s.mem := by
  rw [exec_attestGo, if_neg (by simp [h]), if_neg (by omega)]
  exact ⟨_, rfl, flag_setFlag_same _ 62 true (by decide), rfl, rfl⟩

theorem attestGo_exhausted (s : State) (h : flag s.mgmt.attest 62 = false) (hfull : 2 ^ 20 ≤ s.mgmt.signatures) :
    ∃ t, exec .attestGo s = .next t ∧ flag t.mgmt.attest 61 = true ∧ flag t.mgmt.attest 62 = false ∧
      t.mgmt.signatures = s.mgmt.signatures := by
  rw [exec_attestGo, if_neg (by simp [h]), if_pos hfull]
  exact ⟨_, rfl, flag_setFlag_same _ 61 true (by decide), (flag_setFlag_ne _ 62 61 true (by decide) (by decide)).trans h, rfl⟩

theorem State.flag_attestEnd (s : State) : flag s.attestEnd 62 = false := by
  simp [State.attestEnd]

/-- Writing the quote changes memory, and finds errors. -/
theorem State.writeQuote_sameButErrors (s : State) {a : Nat} (ha : a % 64 = 0) : s.SameButErrors (s.writeQuote a) := by
  unfold State.writeQuote
  split
  case isTrue hlt =>
    exact (s.touch_sameButErrors a _).trans (State.putBytes_line_sameButErrors _ (by omega) (State.quote_length _ _) hlt)
  case isFalse => exact .refl s

/-- The bytes that the quote leaves in memory without errors do not depend on ATTEST. -/
theorem State.writeQuote_mem {s : State} (hs : s.mem.soft = []) (hh : s.mem.hard = []) (w : Word) {a : Nat} (ha : a % 64 = 0)
    (hlt : a + 64 < 2 ^ 40) :
    ((s.idle.withAttest w).writeQuote a).mem = (s.putBytes (a + 64) (s.quote (s.readLine 0 a))).mem := by
  have hl := lineOf_lt_sysBase hlt
  rw [State.writeQuote, if_pos hlt, State.touch_clean (s := s.idle.withAttest w) hs hh,
    State.putBytes_line _ (by omega) (State.quote_length _ _), State.putBytes_line _ (by omega) (State.quote_length _ _)]
  by_cases hrow : (s.protRow (a + 64) false).isSome = true
  · rw [if_pos hrow, if_pos (show ((s.idle.withAttest w).protRow (a + 64) false).isSome = true from hrow)]
    rfl
  · rw [if_neg hrow, if_neg (show ¬ ((s.idle.withAttest w).protRow (a + 64) false).isSome = true from hrow),
      State.perform_mem_clean hs hh _ _ _ _ _ hl, State.perform_mem_clean (s := s.idle.withAttest w) hs hh _ _ _ _ _ hl]
    rfl

/-- The end of a signature (R427, R428, assumption 12). -/
theorem attestDone_signed (s : State) (h : flag s.mgmt.attest 62 = true) :
    ∃ t, exec .attestDone s = .next t ∧ flag t.mgmt.attest 62 = false ∧ t.mgmt.signatures = s.mgmt.signatures ∧
      (s.nonceLine + 64 < 2 ^ 40 → s.mem.soft = [] → s.mem.hard = [] →
        t.mem = (s.putBytes (s.nonceLine + 64) (s.quote (s.readLine 0 s.nonceLine))).mem) := by
  have ha : s.nonceLine % 64 = 0 := Nat.mul_mod_left _ 64
  refine ⟨_, by rw [exec_attestDone, if_pos h], ?_, ?_, fun hlt hs hh => State.writeQuote_mem hs hh _ ha hlt⟩
  all_goals
    obtain ⟨_, _, _, _, _, _, ht⟩ := (s.idle.withAttest s.attestEnd).writeQuote_sameButErrors ha
    rw [ht]
  · exact s.flag_attestEnd
  · rfl

theorem attestDone_idle (s : State) (h : flag s.mgmt.attest 62 = false) : exec .attestDone s = .next s.idle := by
  rw [exec_attestDone, if_neg (by simp [h])]

/-! ## What a vacate carries (R426, assumption 13) -/

theorem mem_insertNat {a n : Nat} {l : List Nat} : a ∈ insertNat n l ↔ a = n ∨ a ∈ l := by
  induction l with
  | nil => simp [insertNat]
  | cons m l ih =>
    unfold insertNat
    split
    · exact List.mem_cons
    · split
      · simp_all
      · simp only [List.mem_cons, ih]
        tauto

theorem Cells.mem_of_get_ne_zero {a : Nat} {l : List Host.Cell} (h : Cells.get a l ≠ 0) : a ∈ l.map Prod.fst := by
  induction l with
  | nil => exact absurd rfl h
  | cons e l ih =>
    obtain ⟨k, v⟩ := e
    rw [List.map_cons, List.mem_cons]
    by_cases hk : k = a
    · exact .inl hk.symm
    · rw [Cells.get, if_neg hk] at h
      split at h
      · exact absurd rfl h
      · exact .inr (ih h)

/-- A byte that does not read as zero lies in a line that is carried. -/
theorem Memory.lineOf_mem_lines {m : Memory} {a : Nat} (h : Cells.get a m.cells ≠ 0) : lineOf a ∈ m.lines := by
  have ha : a ∈ m.cells.map Prod.fst ++ m.poison := List.mem_append_left _ (Cells.mem_of_get_ne_zero h)
  unfold Memory.lines
  generalize m.cells.map Prod.fst ++ m.poison = l at ha
  induction l with
  | nil => simp at ha
  | cons b l ih =>
    rw [List.foldr_cons, mem_insertNat]
    rcases List.mem_cons.1 ha with rfl | hmem
    · exact .inl rfl
    · exact .inr (ih hmem)

/-- The copy carries every saved context and every line that holds a byte other than zero. -/
theorem State.podCopy_carries (s : State) :
    s.podCopy.relayouts = s.relayouts ∧ s.podCopy.pool = s.pool ∧ s.podCopy.poison = s.mem.poison ∧
      (∀ d ∈ s.knownCtxs, (s.ctx d).status = .saved → (d, s.ctx d) ∈ s.podCopy.ctxs) ∧
      (∀ a, Cells.get a s.mem.cells ≠ 0 → (lineOf a, s.readLine 0 (lineOf a)) ∈ s.podCopy.lines) :=
  ⟨rfl, rfl, rfl,
    fun d hd hsaved => List.mem_map.2 ⟨d, List.mem_filter.2 ⟨hd, by simp [hsaved]⟩, rfl⟩,
    fun _ ha => List.mem_map.2 ⟨_, Memory.lineOf_mem_lines ha, rfl⟩⟩

/-- Reading all memory for the copy changes memory, and finds errors. -/
theorem State.readAll_sameButErrors (s : State) : s.SameButErrors s.readAll :=
  State.sameButErrors_foldl _ (fun s a => s.touch_sameButErrors a _) _ s

theorem State.readAll_clean {s : State} (hs : s.mem.soft = []) (hh : s.mem.hard = []) : s.readAll = s := by
  unfold State.readAll
  induction s.mem.lines with
  | nil => rfl
  | cons a l ih => rw [List.foldl_cons, State.touch_clean hs hh, ih]

/-! ## The source (R426) -/

/-- The state at a part of a vacate: the part is taken off the list of those that wait. -/
def State.atPart (s : State) : State := { s.idle with fab := { s.fab with vacateIn := s.fab.vacateIn.drop 1 } }

theorem exec_vacateGo (s : State) : exec .vacateGo s = .next (s.atPart.takePart (s.fab.vacateIn.headD .go)) := rfl

theorem exec_vacateBudgetTimeout (s : State) : exec .vacateBudgetTimeout s =
    .next (if s.vacateLate then s.idle.vacateFail 3 else s.idle) := rfl

/-- ERR of VACATE is cleared. -/
def State.clearErr (s : State) : State := { s with mgmt := { s.mgmt with vacate := setField s.mgmt.vacate 56 4 0 } }

/-! A vacate's own updates change VACATE alone. -/

@[simp] theorem State.atPart_mem (s : State) : s.atPart.mem = s.mem := rfl
@[simp] theorem State.atPart_agenda (s : State) : s.atPart.agenda = s.agenda := rfl
@[simp] theorem State.clearErr_mem (s : State) : s.clearErr.mem = s.mem := rfl
@[simp] theorem State.clearErr_agenda (s : State) : s.clearErr.agenda = s.agenda := rfl
@[simp] theorem State.vacateTo_mem (s : State) (step : Nat) : (s.vacateTo step).mem = s.mem := rfl
@[simp] theorem State.vacateTo_agenda (s : State) (step : Nat) : (s.vacateTo step).agenda = s.agenda := rfl
@[simp] theorem State.vacateFail_mem (s : State) (err : Nat) : (s.vacateFail err).mem = s.mem := rfl

theorem State.reachable_vacateTo (s : State) (step p : Nat) : (s.vacateTo step).reachable p = s.reachable p := by
  dsimp only [State.reachable, State.device, State.vacateTo]

theorem State.reachable_clearErr (s : State) (p : Nat) : s.clearErr.reachable p = s.reachable p := by
  dsimp only [State.reachable, State.device, State.clearErr]

theorem State.podCopy_vacateTo (s : State) (step : Nat) : (s.vacateTo step).podCopy = s.podCopy := by
  dsimp only [State.podCopy, State.knownCtxs, State.ctx, State.readLine, State.decrypt, State.key, State.vacateTo]

theorem State.podCopy_clearErr (s : State) : s.clearErr.podCopy = s.podCopy := by
  dsimp only [State.podCopy, State.knownCtxs, State.ctx, State.readLine, State.decrypt, State.key, State.clearErr]

theorem State.podCopy_atPart (s : State) : s.atPart.podCopy = s.podCopy := by
  dsimp only [State.podCopy, State.knownCtxs, State.ctx, State.readLine, State.decrypt, State.key, State.atPart, State.idle]

theorem State.spare_clearErr (s : State) : s.clearErr.spare = s.spare :=
  congrArg (Fin.ofNat 64) (field_setField_disjoint _ 0 6 56 4 0 (by decide))

theorem State.spare_vacateTo (s : State) (step : Nat) : (s.vacateTo step).spare = s.spare :=
  congrArg (Fin.ofNat 64) (field_setField_disjoint _ 0 6 60 3 step (by decide))

theorem State.vacateState_vacateTo (s : State) {step : Nat} (h : step < 8) : (s.vacateTo step).vacateState = step :=
  (field_setField_same _ 60 3 step (by decide)).trans (Nat.mod_eq_of_lt h)

theorem State.vacateState_enqueue (s : State) (e : Event) : (s.enqueue e).vacateState = s.vacateState := rfl

theorem State.vacateState_send (s : State) (m : OutMsg) : (s.send m).vacateState = s.vacateState := rfl

theorem State.vacateState_vacateFail (s : State) (err : Nat) : (s.vacateFail err).vacateState = 7 := by
  simp [State.vacateState, State.vacateFail]

theorem State.err_vacateFail (s : State) {err : Nat} (h : err < 16) : field (s.vacateFail err).mgmt.vacate 56 4 = err :=
  (field_setField_same _ 56 4 err (by decide)).trans (Nat.mod_eq_of_lt h)

/-- What GO does once no vacate is in progress (R426, assumption 72). -/
theorem State.vacateGo_eq (s : State) (h : s.vacating = false) : s.vacateGo =
    if s.allSaved = false then s.clearErr.vacateFail 1
    else if s.reachable s.spare.val = false ∨ s.spare.val = s.device then s.clearErr.vacateFail 2
    else if flag s.fab.fabctl 3 = true then (s.clearErr.vacateTo 1).vacateDrained
    else (s.clearErr.vacateTo 1).enqueue .fabricDrain := by
  have hspare := s.spare_clearErr
  have hunfold : s.vacateGo = if s.vacating then s else
      if !s.clearErr.allSaved then s.clearErr.vacateFail 1
      else if !s.clearErr.reachable s.clearErr.spare.val || s.clearErr.spare.val == s.clearErr.device then s.clearErr.vacateFail 2
      else if flag s.clearErr.fab.fabctl 3 then (s.clearErr.vacateTo 1).vacateDrained
      else (s.clearErr.vacateTo 1).enqueue .fabricDrain := rfl
  rw [hunfold, hspare, h]
  simp only [Bool.false_eq_true, if_false, Bool.not_eq_true', Bool.or_eq_true, beq_iff_eq]
  rfl

/-- From DRAIN to COPY, with a spare that can be reached. -/
theorem State.vacateDrained_eq {s : State} (h : s.vacateState = 1) (hr : s.reachable s.spare.val = true) :
    s.vacateDrained = ((s.readAll.vacateTo 2).send (.podCopy s.spare s.readAll.podCopy)).enqueue .vacateCopyDone := by
  have hspare : s.readAll.spare = s.spare := by
    obtain ⟨_, _, _, _, _, _, ht⟩ := s.readAll_sameButErrors
    rw [ht]
    rfl
  rw [State.vacateDrained, if_pos h, if_pos hr]
  dsimp only
  rw [hspare]

theorem State.vacateDrained_copies {s : State} (h : s.vacateState = 1) (hr : s.reachable s.spare.val = true) :
    s.vacateDrained.vacateState = 2 ∧ (∃ c, OutMsg.podCopy s.spare c ∈ s.vacateDrained.outbox) ∧
      Event.vacateCopyDone ∈ s.vacateDrained.agenda ∧
      (s.mem.soft = [] → s.mem.hard = [] →
        OutMsg.podCopy s.spare s.podCopy ∈ s.vacateDrained.outbox ∧ s.vacateDrained.mem = s.mem) := by
  rw [State.vacateDrained_eq h hr]
  refine ⟨?_, ⟨_, List.mem_append_right _ List.mem_cons_self⟩,
    List.mem_append_right _ List.mem_cons_self, fun hs hh => ?_⟩
  · rw [State.vacateState_enqueue, State.vacateState_send, State.vacateState_vacateTo _ (by decide)]
  · rw [State.readAll_clean hs hh]
    exact ⟨List.mem_append_right _ List.mem_cons_self, rfl⟩

section
variable {s : State} (hgo : s.fab.vacateIn.headD .go = .go)
include hgo

theorem exec_vacateGo_go : exec .vacateGo s = .next s.atPart.vacateGo := by
  rw [exec_vacateGo, hgo]
  rfl

theorem vacateGo_vacating (h : s.vacating = true) : exec .vacateGo s = .next s.atPart := by
  rw [exec_vacateGo_go hgo, State.vacateGo, if_pos (show s.atPart.vacating = true from h)]

variable (hidle : s.vacating = false)
include hidle

theorem exec_vacateGo_idle : exec .vacateGo s = .next (
    if s.allSaved = false then s.atPart.clearErr.vacateFail 1
    else if s.reachable s.spare.val = false ∨ s.spare.val = s.device then s.atPart.clearErr.vacateFail 2
    else if flag s.fab.fabctl 3 = true then (s.atPart.clearErr.vacateTo 1).vacateDrained
    else (s.atPart.clearErr.vacateTo 1).enqueue .fabricDrain) :=
  (exec_vacateGo_go hgo).trans (congrArg _ (s.atPart.vacateGo_eq hidle))

/-- GO while a context is live that is not saved: ERR 1. -/
theorem vacateGo_unsaved (h : s.allSaved = false) :
    ∃ t, exec .vacateGo s = .next t ∧ t.vacateState = 7 ∧ field t.mgmt.vacate 56 4 = 1 ∧ t.mem = s.mem := by
  rw [exec_vacateGo_idle hgo hidle, if_pos h]
  exact ⟨_, rfl, s.atPart.clearErr.vacateState_vacateFail 1, s.atPart.clearErr.err_vacateFail (err := 1) (by decide), by simp⟩

variable (hsaved : s.allSaved = true)
include hsaved

/-- GO with a spare that cannot be reached: ERR 2. -/
theorem vacateGo_unreachable (h : s.reachable s.spare.val = false ∨ s.spare.val = s.device) :
    ∃ t, exec .vacateGo s = .next t ∧ t.vacateState = 7 ∧ field t.mgmt.vacate 56 4 = 2 ∧ t.mem = s.mem := by
  rw [exec_vacateGo_idle hgo hidle, if_neg (by simp [hsaved]), if_pos h]
  exact ⟨_, rfl, s.atPart.clearErr.vacateState_vacateFail 2, s.atPart.clearErr.err_vacateFail (err := 2) (by decide), by simp⟩

variable (hreach : s.reachable s.spare.val = true) (hother : s.spare.val ≠ s.device)
include hreach hother

/-- GO drains the fabric. -/
theorem vacateGo_drains (h : flag s.fab.fabctl 3 = false) :
    ∃ t, exec .vacateGo s = .next t ∧ t.vacateState = 1 ∧ t.agenda = s.agenda ++ [.fabricDrain] ∧ t.mem = s.mem := by
  rw [exec_vacateGo_idle hgo hidle, if_neg (by simp [hsaved]), if_neg (by simp [hreach, hother]), if_neg (by simp [h])]
  refine ⟨_, rfl, ?_, by simp, by simp⟩
  rw [State.vacateState_enqueue, State.vacateState_vacateTo _ (by decide)]

/-- GO copies at once when the fabric is drained. -/
theorem vacateGo_copies (h : flag s.fab.fabctl 3 = true) :
    ∃ t, exec .vacateGo s = .next t ∧ t.vacateState = 2 ∧
      (∃ c, OutMsg.podCopy s.spare c ∈ t.outbox) ∧ Event.vacateCopyDone ∈ t.agenda ∧
      (s.mem.soft = [] → s.mem.hard = [] → OutMsg.podCopy s.spare s.podCopy ∈ t.outbox ∧ t.mem = s.mem) := by
  have hspare : (s.atPart.clearErr.vacateTo 1).spare = s.spare := by
    rw [State.spare_vacateTo, State.spare_clearErr]
    rfl
  have hreach' : (s.atPart.clearErr.vacateTo 1).reachable (s.atPart.clearErr.vacateTo 1).spare.val = true := by
    rw [hspare, State.reachable_vacateTo, State.reachable_clearErr]
    exact hreach
  have hcopies := State.vacateDrained_copies (s.atPart.clearErr.vacateState_vacateTo (step := 1) (by decide)) hreach'
  rw [hspare, State.podCopy_vacateTo, State.podCopy_clearErr, State.podCopy_atPart] at hcopies
  simp only [State.vacateTo_mem, State.clearErr_mem, State.atPart_mem] at hcopies
  rw [exec_vacateGo_idle hgo hidle, if_neg (by simp [hsaved]), if_neg (by simp [hreach, hother]), if_pos h]
  exact ⟨_, rfl, hcopies⟩

end

/-- A step of a vacate that exceeds its budget: ERR 3. -/
theorem vacateBudgetTimeout_late (s : State) (h : s.vacateLate = true) :
    ∃ t, exec .vacateBudgetTimeout s = .next t ∧ t.vacateState = 7 ∧ field t.mgmt.vacate 56 4 = 3 ∧ t.mem = s.mem := by
  rw [exec_vacateBudgetTimeout, if_pos h]
  exact ⟨_, rfl, s.idle.vacateState_vacateFail 3, s.idle.err_vacateFail (err := 3) (by decide), rfl⟩

theorem vacateBudgetTimeout_early (s : State) (h : s.vacateLate = false) : exec .vacateBudgetTimeout s = .next s.idle := by
  rw [exec_vacateBudgetTimeout, if_neg (by simp [h])]

/-! ## The end of the copy (R393) -/

/-- A live member other than the device is told the changes. -/
def State.tellRekey (s : State) (period : Nat) (d : Nat) : State :=
  if flag s.fab.podmask d ∧ d ≠ s.device then s.send (.rekey (Fin.ofNat 64 d) s.spare period) else s

/-- VACATE in step REKEY, with the period at which the changes apply. -/
def State.rekeyFrom (s : State) : State :=
  { s.idle.vacateTo 3 with mgmt := { (s.idle.vacateTo 3).mgmt with rekeyAt := s.fab.periodno + 16 } }

theorem exec_vacateCopyDone (s : State) : exec .vacateCopyDone s =
    .next (if s.vacateState = 2 then (List.range 64).foldl (fun t d => t.tellRekey (s.fab.periodno + 16).toNat d) s.rekeyFrom
      else s.idle) := rfl

/-- Telling members adds messages alone. -/
theorem State.tellRekeys_eq (period : Nat) (l : List Nat) (s : State) : ∃ o,
    l.foldl (fun t d => t.tellRekey period d) s = { s with outbox := s.outbox ++ o } ∧
    ∀ d ∈ l, flag s.fab.podmask d = true → d ≠ s.device → OutMsg.rekey (Fin.ofNat 64 d) s.spare period ∈ o := by
  induction l generalizing s with
  | nil => exact ⟨[], by simp, by simp⟩
  | cons d l ih =>
    have hone : ∃ o, s.tellRekey period d = { s with outbox := s.outbox ++ o } ∧
        (flag s.fab.podmask d = true → d ≠ s.device → OutMsg.rekey (Fin.ofNat 64 d) s.spare period ∈ o) := by
      unfold State.tellRekey
      split
      case isTrue => exact ⟨_, rfl, fun _ _ => List.mem_cons_self⟩
      case isFalse h => exact ⟨[], by simp, fun hm hd => absurd ⟨hm, hd⟩ h⟩
    obtain ⟨o, ho, hd⟩ := hone
    obtain ⟨o', ho', hl⟩ := ih (s.tellRekey period d)
    rw [ho] at ho' hl
    refine ⟨o ++ o', by rw [List.foldl_cons, ho, ho', List.append_assoc], fun e he hm hne => ?_⟩
    rcases List.mem_cons.1 he with rfl | he
    · exact List.mem_append_left _ (hd hm hne)
    · exact List.mem_append_right _ (hl e he hm hne)

/-- The end of the copy: every other live member is told the changes, which apply 16 periods on. -/
theorem vacateCopyDone_tells (s : State) (h : s.vacateState = 2) :
    ∃ t, exec .vacateCopyDone s = .next t ∧ t.vacateState = 3 ∧ t.mgmt.rekeyAt = s.fab.periodno + 16 ∧ t.mem = s.mem ∧
      ∀ q : Fin 64, flag s.fab.podmask q.val = true → q.val ≠ s.device →
        OutMsg.rekey q s.spare (s.fab.periodno + 16).toNat ∈ t.outbox := by
  have hspare : s.rekeyFrom.spare = s.spare := s.idle.spare_vacateTo 3
  obtain ⟨o, ho, hall⟩ := State.tellRekeys_eq (s.fab.periodno + 16).toNat (List.range 64) s.rekeyFrom
  rw [hspare] at hall
  rw [exec_vacateCopyDone, if_pos h, ho]
  refine ⟨_, rfl, s.idle.vacateState_vacateTo (by decide), rfl, rfl, fun q hm hq => ?_⟩
  have hin := hall q.val (List.mem_range.2 q.isLt) hm hq
  rw [Fin.ofNat_val_eq_self] at hin
  exact List.mem_append_right _ hin

theorem vacateCopyDone_ignored (s : State) (h : s.vacateState ≠ 2) : exec .vacateCopyDone s = .next s.idle := by
  rw [exec_vacateCopyDone, if_neg h]

/-! ## The spare (R92, R121, R169) -/

theorem exec_vacateGo_copied {s : State} {c : PodCopy} (h : s.fab.vacateIn.headD .go = .copied c) :
    exec .vacateGo s = .next (s.atPart.takeCopy c) := by
  rw [exec_vacateGo, h]
  rfl

/-- Taking relayouts changes the table and the next number of an operation. -/
theorem State.takeRelayouts_eq (l : List Relayout) (s : State) : ∃ r n, s.takeRelayouts l = { s with relayouts := r, nextId := n } := by
  unfold State.takeRelayouts
  induction l generalizing s with
  | nil => exact ⟨_, _, rfl⟩
  | cons x l ih =>
    obtain ⟨r, n, h⟩ := ih { s.fresh.2 with relayouts := s.relayouts.filter (·.slot != x.slot) ++
      [{ x with order := s.nextId, conv := false, outward := false, raised := [] }] }
    exact ⟨r, n, h⟩

/-- Taking contexts changes contexts. -/
theorem State.takeCtxs_eq (l : List (Nat × Ctx)) (s : State) : ∃ x cs, s.takeCtxs l = { s with cx := x, ctxs := cs } := by
  unfold State.takeCtxs
  induction l generalizing s with
  | nil => exact ⟨_, _, rfl⟩
  | cons e l ih =>
    have hone : ∃ x cs, s.setCtx e.1 { e.2 with lastIssue := 0, resumeAt := 0, fetched := [] } = { s with cx := x, ctxs := cs } := by
      unfold State.setCtx
      split <;> exact ⟨_, _, rfl⟩
    obtain ⟨x, cs, hx⟩ := hone
    obtain ⟨x', cs', h⟩ := ih { s with cx := x, ctxs := cs }
    exact ⟨x', cs', by rw [List.foldl_cons, hx, h]⟩

/-- Taking the pool changes the queues of the dies, the pool and KICKSTAT. -/
theorem State.takePool_eq (s : State) (p : Pool) (queues : List (Nat × List Inst)) (kickstat : Word) : ∃ ds dead w,
    s.takePool p queues kickstat = { s with dies := ds, pool := { p with stopped := true, vacated := true, dead := dead },
                                            regs := { s.regs with kickstat := w } } := by
  have hqueues : ∀ (l : List (Nat × List Inst)) (s : State), ∃ ds,
      l.foldl (fun s (q : Nat × List Inst) => s.modDie q.1 fun k => { k with queue := q.2 }) s = { s with dies := ds } := by
    intro l
    induction l with
    | nil => exact fun s => ⟨_, rfl⟩
    | cons q l ih => exact fun s => ih (s.modDie q.1 fun k => { k with queue := q.2 })
  obtain ⟨ds, h⟩ := hqueues queues s
  unfold State.takePool
  rw [h]
  exact ⟨_, _, _, rfl⟩

/-- The state before the copied relayouts, contexts and pool are taken. -/
def State.takeMemory (s : State) (c : PodCopy) : State :=
  ({ s with nextId := Nat.max s.nextId c.nextId, coreRecs := c.coreRecs }).takeLines c.lines c.poison

theorem State.takeCopy_steps (s : State) (c : PodCopy) : s.takeCopy c =
    (((s.takeMemory c).takeRelayouts c.relayouts).takeCtxs c.ctxs).takePool c.pool c.queues c.kickstat := rfl

/-- The pool of the spare is the source's, and stays stopped until the restore. -/
theorem State.takeCopy_pool (s : State) (c : PodCopy) : (s.takeCopy c).pool.graph = c.pool.graph ∧
    (s.takeCopy c).pool.waiting = c.pool.waiting ∧ (s.takeCopy c).pool.retired = c.pool.retired ∧ (s.takeCopy c).pool.stopped = true := by
  obtain ⟨_, _, _, hp⟩ := State.takePool_eq (((s.takeMemory c).takeRelayouts c.relayouts).takeCtxs c.ctxs) c.pool c.queues c.kickstat
  rw [State.takeCopy_steps, hp]
  exact ⟨rfl, rfl, rfl, rfl⟩

theorem State.takeCopy_mem (s : State) (c : PodCopy) : (s.takeCopy c).mem = (s.takeMemory c).mem := by
  obtain ⟨_, _, hr⟩ := State.takeRelayouts_eq c.relayouts (s.takeMemory c)
  obtain ⟨_, _, hc⟩ := State.takeCtxs_eq c.ctxs ((s.takeMemory c).takeRelayouts c.relayouts)
  obtain ⟨_, _, _, hp⟩ := State.takePool_eq (((s.takeMemory c).takeRelayouts c.relayouts).takeCtxs c.ctxs) c.pool c.queues c.kickstat
  rw [State.takeCopy_steps, hp, hc, hr]

theorem State.takeCopy_cx (s : State) (c : PodCopy) (x : Ctx) (h : c.ctxs = [(s.cid, x)]) :
    (s.takeCopy c).cx = { x with lastIssue := 0, resumeAt := 0, fetched := [] } := by
  obtain ⟨r, n, hr⟩ := State.takeRelayouts_eq c.relayouts (s.takeMemory c)
  obtain ⟨_, _, _, hp⟩ := State.takePool_eq (((s.takeMemory c).takeRelayouts c.relayouts).takeCtxs c.ctxs) c.pool c.queues c.kickstat
  rw [State.takeCopy_steps, hp, hr, h]
  exact congrArg State.cx (State.setCtx_self { s.takeMemory c with relayouts := r, nextId := n } _)

theorem State.takeCopy_relayouts (s : State) (c : PodCopy) (r : Relayout) (h : c.relayouts = [r]) :
    (s.takeCopy c).relayouts = s.relayouts.filter (·.slot != r.slot) ++
      [{ r with order := Nat.max s.nextId c.nextId, conv := false, outward := false, raised := [] }] := by
  obtain ⟨_, _, hc⟩ := State.takeCtxs_eq c.ctxs ((s.takeMemory c).takeRelayouts c.relayouts)
  obtain ⟨_, _, _, hp⟩ := State.takePool_eq (((s.takeMemory c).takeRelayouts c.relayouts).takeCtxs c.ctxs) c.pool c.queues c.kickstat
  rw [State.takeCopy_steps, hp, hc, h]
  rfl

/-- Memory of the spare after the copy of a single line: that line, through its own key, and the poison of the source. -/
theorem State.takeMemory_line (s : State) (c : PodCopy) (a : Nat) (l : Line) (h : c.lines = [(a, l)]) : (s.takeMemory c).mem =
    { (⟨[], [], [], [], []⟩ : Memory).setStored a (BitVec.allOnes 64) (s.encrypt 0 a l) with poison := c.poison } := by
  rw [State.takeMemory, h]
  rfl

theorem State.takeCopy_clauses (s : State) (c : PodCopy) (x : Ctx) (r : Relayout) (a : Nat) (l : Line) :
    (s.takeCopy c).pool.graph = c.pool.graph ∧ (s.takeCopy c).pool.waiting = c.pool.waiting ∧
      (s.takeCopy c).pool.retired = c.pool.retired ∧ (s.takeCopy c).pool.stopped = true ∧
      (s.takeCopy c).mem.poison = c.poison ∧
      (c.ctxs = [(s.cid, x)] → (s.takeCopy c).cx.regs = x.regs ∧ (s.takeCopy c).cx.status = x.status ∧ (s.takeCopy c).cx.inst = x.inst) ∧
      (c.relayouts = [r] → (s.takeCopy c).relayouts = s.relayouts.filter (·.slot != r.slot) ++
        [{ r with order := Nat.max s.nextId c.nextId, conv := false, outward := false, raised := [] }]) ∧
      (c.lines = [(a, l)] → (s.takeCopy c).mem =
        { (⟨[], [], [], [], []⟩ : Memory).setStored a (BitVec.allOnes 64) (s.encrypt 0 a l) with poison := c.poison }) := by
  obtain ⟨hgraph, hwaiting, hretired, hstopped⟩ := s.takeCopy_pool c
  refine ⟨hgraph, hwaiting, hretired, hstopped, ?_, fun hx => ?_, s.takeCopy_relayouts c r,
    fun hl => (s.takeCopy_mem c).trans (s.takeMemory_line c a l hl)⟩
  · rw [s.takeCopy_mem c]
    rfl
  · rw [s.takeCopy_cx c x hx]
    exact ⟨rfl, rfl, rfl⟩

/-! ## The members (R393) -/

theorem exec_vacateGo_rekey {s : State} {src spare : Fin 64} {period : Nat} (h : s.fab.vacateIn.headD .go = .rekey src spare period) :
    exec .vacateGo s = .next { s.atPart with fab := { s.atPart.fab with rekeys := s.fab.rekeys ++ [⟨src, spare, period⟩] } } := by
  rw [exec_vacateGo, h]
  rfl

/-- Changes whose period has not come are kept. -/
theorem State.takeRekeys_early {s : State} {k : Rekey} (h : s.fab.rekeys = [k]) (hp : s.fab.periodno.toNat < k.period) :
    s.takeRekeys = s := by
  have hdue : s.fab.rekeys.filter (fun k => decide (k.period ≤ s.fab.periodno.toNat)) = [] := by simp [h, hp]
  have hkept : s.fab.rekeys.filter (fun k => decide (s.fab.periodno.toNat < k.period)) = s.fab.rekeys := by simp [h, hp]
  rw [State.takeRekeys, hdue, hkept]
  rfl

/-- Changes whose period has come are made. -/
theorem State.takeRekeys_due {s : State} {k : Rekey} (h : s.fab.rekeys = [k]) (hp : k.period ≤ s.fab.periodno.toNat) :
    s.takeRekeys = ({ s with fab := { s.fab with rekeys := [] } } : State).rebind k := by
  have hdue : s.fab.rekeys.filter (fun k => decide (k.period ≤ s.fab.periodno.toNat)) = [k] := by simp [h, hp]
  have hkept : s.fab.rekeys.filter (fun k => decide (s.fab.periodno.toNat < k.period)) = [] := by simp [h, hp]
  rw [State.takeRekeys, hdue, hkept]
  rfl

/-- Replacing the members below n of a stripe changes those that are the source, and none from n on. -/
theorem field_rebindStripe_range (src spare : Fin 64) (v : Word) (n m : Nat) (hn : n ≤ 8) (hm : m < 8) :
    field ((List.range n).foldl (fun v i => if field v (6 * i) 6 = src.val then setField v (6 * i) 6 spare.val else v) v) (6 * m) 6 =
      if m < n ∧ field v (6 * m) 6 = src.val then spare.val else field v (6 * m) 6 := by
  have hspare : spare.val % 2 ^ 6 = spare.val := Nat.mod_eq_of_lt spare.isLt
  induction n with
  | zero => simp
  | succ n ih =>
    rw [List.range_succ, List.foldl_append, List.foldl_cons, List.foldl_nil]
    have ih := ih (by omega)
    by_cases hmn : m = n
    · subst hmn
      rw [if_neg (by omega)] at ih
      rw [ih]
      by_cases hsrc : field v (6 * m) 6 = src.val
      · rw [if_pos hsrc, field_setField_same _ _ _ _ (by omega), hspare, if_pos ⟨by omega, hsrc⟩]
      · rw [if_neg hsrc, ih, if_neg (by tauto)]
    · have hlt : m < n + 1 ↔ m < n := by omega
      simp only [hlt, ← ih]
      split
      · rw [field_setField_disjoint _ _ _ _ _ _ (by omega)]
      · rfl

theorem field_rebindStripe (v : Word) (src spare : Fin 64) {m : Nat} (hm : m < 8) :
    field (rebindStripe v src spare) (6 * m) 6 = if field v (6 * m) 6 = src.val then spare.val else field v (6 * m) 6 := by
  rw [rebindStripe, field_rebindStripe_range src spare v 8 m (Nat.le_refl 8) hm]
  simp [hm]

/-- The spare takes the place of the source in PODMASK, the rings and the stripe. -/
theorem State.takeRekeys_rebinds {s : State} {k : Rekey} (h : s.fab.rekeys = [k]) (hp : k.period ≤ s.fab.periodno.toNat) :
    s.takeRekeys.fab.rekeys = [] ∧ flag s.takeRekeys.fab.podmaskNext k.src.val = false ∧
      (k.src ≠ k.spare → flag s.takeRekeys.fab.podmaskNext k.spare.val = true) ∧
      s.takeRekeys.fab.rings = (s.fab.rings.map fun e =>
        (e.1, { e.2 with members := e.2.members.map fun p => if p = k.src then k.spare else p })) ∧
      ∀ m < 8, s.takeRekeys.member m = if s.member m = k.src.val then k.spare.val else s.member m := by
  rw [State.takeRekeys_due h hp]
  refine ⟨rfl, flag_setFlag_same _ _ _ k.src.isLt, fun hne => ?_, rfl, fun m hm => field_rebindStripe _ _ _ hm⟩
  have hval : k.spare.val ≠ k.src.val := fun he => hne (Fin.ext he).symm
  exact (flag_setFlag_ne _ _ _ _ k.spare.isLt hval).trans (flag_setFlag_same _ _ _ k.spare.isLt)

/-! ## The statement -/

/-- Settles O60, clause by clause: the self-test and the power, the host port and its buses, attestation and keys, the source of a vacate,
and what its spare and the other members take. -/
theorem bringUp : Obligations.BringUp := by
  unfold Obligations.BringUp
  refine ⟨⟨fun s r k y => ?power, fun s g a n v h => ?host, fun s => ?manage⟩, fun s => ?source, fun s c src spare period k x r a l => ?others⟩
  case power =>
    exact ⟨powerOn_passed s r,
      ⟨testFailure_of_image, testFailure_of_bank, fun _ => testFailure_of_core, lines_passed⟩,
      powerOn_failed s r k y, powerLoss_clears s, retest_passed s r, retest_failed s r k y, retest_ignored s r⟩
  case host =>
    exact ⟨⟨_, exec_pcieLinkTraining g s, rfl, rfl⟩, fruRead_inside s, fruRead_outside s, devnumWrite_dark s v, devnumWrite_lit s v,
      registerWrite_inside s, registerWrite_outside s, hostBarAccess_served s h, hostBarAccess_ignored s h⟩
  case manage =>
    exact ⟨attestGo_busy s, attestGo_signs s, attestGo_exhausted s, attestDone_signed s, attestDone_idle s,
      keyLoad_slot s, keyErase_slot s, key_zero_stays s⟩
  case source =>
    exact ⟨fun hgo => ⟨vacateGo_vacating hgo, vacateGo_unsaved hgo, vacateGo_unreachable hgo,
        fun hidle hsaved hreach hother => ⟨vacateGo_drains hgo hidle hsaved hreach hother, vacateGo_copies hgo hidle hsaved hreach hother⟩⟩,
      s.podCopy_carries, vacateBudgetTimeout_late s, vacateBudgetTimeout_early s, vacateCopyDone_tells s, vacateCopyDone_ignored s⟩
  case others =>
    exact ⟨exec_vacateGo_copied, s.takeCopy_clauses c x r a l, exec_vacateGo_rekey, State.takeRekeys_early, State.takeRekeys_rebinds⟩

end Sys2Proof.Machine
end

section
/-! PROOFS. Fixed-point cells (R70, R71): a cell as two flags and a sum modulo 2^237, to which every addition adds a term. -/

namespace Sys2Proof.Machine

/-! ## The fields of a cell (R70) -/

section Fields
variable (c w : Nat) (p n : Bool) (v : Int)

/-- VALUE as it stands in the cell: a residue modulo 2^232. -/
theorem cellOf_residue : ∃ r : Nat, r < 2 ^ 232 ∧ (r : Int) = v % 2 ^ 232 ∧
    cellOf c p n w v = c % 2 ^ 16 + 2 ^ 16 * p.toNat + 2 ^ 17 * n.toNat + 2 ^ 19 * (w % 32) + 2 ^ 24 * r :=
  ⟨(v % (2 ^ 232 : Nat)).toNat, by omega, by omega, rfl⟩

@[simp] theorem cellAnchor_cellOf : cellAnchor (cellOf c p n w v) = cellAnchor c := by
  obtain ⟨r, -, -, h⟩ := cellOf_residue c w p n v
  have hmod : cellOf c p n w v % 2 ^ 16 = c % 2 ^ 16 := by omega
  simp only [cellAnchor, signed, hmod]

@[simp] theorem cellPinf_cellOf : cellPinf (cellOf c p n w v) = p := by
  obtain ⟨r, -, -, h⟩ := cellOf_residue c w p n v
  rw [cellPinf, h, Nat.testBit_eq_decide_div_mod_eq]
  cases p <;> cases n <;> simp <;> omega

@[simp] theorem cellNinf_cellOf : cellNinf (cellOf c p n w v) = n := by
  obtain ⟨r, -, -, h⟩ := cellOf_residue c w p n v
  rw [cellNinf, h, Nat.testBit_eq_decide_div_mod_eq]
  cases p <;> cases n <;> simp <;> omega

@[simp] theorem cellWrap_cellOf : cellWrap (cellOf c p n w v) = w % 32 := by
  obtain ⟨r, -, -, h⟩ := cellOf_residue c w p n v
  have hp := p.toNat_le
  have hn := n.toNat_le
  rw [cellWrap, h]
  omega

@[simp] theorem cellValue_cellOf : cellValue (cellOf c p n w v) = (v + 2 ^ 231) % 2 ^ 232 - 2 ^ 231 := by
  obtain ⟨r, hr, hv, h⟩ := cellOf_residue c w p n v
  have hp := p.toNat_le
  have hn := n.toNat_le
  have hdiv : cellOf c p n w v / 2 ^ 24 = r := by omega
  rw [cellValue, hdiv, signed, Nat.mod_eq_of_lt hr]
  split <;> omega

end Fields

theorem cellOf_congr {c c' w w' : Nat} {v v' : Int} (p n : Bool) (hc : c % 2 ^ 16 = c' % 2 ^ 16) (hw : w % 32 = w' % 32)
    (hv : v % 2 ^ 232 = v' % 2 ^ 232) : cellOf c p n w v = cellOf c' p n w' v' := by
  unfold cellOf
  rw [hc, hw, show v % (2 ^ 232 : Nat) = v' % (2 ^ 232 : Nat) from hv]

theorem cellOf_mod (c w : Nat) (p n : Bool) (v : Int) : cellOf c p n w v % 2 ^ 16 = c % 2 ^ 16 := by
  obtain ⟨r, -, -, h⟩ := cellOf_residue c w p n v
  omega

theorem cellValue_range (c : Nat) : -2 ^ 231 ≤ cellValue c ∧ cellValue c < 2 ^ 231 := by
  rw [cellValue, signed]
  have := Nat.mod_lt (c / 2 ^ 24) (Nat.two_pow_pos 232)
  split <;> omega

/-! ## A cell as a sum (R71) -/

/-- What the cell has counted: VALUE and the wraps, modulo 2^237. -/
def cellSum (c : Nat) : Int := 2 ^ 232 * cellWrap c + cellValue c

/-- The cell with the anchor of c, these flags and a sum t. -/
def cellWith (c : Nat) (p n : Bool) (t : Int) : Nat := cellOf c p n ((t + 2 ^ 231) / 2 ^ 232 % 32).toNat t

/-- What an addition brings: the infinities it raises, and the counts it adds. -/
structure CellTerm where
  pinf : Bool
  ninf : Bool
  count : Int

/-- The term of a number at an anchor: one too large for VALUE raises a flag and adds nothing. -/
def cellTerm (anchor : Int) : Fp → CellTerm
  | .nan => ⟨true, true, 0⟩
  | .inf neg => ⟨!neg, neg, 0⟩
  | .fin neg m e =>
    let q := floorPow neg m (e - anchor)
    if q > 2 ^ 231 - 1 then ⟨true, false, 0⟩ else if q < -2 ^ 231 then ⟨false, true, 0⟩ else ⟨false, false, q⟩

def cellPlus (c : Nat) (x : CellTerm) : Nat := cellWith c (cellPinf c || x.pinf) (cellNinf c || x.ninf) (cellSum c + x.count)

/-- A cell whose fields have changed by a term's flags and count. -/
theorem cellOf_eq_cellPlus (c w : Nat) (p n : Bool) (q v : Int) (hw : (w : Int) % 32 = (cellSum c + q + 2 ^ 231) / 2 ^ 232 % 32)
    (hv : v % 2 ^ 232 = (cellValue c + q) % 2 ^ 232) :
    cellOf c (cellPinf c || p) (cellNinf c || n) w v = cellPlus c ⟨p, n, q⟩ := by
  refine cellOf_congr _ _ rfl (by dsimp only; omega) (hv.trans ?_)
  simp only [cellSum]
  omega

theorem cellFlag_eq_cellPlus (c : Nat) (p n : Bool) : cellFlag c p n = cellPlus c ⟨p, n, 0⟩ := by
  have hv := cellValue_range c
  exact cellOf_eq_cellPlus c _ p n 0 _ (by simp only [cellSum]; omega) (by rw [Int.add_zero])

theorem cellCount_eq_cellPlus (c : Nat) {q : Int} (hlo : -2 ^ 231 ≤ q) (hhi : q ≤ 2 ^ 231 - 1) :
    cellCount c q = cellPlus c ⟨false, false, q⟩ := by
  have hv := cellValue_range c
  have key := fun w v => cellOf_eq_cellPlus c w false false q v
  simp only [Bool.or_false] at key
  rw [cellCount]
  split
  · exact key _ _ (by simp only [cellSum]; omega) (by omega)
  · split
    · exact key _ _ (by simp only [cellSum]; omega) (by omega)
    · exact key _ _ (by simp only [cellSum]; omega) (by omega)

/-- Every addition adds a term, which depends on the cell's anchor alone. -/
theorem fxAdd_eq_cellPlus (c : Nat) (x : Fp) : fxAdd c x = cellPlus c (cellTerm (cellAnchor c) x) := by
  cases x with
  | nan => exact cellFlag_eq_cellPlus c true true
  | inf neg => exact cellFlag_eq_cellPlus c (!neg) neg
  | fin neg m e =>
    simp only [fxAdd, cellTerm]
    split
    · exact cellFlag_eq_cellPlus c true false
    · split
      · exact cellFlag_eq_cellPlus c false true
      · exact cellCount_eq_cellPlus c (by omega) (by omega)

theorem cellAnchor_cellPlus (c : Nat) (x : CellTerm) : cellAnchor (cellPlus c x) = cellAnchor c := cellAnchor_cellOf ..

/-- The sum of a cell is kept modulo 2^237. -/
theorem cellSum_cellWith (c : Nat) (p n : Bool) (t : Int) : cellSum (cellWith c p n t) = (t + 2 ^ 231) % 2 ^ 237 - 2 ^ 231 := by
  rw [cellSum, cellWith, cellWrap_cellOf, cellValue_cellOf]
  omega

/-- Terms add up, whatever has been added before. -/
theorem cellPlus_cellPlus (c : Nat) (x y : CellTerm) :
    cellPlus (cellPlus c x) y = cellWith c (cellPinf c || x.pinf || y.pinf) (cellNinf c || x.ninf || y.ninf) (cellSum c + x.count + y.count) := by
  have hsum := cellSum_cellWith c (cellPinf c || x.pinf) (cellNinf c || x.ninf) (cellSum c + x.count)
  have hp : cellPinf (cellPlus c x) = (cellPinf c || x.pinf) := cellPinf_cellOf ..
  have hn : cellNinf (cellPlus c x) = (cellNinf c || x.ninf) := cellNinf_cellOf ..
  rw [cellPlus, hp, hn, cellPlus, hsum]
  exact cellOf_congr _ _ (cellOf_mod ..) (by omega) (by omega)

/-- Settles O19: an addition adds a term that depends on the anchor alone, and terms add up in any order. -/
theorem cellOrder : Obligations.CellOrder := by
  unfold Obligations.CellOrder
  intro cell x y
  simp only [fxAdd_eq_cellPlus, cellAnchor_cellPlus, cellPlus_cellPlus]
  congr 1
  · exact Bool.or_right_comm ..
  · exact Bool.or_right_comm ..
  · exact Int.add_right_comm ..

end Sys2Proof.Machine
end

section
/-! PROOFS. What the scalar accesses to memory do once they issue (R241 to R245), and the alignment fault (R112). -/

namespace Sys2Proof.Machine

section Forms
variable {i : Instr} {s : State} (hi : Issues i s)
include hi

/-- A load that issues (R241, R243). -/
theorem exec_of_loadForm {f : LoadForm} (h : loadForm s i = some f) : exec i s = .next (
    if f.strong = true ∧ f.ea.toNat % f.n ≠ 0 then (s.begun i).misaligned
    else (s.begun i).loadTo (!f.strong) f.space f.ea f.n f.sgn f.dst) := by
  unfold loadForm at h
  split at h <;> cases h
  all_goals
    refine (State.syl_of_issues hi _).trans (congrArg _ ?_)
    simp [State.loadOrd, State.loadStrong]

/-- A store that issues (R242, R243). -/
theorem exec_of_storeForm {f : StoreForm} (h : storeForm s i = some f) : exec i s = .next (
    if f.strong = true then
      if f.ea.toNat % f.n ≠ 0 then (s.begun i).misaligned
      else (s.begun i).storeStrong f.space f.ea (bytesOf f.n f.data.toNat) f.rel
    else (s.begun i).storeOrd f.space f.ea (bytesOf f.n f.data.toNat)) := by
  unfold storeForm at h
  split at h <;> cases h
  all_goals
    refine (State.syl_of_issues hi _).trans (congrArg _ ?_)
    simp [State.storeN, State.storeStrongN]

/-- An atomic that issues (R244). -/
theorem exec_of_amoForm {f : AmoForm} (h : amoForm s i = some f) :
    exec i s = .next ((s.begun i).atomic f.op f.space f.w8 f.ord f.ea f.x f.c) := by
  unfold amoForm at h
  split at h <;> cases h
  all_goals
    refine (State.syl_of_issues hi _).trans (congrArg _ ?_)
    simp

/-- An update of a cell that issues (R245). -/
theorem exec_of_cellForm {op : FxOp} {x0 : Space} {ea x : Word} (h : cellForm s i = some (op, x0, ea, x)) :
    exec i s = .next ((s.begun i).cellUpdate op x0 ea x) := by
  unfold cellForm at h
  split at h <;> cases h
  all_goals
    refine (State.syl_of_issues hi _).trans (congrArg _ ?_)
    simp

end Forms

/-- A read of a cell that issues (R245). -/
theorem exec_of_fxrd {g : Fin 16} {d : Dst} {a : Src} {e : Bool} {x0 : Space} {s : State} (hi : Issues (.fxrd g d a e x0) s) :
    exec (.fxrd g d a e x0) s = .next ((s.begun (.fxrd g d a e x0)).cellRead x0 (s.readSrc a) d) := by
  refine (State.syl_of_issues hi _).trans (congrArg _ ?_)
  simp

/-! ## The alignment fault (R112) -/

/-- The alignment fault takes two free values (assumption 9). -/
theorem State.misaligned_eq (s : State) :
    s.misaligned =
      ({ s with freeCount := s.freeCount + 2 } : State).trap ⟨0x06, Config.freeWord s.freeCount, Config.freeWord (s.freeCount + 1)⟩ := rfl

/-- A strong access, an atomic or a cell instruction checks its address first. -/
theorem exec_of_misaligned {i : Instr} {s : State} {ea : Word} {n : Nat} (h : strongAddr s i = some (ea, n)) (hi : Issues i s)
    (hmis : ea.toNat % n ≠ 0) : exec i s = .next (s.begun i).misaligned := by
  unfold strongAddr at h
  split at h
  case h_1 f _ _ _ hf =>
    obtain ⟨hs, h⟩ := Option.ite_none_right_eq_some.1 h
    cases h
    rw [exec_of_loadForm hi hf, if_pos ⟨hs, hmis⟩]
  case h_2 f _ _ hf _ =>
    obtain ⟨hs, h⟩ := Option.ite_none_right_eq_some.1 h
    cases h
    rw [exec_of_storeForm hi hf, if_pos hs, if_pos hmis]
  case h_3 f _ hf _ _ =>
    cases h
    rw [exec_of_amoForm hi hf, State.atomic]
    exact congrArg _ (if_pos hmis)
  case h_4 f hf _ _ _ =>
    cases h
    rw [exec_of_cellForm hi hf, State.cellUpdate, if_pos hmis]
  case h_5 =>
    split at h
    · cases h
      rw [exec_of_fxrd hi, State.cellRead, if_pos hmis]
    · cases h

/-- Settles O14: every such instruction checks its address before anything else. -/
theorem strongMisaligned : Obligations.StrongMisaligned := by
  unfold Obligations.StrongMisaligned
  intro i s ea n h hi hmis
  rw [exec_of_misaligned h hi hmis, State.misaligned_eq, State.begun_freeCount]
  exact ⟨_, _, rfl⟩

end Sys2Proof.Machine
end

section
/-! PROOFS. The bytes of numbers and of lines (R3), and the lines that an access touches. -/

namespace Sys2Proof.Machine

/-! ## The bytes of a number -/

@[simp] theorem length_bytesOf (n v : Nat) : (bytesOf n v).length = n := by
  induction n generalizing v with
  | zero => rfl
  | succ n ih => simp [bytesOf, ih]

/-- Byte k of the bytes of a number. -/
theorem getD_bytesOf (n v k : Nat) (hk : k < n) : (bytesOf n v).getD k 0 = BitVec.ofNat 8 (v / 2 ^ (8 * k)) := by
  induction n generalizing v k with
  | zero => omega
  | succ n ih =>
    cases k with
    | zero => simp [bytesOf]
    | succ k =>
      have hstep : v / 256 / 2 ^ (8 * k) = v / 2 ^ (8 * (k + 1)) := by
        rw [Nat.div_div_eq_div_mul, Nat.mul_add, Nat.pow_add, Nat.mul_comm]
      rw [bytesOf, List.getD_cons_succ, ih _ _ (by omega), hstep]

/-- Byte k of the number whose bytes are given. -/
theorem ofBytes_byte (l : List Byte) (k : Nat) : BitVec.ofNat 8 (ofBytes l / 2 ^ (8 * k)) = l.getD k 0 := by
  induction l generalizing k with
  | nil => simp [ofBytes]
  | cons b l ih =>
    cases k with
    | zero =>
      apply BitVec.eq_of_toNat_eq
      have hb : b.toNat < 256 := b.isLt
      simp [ofBytes]
      omega
    | succ k =>
      have hstep : ofBytes (b :: l) / 2 ^ (8 * (k + 1)) = ofBytes l / 2 ^ (8 * k) := by
        have hb : b.toNat < 256 := b.isLt
        rw [Nat.mul_add, Nat.pow_add, Nat.mul_comm, ← Nat.div_div_eq_div_mul, ofBytes]
        congr 1
        omega
      rw [hstep, ih, List.getD_cons_succ]

/-! ## The bytes of a line -/

theorem getLsbD_lineByte (l : Line) (i : Nat) {j : Nat} (hj : j < 8) : (lineByte l i).getLsbD j = l.getLsbD (8 * i + j) := by
  rw [lineByte, BitVec.getLsbD_ofNat, Nat.testBit_div_two_pow, Nat.add_comm, BitVec.getLsbD]
  simp [hj]

/-- A line is its 64 bytes. -/
theorem line_ext {a b : Line} (h : ∀ i < 64, lineByte a i = lineByte b i) : a = b := by
  refine BitVec.eq_of_getLsbD_eq fun j hj => ?_
  have hbyte := congrArg (BitVec.getLsbD · (j % 8)) (h (j / 8) (by omega))
  simpa only [getLsbD_lineByte _ _ (Nat.mod_lt j (by decide : 0 < 8)), Nat.div_add_mod] using hbyte

theorem testBit_spread (n : Nat) (mask : BitVec 64) : spread n mask < 2 ^ (8 * n) ∧
    ∀ j, (spread n mask).testBit j = (decide (j < 8 * n) && mask.getLsbD (j / 8)) := by
  induction n with
  | zero => simp [spread]
  | succ n ih =>
    obtain ⟨hlt, hbit⟩ := ih
    have hstep : spread (n + 1) mask = 2 ^ (8 * n) * (if mask.getLsbD n then 2 ^ 8 - 1 else 0) + spread n mask := by
      simp only [spread, List.range_succ, List.foldl_append, List.foldl_cons, List.foldl_nil]
      split <;> omega
    constructor
    · rw [hstep, Nat.mul_add, Nat.pow_add]
      split <;> omega
    · intro j
      rw [hstep, Nat.testBit_two_pow_mul_add _ hlt]
      by_cases hj : j < 8 * n
      · rw [if_pos hj, hbit]
        simp [hj, show j < 8 * (n + 1) by omega]
      · rw [if_neg hj]
        by_cases hj' : j < 8 * (n + 1)
        · rw [show j / 8 = n by omega]
          cases mask.getLsbD n
          · simp
          · simp only [if_true, Nat.testBit_two_pow_sub_one, hj']
            simp
            omega
        · rw [decide_eq_false hj']
          cases mask.getLsbD n
          · simp
          · simp only [if_true, Nat.testBit_two_pow_sub_one]
            simp
            omega

/-- A merged line holds the new line's byte where the mask names it. -/
theorem lineByte_mergeLine (old new : Line) (mask : BitVec 64) {i : Nat} (hi : i < 64) :
    lineByte (mergeLine old new mask) i = if mask.getLsbD i then lineByte new i else lineByte old i := by
  refine BitVec.eq_of_getLsbD_eq fun j hj => ?_
  have hm : (BitVec.ofNat 512 (spread 64 mask)).getLsbD (8 * i + j) = mask.getLsbD i := by
    rw [BitVec.getLsbD_ofNat, (testBit_spread 64 mask).2, show (8 * i + j) / 8 = i by omega]
    simp [show 8 * i + j < 512 by omega]
  rw [getLsbD_lineByte _ _ hj, mergeLine, BitVec.getLsbD_or, BitVec.getLsbD_and, BitVec.getLsbD_and, BitVec.getLsbD_not, hm]
  cases mask.getLsbD i <;> simp [getLsbD_lineByte _ _ hj, show 8 * i + j < 512 by omega]

/-- Merging twice is merging what was merged. -/
theorem mergeLine_mergeLine (a b c : Line) (m m' : BitVec 64) :
    mergeLine (mergeLine a b m) c m' = mergeLine a (mergeLine b c m') (m ||| m') := by
  refine line_ext fun i hi => ?_
  simp only [lineByte_mergeLine _ _ _ hi, BitVec.getLsbD_or]
  cases m.getLsbD i <;> cases m'.getLsbD i <;> rfl

/-- The bytes of a line that holds a number from byte i on. -/
theorem lineByte_lineAt (i v : Nat) {j : Nat} (hij : i ≤ j) (hj : j < 64) :
    lineByte (lineAt i v) j = BitVec.ofNat 8 (v / 2 ^ (8 * (j - i))) := by
  refine BitVec.eq_of_getLsbD_eq fun k hk => ?_
  rw [getLsbD_lineByte _ _ hk, lineAt, BitVec.getLsbD_ofNat, BitVec.getLsbD_ofNat, Nat.testBit_mul_two_pow, Nat.testBit_div_two_pow,
    show 8 * j + k - 8 * i = k + 8 * (j - i) by omega]
  simp [hk, show 8 * j + k < 512 by omega, show 8 * i ≤ 8 * j + k by omega]

theorem getLsbD_byteMask (i n j : Nat) (hj : j < 64) : (byteMask i n).getLsbD j = decide (i ≤ j ∧ j < i + n) := by
  rw [byteMask, BitVec.getLsbD_ofNat, Nat.testBit_mul_two_pow, Nat.testBit_two_pow_sub_one, decide_eq_true hj, Bool.true_and,
    ← Bool.decide_and]
  exact decide_eq_decide.2 (by omega)

theorem lineByte_stored (m : Memory) (line : Nat) {i : Nat} (hi : i < 64) : lineByte (m.stored line) i = Cells.get (line + i) m.cells := by
  refine BitVec.eq_of_getLsbD_eq fun j hj => ?_
  have hbyte := ofBytes_byte ((List.range 64).map fun i => Cells.get (line + i) m.cells) i
  rw [List.getD_eq_getElem _ _ (by simpa using hi), List.getElem_map, List.getElem_range] at hbyte
  rw [getLsbD_lineByte _ _ hj, Memory.stored, BitVec.getLsbD_ofNat, ← hbyte, BitVec.getLsbD_ofNat, Nat.testBit_div_two_pow, Nat.add_comm]
  simp [hj, show j + 8 * i < 512 by omega]

/-! ## The lines that an access touches -/

/-- An access of bytes touches a line. -/
theorem lineParts_ne_nil (a : Nat) {n : Nat} (hn : 0 < n) : lineParts a n ≠ [] := by
  refine List.ne_nil_of_mem (a := (0, Nat.min (64 - a % 64) n)) (List.mem_filterMap.2 ⟨0, by simp; omega, ?_⟩)
  simp
  omega

/-- An access that fits in one line has one part. -/
theorem lineParts_one {a n : Nat} (hn : 0 < n) (hfit : a % 64 + n ≤ 64) : lineParts a n = [(0, n)] := by
  have hlines : (a % 64 + n + 63) / 64 = 1 := by omega
  have hlen : Nat.min (64 - a % 64) n = n := Nat.min_eq_right (by omega)
  rw [lineParts, hlines, List.range_one, List.filterMap_cons]
  simp [hlen, hn]

theorem State.locate_ne_nil {s : State} {w : Who} {ea : Word} {k : Kind} {l : List (Nat × Nat)} {ps : List Piece} (hl : l ≠ [])
    (h : s.locate w ea k l = .ok ps) : ps ≠ [] := by
  cases l with
  | nil => exact absurd rfl hl
  | cons x l =>
    rw [State.locate] at h
    split at h
    · cases h
    · split at h
      · cases h
      · split at h
        · cases h
        · cases h
          exact List.cons_ne_nil _ _

/-- An access of bytes whose place is known has a piece. -/
theorem State.resolve_ne_nil {s : State} {w : Who} {x0 : Space} {ea : Word} {n : Nat} {k : Kind} {ps : List Piece} (hn : 0 < n)
    (h : s.resolve w x0 ea n k = .ok ps) : ps ≠ [] := by
  unfold State.resolve at h
  split at h
  · exact State.locate_ne_nil (lineParts_ne_nil _ hn) h
  · dsimp only at h
    split at h
    · cases h
    · cases h
      simpa using lineParts_ne_nil _ hn

end Sys2Proof.Machine
end

section
/-! PROOFS. Ordinary stores in the deferred store buffer (R55 to R60, R242). -/

namespace Sys2Proof.Machine

/-! ## The youngest line of a range -/

theorem updateFirst_append {α : Type} {p : α → Bool} {f : α → α} {l : List α} {x : α} (m : List α) (hl : ∀ y ∈ l, p y = false)
    (hx : p x = true) : updateFirst p f (l ++ x :: m) = l ++ f x :: m := by
  induction l with
  | nil => simp [updateFirst, hx]
  | cons y l ih =>
    rw [List.forall_mem_cons] at hl
    simp [updateFirst, hl.1, ih hl.2]

/-- A store that merges changes one line, the youngest of its range. -/
theorem Ctx.mergeable_split {x : Ctx} {pod key : Nat} {prot : Bool} (h : x.mergeable pod key prot = true) :
    ∃ old l young, x.dsb = old ++ l :: young ∧ l.pod = pod ∧ (∀ y ∈ young, y.pod ≠ pod) ∧
      ∀ f, updateLast (·.pod == pod) f x.dsb = old ++ f l :: young := by
  unfold Ctx.mergeable at h
  split at h
  case h_2 => cases h
  case h_1 l hfind =>
    obtain ⟨hl, young, old, hsplit, hyoung⟩ := List.find?_eq_some_iff_append.1 hfind
    refine ⟨old.reverse, l, young.reverse, ?_, by simpa using hl, by simpa using hyoung, fun f => ?_⟩
    · rw [← List.reverse_reverse x.dsb, hsplit]
      simp
    · rw [updateLast, hsplit, updateFirst_append (p := fun (y : DLine) => y.pod == pod) _ (by simpa using hyoung) hl]
      simp

/-! ## What a piece does to the buffer -/

/-- The state with another partition. -/
def State.withDsb (s : State) (ds : List DLine) (n : Nat) : State := { s with cx := { s.cx with dsb := ds, lineId := n } }

/-- The line that a piece opens. -/
def State.newLine (s : State) (p : Piece) (mask : BitVec 64) (data : Line) : DLine :=
  ⟨p.pod, mask, data, p.at_.key, p.at_.prot, false, s.cx.lineId, false⟩

/-- What a piece adds to a line. -/
def DLine.add (l : DLine) (mask : BitVec 64) (data : Line) : DLine := { l with mask := l.mask ||| mask, data := mergeLine l.data data mask }

/-- A piece joins the youngest line of its range, or opens a line while the partition has room. -/
theorem State.deferPiece_cases (s : State) (p : Piece) (mask : BitVec 64) (data : Line) (hroom : s.cx.dsb.length < 128) :
    (∃ old l young, s.cx.dsb = old ++ l :: young ∧ l.pod = p.pod ∧ (∀ y ∈ young, y.pod ≠ p.pod) ∧
      s.deferPiece p mask data = .ok (s.withDsb (old ++ l.add mask data :: young) s.cx.lineId)) ∨
    s.deferPiece p mask data = .ok (s.withDsb (s.cx.dsb ++ [s.newLine p mask data]) (s.cx.lineId + 1)) := by
  unfold State.deferPiece
  split
  case isTrue hmerge =>
    obtain ⟨old, l, young, hdsb, hpod, hyoung, hupd⟩ := Ctx.mergeable_split hmerge
    refine .inl ⟨old, l, young, hdsb, hpod, hyoung, ?_⟩
    dsimp only
    rw [hupd]
    rfl
  case isFalse => exact .inr (by rw [if_neg (by omega)]; rfl)

/-- A piece that finds no open line and no room needs the journal. -/
theorem State.deferPiece_full {s : State} {p : Piece} (mask : BitVec 64) (data : Line) (hmerge : s.cx.mergeable p.pod p.at_.key p.at_.prot = false)
    (hfull : 128 ≤ s.cx.dsb.length) {t : Trap} (ht : s.spillLine = .error t) : s.deferPiece p mask data = .error t := by
  rw [State.deferPiece, hmerge]
  simp [hfull, ht]

theorem State.spillLine_of_no_journal {s : State} {l : DLine} {ls : List DLine} (hdsb : s.cx.dsb = l :: ls)
    (h : flag s.cx.dsbjournal 0 = false ∨ 32768 ≤ s.cx.journal.length) : s.spillLine = .error (s.spillTrap 0x50) := by
  rw [State.spillLine, hdsb]
  exact if_pos (by simpa using h)

/-- Pieces for which the partition has room change the partition alone. -/
theorem State.deferAll_of_room (bs : List Byte) (ps : List Piece) (s : State) (hroom : s.cx.dsb.length + ps.length ≤ 128) :
    ∃ ds n, s.deferAll bs ps = .ok (s.withDsb ds n) := by
  induction ps generalizing s with
  | nil => exact ⟨s.cx.dsb, s.cx.lineId, rfl⟩
  | cons p ps ih =>
    rw [List.length_cons] at hroom
    have hpiece : ∃ ds n, s.deferPiece p p.mask (p.data bs) = .ok (s.withDsb ds n) ∧ ds.length ≤ s.cx.dsb.length + 1 := by
      rcases s.deferPiece_cases p p.mask (p.data bs) (by omega) with ⟨old, l, young, hdsb, -, -, h⟩ | h
      · exact ⟨_, _, h, by simp [hdsb]⟩
      · exact ⟨_, _, h, by simp⟩
    obtain ⟨ds, n, hp, hlen⟩ := hpiece
    obtain ⟨ds', n', hrest⟩ := ih (s.withDsb ds n) (by change ds.length + _ ≤ _; omega)
    exact ⟨ds', n', by rw [State.deferAll, hp]; exact hrest⟩

/-! ## What own ordinary loads see (R57) -/

/-- What is seen of a range once a line is laid over what lies before it. -/
def DLine.over (pod : Nat) (acc : BitVec 64 × Line) (l : DLine) : BitVec 64 × Line :=
  if l.pod = pod then (acc.1 ||| l.mask, mergeLine acc.2 l.data l.mask) else acc

/-- What the journal holds of a range, under the partition. -/
def State.journalView (s : State) (pod : Nat) : BitVec 64 × Line := ((s.journalOf pod).map (·.2)).foldl (DLine.over pod) (0, 0)

theorem State.deferred_eq (s : State) (pod : Nat) : s.deferred pod = s.cx.dsb.foldl (DLine.over pod) (s.journalView pod) :=
  List.foldl_append ..

theorem State.deferred_withDsb (s : State) (ds : List DLine) (n pod : Nat) :
    (s.withDsb ds n).deferred pod = ds.foldl (DLine.over pod) (s.journalView pod) := State.deferred_eq _ _

/-- Bytes laid over what is seen of a range. -/
def viewAdd (acc : BitVec 64 × Line) (mask : BitVec 64) (data : Line) : BitVec 64 × Line := (acc.1 ||| mask, mergeLine acc.2 data mask)

/-- Bytes added to a line are laid over the line. -/
theorem DLine.over_add (pod : Nat) (acc : BitVec 64 × Line) (l : DLine) (mask : BitVec 64) (data : Line) :
    DLine.over pod acc (l.add mask data) = if l.pod = pod then viewAdd (DLine.over pod acc l) mask data else acc := by
  unfold DLine.over DLine.add viewAdd
  by_cases h : l.pod = pod
  · simp [h, mergeLine_mergeLine, BitVec.or_assoc]
  · simp [h]

theorem foldl_over_of_ne {pod : Nat} {l : List DLine} (h : ∀ x ∈ l, x.pod ≠ pod) (acc : BitVec 64 × Line) :
    l.foldl (DLine.over pod) acc = acc := by
  induction l generalizing acc with
  | nil => rfl
  | cons x l ih =>
    rw [List.forall_mem_cons] at h
    rw [List.foldl_cons, DLine.over, if_neg h.1, ih h.2]

/-- A deferred piece is laid over what is seen of its line, and changes nothing else that is seen. -/
theorem State.deferred_of_deferPiece {s t : State} {p : Piece} {mask : BitVec 64} {data : Line} (hroom : s.cx.dsb.length < 128)
    (h : s.deferPiece p mask data = .ok t) (q : Nat) :
    t.deferred q = if q = p.pod then viewAdd (s.deferred q) mask data else s.deferred q := by
  rcases s.deferPiece_cases p mask data hroom with ⟨old, l, young, hdsb, hpod, hyoung, ht⟩ | ht
  · obtain rfl := Except.ok.inj (ht.symm.trans h)
    rw [State.deferred_withDsb, State.deferred_eq, hdsb, List.foldl_append, List.foldl_append, List.foldl_cons, List.foldl_cons,
      DLine.over_add, hpod]
    by_cases hq : q = p.pod
    · subst hq
      rw [foldl_over_of_ne hyoung, foldl_over_of_ne hyoung, if_pos rfl, if_pos rfl]
    · rw [if_neg (Ne.symm hq), if_neg hq, DLine.over, if_neg (hpod ▸ Ne.symm hq)]
  · obtain rfl := Except.ok.inj (ht.symm.trans h)
    rw [State.deferred_withDsb, State.deferred_eq, List.foldl_append, List.foldl_cons, List.foldl_nil, DLine.over]
    by_cases hq : q = p.pod
    · rw [if_pos hq]
      exact if_pos hq.symm
    · rw [if_neg hq]
      exact if_neg (Ne.symm hq)

/-! ## The store (R242) -/

theorem State.storeOrd_of_deferAll {s : State} {x0 : Space} {ea : Word} {bs : List Byte} {ps : List Piece} (hspace : x0 ≠ .u)
    (hps : s.resolve s.who x0 ea bs.length .write = .ok ps) :
    (∀ t, s.deferAll bs ps = .ok t → s.storeOrd x0 ea bs = t) ∧ ∀ t, s.deferAll bs ps = .error t → s.storeOrd x0 ea bs = s.trap t := by
  unfold State.storeOrd
  rw [hps]
  exact ⟨fun t ht => by simp [hspace, ht], fun t ht => by simp [hspace, ht]⟩

section Store
variable {i : Instr} {s : State} {f : StoreForm} {ps : List Piece} (h : storeForm s i = some f) (hweak : f.strong = false)
  (hspace : f.space ≠ .u) (hi : Issues i s) (hps : (s.begun i).resolve (s.begun i).who f.space f.ea f.n .write = .ok ps)
include h hweak hspace hi hps

/-- An ordinary store outside the unit store defers its pieces, or faults. -/
theorem exec_of_deferred_store :
    (∀ t, (s.begun i).deferAll (bytesOf f.n f.data.toNat) ps = .ok t → exec i s = .next t) ∧
      ∀ x, (s.begun i).deferAll (bytesOf f.n f.data.toNat) ps = .error x → exec i s = .next ((s.begun i).trap x) := by
  obtain ⟨hok, hfault⟩ := State.storeOrd_of_deferAll (s := s.begun i) (bs := bytesOf f.n f.data.toNat) (ea := f.ea) hspace
    (by rw [length_bytesOf]; exact hps)
  rw [exec_of_storeForm hi h, hweak]
  exact ⟨fun t ht => congrArg _ (hok t ht), fun x hx => congrArg _ (hfault x hx)⟩

/-- A full partition whose oldest line has no place in the journal (R60). -/
theorem exec_of_full_partition {l : DLine} {ls : List DLine} (hdsb : s.cx.dsb = l :: ls) (hfull : 128 ≤ s.cx.dsb.length)
    (hmerge : ∀ p ∈ ps, s.cx.mergeable p.pod p.at_.key p.at_.prot = false)
    (hjournal : flag s.cx.dsbjournal 0 = false ∨ 32768 ≤ s.cx.journal.length) :
    exec i s = .next ((s.begun i).trap ((s.begun i).spillTrap 0x50)) := by
  have hn : 0 < f.n := by
    unfold storeForm at h
    split at h <;> cases h <;> exact Nat.succ_pos _
  obtain ⟨p, ps, rfl⟩ := List.exists_cons_of_ne_nil (State.resolve_ne_nil hn hps)
  have hnot : (s.begun i).cx.mergeable p.pod p.at_.key p.at_.prot = false := by
    simpa [Ctx.mergeable] using hmerge p List.mem_cons_self
  have hspill := State.spillLine_of_no_journal (s := s.begun i) (l := l) (ls := ls) (by simpa using hdsb) (by simpa using hjournal)
  refine (exec_of_deferred_store h hweak hspace hi hps).2 _ ?_
  rw [State.deferAll, State.deferPiece_full _ _ hnot (by simpa using hfull) hspill]

end Store

/-- Settles O16: an ordinary store defers its pieces one by one, and each is laid over what own loads see of its line. -/
theorem deferredStores : Obligations.DeferredStores := by
  unfold Obligations.DeferredStores
  refine ⟨fun i s f ps => ?store, fun s t p mask data hroom hdefer => ?seen⟩
  case store =>
    intro b h hweak hspace hi hps
    obtain ⟨hok, hfault⟩ := exec_of_deferred_store h hweak hspace hi hps
    refine ⟨hok, hfault, fun l ls => exec_of_full_partition h hweak hspace hi hps, fun hroom => ?_⟩
    obtain ⟨ds, n, hds⟩ := (s.begun i).deferAll_of_room (bytesOf f.n f.data.toNat) ps (by simpa using hroom)
    exact ⟨_, hok _ hds, s.begun_mem i, rfl, s.begun_fresh i, s.begun_inflight i⟩
  case seen =>
    have hview := State.deferred_of_deferPiece hroom hdefer
    exact ⟨(hview p.pod).trans (if_pos rfl), fun q hq => (hview q).trans (if_neg hq)⟩

end Sys2Proof.Machine
end

section
/-! PROOFS. Accesses to the unit, die and cluster stores (R12, R14, R16), and fixed-point cells there (R70, R245). -/

namespace Sys2Proof.Machine

/-! ## The place of a qualified access -/

/-- A qualified access lies in the stores, above HBM and below the registers, and keeps its place in a line. -/
theorem scratch_bounds {c n a : Nat} {x0 : Space} {ea : Word} (hc : c < 18432) (h : scratch c x0 ea n = some a) :
    2 ^ 40 ≤ a ∧ a + n ≤ sysBase ∧ a % 64 = ea.toNat % 64 := by
  have hunit : ∀ g, unitSize g ≤ 2 ^ 22 := fun g => by unfold unitSize; split <;> decide
  have hg := hunit (c / 4)
  have hi := hunit (ea.toNat / 2 ^ 28)
  cases x0 with
  | g => cases h
  | u =>
    obtain ⟨hfit, h⟩ := Option.ite_none_right_eq_some.1 h
    cases h
    unfold unitStore sysBase
    omega
  | d =>
    obtain ⟨hfit, h⟩ := Option.ite_none_right_eq_some.1 h
    cases h
    unfold dieStore dieOf sysBase
    omega
  | c =>
    simp only [scratch] at h
    split at h
    · obtain ⟨hfit, h⟩ := Option.ite_none_right_eq_some.1 h
      cases h
      unfold clusterStore clusterOf sysBase
      omega
    · split at h
      · obtain ⟨hfit, h⟩ := Option.ite_none_right_eq_some.1 h
        cases h
        unfold unitStore clusterOf sysBase
        omega
      · cases h

/-- The one piece of a qualified access that stays in a line. -/
def State.scratchPiece (s : State) (k : Kind) (x0 : Space) (ea : Word) (n a : Nat) : Piece :=
  ⟨0, n, ea + word 0, x0, ⟨s.device, a + 0, 0, false, scratchInfo s.who x0 k⟩⟩

theorem State.resolve_scratch {s : State} {x0 : Space} {ea : Word} {n a : Nat} (k : Kind) (h : scratch s.cid x0 ea n = some a)
    (hn : 0 < n) (hfit : a % 64 + n ≤ 64) : s.resolve s.who x0 ea n k = .ok [s.scratchPiece k x0 ea n a] := by
  have h' : scratch s.who.ctx x0 ea n = some a := h
  have hg : x0 ≠ .g := fun hg => by cases hg; cases h
  unfold State.resolve
  split
  · exact absurd rfl hg
  · rw [h']
    dsimp only
    rw [lineParts_one hn hfit]
    rfl

theorem State.plain_begun {s : State} (hp : s.plain) (i : Instr) : (s.begun i).plain := by
  simpa [State.plain] using hp

/-! ## What a state with nothing deferred and no error leaves out (R40, R49, R61, R103) -/

theorem State.poisonAt_clean {s : State} (h : s.mem.poison = []) (p : Piece) (mask : BitVec 64) : s.poisonAt p mask = none := by
  have hmask : s.poisonMask p.line = 0 := by simp [State.poisonMask, h]
  have hfind : ((List.range 64).find? fun i => (s.poisonMask p.line &&& mask).getLsbD i) = none := by simp [hmask]
  rw [State.poisonAt, hfind]

theorem State.punch_empty {s : State} (hdsb : s.cx.dsb = []) (hjournal : s.cx.journal = []) (pod : Nat) (mask : BitVec 64) :
    s.punch pod mask = s := by
  have hlines : ∀ ds, ({ s with cx := { s.cx with dsb := ds } } : State).journalOf pod = [] := fun ds => by
    simp [State.journalOf, State.journalLines, hjournal]
  rw [State.punch, hlines, hdsb, List.filter_nil, List.map_nil, List.foldl_nil, ← hdsb]

/-- The state with another record of its checkpoint. -/
def State.withCkpt (s : State) (c : Option Checkpoint) : State := { s with cx := { s.cx with ckpt := c } }

/-- With nothing deferred a strong access only marks an outbound effect (R61, R64). -/
theorem State.strongEffect_empty {s : State} (hdsb : s.cx.dsb = []) (hjournal : s.cx.journal = []) (p : Piece) :
    ∃ c, s.strongEffect p = s.withCkpt c := by
  rw [State.strongEffect, State.punch_empty hdsb hjournal]
  split
  · exact ⟨s.cx.ckpt, rfl⟩
  · exact ⟨_, rfl⟩

section Scratch
variable {s : State} {k : Kind} {x0 : Space} {ea : Word} {n a : Nat}

theorem State.scratchPiece_line : (s.scratchPiece k x0 ea n a).line = a / 64 * 64 := rfl
theorem State.scratchPiece_off : (s.scratchPiece k x0 ea n a).off = a % 64 := rfl

variable (hp : s.plain)
include hp

/-- A write to the stores waits for nothing when none is on its way. -/
theorem State.writeWaits_scratch : s.writeWaits [s.scratchPiece k x0 ea n a] = false := by
  obtain ⟨-, -, -, -, -, -, -, hremotes⟩ := hp
  have hunacked : s.unackedAt (s.scratchPiece k x0 ea n a).pod (s.scratchPiece k x0 ea n a).mask = false := by
    refine List.any_eq_false.2 fun r hr => ?_
    by_cases hc : r.ctx = s.cid
    · simp [hremotes r hr hc]
    · simp [hc]
  have hcounted : (s.scratchPiece k x0 ea n a).counted = false := rfl
  have hdev : (s.scratchPiece k x0 ea n a).at_.dev = s.device := rfl
  simp [State.writeWaits, hcounted, hdev, hunacked]

variable (h : scratch s.cid x0 ea n = some a) (hn : 0 < n)
include h hn

theorem State.scratchPiece_in_stores : 2 ^ 40 ≤ a / 64 * 64 ∧ a / 64 * 64 < sysBase := by
  obtain ⟨-, -, -, -, -, hcid, -⟩ := hp
  obtain ⟨hlo, hhi, -⟩ := scratch_bounds hcid h
  unfold sysBase at hhi ⊢
  omega

/-- The stores have atomic units. -/
theorem State.noAtomicUnit_scratch : s.noAtomicUnit (s.scratchPiece k x0 ea n a) = false := by
  have hline := (State.scratchPiece_in_stores hp h hn).2
  rw [State.noAtomicUnit, State.scratchPiece_line, decide_eq_false (by omega), Bool.and_false]

/-- The value at home is that of the bytes stored. -/
theorem State.homeValue_scratch (hfit : a % 64 + n ≤ 64) : s.homeValue (s.scratchPiece k x0 ea n a) = ofBytes (s.bytesAt a n) := by
  obtain ⟨hlo, hhi⟩ := State.scratchPiece_in_stores hp h hn
  rw [State.homeValue, State.scratchPiece_line, State.scratchPiece_off, State.plainLine, if_neg (by omega), State.readLine, State.decrypt,
    if_neg (by omega)]
  refine congrArg ofBytes (List.map_congr_left fun j hj => ?_)
  have hj : j < n := List.mem_range.1 hj
  rw [lineByte_stored _ _ (by omega), State.byteAt]
  congr 1
  omega

end Scratch

/-- A write in one line of the stores writes its bytes and no other. -/
theorem State.perform_wrote {u : State} (hs : u.mem.soft = []) (hh : u.mem.hard = []) (hwf : u.mem.wf = true) (w : Writer) (key : Nat)
    {a n : Nat} (v : Nat) (hlo : 2 ^ 40 ≤ a / 64 * 64) (hhi : a / 64 * 64 < sysBase) (hfit : a % 64 + n ≤ 64) :
    (u.perform w (a / 64 * 64) key false (byteMask (a % 64) n) (lineAt (a % 64) v) 0).Wrote u a (bytesOf n v) := by
  intro x
  rw [State.byteAt, State.perform_mem_clean hs hh _ _ _ _ _ hhi, length_bytesOf]
  dsimp only
  have hstore : ¬ a / 64 * 64 < 2 ^ 40 := by omega
  rw [Memory.get_setStored _ _ _ _ _ hwf, storedMask, if_neg hstore]
  by_cases hx : a ≤ x ∧ x < a + n
  · have hmask : (byteMask (a % 64) n).getLsbD (x - a / 64 * 64) = true := by
      rw [getLsbD_byteMask _ _ _ (by omega)]
      exact decide_eq_true (by omega)
    rw [if_pos hx, if_pos ⟨by omega, by omega, hmask⟩, State.writtenLine, State.encrypt, if_neg hstore,
      lineByte_mergeLine _ _ _ (by omega), if_pos hmask, lineByte_lineAt _ _ (by omega) (by omega), getD_bytesOf _ _ _ (by omega)]
    congr 4
    omega
  · rw [if_neg hx, if_neg]
    · rfl
    · rintro ⟨hl, hr, hmask⟩
      rw [getLsbD_byteMask _ _ _ (by omega)] at hmask
      have := of_decide_eq_true hmask
      omega

/-! ## Cells (R245) -/

section Cells
variable {s : State} {x0 : Space} {ea : Word} {a : Nat} (hp : s.plain) (h : scratch s.cid x0 ea 32 = some a) (halign : ea.toNat % 32 = 0)
include hp h halign

theorem cell_in_line : a % 64 + 32 ≤ 64 := by
  obtain ⟨-, -, -, -, -, hcid, -⟩ := hp
  obtain ⟨-, -, hmod⟩ := scratch_bounds hcid h
  omega

/-- An update of a cell of the stores is one write there. -/
theorem State.cellUpdate_scratch (op : FxOp) (x : Word) : ∃ c w, s.cellUpdate op x0 ea x =
    (s.withCkpt c).perform w (a / 64 * 64) 0 false (byteMask (a % 64) 32)
      (lineAt (a % 64) (fxNew op (ofBytes (s.bytesAt a 32)) x)) 0 := by
  have hfit := cell_in_line hp h halign
  have hhome := State.homeValue_scratch (k := .write) hp h (by decide) hfit
  have hwaits := State.writeWaits_scratch (k := .write) (x0 := x0) (ea := ea) (n := 32) (a := a) hp
  have hunit := State.noAtomicUnit_scratch (k := .write) hp h (by decide)
  obtain ⟨hsoft, hhard, hpoison, hdsb, hjournal, -⟩ := hp
  obtain ⟨c, hc⟩ := State.strongEffect_empty hdsb hjournal (s.scratchPiece .write x0 ea 32 a)
  have hdev : (s.scratchPiece .write x0 ea 32 a).at_.dev = s.device := rfl
  rw [State.cellUpdate, if_neg (by omega), State.resolve_scratch .write h (by decide) hfit]
  simp only [hunit, State.unlessWaits, hwaits, State.cellAt, hdev, State.touch_clean hsoft hhard, State.poisonAt_clean hpoison, ite_self,
    hc, hhome, Bool.false_eq_true, if_false, if_true]
  exact ⟨_, _, rfl⟩

theorem State.cellRead_scratch (d : Dst) : s.cellRead x0 ea d = s.push .long d (word (fxRead (ofBytes (s.bytesAt a 32)))) := by
  have hfit := cell_in_line hp h halign
  have hhome := State.homeValue_scratch (k := .read) hp h (by decide) hfit
  obtain ⟨hsoft, hhard, hpoison, -⟩ := hp
  have hdev : (s.scratchPiece .read x0 ea 32 a).at_.dev = s.device := rfl
  rw [State.cellRead, if_neg (by omega), State.resolve_scratch .read h (by decide) hfit]
  simp only [hdev, State.touch_clean hsoft hhard, State.poisonAt_clean hpoison, hhome, if_true]

end Cells

theorem State.bytesAt_begun (s : State) (i : Instr) (a n : Nat) : (s.begun i).bytesAt a n = s.bytesAt a n := by
  simp [State.bytesAt, State.byteAt]

/-- Settles O18: an update of a cell of the stores is one write of its 32 bytes, a read pushes the value of the bytes stored. -/
theorem scratchCells : Obligations.ScratchCells := by
  unfold Obligations.ScratchCells
  intro i s op x0 ea x a d y g e
  constructor
  case left =>
    intro hform hi hp halign h
    have hb := State.plain_begun hp i
    have h' : scratch (s.begun i).cid x0 ea 32 = some a := by rw [s.begun_cid]; exact h
    obtain ⟨hlo, hhi⟩ := State.scratchPiece_in_stores hb h' (by decide)
    obtain ⟨c, w, hupd⟩ := State.cellUpdate_scratch hb h' halign op x
    obtain ⟨hsoft, hhard, -, -, -, -, hwf, -⟩ := id hb
    refine ⟨_, exec_of_cellForm hi hform, ?_, ?_⟩
    · have hwrote := State.perform_wrote (u := (s.begun i).withCkpt c) hsoft hhard hwf w 0
        (fxNew op (ofBytes ((s.begun i).bytesAt a 32)) x) hlo hhi (cell_in_line hb h' halign)
      rw [hupd, ← State.bytesAt_begun s i]
      exact fun z => (hwrote z).trans (by simp [State.byteAt, State.withCkpt])
    · obtain ⟨cl, ds, m, is, o, ag, ht⟩ := ((s.begun i).withCkpt c).perform_sameButErrors w 0 (byteMask (a % 64) 32)
        (lineAt (a % 64) (fxNew op (ofBytes ((s.begun i).bytesAt a 32)) x)) 0 hhi
      rw [hupd, ht]
      exact ⟨rfl, s.begun_fresh i⟩
  case right =>
    rintro rfl hi hp halign h
    have h' : scratch (s.begun (.fxrd g d y e x0)).cid x0 (s.readSrc y) 32 = some a := by rw [State.begun_cid]; exact h
    rw [exec_of_fxrd hi, State.cellRead_scratch (State.plain_begun hp _) h' halign, State.bytesAt_begun]

end Sys2Proof.Machine
end

section
/-! PROOFS. Atomics (R67, R244): a release whose own stores change the number of the device. -/

namespace Sys2Proof.Machine

/-! ## A store to DEVNUM before a release (R423)

A context of device 0, lasers dark, has an ordinary store of 1 to DEVNUM in its partition and issues a release atomic on its own unit store.
The address is translated first, to a place of device 0; publishing the stores then makes the device number 1, so that the place is taken
for a peer's. -/

/-- The deferred store: byte 0 of the line of DEVNUM, the value 1. -/
def devnumStore : DLine := ⟨sysBase + 0x100, 1, 1, 0, false, false, 0, false⟩

/-- The state right after reset, in a bundle whose checks have been made, with that store deferred. -/
def renumbering : State :=
  { State.reset with cx := { Ctx.reset with dsb := [devnumStore] }, issue := { State.reset.issue with checked := true } }

/-- The release atomic, at address 0 of the unit store. -/
def releaseAtomic : Instr := .amoAdd 0 .u true .rel (.s 1) (.s 2) false false .dev

/-- Its piece, found while the device has number 0. -/
def renumberedPiece : Piece := (renumbering.begun releaseAtomic).scratchPiece .write .u 0 8 (unitStore 0)

/-- A result with its value has been pushed. -/
def pushesValue : Host.Outcome State Fault Refusal → Bool
  | .next t => t.cx.fresh.any (·.ready)
  | _ => false

theorem issues_releaseAtomic : Issues releaseAtomic renumbering := by
  unfold Issues
  decide +kernel

/-- The store is published, and the device has another number. -/
theorem renumbering_published : (renumbering.begun releaseAtomic).publish.published = true ∧
    (renumbering.begun releaseAtomic).publish.markOutbound.device = 1 := by decide +kernel

/-- The atomic pushes no value: it awaits one from device 0. -/
theorem releaseAtomic_awaits : pushesValue (exec releaseAtomic renumbering) = false := by decide +kernel

/-- Refutes O17: a release atomic whose own deferred store renumbers the device does not perform the atomic at the home it has found. -/
theorem not_atomics : ¬ Obligations.Atomics := by
  unfold Obligations.Atomics
  rintro ⟨-, hplaces, -⟩
  have hform : amoForm renumbering releaseAtomic = some ⟨.add, .u, true, .rel, 0, 0, 0⟩ := by decide +kernel
  have hplace := State.resolve_scratch (s := renumbering.begun releaseAtomic) (x0 := .u) (ea := 0) (n := 8) (a := unitStore 0) .write
    (by decide +kernel) (by decide) (by decide)
  obtain ⟨-, -, hrelease⟩ := hplaces releaseAtomic renumbering _ renumberedPiece [] hform issues_releaseAtomic (by decide) hplace
  obtain ⟨-, hpublished⟩ := hrelease (by decide +kernel) (.inl rfl)
  obtain ⟨t, ht, -, hhome, -⟩ := hpublished renumbering_published.1
  obtain ⟨hdone, -⟩ := hhome (by decide +kernel) (by decide +kernel)
  have hpushes : pushesValue (.next t) = true := by
    rw [hdone (by decide +kernel)]
    decide +kernel
  rw [← ht, releaseAtomic_awaits] at hpushes
  cases hpushes

end Sys2Proof.Machine
end

section
/-! PROOFS. Buffer pairs (R63, R336, R337): what a write at a home leaves of the context, what joins and landings leave of it, and the
instructions themselves. -/

namespace Sys2Proof.Machine

/-! ## Writes of system registers keep the current context but for its parity state (R136, R137, R143) -/

/-- t has the context of s, but for its count of protected writes and its sticky bits. -/
def State.SameCtx (s t : State) : Prop := ∃ n h p, t.cx = { s.cx with parity := n, nohold := h, nopar := p }

theorem State.SameCtx.of_cx {s t : State} (h : t.cx = s.cx) : s.SameCtx t := ⟨_, _, _, h⟩

theorem State.SameCtx.refl (s : State) : s.SameCtx s := .of_cx rfl

theorem State.SameCtx.trans {s t u : State} (h : s.SameCtx t) (h' : t.SameCtx u) : s.SameCtx u := by
  obtain ⟨_, _, _, h⟩ := h
  obtain ⟨_, _, _, h'⟩ := h'
  exact ⟨_, _, _, by rw [h', h]⟩

theorem State.SameCtx.ite {c : Prop} [Decidable c] {s t u : State} (h : s.SameCtx t) (h' : s.SameCtx u) :
    s.SameCtx (if c then t else u) := by
  split
  · exact h
  · exact h'

theorem State.sameCtx_foldl {α : Type} (f : State → α → State) (hf : ∀ s x, State.SameCtx s (f s x)) (l : List α) (s : State) :
    s.SameCtx (l.foldl f s) := by
  induction l generalizing s with
  | nil => exact .refl s
  | cons x l ih => exact (hf s x).trans (ih (f s x))

/-- A change of the parity state of some context. -/
theorem State.modCtx_sameCtx (s : State) (c : Nat) (f : Ctx → Ctx) (hf : ∀ x, ∃ n h p, f x = { x with parity := n, nohold := h, nopar := p }) :
    s.SameCtx (s.modCtx c f) := by
  unfold State.modCtx State.setCtx
  split
  case isTrue hc =>
    subst hc
    rw [State.ctx_cid]
    exact hf s.cx
  case isFalse => exact .of_cx rfl

theorem State.setSticky_sameCtx (s : State) (c : Nat) (k : AckKind) (dev : Nat) : s.SameCtx (s.setSticky c k dev) := by
  cases k with
  | applied => exact .refl s
  | noHold => exact s.modCtx_sameCtx _ _ fun x => ⟨_, _, _, rfl⟩
  | noPar => exact s.modCtx_sameCtx _ _ fun x => ⟨_, _, _, rfl⟩

theorem State.settleCtx_sameCtx (s : State) (c gen : Nat) (k : AckKind) (dev : Nat) : s.SameCtx (s.settleCtx c gen k dev) := by
  unfold State.settleCtx
  split
  · exact (s.modCtx_sameCtx _ _ fun x => ⟨_, _, _, rfl⟩).trans (State.setSticky_sameCtx _ _ _ _)
  · exact .refl s

theorem State.settleCounted_sameCtx (s : State) (c gen : Nat) (op : Option Nat) (k : AckKind) (dev : Nat) :
    s.SameCtx (s.settleCounted c gen op k dev) := by
  have hprot : ∀ p, s.SameCtx { s with prot := p } := fun p => .of_cx rfl
  cases op with
  | none => exact s.settleCtx_sameCtx c gen k dev
  | some o =>
    rw [State.settleCounted]
    split
    · exact .ite (.trans (hprot _) (State.setSticky_sameCtx _ _ _ _)) (hprot _)
    · split
      · exact State.SameCtx.trans (hprot _) (State.settleCtx_sameCtx _ _ _ _ _)
      · exact .refl s

theorem State.settleLost_sameCtx (s : State) (dev : Nat) : s.SameCtx (s.settleLost dev) := by
  unfold State.settleLost
  refine .trans (t := { s.dropDeltas dev with prot := _ }) (.of_cx rfl) (State.sameCtx_foldl _ (fun t u => ?_) _ _)
  split
  · exact State.settleCounted_sameCtx _ _ _ _ _ _
  · exact .of_cx rfl

theorem State.writeProtctl_sameCtx (s : State) (v : Word) : s.SameCtx (s.writeProtctl v) := by
  unfold State.writeProtctl
  refine .trans (t := { s with prot := _ }) (.of_cx rfl) (State.sameCtx_foldl _ (fun t m => ?_) _ _)
  split
  · exact t.settleLost_sameCtx _
  · exact .refl t

@[simp] theorem State.writeDevnum_cx (s : State) (d : Nat) : (s.writeDevnum d).cx = s.cx := by
  unfold State.writeDevnum
  split
  · rfl
  · dsimp only
    split <;> rfl

@[simp] theorem State.recheck_cx (s : State) : s.recheck.cx = s.cx := by
  have hif : ∀ (b : Bool) (k : Nat) (t : State), (if b = true then t.interrupt k else t).cx = t.cx := fun b k t => by
    cases b <;> simp
  rw [State.recheck]
  simp only [hif]

@[simp] theorem State.mailbox_cx (s : State) (therm : Bool) (v : Word) : (s.mailbox therm v).cx = s.cx := by
  unfold State.mailbox
  split <;> (dsimp only; split <;> rfl)

@[simp] theorem State.writePermits_cx (s : State) (n : Nat) (v : Word) : (s.writePermits n v).cx = s.cx := by
  unfold State.writePermits
  split <;> rfl

@[simp] theorem State.keyLoad_cx (s : State) : s.keyLoad.cx = s.cx := by
  unfold State.keyLoad
  dsimp only
  split <;> rfl

@[simp] theorem State.keyErase_cx (s : State) : s.keyErase.cx = s.cx := by
  unfold State.keyErase
  dsimp only
  split <;> rfl

@[simp] theorem State.startEngines_cx (s : State) (a : Nat) (v : Word) : (s.startEngines a v).cx = s.cx := by
  unfold State.startEngines
  split
  case h_4 =>
    dsimp only
    split
    · rfl
    · split
      · rfl
      · split <;> rfl
  all_goals simp only [apply_ite State.cx, State.enqueue_cx, ite_self]

@[simp] theorem State.writeFabctl_cx (s : State) (v bits : Word) : (s.writeFabctl v bits).cx = s.cx := by
  simp only [State.writeFabctl, apply_ite State.cx, State.enqueue_cx, State.enqueueAll_cx, ite_self]

/-- No register but PROTCTL touches a context's own state. -/
theorem State.regWrite_cx (s : State) (c : Option Nat) (strong : Bool) {a : Nat} (bmask : BitVec 8) (v : Word) (ha : a ≠ 0x1200) :
    (s.regWrite c strong a bmask v).cx = s.cx := by
  simp only [State.regWrite, apply_ite State.cx, State.enqueue_cx, State.enqueueAll_cx, State.startSync, State.modDie_cx, State.modMx_cx,
    State.writeDevnum_cx, State.recheck_cx, State.mailbox_cx, State.writePermits_cx, State.keyLoad_cx, State.keyErase_cx,
    State.startEngines_cx, State.writeFabctl_cx, ite_self, if_neg ha]
  cases c <;> simp only [apply_ite State.cx, State.enqueue_cx, ite_self]

theorem State.regWrite_sameCtx (s : State) (c : Option Nat) (strong : Bool) (a : Nat) (bmask : BitVec 8) (v : Word) :
    s.SameCtx (s.regWrite c strong a bmask v) := by
  by_cases ha : a = 0x1200
  · subst ha
    exact .ite (.refl s) (s.writeProtctl_sameCtx _)
  · exact .of_cx (s.regWrite_cx c strong bmask v ha)


/-- A write of memory that is not protected, and one of the registers. -/
theorem State.perform_sameCtx (s : State) (w : Writer) (line key : Nat) (mask : BitVec 64) (data : Line) (pois : BitVec 64) :
    s.SameCtx (s.perform w line key false mask data pois) := by
  by_cases hl : sysBase ≤ line
  · rw [State.perform, if_pos hl]
    refine State.sameCtx_foldl _ (fun t i => ?_) _ s
    exact .ite (.refl t) (t.regWrite_sameCtx _ _ _ _ _)
  · obtain ⟨_, _, _, _, _, _, h⟩ := s.perform_sameButErrors w key mask data pois (Nat.lt_of_not_le hl)
    exact .of_cx (by rw [h])

theorem State.putBytes_sameCtx (s : State) (a : Nat) (bs : List Byte) : s.SameCtx (s.putBytes a bs) :=
  State.sameCtx_foldl _ (fun t _ => .ite (.refl t) (t.perform_sameCtx _ _ _ _ _ _)) _ s

theorem State.sealJournal_sameCtx (s : State) : s.SameCtx s.sealJournal :=
  State.sameCtx_foldl _ (fun t _ => t.putBytes_sameCtx _ _) _ s

theorem State.sealJournal_empty {s : State} (h : s.cx.journal = []) : s.sealJournal = s := by
  simp [State.sealJournal, State.journalLines, h]

/-! ## What joins and landings keep of the context -/

theorem State.joinParity_eq (s : State) (o : Nat) :
    ∃ p n, s.joinParity s.cid o = { s with prot := p, cx := { s.cx with parity := n } } := by
  unfold State.joinParity
  dsimp only
  split
  · exact ⟨_, _, rfl⟩
  · exact ⟨_, _, by rw [State.modCtx, State.setCtx_self, State.ctx_cid]⟩

/-- The state without an operation. -/
def State.without (s : State) (id : Nat) : State :=
  ((s.mapCopies (List.filter fun y => y.id != id)).mapMatrixOps (List.filter fun m => m.id != id)).mapFops (List.filter fun f => f.id != id)

/-- A join takes the operation away and changes the flags and the count of the context. -/
theorem State.joined_eq (s : State) (o : JoinOp) :
    ∃ k p f r n, s.joined o = { s with core := k, prot := p, fab := f, cx := { s.cx with regs := r, parity := n } } := by
  obtain ⟨p, n, h⟩ := (s.without o.id).joinParity_eq o.id
  have hjoined : s.joined o = ((s.without o.id).joinParity (s.without o.id).cid o.id).modRegs fun r =>
      { r with fpmode := raiseFlags r.fpmode o.flags o.warnings } := rfl
  rw [hjoined, h]
  exact ⟨_, _, _, _, _, rfl⟩

theorem State.foldl_joined_eq (l : List JoinOp) (s : State) :
    ∃ k p f r n, l.foldl State.joined s = { s with core := k, prot := p, fab := f, cx := { s.cx with regs := r, parity := n } } := by
  induction l generalizing s with
  | nil => exact ⟨_, _, _, _, _, rfl⟩
  | cons o l ih =>
    obtain ⟨_, _, _, _, _, h⟩ := s.joined_eq o
    obtain ⟨k, p, f, r, n, h'⟩ := ih (s.joined o)
    exact ⟨k, p, f, r, n, by rw [List.foldl_cons, h', h]⟩

theorem State.writeSys_pairs (s : State) (n : SysReg) (v : Word) : (s.writeSys n v).cx.pairs = s.cx.pairs := by
  unfold State.writeSys
  split
  case h_12 => split <;> rfl
  all_goals rfl

/-- A landing writes registers of the context, and system registers that are its own. -/
theorem State.landOne_pairs (s : State) (f : Flight) : (s.landOne f).cx.pairs = s.cx.pairs := by
  unfold State.landOne
  split
  case h_5 | h_6 | h_7 | h_10 => split <;> simp only [State.modRegs_cx]
  case h_8 => exact s.writeSys_pairs _ _
  all_goals rw [State.modRegs_cx]

theorem State.blockBundle_pairs (s : State) : s.blockBundle.cx.pairs = s.cx.pairs := by
  have hfold : ∀ (l : List Flight) (t : State), (l.foldl State.landOne t).cx.pairs = t.cx.pairs := fun l => by
    induction l with
    | nil => exact fun t => rfl
    | cons f l ih => exact fun t => (ih _).trans (t.landOne_pairs f)
  exact hfold _ s

/-! ## Joins of operations that are complete, and of others -/

theorem State.joinOps_blocks {s : State} {ops : List JoinOp} (after : State → State) (h : ∃ o ∈ ops, o.complete = false) :
    s.joinOps ops after = s.blockBundle := by
  obtain ⟨o, ho, hc⟩ := h
  exact if_pos (List.any_eq_true.2 ⟨o, ho, by simp [hc]⟩)

theorem firstFault_none {ops : List JoinOp} (h : ∀ o ∈ ops, o.fault = none) : firstFault ops = none := by
  have hfilter : ops.filter (·.fault.isSome) = [] := List.filter_eq_nil_iff.2 fun o ho => by simp [h o ho]
  rw [firstFault, hfilter, List.foldl_nil]

theorem State.joinOps_goes {s : State} {ops : List JoinOp} (after : State → State) (h : ∀ o ∈ ops, o.complete = true ∧ o.fault = none)
    (hdue : s.dueChecks = []) : s.joinOps ops after = after (ops.foldl State.joined s) := by
  have hany : ¬ (ops.any fun o => !o.complete) = true := by
    rw [List.any_eq_true]
    rintro ⟨o, ho, hc⟩
    simp [(h o ho).1] at hc
  rw [State.joinOps, if_neg hany, hdue, List.append_nil, firstFault_none fun o ho => (h o ho).2]

/-- The state in which a join of the operations before a mark is tried. -/
def State.marked (s : State) (mark : Nat) : State := { s with cx := { s.cx with joinMark := mark } }

/-! ## The pair registers -/

theorem State.setPair_pairs (s : State) (k j : Fin 4) (p : BufPair) :
    (s.setPair k p).cx.pairs[j] = if j = k then p else s.cx.pairs[j] := by
  simp only [State.setPair, Fin.getElem_fin, Vector.getElem_set, Fin.ext_iff, eq_comm (a := k.val)]

theorem State.badExtents_begun (s : State) (i : Instr) (x y : Word) : (s.begun i).badExtents x y = s.badExtents x y := by
  simp only [State.badExtents, State.begun_cid]

/-- The mark of the context's join: operations before it are joined (R115). -/
def State.joinLine (s : State) : Nat := if s.cx.joinMark = 0 then s.nextId else s.cx.joinMark

theorem State.joinLine_begun (s : State) (i : Instr) : (s.begun i).joinLine = s.joinLine := by
  simp only [State.joinLine, State.begun_joinMark_c, State.begun_nextId]

theorem State.channelJoins_begun (s : State) (i : Instr) (c : Fin 4) : (s.begun i).channelJoins c = s.channelJoins c := by
  simp only [State.channelJoins, State.begun_core]

theorem State.joinChannel_eq (s : State) (c : Fin 4) (after : State → State) : s.joinChannel c after =
    (s.marked s.joinLine).joinOps ((s.channelJoins c).filter fun o => o.id < s.joinLine) fun t => after (t.marked 0) := rfl

section Pairs
variable {s : State} {g : Fin 16} {k : Fin 4}

/-- `buf.arm` that issues (R336). -/
theorem exec_bufArm {c : Fin 4} {a b : Src} {e f : Bool} (hi : Issues (.bufArm g c k a b e f) s) :
    exec (.bufArm g c k a b e f) s = .next (
      let x := s.readSrc a
      let y := s.readSrc b
      if field x 36 26 = 0 then (s.begun (.bufArm g c k a b e f)).setPair k BufPair.reset
      else if s.badExtents x y = true then (s.begun (.bufArm g c k a b e f)).illegalNow 0x3A
      else (s.begun (.bufArm g c k a b e f)).setPair k
        ⟨true, spaceOfCode (field x 62 2), 64 * field x 36 26, field x 0 36, field y 0 36, false, c, 0, [], none⟩) := by
  refine (State.syl_of_issues hi _).trans (congrArg _ ?_)
  dsimp only
  rw [State.begun_readSrc, State.begun_readSrc, State.badExtents_begun]

/-- `buf.swp` that issues joins the copies of the pair's channel (R337). -/
theorem exec_bufSwp (hi : Issues (.bufSwp g k) s) :
    exec (.bufSwp g k) s = .next (((s.begun (.bufSwp g k)).marked s.joinLine).joinOps
      ((s.channelJoins s.cx.pairs[k].ch).filter fun o => o.id < s.joinLine) fun t => (t.marked 0).swapPair k) := by
  refine (State.syl_of_issues hi _).trans (congrArg _ ?_)
  rw [State.joinChannel_eq, State.begun_pairs_c, State.joinLine_begun, State.channelJoins_begun]

theorem exec_bufSt {d : Dst} (hi : Issues (.bufSt g d k) s) :
    exec (.bufSt g d k) s = .next ((s.begun (.bufSt g d k)).push .s1 d (if s.cx.pairs[k].armed then
      fieldsWord [(63, 1, 1), (62, 1, s.cx.pairs[k].bFront.toNat), (60, 2, s.cx.pairs[k].ch.val), (36, 24, s.cx.pairs[k].swaps),
        (0, 36, if s.cx.pairs[k].bFront then s.cx.pairs[k].ea1 else s.cx.pairs[k].ea0)] else 0)) := by
  refine (State.syl_of_issues hi _).trans (congrArg _ ?_)
  simp only [State.begun_pairs_c]

/-- A swap of joined copies: the pair is exchanged, the phase committed, and then the journal is sealed. -/
theorem exec_bufSwp_joined (hi : Issues (.bufSwp g k) s)
    (hjoined : ∀ o ∈ (s.channelJoins s.cx.pairs[k].ch).filter fun o => o.id < s.joinLine,
      o.complete = true ∧ o.fault = none) (hdue : s.dueChecks = []) :
    ∃ u : State, exec (.bufSwp g k) s = .next u.sealJournal ∧ u.mem = s.mem ∧ u.journalLines = s.journalLines ∧
      u.cx.journal = s.cx.journal ∧ (∀ l ∈ u.cx.dsb, l.isSealed = true) ∧
      (∃ p, u.cx.ckpt = some p ∧ p.committed = true ∧ p.outbound = false) ∧ ∃ p : BufPair,
        p.bFront = (!s.cx.pairs[k].bFront) ∧ p.swaps = s.cx.pairs[k].swaps + 1 ∧
        ∀ j, u.cx.pairs[j] = if j = k then p else s.cx.pairs[j] := by
  have hdue' : ((s.begun (.bufSwp g k)).marked s.joinLine).dueChecks = [] := by
    simpa [State.dueChecks, State.marked] using hdue
  obtain ⟨w, hb⟩ := s.begun_eq (.bufSwp g k)
  rw [exec_bufSwp hi, State.joinOps_goes _ hjoined hdue']
  obtain ⟨_, _, _, _, _, hfold⟩ := State.foldl_joined_eq ((s.channelJoins s.cx.pairs[k].ch).filter fun o =>
    o.id < s.joinLine) ((s.begun (.bufSwp g k)).marked s.joinLine)
  rw [hfold, hb]
  refine ⟨_, rfl, rfl, rfl, rfl, ?_, ⟨_, rfl, rfl, rfl⟩, _, rfl, rfl, fun j => State.setPair_pairs _ k j _⟩
  intro l hl
  obtain ⟨l', -, rfl⟩ := List.mem_map.1 hl
  rfl

end Pairs

/-- Settles O37, instruction by instruction. -/
theorem bufferPairs : Obligations.BufferPairs := by
  unfold Obligations.BufferPairs
  intro s g c k a b e f d x y mark js
  refine ⟨fun hi hlen => ?disarm, fun hi hlen hext => ?arm, fun hi hlen hext => ?refuse, fun hi _ hjoined hdue => ?swap,
    fun hi _ hwait => ?wait, exec_bufSt, fun hi => State.syl_of_issues hi _⟩
  case disarm =>
    rw [exec_bufArm hi, if_pos hlen]
    refine ⟨_, rfl, ?_, fun j hj => ?_, rfl⟩
    · rw [State.setPair_pairs, if_pos rfl]
      rfl
    · rw [State.setPair_pairs, if_neg hj, State.begun_pairs_c]
  case arm =>
    rw [exec_bufArm hi, if_neg hlen, if_neg (Bool.eq_false_iff.1 hext)]
    refine ⟨_, rfl, ?_⟩
    simp only [State.setPair_pairs, if_true, State.begun_pairs_c, true_and]
    exact ⟨rfl, rfl, rfl, fun j hj => if_neg hj⟩
  case refuse =>
    rw [exec_bufArm hi, if_neg hlen, if_pos hext, State.illegalNow, State.illegal, State.bundleTrap, State.begun_pc_r, State.begun_issue]
  case swap =>
    obtain ⟨u, hexec, hmem, hlines, hjournal, hsealed, ⟨p, hckpt, hp⟩, q, hfront, hswaps, hpairs⟩ := exec_bufSwp_joined hi hjoined hdue
    obtain ⟨_, _, _, hcx⟩ := u.sealJournal_sameCtx
    refine ⟨_, hexec, ?_, ?_, fun j hj => ?_, ⟨p, ?_, hp⟩, ?_, ⟨u, hmem, hlines, rfl⟩, fun hempty => ?_⟩
    · rw [hcx, hpairs, if_pos rfl, hfront]
    · rw [hcx, hpairs, if_pos rfl, hswaps]
    · rw [hcx, hpairs, if_neg hj]
    · rw [hcx, hckpt]
    · rw [hcx]
      exact hsealed
    · rw [State.sealJournal_empty (hjournal.trans hempty), hmem]
  case wait =>
    refine ⟨_, (exec_bufSwp hi).trans (congrArg _ (State.joinOps_blocks _ hwait)), rfl, rfl, ?_⟩
    rw [State.blockBundle_pairs]
    exact s.begun_pairs_c _

end Sys2Proof.Machine
end

section
/-! PROOFS. Handles (R76, R87, R93, R238 to R240): what a syllable's beginning and the reading of a done bitmap leave of what the handle
instructions look at, and those instructions themselves. -/

namespace Sys2Proof.Machine

/-! ## What the beginning of a syllable leaves of what it looks at -/

@[simp] theorem State.begun_who (s : State) (i : Instr) : (s.begun i).who = s.who := by
  simp only [State.who, State.system, State.begun_cid, State.begun_estat_c]

@[simp] theorem State.begun_relayoutOf (s : State) (i : Instr) (daddr : BitVec 56) : (s.begun i).relayoutOf daddr = s.relayoutOf daddr := by
  simp only [State.relayoutOf, State.begun_relayouts]

theorem State.handleFault_begun (s : State) (i : Instr) (k : Fin 16) (dim : Nat) (wr : Bool) (c : Nat) :
    (s.begun i).handleFault k dim wr c = (s.begun i).trap (handleTrap (s.readH k).daddr k.val dim false wr c) := by
  rw [State.handleFault, State.begun_readH]

/-! ## `hset` and `hst` (R239) -/

section Hset
variable {s : State} {g h : Fin 16} {a b : Src} {e f : Bool} (hi : Issues (.hset g h a b e f) s)
include hi

/-- RLY is 1. -/
theorem exec_hset_relaying (hrly : Desc.rly (s.readH h).desc = true) : exec (.hset g h a b e f) s =
    .next ((s.begun (.hset g h a b e f)).trap (handleTrap (s.readH h).daddr h.val 0 false false 0x08)) := by
  refine (State.syl_of_issues hi _).trans (congrArg _ ?_)
  simp only [State.begun_readH, hrly, if_true, State.handleFault_begun]

variable (hrly : Desc.rly (s.readH h).desc = false)
include hrly

/-- The selector names no field. -/
theorem exec_hset_unselected (hsel : hsetField[field (s.readSrc b) 0 4]? = none) : exec (.hset g h a b e f) s =
    .next ((s.begun (.hset g h a b e f)).trap (handleTrap (s.readH h).daddr h.val 0 false false 0x06)) := by
  refine (State.syl_of_issues hi _).trans (congrArg _ ?_)
  simp only [State.begun_readH, State.begun_readSrc, hrly, hsel, Bool.false_eq_true, if_false, State.handleFault_begun]

variable {lo len : Nat} (hsel : hsetField[field (s.readSrc b) 0 4]? = some (lo, len))
include hsel

/-- The value does not fit the field. -/
theorem exec_hset_overflow (hv : 2 ^ len ≤ (s.readSrc a).toNat) : exec (.hset g h a b e f) s =
    .next ((s.begun (.hset g h a b e f)).trap (handleTrap (s.readH h).daddr h.val 0 false false 0x06)) := by
  refine (State.syl_of_issues hi _).trans (congrArg _ ?_)
  simp only [State.begun_readH, State.begun_readSrc, hrly, hsel, Bool.false_eq_true, if_false, hv, if_true, State.handleFault_begun]

variable (hv : (s.readSrc a).toNat < 2 ^ len)
include hv

/-- The descriptor would not be well formed. -/
theorem exec_hset_illFormed {c : Nat} (hc : descCause (setDField (s.readH h).desc lo len (s.readSrc a).toNat) = some c) :
    exec (.hset g h a b e f) s =
      .next ((s.begun (.hset g h a b e f)).trap (handleTrap (s.readH h).daddr h.val 0 false false c)) := by
  refine (State.syl_of_issues hi _).trans (congrArg _ ?_)
  simp only [State.begun_readH, State.begun_readSrc, hrly, hsel, Bool.false_eq_true, if_false, Nat.not_le.2 hv, hc,
    State.handleFault_begun]

/-- The field is changed. -/
theorem exec_hset_sets (hc : descCause (setDField (s.readH h).desc lo len (s.readSrc a).toNat) = none) :
    exec (.hset g h a b e f) s = .next ((s.begun (.hset g h a b e f)).write .s1 (.h h)
      (.handle ⟨setDField (s.readH h).desc lo len (s.readSrc a).toNat, (s.readH h).daddr⟩)) := by
  refine (State.syl_of_issues hi _).trans (congrArg _ ?_)
  simp only [State.begun_readH, State.begun_readSrc, hrly, hsel, Bool.false_eq_true, if_false, Nat.not_le.2 hv, hc]

end Hset

/-- `hst` that issues stores the descriptor, and then the register takes its new home unless the store has stopped it. -/
theorem exec_hst {s : State} {g h : Fin 16} {a : Src} {e : Bool} {x0 : Space} (hi : Issues (.hst g h a e x0) s) :
    exec (.hst g h a e x0) s = .next (
      ((s.begun (.hst g h a e x0)).storeOrd x0 (s.readSrc a) (bytesOf 64 (s.readH h).desc.toNat)).andThen fun t =>
        t.write .s1 (.h h) (.handle ⟨(s.readH h).desc, homeOf x0 (s.readSrc a)⟩)) := by
  refine (State.syl_of_issues hi _).trans (congrArg _ ?_)
  simp only [State.begun_readH, State.begun_readSrc]

/-! ## `hcoord` (R87, R240) -/

/-- Reading the lines of a done bitmap finds errors in them, and changes nothing else. -/
theorem State.touchDone_sameButErrors (s : State) (w : Who) (h : Handle) : s.SameButErrors (s.touchDone w h) := by
  unfold State.touchDone
  split
  case h_1 => exact .refl s
  case h_2 =>
    split
    case h_1 =>
      refine State.sameButErrors_foldl _ (fun t p => ?_) _ s
      split
      · exact t.touch_sameButErrors _ _
      · exact .refl t
    case h_2 => exact .refl s

section TouchDone
variable (s : State) (w : Who) (h : Handle)

theorem State.touchDone_who : (s.touchDone w h).who = s.who := by
  obtain ⟨_, _, _, _, _, _, ht⟩ := s.touchDone_sameButErrors w h
  rw [ht]
  rfl

theorem State.touchDone_relayoutOf (daddr : BitVec 56) : (s.touchDone w h).relayoutOf daddr = s.relayoutOf daddr := by
  obtain ⟨_, _, _, _, _, _, ht⟩ := s.touchDone_sameButErrors w h
  rw [ht]
  rfl

theorem State.touchDone_readSrc (x : Src) : (s.touchDone w h).readSrc x = s.readSrc x := by
  obtain ⟨_, _, _, _, _, _, ht⟩ := s.touchDone_sameButErrors w h
  rw [ht]
  rfl

theorem State.touchDone_readH (k : Fin 16) : (s.touchDone w h).readH k = s.readH k := by
  obtain ⟨_, _, _, _, _, _, ht⟩ := s.touchDone_sameButErrors w h
  rw [ht]
  rfl

end TouchDone

/-- What `hcoord` does with the place of its element, through register k that holds handle h. -/
def State.coordOf (s : State) (d : Dst) (k : Fin 16) (h : Handle) : Elem → State
  | .at_ v => s.push (if (s.relayoutOf h.daddr).isSome then .long else .s3) d v
  | .bad c dim => s.handleFault k dim false c
  | .wait => s.blockBundle
  | .stop y => s.stopAccess .read y
  | .ask p => s.askDone p

theorem ofNat_sixteen_val (x : Fin 8) : (Fin.ofNat 16 x.val).val = x.val := Nat.mod_eq_of_lt (by omega)

section Hcoord
variable {s : State} {g : Fin 16} {d : Dst} {a b : Src} {e f : Bool} {x : Fin 8} (hi : Issues (.hcoord g d a b e f x) s)
include hi

/-- A value for a dimension that the rank lacks (assumption 106). -/
theorem exec_hcoord_missing
    (hdim : missingDim (Desc.exts (s.readH (Fin.ofNat 16 x.val)).desc) (s.readSrc a).toNat (field (s.readSrc b) 32 32) = true) :
    exec (.hcoord g d a b e f x) s = .next ((s.begun (.hcoord g d a b e f x)).trap
      (handleTrap (s.readH (Fin.ofNat 16 x.val)).daddr x.val 6 false false 0x07)) := by
  refine (State.syl_of_issues hi _).trans (congrArg _ ?_)
  simp only [State.begun_readH, State.begun_readSrc, hdim, if_true, State.handleFault_begun, ofNat_sixteen_val]

/-- The element is looked up once the done bitmap has been read. -/
theorem exec_hcoord_element
    (hdim : missingDim (Desc.exts (s.readH (Fin.ofNat 16 x.val)).desc) (s.readSrc a).toNat (field (s.readSrc b) 32 32) = false) :
    let k : Fin 16 := Fin.ofNat 16 x.val
    let u := (s.begun (.hcoord g d a b e f x)).touchDone s.who (s.readH k)
    exec (.hcoord g d a b e f x) s = .next (u.coordOf d k (s.readH k) (u.element s.who (s.readH k)
      (batchCoords (Desc.exts (s.readH k).desc) (s.readSrc a).toNat (field (s.readSrc b) 32 32) (field (s.readSrc b) 0 32)) false)) := by
  refine (State.syl_of_issues hi _).trans (congrArg _ ?_)
  simp only [State.begun_readH, State.begun_readSrc, State.begun_who, hdim, Bool.false_eq_true, if_false, State.touchDone_who,
    State.touchDone_readSrc]
  rfl

end Hcoord

/-! ## Reads of the unit, die and cluster stores (R12, R57) -/

theorem State.journalOf_empty {s : State} (h : s.cx.journal = []) (pod : Nat) : s.journalOf pod = [] := by
  simp [State.journalOf, State.journalLines, h]

theorem State.deferred_empty {s : State} (hdsb : s.cx.dsb = []) (hjournal : s.cx.journal = []) (pod : Nat) : s.deferred pod = (0, 0) := by
  rw [State.deferred, State.journalOf_empty hjournal, hdsb]
  rfl

theorem mergeLine_zero_mask (old new : Line) : mergeLine old new 0 = old :=
  line_ext fun i hi => by simp [lineByte_mergeLine _ _ _ hi]

theorem State.bytesAt_add (s : State) (a m n : Nat) : s.bytesAt a (m + n) = s.bytesAt a m ++ s.bytesAt (a + m) n := by
  simp only [State.bytesAt, List.range_add, List.map_append, List.map_map, Function.comp_def, Nat.add_assoc]

/-- The bytes of a line of the stores are those stored there. -/
theorem State.lineBytes_plainLine (s : State) (key : Nat) {a n : Nat} (hlo : 2 ^ 40 ≤ a) (hhi : a < sysBase) (hfit : a % 64 + n ≤ 64) :
    lineBytes (s.plainLine key (lineOf a)) (a % 64) n = s.bytesAt a n := by
  have hstores : ¬ lineOf a < 2 ^ 40 ∧ ¬ sysBase ≤ lineOf a := by
    unfold lineOf sysBase at *
    omega
  rw [State.plainLine, if_neg hstores.2, State.readLine, State.decrypt, if_neg hstores.1]
  refine List.map_congr_left fun j hj => ?_
  have hj : j < n := List.mem_range.1 hj
  rw [lineByte_stored _ _ (by omega), State.byteAt, lineOf]
  congr 1
  omega

/-- A piece of a qualified access. -/
def State.pieceAt (s : State) (k : Kind) (x0 : Space) (ea : Word) (a : Nat) (p : Nat × Nat) : Piece :=
  ⟨p.1, p.2, ea + word p.1, x0, ⟨s.device, a + p.1, 0, false, scratchInfo s.who x0 k⟩⟩

theorem State.resolve_pieceAt {s : State} {x0 : Space} {ea : Word} {n a : Nat} (k : Kind) (h : scratch s.cid x0 ea n = some a) :
    s.resolve s.who x0 ea n k = .ok ((lineParts a n).map (s.pieceAt k x0 ea a)) := by
  have h' : scratch s.who.ctx x0 ea n = some a := h
  unfold State.resolve
  split
  case h_1 => cases h
  case h_2 =>
    rw [h']
    rfl

section Reads
variable {s : State} (hp : s.plain)
include hp

/-- Reading a piece of the stores gives the bytes stored there and changes nothing. -/
theorem State.loadPiece_pieceAt (ord : Bool) (k : Kind) (x0 : Space) (ea : Word) {a : Nat} {p : Nat × Nat} (hlo : 2 ^ 40 ≤ a + p.1)
    (hhi : a + p.1 < sysBase) (hfit : (a + p.1) % 64 + p.2 ≤ 64) :
    s.loadPiece ord (s.pieceAt k x0 ea a p) = (⟨s.bytesAt (a + p.1) p.2, none, []⟩, s) := by
  obtain ⟨hsoft, hhard, hpoison, hdsb, hjournal, -⟩ := hp
  have hbytes := s.lineBytes_plainLine 0 hlo hhi hfit
  have hjournalPoison : ∀ pod mask, s.journalPoison pod mask = none := fun pod mask => by
    rw [State.journalPoison, State.journalOf_empty hjournal]
    rfl
  have htouch : s.touchJournal [] = s := rfl
  simp only [State.loadPiece, State.journalOf_empty hjournal, htouch, State.deferred_empty hdsb hjournal, hjournalPoison, ite_self,
    State.touch_clean hsoft hhard, State.poisonAt_clean hpoison, mergeLine_zero_mask, Option.or_none]
  exact (if_pos rfl).trans (congrArg (fun bs => ((⟨bs, none, []⟩ : Loaded), s)) hbytes)

theorem State.loadPieces_pieceAt (ord : Bool) (k : Kind) (x0 : Space) (ea : Word) (a : Nat) (l : List (Nat × Nat))
    (hl : ∀ p ∈ l, 2 ^ 40 ≤ a + p.1 ∧ a + p.1 < sysBase ∧ (a + p.1) % 64 + p.2 ≤ 64) :
    s.loadPieces ord (l.map (s.pieceAt k x0 ea a)) = (⟨l.flatMap fun p => s.bytesAt (a + p.1) p.2, none, []⟩, s) := by
  induction l with
  | nil => rfl
  | cons p l ih =>
    rw [List.forall_mem_cons] at hl
    obtain ⟨⟨hlo, hhi, hfit⟩, hl⟩ := hl
    rw [List.map_cons, State.loadPieces, State.loadPiece_pieceAt hp ord k x0 ea hlo hhi hfit]
    simp only [ih hl, List.flatMap_cons, Option.or_none, List.append_nil]

end Reads

/-- An access that ends in the line after its first has two parts. -/
theorem lineParts_two {a n : Nat} (hlo : 64 < a % 64 + n) (hhi : a % 64 + n ≤ 128) :
    lineParts a n = [(0, 64 - a % 64), (64 - a % 64, n - (64 - a % 64))] := by
  have hlines : (a % 64 + n + 63) / 64 = 2 := by omega
  have hfirst : Nat.min (64 - a % 64) n = 64 - a % 64 := Nat.min_eq_left (by omega)
  have hsecond : Nat.min (128 - a % 64) n = n := Nat.min_eq_right (by omega)
  have hinside : a % 64 < 64 ∧ 0 < n ∧ 64 - a % 64 < 128 - a % 64 ∧ 64 - a % 64 < n := by omega
  rw [lineParts, hlines, show List.range 2 = [0, 1] from rfl]
  simp [hfirst, hsecond, hinside]

/-- The parts of up to 64 bytes, side by side, are those bytes. -/
theorem State.bytesAt_lineParts (s : State) (a : Nat) {n : Nat} (hn : 0 < n) (hn64 : n ≤ 64) :
    ((lineParts a n).flatMap fun p => s.bytesAt (a + p.1) p.2) = s.bytesAt a n := by
  by_cases hfit : a % 64 + n ≤ 64
  · rw [lineParts_one hn hfit, List.flatMap_singleton, Nat.add_zero]
  · have hsum : n = 64 - a % 64 + (n - (64 - a % 64)) := by omega
    rw [lineParts_two (by omega) (by omega), List.flatMap_cons, List.flatMap_singleton, Nat.add_zero, ← State.bytesAt_add, ← hsum]

/-- A part of an access begins in it and stays in its line. -/
theorem lineParts_within {a n : Nat} {p : Nat × Nat} (h : p ∈ lineParts a n) : p.1 < n ∧ (a + p.1) % 64 + p.2 ≤ 64 := by
  obtain ⟨i, -, hi⟩ := List.mem_filterMap.1 h
  obtain ⟨hlt, hp⟩ := Option.ite_none_right_eq_some.1 hi
  obtain rfl := Option.some.inj hp
  have hend : Nat.min (64 * (i + 1) - a % 64) n ≤ 64 * (i + 1) - a % 64 := Nat.min_le_left _ n
  have hlen : Nat.min (64 * (i + 1) - a % 64) n ≤ n := Nat.min_le_right _ n
  dsimp only at hlt ⊢
  omega

/-- A read of up to 64 bytes of the stores that a bundle blocks for goes on with the bytes stored there. -/
theorem State.readBlocking_scratch {s : State} (hp : s.plain) (ord : Bool) (dest : List Reg) {x0 : Space} {ea : Word} {n a : Nat}
    (h : scratch s.cid x0 ea n = some a) (hn : 0 < n) (hn64 : n ≤ 64) :
    s.readBlocking s.who ord dest x0 ea n = .ok (s.bytesAt a n, s) := by
  obtain ⟨-, -, -, -, -, hcid, -⟩ := id hp
  obtain ⟨hlo, hhi, -⟩ := scratch_bounds hcid h
  have hplaces : ∀ p ∈ lineParts a n, 2 ^ 40 ≤ a + p.1 ∧ a + p.1 < sysBase ∧ (a + p.1) % 64 + p.2 ≤ 64 := fun p hmem => by
    obtain ⟨hbegin, hfit⟩ := lineParts_within hmem
    exact ⟨by omega, by omega, hfit⟩
  simp only [State.readBlocking, State.resolve_pieceAt .read h, State.loadPieces_pieceAt hp ord .read x0 ea a _ hplaces,
    s.bytesAt_lineParts a hn hn64, List.isEmpty_nil, if_true]

/-! ## `hld` and `mpar` (R76, R238, R239) -/

section Hld
variable {s u : State} {g h : Fin 16} {y : Src} {e : Bool} {x0 : Space} {bs : List Byte} (hi : Issues (.hld g h y e x0) s)
include hi

theorem exec_hld_stopped (hread : (s.begun (.hld g h y e x0)).readBlocking s.who true [.h h] x0 (s.readSrc y) 64 = .error u) :
    exec (.hld g h y e x0) s = .next u := by
  refine (State.syl_of_issues hi _).trans (congrArg _ ?_)
  simp only [State.begun_who, State.begun_readSrc, hread]

variable (hread : (s.begun (.hld g h y e x0)).readBlocking s.who true [.h h] x0 (s.readSrc y) 64 = .ok (bs, u))
include hread

theorem exec_hld_loads (hc : descCause (BitVec.ofNat 512 (ofBytes bs)) = none) : exec (.hld g h y e x0) s =
    .next (u.write .s1 (.h h) (.handle ⟨BitVec.ofNat 512 (ofBytes bs), homeOf x0 (s.readSrc y)⟩)) := by
  refine (State.syl_of_issues hi _).trans (congrArg _ ?_)
  simp only [State.begun_who, State.begun_readSrc, hread, hc]

theorem exec_hld_illFormed {c : Nat} (hc : descCause (BitVec.ofNat 512 (ofBytes bs)) = some c) : exec (.hld g h y e x0) s =
    .next (u.trap (handleTrap (u.readH h).daddr h.val 0 false false c)) := by
  refine (State.syl_of_issues hi _).trans (congrArg _ ?_)
  simp only [State.begun_who, State.begun_readSrc, hread, hc, State.handleFault]

end Hld

section Mpar
variable {s u : State} {g : Fin 16} {y : Src} {e : Bool} {x0 : Space} (hi : Issues (.mpar g y e x0) s)
include hi

theorem exec_mpar_stopped (hread : (s.begun (.mpar g y e x0)).readBlocking s.who true (List.ofFn fun k : Fin 8 => Reg.a k) x0
    (s.readSrc y) 64 = .error u) : exec (.mpar g y e x0) s = .next u := by
  refine (State.syl_of_issues hi _).trans (congrArg _ ?_)
  simp only [State.begun_who, State.begun_readSrc, hread]

theorem exec_mpar_writes {bs : List Byte} (hread : (s.begun (.mpar g y e x0)).readBlocking s.who true
    (List.ofFn fun k : Fin 8 => Reg.a k) x0 (s.readSrc y) 64 = .ok (bs, u)) : exec (.mpar g y e x0) s = .next (u.writeParams bs) := by
  refine (State.syl_of_issues hi _).trans (congrArg _ ?_)
  simp only [State.begun_who, State.begun_readSrc, hread]

end Mpar

/-- The same read from the state in which a syllable begins. -/
theorem State.readBlocking_begun_scratch {s : State} (hp : s.plain) (i : Instr) (dest : List Reg) {x0 : Space} {ea : Word} {a : Nat}
    (h : scratch s.cid x0 ea 64 = some a) :
    (s.begun i).readBlocking s.who true dest x0 ea 64 = .ok (s.bytesAt a 64, s.begun i) := by
  have h' : scratch (s.begun i).cid x0 ea 64 = some a := by rw [State.begun_cid]; exact h
  rw [← State.begun_who s i, State.readBlocking_scratch (State.plain_begun hp i) true dest h' (by decide) (Nat.le_refl 64),
    State.bytesAt_begun]

/-! ## The statement -/

/-- Settles O21, instruction by instruction: each case is read off what the instruction does once it issues. -/
theorem handles : Obligations.Handles := by
  unfold Obligations.Handles
  refine ⟨fun s g h a b e f x0 d x => ⟨fun hi => ?hset, fun t hi ht => ?hst, fun hi => ?hcoord⟩,
    fun s u g h y e x0 bs => ⟨fun hi hread => ⟨exec_hld_loads hi hread, fun c => exec_hld_illFormed hi hread⟩, exec_hld_stopped,
      fun hi hread => exec_mpar_writes hi hread, exec_mpar_stopped, fun a hp ha hbs => ⟨fun hi hc => ?hld, fun hi => ?mpar⟩⟩⟩
  case hset =>
    exact ⟨exec_hset_relaying hi, exec_hset_unselected hi, fun lo len hrly hsel =>
      ⟨exec_hset_overflow hi hrly hsel, fun c hv => exec_hset_illFormed hi hrly hsel hv, exec_hset_sets hi hrly hsel⟩⟩
  case hst =>
    rw [exec_hst hi, ht, State.andThen]
    exact ⟨fun hdone => congrArg _ (if_pos hdone), fun hstop => congrArg _ (if_neg hstop)⟩
  case hcoord =>
    refine ⟨exec_hcoord_missing hi, fun hdim => ?_⟩
    have hexec := exec_hcoord_element hi hdim
    dsimp only at hexec
    refine ⟨fun v hv => ?at_, fun c n hv => ?bad, fun hv => ?wait, fun y hv => ?stop, fun p hv => ?ask⟩ <;>
      rw [hexec, hv, State.coordOf]
    case at_ => rw [State.touchDone_relayoutOf, State.begun_relayoutOf]
    case bad => rw [State.handleFault, State.touchDone_readH, State.begun_readH, ofNat_sixteen_val]
    case ask => rfl
  case hld =>
    subst hbs
    exact exec_hld_loads hi (State.readBlocking_begun_scratch hp _ _ ha) hc
  case mpar =>
    subst hbs
    exact exec_mpar_writes hi (State.readBlocking_begun_scratch hp _ _ ha)

end Sys2Proof.Machine
end

section
/-! PROOFS. Relayouts (R83 to R92): fields of a descriptor, a release with the strong writes that follow it, `rlay`, `rlay.wt` and
`rlay.st`, and the relayout engine of a die. -/

namespace Sys2Proof.Machine

/-! ## Fields of a descriptor (R73) -/

/-- Bit j of a number that is cut to len bits and moved up to bit lo of a descriptor. -/
theorem getLsbD_ofNat_field (lo len v j : Nat) (hj : j < 512) :
    (BitVec.ofNat 512 (v % 2 ^ len * 2 ^ lo)).getLsbD j = (decide (lo ≤ j ∧ j < lo + len) && v.testBit (j - lo)) := by
  rw [BitVec.getLsbD_ofNat, Nat.testBit_mul_two_pow, Nat.testBit_mod_two_pow]
  by_cases hlo : lo ≤ j
  · simp [hj, hlo, show j - lo < len ↔ j < lo + len by omega]
  · simp [hlo]

/-- Bit j of a descriptor after a field is written. -/
theorem getLsbD_setDField (d : Line) (lo len v j : Nat) (hj : j < 512) :
    (setDField d lo len v).getLsbD j = if lo ≤ j ∧ j < lo + len then v.testBit (j - lo) else d.getLsbD j := by
  have hmask : (BitVec.ofNat 512 ((2 ^ len - 1) * 2 ^ lo)).getLsbD j = decide (lo ≤ j ∧ j < lo + len) := by
    have h := getLsbD_ofNat_field lo len (2 ^ len - 1) j hj
    rw [Nat.mod_eq_of_lt (Nat.sub_lt (Nat.two_pow_pos len) Nat.one_pos), Nat.testBit_two_pow_sub_one] at h
    rw [h, ← Bool.decide_and]
    exact decide_eq_decide.2 (by omega)
  rw [setDField, BitVec.getLsbD_or, BitVec.getLsbD_and, BitVec.getLsbD_not, hmask, getLsbD_ofNat_field lo len v j hj]
  by_cases h : lo ≤ j ∧ j < lo + len <;> simp [h, hj]

theorem testBit_dField (d : Line) (lo len i : Nat) : (dField d lo len).testBit i = (decide (i < len) && d.getLsbD (lo + i)) := by
  rw [dField, Nat.testBit_mod_two_pow, Nat.testBit_div_two_pow, Nat.add_comm i lo]
  rfl

/-- A field that was written reads back. -/
theorem dField_setDField_same (d : Line) {lo len v : Nat} (h : lo + len ≤ 512) (hv : v < 2 ^ len) :
    dField (setDField d lo len v) lo len = v := by
  refine Nat.eq_of_testBit_eq fun i => ?_
  rw [testBit_dField]
  by_cases hi : i < len
  · rw [getLsbD_setDField _ _ _ _ _ (by omega), if_pos (by omega), Nat.add_sub_cancel_left, decide_eq_true hi, Bool.true_and]
  · rw [decide_eq_false hi, Bool.false_and,
      Nat.testBit_lt_two_pow (Nat.lt_of_lt_of_le hv (Nat.pow_le_pow_right (by decide) (Nat.le_of_not_lt hi)))]

/-- Writing one field leaves a field that does not meet it. -/
theorem dField_setDField_disjoint (d : Line) (lo len lo' len' v : Nat) (h : lo + len ≤ lo' ∨ lo' + len' ≤ lo) (hfit : lo + len ≤ 512) :
    dField (setDField d lo' len' v) lo len = dField d lo len := by
  refine Nat.eq_of_testBit_eq fun i => ?_
  rw [testBit_dField, testBit_dField]
  by_cases hi : i < len
  · rw [getLsbD_setDField _ _ _ _ _ (by omega), if_neg (by omega)]
  · simp [hi]

/-- The descriptor that `rlay` leaves (R84). -/
def relayingDesc (d : Line) (tag shadow bmap : Nat) : Line :=
  setDField (setDField (setDField (setDField d 511 1 1) 376 8 tag) 384 56 shadow) 448 56 bmap

/-- It names the conversion. -/
theorem relayingDesc_fields (d : Line) {tag shadow bmap : Nat} (htag : tag < 2 ^ 8) (hshadow : shadow < 2 ^ 56) (hbmap : bmap < 2 ^ 56) :
    Desc.rly (relayingDesc d tag shadow bmap) = true ∧ Desc.ntag (relayingDesc d tag shadow bmap) = tag ∧
      Desc.shadow (relayingDesc d tag shadow bmap) = shadow ∧ Desc.done (relayingDesc d tag shadow bmap) = bmap := by
  unfold relayingDesc
  refine ⟨?rly, ?ntag, ?shadow, dField_setDField_same _ (by decide) hbmap⟩
  case rly =>
    rw [Desc.rly, getLsbD_setDField _ _ _ _ _ (by decide), if_neg (by decide), getLsbD_setDField _ _ _ _ _ (by decide),
      if_neg (by decide), getLsbD_setDField _ _ _ _ _ (by decide), if_neg (by decide), getLsbD_setDField _ _ _ _ _ (by decide),
      if_pos (by decide)]
    rfl
  case ntag =>
    rw [Desc.ntag, dField_setDField_disjoint _ _ _ _ _ _ (by decide) (by decide),
      dField_setDField_disjoint _ _ _ _ _ _ (by decide) (by decide), dField_setDField_same _ (by decide) htag]
  case shadow =>
    rw [Desc.shadow, dField_setDField_disjoint _ _ _ _ _ _ (by decide) (by decide), dField_setDField_same _ (by decide) hshadow]

/-! ## A release, and strong writes after it (R84, R89, R108) -/

section ReleaseWrites
variable {s : State} {ws : List (Word × List Byte)} {rs : List StrongWrite} (hws : s.resolveWrites ws = .ok rs) (after : State → State)
include hws

theorem State.releaseWrites_unpublished (h : s.publish.published = false) : s.releaseWrites ws after = s.publish.blockBundle := by
  simp only [State.releaseWrites, hws, State.release, h, Bool.false_eq_true, if_false]

variable (h : s.publish.published = true)
include h

theorem State.releaseWrites_waits (hw : s.publish.markOutbound.writeWaits (rs.flatMap (·.pieces)) = true) :
    s.releaseWrites ws after = s.publish.markOutbound.blockBundle := by
  simp only [State.releaseWrites, hws, State.release, h, State.unlessWaits, hw, if_true]

theorem State.releaseWrites_goes (hw : s.publish.markOutbound.writeWaits (rs.flatMap (·.pieces)) = false) :
    s.releaseWrites ws after = (after (s.publish.markOutbound.writeStrong rs)).awaitAcks := by
  simp only [State.releaseWrites, hws, State.release, h, State.unlessWaits, hw, if_true, Bool.false_eq_true, if_false]

end ReleaseWrites

section AwaitAcks
variable (s : State)

@[simp] theorem State.awaitAcks_mem : s.awaitAcks.mem = s.mem := by unfold State.awaitAcks; split <;> rfl
@[simp] theorem State.awaitAcks_relayouts : s.awaitAcks.relayouts = s.relayouts := by unfold State.awaitAcks; split <;> rfl
@[simp] theorem State.awaitAcks_fresh : s.awaitAcks.cx.fresh = s.cx.fresh := by unfold State.awaitAcks; split <;> rfl

theorem State.awaitAcks_blocks (h : s.acked = false) : s.awaitAcks.cx.status = .blocked ∧ s.awaitAcks.cx.wait = .acks := by
  rw [State.awaitAcks, if_neg (Bool.eq_false_iff.1 h)]
  exact ⟨rfl, rfl⟩

theorem State.awaitAcks_of_acked (h : s.acked = true) : s.awaitAcks = s := if_pos h

end AwaitAcks

/-! ## `rlay` (R84) -/

theorem State.rlayCause_begun (s : State) (i : Instr) (x : Handle) (tag shadow bmap : Nat) :
    (s.begun i).rlayCause x tag shadow bmap = s.rlayCause x tag shadow bmap := by
  simp only [State.rlayCause, State.begun_relayoutOf, State.begun_relayouts]

/-- A shadow that passes the checks fits its field. -/
theorem State.shadow_lt_of_rlayCause {s : State} {x : Handle} {tag shadow bmap : Nat} (h : s.rlayCause x tag shadow bmap = none) :
    shadow < 2 ^ 56 := by
  by_contra hlt
  have hle : 2 ^ 56 ≤ shadow := Nat.le_of_not_lt hlt
  cases hd : descCause x.desc with
  | some c => simp [State.rlayCause, hd] at h
  | none =>
    simp only [State.rlayCause, hd, if_pos hle] at h
    split_ifs at h

/-- The entry of a conversion that begins. -/
def State.newRelayout (s : State) (x : Handle) (tag shadow bmap : Nat) : Relayout :=
  let nt := tileCount (Desc.exts x.desc)
  ⟨freeSlot s.relayouts, x, BitVec.ofNat 8 tag, word shadow, word bmap, nt, 0, dieOf s.cid, s.cid, s.system, s.nextId,
    if nt = 0 then .complete else .active, none, false, false, []⟩

/-- The conversion is entered in the table and the register marked. -/
def State.enterRelayout (s : State) (h : Fin 16) (x : Handle) (tag shadow bmap : Nat) : State :=
  ({ s.fresh.2 with relayouts := s.relayouts ++ [s.newRelayout x tag shadow bmap] }).write .s1 (.h h)
    (.handle ⟨relayingDesc x.desc tag shadow bmap, x.daddr⟩)

/-- Entering a conversion sends nothing. -/
theorem State.enterRelayout_acked (s : State) (h : Fin 16) (x : Handle) (tag shadow bmap : Nat) :
    (s.enterRelayout h x tag shadow bmap).acked = s.acked := rfl

section Rlay
variable {s : State} {g h : Fin 16} {x y : Src} {e f : Bool} (hi : Issues (.rlay g h x y e f) s)
include hi

theorem exec_rlay_refused {c : Nat}
    (hc : s.rlayCause (s.readH h) (field (s.readSrc y) 56 8) (s.readSrc x).toNat (field (s.readSrc y) 0 56) = some c) :
    exec (.rlay g h x y e f) s =
      .next ((s.begun (.rlay g h x y e f)).trap (handleTrap (s.readH h).daddr h.val 0 false false c)) := by
  refine (State.syl_of_issues hi _).trans (congrArg _ ?_)
  simp only [State.begun_readH, State.begun_readSrc, State.rlayCause_begun, hc, State.handleFault_begun]

theorem exec_rlay_enters
    (hc : s.rlayCause (s.readH h) (field (s.readSrc y) 56 8) (s.readSrc x).toNat (field (s.readSrc y) 0 56) = none) :
    let d := relayingDesc (s.readH h).desc (field (s.readSrc y) 56 8) (s.readSrc x).toNat (field (s.readSrc y) 0 56)
    exec (.rlay g h x y e f) s = .next ((s.begun (.rlay g h x y e f)).releaseWrites
      [(word (field (s.readSrc y) 0 56), List.replicate (ceilDiv (tileCount (Desc.exts (s.readH h).desc)) 8) 0),
        ((s.readH h).daddr.setWidth 64 + 32, (bytesOf 64 d.toNat).drop 32)]
      fun t => t.enterRelayout h (s.readH h) (field (s.readSrc y) 56 8) (s.readSrc x).toNat (field (s.readSrc y) 0 56)) := by
  refine (State.syl_of_issues hi _).trans (congrArg _ ?_)
  simp only [State.begun_readH, State.begun_readSrc, State.rlayCause_begun, hc]
  rfl

end Rlay

/-! ## `rlay.wt` and `rlay.st` (R89, R91, R92) -/

theorem State.dueChecks_begun (s : State) (i : Instr) : (s.begun i).dueChecks = s.dueChecks := by
  simp only [State.dueChecks, State.begun_core, State.begun_cid]

theorem State.afterChecks_of_none {s : State} (h : s.dueChecks = []) (after : State → State) : s.afterChecks after = after s := by
  rw [State.afterChecks, h]
  rfl

section WaitRelayout
variable {s : State} {r : Relayout} (after : State → State)

theorem State.waitRelayout_active (h : r.state = .active) : s.waitRelayout r after = s.blockBundle := by
  rw [State.waitRelayout, h]

variable (hdue : s.dueChecks = [])
include hdue

theorem State.waitRelayout_complete (h : r.state = .complete) : s.waitRelayout r after = s.joinRelayout r after := by
  rw [State.waitRelayout, h]
  exact State.afterChecks_of_none hdue _

theorem State.waitRelayout_failed {z : Trap} (h : r.state = .failed) (hz : r.fault = some z) : s.waitRelayout r after =
    if r.raised.contains (s.cid, s.cx.regs.pc) then
      (s.setRelayout { r with state := .active, fault := none, raised := [], conv := false }).arrives.blockBundle
    else (s.setRelayout { r with raised := (s.cid, s.cx.regs.pc) :: r.raised }).raise
      (s.slotFault { z with einfo := setField z.einfo 13 1 1 }) := by
  rw [State.waitRelayout, h, hz]
  exact State.afterChecks_of_none hdue _

end WaitRelayout

/-- The entry is freed and its writes count against the context that joins. -/
def State.leaveRelayout (s : State) (r : Relayout) : State :=
  ({ s with relayouts := s.relayouts.filter (·.slot != r.slot) }).joinParity s.cid r.order

theorem State.leaveRelayout_eq (s : State) (r : Relayout) : ∃ p n, s.leaveRelayout r =
    { s with relayouts := s.relayouts.filter (·.slot != r.slot), prot := p, cx := { s.cx with parity := n } } :=
  State.joinParity_eq { s with relayouts := s.relayouts.filter (·.slot != r.slot) } r.order

section RlayWt
variable {s : State} {g h : Fin 16} (hi : Issues (.rlayWt g h) s)
include hi

theorem exec_rlayWt_waits {r : Relayout} (hr : s.relayoutOf (s.readH h).daddr = some r) : exec (.rlayWt g h) s =
    .next ((s.begun (.rlayWt g h)).waitRelayout r fun t =>
      t.write .s1 (.h h) (.handle ⟨joinedDesc (s.readH h).desc r, (s.readH h).daddr⟩)) := by
  refine (State.syl_of_issues hi _).trans (congrArg _ ?_)
  simp only [State.begun_readH, State.begun_relayoutOf, hr]

variable (hr : s.relayoutOf (s.readH h).daddr = none)
include hr

theorem exec_rlayWt_settled (hrly : Desc.rly (s.readH h).desc = false) : exec (.rlayWt g h) s = .next (s.begun (.rlayWt g h)) := by
  refine (State.syl_of_issues hi _).trans (congrArg _ ?_)
  simp only [State.begun_readH, State.begun_relayoutOf, hr, hrly, Bool.not_false, if_true]

variable (hrly : Desc.rly (s.readH h).desc = true)
include hrly

theorem exec_rlayWt_homeless (hd : (s.readH h).daddr = 0) : exec (.rlayWt g h) s =
    .next ((s.begun (.rlayWt g h)).trap (handleTrap (s.readH h).daddr h.val 0 false false 0x0E)) := by
  refine (State.syl_of_issues hi _).trans (congrArg _ ?_)
  simp only [State.begun_readH, State.begun_relayoutOf, hr, hrly, Bool.not_true, Bool.false_eq_true, if_false, if_pos hd,
    State.handleFault_begun]

/-- Another context has joined the conversion: the descriptor is read again. -/
theorem exec_rlayWt_rereads (hd : (s.readH h).daddr ≠ 0) {bs : List Byte} {u : State}
    (hread : (s.begun (.rlayWt g h)).readBlocking s.who false [] .g ((s.readH h).daddr.setWidth 64) 64 = .ok (bs, u))
    (hc : descCause (BitVec.ofNat 512 (ofBytes bs)) = none) : exec (.rlayWt g h) s =
      .next (u.write .s1 (.h h) (.handle ⟨BitVec.ofNat 512 (ofBytes bs), (s.readH h).daddr⟩)) := by
  refine (State.syl_of_issues hi _).trans (congrArg _ ?_)
  simp only [State.begun_readH, State.begun_relayoutOf, State.begun_who, hr, hrly, hd, hread, hc, Bool.not_true, Bool.false_eq_true,
    if_false]

end RlayWt

theorem exec_rlaySt {s : State} {g h : Fin 16} (hi : Issues (.rlaySt g h) s) :
    exec (.rlaySt g h) s = .next ((s.begun (.rlaySt g h)).push .s3 .queue (match s.relayoutOf (s.readH h).daddr with
      | some r => setFlag (word (r.nt - r.p)) 63 (r.state == .failed)
      | none => 0)) := by
  refine (State.syl_of_issues hi _).trans (congrArg _ ?_)
  cases hr : s.relayoutOf (s.readH h).daddr with
  | none => simp only [State.begun_readH, State.begun_relayoutOf, hr]
  | some r => simp only [State.begun_readH, State.begun_relayoutOf, hr]

/-- The join of a COMPLETE entry that needs to wait for nothing before its writes (R89). -/
theorem exec_rlayWt_joins {s : State} {g h : Fin 16} {r : Relayout} {ws : List StrongWrite} (hi : Issues (.rlayWt g h) s)
    (hdue : s.dueChecks = []) (hr : s.relayoutOf (s.readH h).daddr = some r) (hstate : r.state = .complete)
    (hws : (s.begun (.rlayWt g h)).resolveWrites [(r.handle.daddr.setWidth 64, bytesOf 64 (joinedDesc r.handle.desc r).toNat)] = .ok ws)
    (hw : (s.begun (.rlayWt g h)).publish.markOutbound.writeWaits (ws.flatMap (·.pieces)) = false)
    (hpub : (s.begun (.rlayWt g h)).publish.published = true) :
    exec (.rlayWt g h) s = .next ((((s.begun (.rlayWt g h)).publish.markOutbound.writeStrong ws).leaveRelayout r).write .s1 (.h h)
      (.handle ⟨joinedDesc (s.readH h).desc r, (s.readH h).daddr⟩)).awaitAcks := by
  rw [exec_rlayWt_waits hi hr, State.waitRelayout_complete _ ((s.dueChecks_begun _).trans hdue) hstate, State.joinRelayout,
    State.releaseWrites_goes hws _ hpub hw]
  rfl

/-! ## The relayout engine of a die (R86, R88) -/

section Engine
variable {s u w : State} {r : Relayout} {v : PeerView}

/-- What the engine does with the entry that is due, before it is known whether that may take effect. -/
def State.serveRelayout (s : State) (r : Relayout) (v : PeerView) : State :=
  if r.conv then s.finishTile r v
  else match s.convertTile r v with
    | (none, _) => { s with evt := .stall }
    | (some (.error t), u) => u.setRelayout { r with state := .failed, fault := some t }
    | (some (.ok out), u) =>
      let x : Relayout := { r with conv := true, outward := r.outward || out }
      if u.engAwaits r.order then u.setRelayout x else u.finishTile x v

theorem exec_relayoutTile {d : Nat} (hr : s.nextRelayout d = some r) :
    let b := s.idle.modDie d fun k => { k with engineNext := (r.slot + 1) % 64 }
    exec (.relayoutTile d v) s =
      .next (if s.mayRun (b.serveRelayout r v) then b.serveRelayout r v else b.notYet (b.serveRelayout r v)) := by
  have hr' : ({ s with evt := .done } : State).nextRelayout d = some r := hr
  refine congrArg Host.Outcome.next ?_
  simp only [hr']
  rfl

/-- The entry after its tile is done. -/
def Relayout.advance (r : Relayout) (out : Bool) : Relayout := { r with p := r.p + 1, conv := false, outward := r.outward || out }

theorem State.finishTile_done {out : Bool} (h : s.setDoneBit r v = (some (.ok out), w)) : s.finishTile r v =
    if (r.advance out).p = (r.advance out).nt then w.closeRelayout (r.advance out) else w.setRelayout (r.advance out) := by
  rw [State.finishTile, h]
  rfl

theorem State.finishTile_failed {t : Trap} (h : s.setDoneBit r v = (some (.error t), w)) :
    s.finishTile r v = w.setRelayout { r with state := .failed, fault := some t, conv := false } := by
  rw [State.finishTile, h]

theorem State.serveRelayout_written (h : r.conv = true) : s.serveRelayout r v = s.finishTile r v := if_pos h

variable (hconv : r.conv = false)
include hconv

theorem State.serveRelayout_waits (h : s.convertTile r v = (none, u)) : s.serveRelayout r v = { s with evt := .stall } := by
  simp only [State.serveRelayout, hconv, h, Bool.false_eq_true, if_false]

theorem State.serveRelayout_failed {t : Trap} (h : s.convertTile r v = (some (.error t), u)) :
    s.serveRelayout r v = u.setRelayout { r with state := .failed, fault := some t } := by
  simp only [State.serveRelayout, hconv, h, Bool.false_eq_true, if_false]

theorem State.serveRelayout_converted {out : Bool} (h : s.convertTile r v = (some (.ok out), u)) : s.serveRelayout r v =
    if u.engAwaits r.order then u.setRelayout { r with conv := true, outward := r.outward || out }
    else u.finishTile { r with conv := true, outward := r.outward || out } v := by
  simp only [State.serveRelayout, hconv, h, Bool.false_eq_true, if_false]

end Engine

/-- A step that stops for nothing the hub does leaves the engine waiting. -/
theorem State.notYet_of_not_hub {s t : State} (h : t.evt.isHub = false) : s.notYet t = { s with evt := .stall } := by
  unfold State.notYet
  split
  case h_1 heq =>
    rw [heq] at h
    cases h
  case h_2 => rfl

/-- A step that does nothing may take effect. -/
theorem State.mayRun_stall (s : State) {t : State} (hevt : t.evt = .stall) (hout : t.outbox = s.outbox) : s.mayRun t = true := by
  simp [State.mayRun, hevt, hout, End.isHub]

/-! ## The statement -/

/-- Settles O39: `rlay` and `rlay.wt` by what a release with strong writes does, the engine by what it does with the entry that is due. -/
theorem relayouts : Obligations.Relayouts := by
  unfold Obligations.Relayouts
  refine ⟨fun s u g h x y e f ws c r z bs => ⟨fun hi hc hws => ⟨fun hpub => ?unpublished, fun hpub hw => ?waits, fun hpub hw => ?enters⟩,
      fun hi hc => exec_rlay_refused hi hc, exec_rlayWt_settled, exec_rlayWt_homeless, fun hi hr hrly hd => exec_rlayWt_rereads hi hr hrly hd,
      fun hi hr hstate => ?active, fun hi hdue hr hstate hz => ?failed, exec_rlaySt⟩,
    fun s g h r ws => ?join, fun s u w d v r t out o2 hr => ?engine⟩
  case unpublished => exact (exec_rlay_enters hi hc).trans (congrArg _ (State.releaseWrites_unpublished hws _ hpub))
  case waits => exact (exec_rlay_enters hi hc).trans (congrArg _ (State.releaseWrites_waits hws _ hpub hw))
  case enters =>
    refine ⟨_, State.newRelayout _ _ _ _ _, (exec_rlay_enters hi hc).trans (congrArg _ (State.releaseWrites_goes hws _ hpub hw)),
      State.awaitAcks_relayouts _, rfl, rfl, rfl, rfl, rfl, rfl, rfl, rfl, rfl, ⟨_, State.awaitAcks_fresh _, rfl, rfl⟩, ?_⟩
    obtain ⟨hrly, hntag, hshadow, hdone⟩ := relayingDesc_fields (s.readH h).desc (field_lt (s.readSrc y) 56 8)
      (State.shadow_lt_of_rlayCause hc) (field_lt (s.readSrc y) 0 56)
    refine ⟨hrly, hntag, hshadow, hdone, State.awaitAcks_mem _, fun hacked => ?_, fun hacked => ?_⟩
    · exact State.awaitAcks_blocks _ ((State.enterRelayout_acked _ _ _ _ _ _).trans hacked)
    · rw [State.awaitAcks_of_acked _ ((State.enterRelayout_acked _ _ _ _ _ _).trans hacked)]
      rfl
  case active => rw [exec_rlayWt_waits hi hr, State.waitRelayout_active _ hstate]
  case failed =>
    have hexec := exec_rlayWt_waits hi hr
    rw [State.waitRelayout_failed _ ((s.dueChecks_begun _).trans hdue) hstate hz, State.begun_cid, State.begun_pc_r] at hexec
    refine ⟨fun hnew => ?_, fun hagain => ?_⟩
    · rw [hexec, if_neg (Bool.eq_false_iff.1 hnew)]
    · rw [if_pos hagain] at hexec
      exact ⟨_, hexec, rfl, rfl, State.blockOn_relayouts _ _⟩
  case join =>
    intro b k m w hi hdue hr hstate hws hw hpub
    obtain ⟨p, n, hleave⟩ := w.leaveRelayout_eq r
    obtain ⟨fl, hfl, hreg, hval⟩ := (w.leaveRelayout r).write_cx .s1 (.h h) (.handle ⟨joinedDesc k.desc r, k.daddr⟩)
    refine ⟨_, exec_rlayWt_joins hi hdue hr hstate hws hw hpub, ?mem, fun z hz => ?freed, ⟨fl, ?fresh, hreg, hval⟩, fun hacked => ?acks⟩
    case mem => rw [State.awaitAcks_mem, State.write_mem, hleave]
    case freed =>
      rw [State.awaitAcks_relayouts, State.write_relayouts, hleave] at hz
      simpa using (List.mem_filter.1 hz).2
    case fresh =>
      rw [State.awaitAcks_fresh, hfl]
      exact List.mem_append_right _ List.mem_cons_self
    case acks =>
      refine State.awaitAcks_blocks _ ?_
      rw [hleave]
      exact hacked
  case engine =>
    intro b r1 fin done
    have hexec := exec_relayoutTile (v := v) hr
    dsimp only at hexec
    refine ⟨fun hconv htile hacked hbit => ?tile, fun hconv htile hawaits => ?awaits, fun hconv hbit => ?bit,
      fun hconv htile hrun => ?tileFails, fun hconv hbit hrun => ?bitFails, fun hconv htile => ?stalls, State.notYet_of_not_hub⟩
    case tile =>
      rw [hexec, State.serveRelayout_converted hconv htile, if_neg (Bool.eq_false_iff.1 hacked), State.finishTile_done hbit]
      rfl
    case awaits =>
      rw [hexec, State.serveRelayout_converted hconv htile, if_pos hawaits]
      rfl
    case bit =>
      rw [hexec, State.serveRelayout_written hconv, State.finishTile_done hbit]
      rfl
    case tileFails =>
      rw [hexec, State.serveRelayout_failed hconv htile]
      exact congrArg _ (if_pos hrun)
    case bitFails =>
      rw [hexec, State.serveRelayout_written hconv, State.finishTile_failed hbit]
      exact congrArg _ (if_pos hrun)
    case stalls =>
      rw [hexec, State.serveRelayout_waits hconv htile]
      exact congrArg _ (if_pos (s.mayRun_stall (t := { b with evt := .stall }) rfl rfl))

end Sys2Proof.Machine
end

section
/-! PROOFS. Releases and joins (R102, R108, R115, R117, R305, R408): when each goes on, which recorded fault a join raises, and what the
joined operations leave behind. -/

namespace Sys2Proof.Machine

/-! ## Releases (R108) -/

section Release
variable {s : State} (after : State → State)

theorem State.release_goes (h : s.publish.published = true) : s.release after = after s.publish.markOutbound := if_pos h

theorem State.release_blocks (h : s.publish.published = false) : s.release after = s.publish.blockBundle :=
  if_neg (Bool.eq_false_iff.1 h)

end Release

/-! ## The fault that a join raises (R408) -/

/-- Of the best operation so far and another, the one whose fault is taken first. -/
def sooner (best : Option JoinOp) (o : JoinOp) : Option JoinOp :=
  match best with
  | some b => if o.before b then some o else best
  | none => some o

theorem firstFault_eq_foldl (ops : List JoinOp) : firstFault ops = (ops.filter (·.fault.isSome)).foldl sooner none := rfl

theorem JoinOp.before_asymm {a b : JoinOp} (h : a.before b = true) : b.before a = false := by
  unfold JoinOp.before at h ⊢
  cases ha : a.rollback <;> cases hb : b.rollback <;> simp [ha, hb] at h ⊢
  all_goals exact Nat.le_of_lt h

/-- An operation that comes before the best so far, or is it, is the best from then on. -/
theorem sooner_takes {o : JoinOp} {best : Option JoinOp} (h : ∀ b, best = some b → b = o ∨ o.before b = true) :
    sooner best o = some o := by
  cases best with
  | none => rfl
  | some b =>
    obtain rfl | hb := h b rfl
    · exact ite_self _
    · exact if_pos hb

/-- The best operation so far stays when it comes before the other, or is it. -/
theorem sooner_keeps {o p : JoinOp} (h : p = o ∨ o.before p = true) : sooner (some o) p = some o := by
  obtain rfl | hp := h
  · exact ite_self _
  · exact if_neg (Bool.eq_false_iff.1 (JoinOp.before_asymm hp))

theorem sooner_mem {p b : JoinOp} {best : Option JoinOp} (h : sooner best p = some b) : b = p ∨ best = some b := by
  cases best with
  | none => exact .inl (Option.some.inj h).symm
  | some c =>
    rw [sooner] at h
    split at h
    · exact .inl (Option.some.inj h).symm
    · exact .inr h

theorem foldl_sooner {o : JoinOp} {l : List JoinOp} {best : Option JoinOp} (hl : ∀ p ∈ l, p = o ∨ o.before p = true)
    (hbest : ∀ b, best = some b → b = o ∨ o.before b = true) (ho : o ∈ l ∨ best = some o) : l.foldl sooner best = some o := by
  induction l generalizing best with
  | nil => exact ho.resolve_left List.not_mem_nil
  | cons p l ih =>
    rw [List.forall_mem_cons] at hl
    obtain ⟨hp, hl⟩ := hl
    refine ih hl (fun b hb => ?_) ?_
    · obtain rfl | hb := sooner_mem hb
      · exact hp
      · exact hbest b hb
    · obtain ho | rfl := ho
      · obtain rfl | ho := List.mem_cons.1 ho
        · exact .inr (sooner_takes hbest)
        · exact .inl ho
      · exact .inr (sooner_keeps hp)

/-- A recorded fault that comes before every other one is raised. -/
theorem firstFault_eq_some {ops : List JoinOp} {o : JoinOp} (ho : o ∈ ops) (hfault : o.fault ≠ none)
    (hfirst : ∀ p ∈ ops, p.fault ≠ none → p = o ∨ o.before p = true) : firstFault ops = some o := by
  have hmem : ∀ p, p ∈ ops.filter (·.fault.isSome) ↔ p ∈ ops ∧ p.fault ≠ none := fun p => by
    rw [List.mem_filter, Option.isSome_iff_ne_none]
  rw [firstFault_eq_foldl]
  refine foldl_sooner (fun p hp => ?_) (fun b hb => nomatch hb) (.inl ((hmem o).2 ⟨ho, hfault⟩))
  obtain ⟨hp, hpf⟩ := (hmem p).1 hp
  exact hfirst p hp hpf

theorem State.joinOps_raises {s : State} {ops : List JoinOp} {o : JoinOp} {x : Trap} (after : State → State)
    (hcomplete : ∀ p ∈ ops, p.complete = true) (ho : o ∈ ops ++ s.dueChecks) (hfault : o.fault = some x)
    (hfirst : ∀ p ∈ ops ++ s.dueChecks, p.fault ≠ none → p = o ∨ o.before p = true) :
    s.joinOps ops after = (s.forgetFault o.id).raise (s.slotFault x) := by
  have hany : ¬ (ops.any fun p => !p.complete) = true := by simpa using hcomplete
  have hraised : firstFault (ops ++ s.dueChecks) = some o := firstFault_eq_some ho (hfault ▸ Option.some_ne_none x) hfirst
  rw [State.joinOps, if_neg hany, hraised]
  simp only [State.raiseJoined, hfault, Option.getD_some]

/-! ## Joins of all operations (R305) -/

/-- A check that waits to raise its fault is one of the operations of the context. -/
theorem State.dueChecks_subset {s : State} {o : JoinOp} (h : o ∈ s.dueChecks) : o ∈ s.allJoins ∧ o.fault ≠ none := by
  obtain ⟨m, hm, rfl⟩ := List.mem_map.1 h
  simp only [List.mem_filter, Bool.and_eq_true] at hm
  obtain ⟨hmem, ⟨⟨hctx, -⟩, hfault⟩, hkind⟩ := hm
  have hjoins : m.joins = true := by
    cases hk : m.kind with
    | chk p => rw [MOp.joins, hk]; exact hfault
    | _ => rw [hk] at hkind; cases hkind
  have hmatrix : m.join ∈ s.matrixJoins :=
    List.mem_map.2 ⟨m, List.mem_filter.2 ⟨hmem, Bool.and_eq_true_iff.2 ⟨hctx, hjoins⟩⟩, rfl⟩
  exact ⟨by simp [State.allJoins, hmatrix], Option.isSome_iff_ne_none.1 hfault⟩

theorem State.dueChecks_of_allJoins {s : State} (h : ∀ o ∈ s.allJoins, o.fault = none) : s.dueChecks = [] :=
  List.eq_nil_iff_forall_not_mem.2 fun o ho => (State.dueChecks_subset ho).2 (h o (State.dueChecks_subset ho).1)

theorem State.joinAll_goes {s : State} (after : State → State) (h : ∀ o ∈ s.allJoins, o.complete = true ∧ o.fault = none) :
    s.joinOps s.allJoins after = after (s.allJoins.foldl State.joined s) :=
  State.joinOps_goes after h (State.dueChecks_of_allJoins fun o ho => (h o ho).2)

theorem State.joinAll_raises {s : State} {o : JoinOp} {x : Trap} (after : State → State)
    (hcomplete : ∀ p ∈ s.allJoins, p.complete = true) (ho : o ∈ s.allJoins) (hfault : o.fault = some x)
    (hfirst : ∀ p ∈ s.allJoins, p.fault ≠ none → p = o ∨ o.before p = true) :
    s.joinOps s.allJoins after = (s.forgetFault o.id).raise (s.slotFault x) := by
  refine State.joinOps_raises after hcomplete (List.mem_append_left _ ho) hfault fun p hp => hfirst p ?_
  exact (List.mem_append.1 hp).elim id fun h => (State.dueChecks_subset h).1

/-! ## What joined operations leave behind (R326, R328) -/

/-- A join takes the operation away, raises its flags and, for its writes, changes the parity state. -/
theorem State.joined_eq_without (s : State) (o : JoinOp) : ∃ p n,
    let r := { s.cx.regs with fpmode := raiseFlags s.cx.regs.fpmode o.flags o.warnings }
    s.joined o = { s.without o.id with prot := p, cx := { s.cx with parity := n, regs := r } } := by
  obtain ⟨p, n, h⟩ := (s.without o.id).joinParity_eq o.id
  have hjoined : s.joined o = ((s.without o.id).joinParity (s.without o.id).cid o.id).modRegs fun r =>
      { r with fpmode := raiseFlags r.fpmode o.flags o.warnings } := rfl
  exact ⟨p, n, by rw [hjoined, h]; rfl⟩

theorem State.joined_fpmode (s : State) (o : JoinOp) :
    (s.joined o).cx.regs.fpmode = raiseFlags s.cx.regs.fpmode o.flags o.warnings := by
  obtain ⟨_, _, h⟩ := s.joined_eq_without o
  rw [h]

theorem State.joined_ch (s : State) (o : JoinOp) (c : Fin 4) :
    (s.joined o).core.ch[c] = (s.core.ch[c]).filter fun y => y.id != o.id := by
  obtain ⟨_, _, h⟩ := s.joined_eq_without o
  rw [h]
  exact Vector.getElem_map _ _

theorem State.foldl_joined_fpmode (l : List JoinOp) (s : State) :
    (l.foldl State.joined s).cx.regs.fpmode = l.foldl (fun f o => raiseFlags f o.flags o.warnings) s.cx.regs.fpmode := by
  induction l generalizing s with
  | nil => rfl
  | cons o l ih => rw [List.foldl_cons, List.foldl_cons, ih, State.joined_fpmode]

theorem State.mem_foldl_joined_ch {l : List JoinOp} {s : State} {c : Fin 4} {y : Copy} :
    y ∈ (l.foldl State.joined s).core.ch[c] ↔ y ∈ s.core.ch[c] ∧ ∀ o ∈ l, y.id ≠ o.id := by
  induction l generalizing s with
  | nil => simp
  | cons o l ih => rw [List.foldl_cons, ih, State.joined_ch, List.mem_filter, List.forall_mem_cons, bne_iff_ne, and_assoc]

theorem State.foldl_joined_mem (l : List JoinOp) (s : State) : (l.foldl State.joined s).mem = s.mem := by
  obtain ⟨_, _, _, _, _, h⟩ := State.foldl_joined_eq l s
  rw [h]

end Sys2Proof.Machine
end

section
/-! PROOFS. Channels (R115, R117, R328): `cpy.drn`, `cpy.st` and `cpy.cancel`. -/

namespace Sys2Proof.Machine

theorem State.dueChecks_marked (s : State) (i : Instr) (mark : Nat) : ((s.begun i).marked mark).dueChecks = s.dueChecks :=
  s.dueChecks_begun i

/-- `cpy.drn` that issues joins the copies of the channel that are older than the join. -/
theorem exec_cpyDrn {s : State} {g : Fin 16} {c : Fin 4} (hi : Issues (.cpyDrn g c) s) :
    exec (.cpyDrn g c) s = .next (((s.begun (.cpyDrn g c)).marked s.joinLine).joinOps
      ((s.channelJoins c).filter fun o => o.id < s.joinLine) fun t => t.marked 0) := by
  refine (State.syl_of_issues hi _).trans (congrArg _ ?_)
  rw [State.joinChannel_eq, State.joinLine_begun, State.channelJoins_begun]

theorem exec_cpySt {s : State} {g : Fin 16} {d : Dst} {c : Fin 4} (hi : Issues (.cpySt g d c) s) :
    exec (.cpySt g d c) s = .next ((s.begun (.cpySt g d c)).push .s1 d (fieldsWord [(0, 5, s.busyCopies c),
      (8, 1, ((s.core.ch[c]).any fun y => y.ctx == s.cid && y.fault.isSome).toNat)])) := by
  refine (State.syl_of_issues hi _).trans (congrArg _ ?_)
  simp only [State.busyCopies, State.begun_core, State.begun_cid]

/-- A cancel reaches every copy of the context that is not complete, and drops it unless it stands part-way through a k-step. -/
theorem cancelCopies_eq_filterMap (cid : Nat) (l : List Copy) : cancelCopies cid 0 false l = l.filterMap fun y =>
    if y.ctx = cid ∧ y.finished = false ∧ y.cancelled = false then
      (if y.sub = 0 then none else some { y with cancelled := true, fault := none })
    else some y := by
  have hreach : ∀ y : Copy, y.cancels cid 0 = true ↔ y.ctx = cid ∧ y.finished = false ∧ y.cancelled = false := fun y => by
    simp [Copy.cancels, and_assoc]
  refine congrArg (fun f => l.filterMap f) (funext fun y => ?_)
  by_cases h : y.cancels cid 0 = true
  · rw [if_pos ((hreach y).1 h), h]
    simp
  · rw [if_neg (mt (hreach y).2 h), Bool.eq_false_iff.2 h]
    rfl

theorem State.markOutbound_if_eq (s : State) (p : Prop) [Decidable p] :
    ∃ k, (if p then s.markOutbound else s) = { s with cx := { s.cx with ckpt := k } } := by
  split
  · exact ⟨_, rfl⟩
  · exact ⟨_, rfl⟩

/-- `cpy.cancel` changes the channel, and of the context no register. -/
theorem exec_cpyCancel {s : State} {g : Fin 16} {c : Fin 4} (hi : Issues (.cpyCancel g c) s) :
    ∃ t, exec (.cpyCancel g c) s = .next t ∧ t.evt = .done ∧ t.mem = s.mem ∧ t.cx.regs = (s.begun (.cpyCancel g c)).cx.regs ∧
      t.core.ch = s.core.ch.set c (cancelCopies s.cid 0 false s.core.ch[c]) := by
  obtain ⟨_, hmark⟩ := (s.begun (.cpyCancel g c)).markOutbound_if_eq
    (((s.core.ch[c]).filter (·.cancels s.cid 0)).any (·.outward) = true)
  have hexec : exec (.cpyCancel g c) s = .next _ := State.syl_of_issues hi _
  simp only [State.begun_core, State.begun_cid, hmark, State.modChannel] at hexec
  exact ⟨_, hexec, s.begun_evt _, s.begun_mem _, rfl, rfl⟩

/-- Settles O35: a drain is a join of the channel's copies, a cancel a filter of them. -/
theorem channelControl : Obligations.ChannelControl := by
  unfold Obligations.ChannelControl
  intro s g d c o x mark js b m done
  refine ⟨fun hi hjoined hdue => ⟨?goes, ?flags, fun y hy => ?kept, ?mem⟩,
    fun hi hcomplete ho hfault hfirst => ?raises, fun hi hwait => ?blocks, exec_cpySt, fun hi => ?cancel⟩
  case goes => exact (exec_cpyDrn hi).trans (congrArg _ (State.joinOps_goes _ hjoined ((s.dueChecks_marked _ _).trans hdue)))
  case flags => exact State.foldl_joined_fpmode js m
  case kept =>
    have hkept := State.mem_foldl_joined_ch.1 hy
    rwa [State.begun_core] at hkept
  case raises =>
    rw [← s.dueChecks_marked (.cpyDrn g c) mark] at ho hfirst
    exact (exec_cpyDrn hi).trans (congrArg _ (State.joinOps_raises _ hcomplete ho hfault hfirst))
  case blocks => exact (exec_cpyDrn hi).trans (congrArg _ (State.joinOps_blocks _ hwait))
  case cancel =>
    obtain ⟨t, hexec, hevt, hmem, hregs, hch⟩ := exec_cpyCancel hi
    refine ⟨t, hexec, hevt, hmem, hregs, ?_, fun e he => ?_⟩
    · rw [← cancelCopies_eq_filterMap, hch]
      exact Vector.getElem_set_self _
    · rw [hch]
      exact Vector.getElem_set_ne _ _ fun h => he (Fin.ext h.symm)
  case mem => exact (State.foldl_joined_mem js m).trans (s.begun_mem _)

end Sys2Proof.Machine
end

section
/-! PROOFS. `spawn` and `end.node` (R124, R166, R167, R227, R229): what the pool keeps when it settles, the
spawn queue, and what retiring leaves. -/

namespace Sys2Proof.Machine

/-! ## What the pool keeps (R162, R166) -/

/-- Expanding ready nodes changes the lists of what is expanded and of what waits. -/
theorem Pool.expand_eq (p : Pool) (g : Graph) : ∃ e w, p.expand g = { p with expanded := e, waiting := w } := by
  unfold Pool.expand
  generalize g.nodes.zipIdx = l
  induction l generalizing p with
  | nil => exact ⟨_, _, rfl⟩
  | cons x l ih =>
    rw [List.foldl_cons]
    dsimp only
    split
    · exact ih p
    · exact ih _

theorem Pool.expand_mark_eq (p : Pool) (g : Graph) (now : Nat) :
    ∃ e w n, (p.expand g).mark g now = { p with expanded := e, waiting := w, seq := n } := by
  obtain ⟨e, _, h⟩ := p.expand_eq g
  exact ⟨e, _, _, by rw [h]; rfl⟩

theorem State.settlePool_of_graph {s : State} {g : Graph} (h : s.pool.graph = some g) :
    s.settlePool = { s with pool := (s.pool.expand g).mark g s.now } := by
  rw [State.settlePool, h]

/-! ## `spawn` (R167, R229) -/

/-- A spawn that is offered no replay, no room, or no replay that runs. -/
theorem State.enqueueSpawn_refuses {s : State} {n : Nat} {a : Word}
    (h : s.pool.graph = none ∨ 1024 ≤ s.pool.spawnQ.length ∨ field s.regs.kickstat 0 4 ≠ 3) : s.enqueueSpawn n a = (true, s) := by
  unfold State.enqueueSpawn
  split
  case h_1 g hg =>
    split
    case h_1 => exact if_pos (h.resolve_left (by simp [hg])).symm
    case h_2 => rfl
  case h_2 => rfl

theorem State.enqueueSpawn_undeclared {s : State} {n : Nat} {a : Word} {g : Graph} (hg : s.pool.graph = some g)
    (hn : g.nodes[n]? = none) : s.enqueueSpawn n a = (true, s) := by
  simp only [State.enqueueSpawn, hg, hn]

theorem State.enqueueSpawn_enqueues {s : State} {n : Nat} {a : Word} {g : Graph} {e : NodeEntry} (hg : s.pool.graph = some g)
    (hn : g.nodes[n]? = some e) (hrun : field s.regs.kickstat 0 4 = 3) (hroom : s.pool.spawnQ.length < 1024) :
    (s.enqueueSpawn n a).1 = false ∧
      (s.enqueueSpawn n a).2.pool.spawnQ = s.pool.spawnQ ++ [(s.pool.spawnSeq + 1, n, e.count)] ∧
      (s.enqueueSpawn n a).2.mem = s.mem ∧ (s.enqueueSpawn n a).2.cx.inst = s.cx.inst.map fun i => { i with didSpawn := true } := by
  have hroom' : ¬ (field s.regs.kickstat 0 4 ≠ 3 ∨ 1024 ≤ s.pool.spawnQ.length) :=
    not_or.2 ⟨not_not.2 hrun, Nat.not_le.2 hroom⟩
  simp only [State.enqueueSpawn, hg, hn, if_neg hroom']
  rw [State.settlePool_of_graph (g := g) rfl]
  obtain ⟨_, _, _, hsettled⟩ := Pool.expand_mark_eq _ g _
  exact ⟨trivial, congrArg Pool.spawnQ hsettled, rfl, rfl⟩

section Spawn
variable {s : State} {g : Fin 16} {x : Src} {p : Fin 8} {n : Fin 4096} (hi : Issues (.spawn g x p n) s)
include hi

theorem exec_spawn_misaligned (h : field (s.readSrc x) 0 6 ≠ 0 ∨ field (s.readSrc x) 56 8 ≠ 0) :
    exec (.spawn g x p n) s = .next (s.begun (.spawn g x p n)).misaligned := by
  refine (State.syl_of_issues hi _).trans (congrArg _ ?_)
  dsimp only
  rw [State.begun_readSrc, if_pos h]

theorem exec_spawn_releases (hline : field (s.readSrc x) 0 6 = 0) (hspace : field (s.readSrc x) 56 8 = 0) :
    exec (.spawn g x p n) s = .next ((s.begun (.spawn g x p n)).release fun t =>
      (t.enqueueSpawn n.val (s.readSrc x)).2.writePair p (t.enqueueSpawn n.val (s.readSrc x)).1) := by
  refine (State.syl_of_issues hi _).trans (congrArg _ ?_)
  dsimp only
  rw [State.begun_readSrc, if_neg (not_or.2 ⟨not_not.2 hline, not_not.2 hspace⟩)]

end Spawn

/-! ## `end.node` (R227, R408) -/

/-- The release of `end.node`: the context retires unless a line of it was refused (R445, assumption 64). -/
def State.endRelease (s : State) : State := s.release fun t => if t.cx.pending.isEmpty then t.landAll.retire else t.blockBundle

theorem State.endRelease_retires {s : State} (hpub : s.publish.published = true) (h : s.publish.markOutbound.cx.pending = []) :
    s.endRelease = s.publish.markOutbound.landAll.retire :=
  (State.release_goes _ hpub).trans (if_pos (List.isEmpty_iff.2 h))

theorem State.endRelease_refused {s : State} (hpub : s.publish.published = true) (h : s.publish.markOutbound.cx.pending ≠ []) :
    s.endRelease = s.publish.markOutbound.blockBundle :=
  (State.release_goes _ hpub).trans (if_neg (mt List.isEmpty_iff.1 h))

theorem State.joinRelayouts_of_none {s : State} (h : s.ownRelayouts = []) (after : State → State) : s.joinRelayouts after = after s := by
  rw [State.joinRelayouts, h]

/-- The oldest entry is waited for first. -/
theorem State.joinRelayouts_oldest {s : State} {r : Relayout}
    (h : s.ownRelayouts.find? (fun r => s.ownRelayouts.all fun q => r.order ≤ q.order) = some r) (after : State → State) :
    s.joinRelayouts after = s.waitRelayout r fun t => if t.ownRelayouts.isEmpty then after t else t.blockBundle := by
  unfold State.joinRelayouts
  split
  case h_1 hnone =>
    rw [hnone] at h
    cases h
  case h_2 => rw [h]

section EndNode
variable {s : State} {g : Fin 16} (hi : Issues (.endNode g) s)
include hi

theorem exec_endNode_waits (h : ∃ f ∈ (s.begun (.endNode g)).mergeFresh.cx.inflight, f.land = none) :
    exec (.endNode g) s = .next (s.begun (.endNode g)).mergeFresh.blockBundle := by
  refine (State.syl_of_issues hi _).trans (congrArg _ (if_pos ?_))
  obtain ⟨f, hf, hland⟩ := h
  exact List.any_eq_true.2 ⟨f, hf, Option.isNone_iff_eq_none.2 hland⟩

theorem exec_endNode_joins (h : ∀ f ∈ (s.begun (.endNode g)).mergeFresh.cx.inflight, f.land ≠ none) :
    exec (.endNode g) s = .next ((s.begun (.endNode g)).mergeFresh.joinOps (s.begun (.endNode g)).mergeFresh.allJoins
      fun t => t.joinRelayouts State.endRelease) := by
  refine (State.syl_of_issues hi _).trans (congrArg _ (if_neg ?_))
  rw [List.any_eq_true]
  rintro ⟨f, hf, hland⟩
  exact h f hf (Option.isNone_iff_eq_none.1 hland)

end EndNode

/-! ## Retiring (R124, R166) -/

theorem State.freeContext_mem (s : State) : s.freeContext.mem = s.mem := by
  unfold State.freeContext
  dsimp only
  split <;> rfl

theorem State.freeContext_pool (s : State) : s.freeContext.pool = s.pool := by
  unfold State.freeContext
  dsimp only
  split <;> rfl

/-- Leaving barriers changes the barriers alone. -/
theorem State.leaveBarriers_eq (s : State) (i : Inst) : ∃ b, s.leaveBarriers i = { s with pool := { s.pool with barriers := b } } := by
  unfold State.leaveBarriers
  split
  case h_2 => exact ⟨_, rfl⟩
  case h_1 g hg =>
    clear hg
    split
    case h_2 => exact ⟨_, rfl⟩
    case h_1 n _ =>
      generalize n.barriers = l
      induction l generalizing s with
      | nil => exact ⟨_, rfl⟩
      | cons b l ih => exact ih _

theorem State.retire_idle {s : State} (h : s.cx.inst = none) : s.retire = s.freeContext := by
  rw [State.retire, h]

/-- A replay that is not all complete goes on. -/
theorem State.finishReplay_of_not_done {s : State} {g : Graph} (hg : s.pool.graph = some g) (h : s.pool.done g = false) :
    s.finishReplay = s := by
  rw [State.finishReplay, hg]
  exact if_neg fun hdone => Bool.eq_false_iff.1 h hdone.2

/-- The pool once `i` is counted as retired (R166). -/
def Pool.retireOne (p : Pool) (i : Inst) : Pool :=
  if i.spawned then { p with live := put i.root (p.liveOf i.root - 1) p.live } else { p with retired := p.retired ++ [(i.node, i.u)] }

theorem Pool.retireOne_graph (p : Pool) (i : Inst) : (p.retireOne i).graph = p.graph := by
  unfold Pool.retireOne
  split <;> rfl

theorem State.countRetired_goes {s : State} {i : Inst} {g : Graph} (hg : s.pool.graph = some g)
    (h : (((s.pool.retireOne i).expand g).mark g s.now).done g = false) :
    s.countRetired i = { s with pool := ((s.pool.retireOne i).expand g).mark g s.now } := by
  have hgraph : (s.pool.retireOne i).graph = some g := (s.pool.retireOne_graph i).trans hg
  have hcount : s.countRetired i = ({ s with pool := s.pool.retireOne i } : State).settlePool.finishReplay := rfl
  rw [hcount, State.settlePool_of_graph hgraph]
  obtain ⟨_, _, _, hsettled⟩ := (s.pool.retireOne i).expand_mark_eq g s.now
  exact State.finishReplay_of_not_done ((congrArg Pool.graph hsettled).trans hgraph) h

/-! ## The statement -/

/-- Settles O51: `spawn` as a release with an offer to the spawn queue, `end.node` as the joins before a release, and retiring as what the
pool counts. -/
theorem spawnAndEnd : Obligations.SpawnAndEnd := by
  unfold Obligations.SpawnAndEnd
  refine ⟨fun s g x p n gr e hi => ⟨exec_spawn_misaligned hi, fun hline hspace => ⟨fun hpub => ?goes, fun hpub => ?blocks⟩,
      State.enqueueSpawn_refuses, State.enqueueSpawn_undeclared, State.enqueueSpawn_enqueues⟩,
    fun s g o x r hi => ⟨exec_endNode_waits hi, fun hland => ?joins, State.endRelease_retires, State.endRelease_refused,
      State.release_blocks _⟩,
    fun s i gr => ⟨State.retire_idle, ⟨rfl, rfl, s.freeContext_mem, s.freeContext_pool⟩, fun hinst hgr => ?retires⟩⟩
  case goes => exact (exec_spawn_releases hi hline hspace).trans (congrArg _ (State.release_goes _ hpub))
  case blocks => exact (exec_spawn_releases hi hline hspace).trans (congrArg _ (State.release_blocks _ hpub))
  case joins =>
    have hexec := exec_endNode_joins hi hland
    refine ⟨fun hwait => ?_, fun hcomplete => ⟨fun ho hfault hfirst => ?_, fun hclean => ?_⟩⟩
    · exact hexec.trans (congrArg _ (State.joinOps_blocks _ hwait))
    · exact hexec.trans (congrArg _ (State.joinAll_raises _ hcomplete ho hfault hfirst))
    · rw [hexec, State.joinAll_goes _ fun y hy => ⟨hcomplete y hy, hclean y hy⟩]
      exact ⟨fun hnone => congrArg _ (State.joinRelayouts_of_none hnone _), fun hr => congrArg _ (State.joinRelayouts_oldest hr _)⟩
  case retires =>
    intro u p q
    obtain ⟨bs, hleave⟩ := s.leaveBarriers_eq i
    have hgraph : u.pool.graph = some gr := by rw [State.freeContext_pool, hleave]; exact hgr
    have hretire : s.retire = u.countRetired i := by rw [State.retire, hinst]
    refine ⟨by rw [State.freeContext_mem, hleave], hgraph, fun hdone => ?_⟩
    exact hretire.trans (State.countRetired_goes hgraph hdone)

end Sys2Proof.Machine
end

section
/-! PROOFS. Fences, survival fences and milestone barriers (R63, R102, R110, R120 to R124, R140, R141, R247, R248). -/

namespace Sys2Proof.Machine

/-! ## `fence` (R110, R247) -/

theorem State.readsBound_begun (s : State) (i : Instr) : (s.begun i).readsBound = s.readsBound := by
  simp only [State.readsBound, State.begun_remotes, State.begun_cid]

section Fence
variable {s : State} {g : Fin 16} {o : FenceOrd} {c : Scope} (hi : Issues (.fence g o c) s)
include hi

theorem exec_fence_acquires (ho : o = .acq) : exec (.fence g o c) s =
    .next (if s.readsBound then s.begun (.fence g o c) else (s.begun (.fence g o c)).blockBundle) := by
  subst ho
  rw [← s.readsBound_begun (.fence g .acq c)]
  exact State.syl_of_issues hi _

theorem exec_fence_unpublished (ho : o ≠ .acq) (hpub : (s.begun (.fence g o c)).publish.published = false) :
    exec (.fence g o c) s = .next (s.begun (.fence g o c)).publish.blockBundle := by
  cases o with
  | acq => exact absurd rfl ho
  | rel | acqrel | sc => exact (State.syl_of_issues hi _).trans (congrArg _ (State.release_blocks _ hpub))

variable (hpub : (s.begun (.fence g o c)).publish.published = true)
include hpub

theorem exec_fence_releases (ho : o = .rel) : exec (.fence g o c) s = .next (s.begun (.fence g o c)).publish.markOutbound := by
  subst ho
  exact (State.syl_of_issues hi _).trans (congrArg _ (State.release_goes _ hpub))

theorem exec_fence_orders (ho : o = .acqrel ∨ o = .sc) :
    exec (.fence g o c) s = .next (s.begun (.fence g o c)).publish.markOutbound.bindReads := by
  obtain rfl | rfl := ho
  · exact (State.syl_of_issues hi _).trans (congrArg _ (State.release_goes _ hpub))
  · exact (State.syl_of_issues hi _).trans (congrArg _ (State.release_goes _ hpub))

end Fence

/-! ## `fence.surv` (R102, R140, R141) -/

theorem State.protDrained_begun (s : State) (i : Instr) : (s.begun i).protDrained = s.protDrained := by
  obtain ⟨_, h⟩ := s.begun_eq i
  rw [h]
  rfl

/-- Survival: nothing protected is deferred, waits for its acknowledgement or is outstanding. -/
def State.survives (s : State) : Bool := !(!s.protDrained || s.cx.parity ≠ 0 || s.cx.awaiting.any (·.prot))

theorem State.survives_iff (s : State) :
    s.survives = true ↔ s.protDrained = true ∧ s.cx.parity = 0 ∧ ∀ l ∈ s.cx.awaiting, l.prot = false := by
  simp [State.survives, and_assoc]

/-- What is left of `fence.surv` once the protected lines are drained. -/
def State.awaitSurvival (s : State) : State :=
  if s.survives then
    match s.cx.nohold, s.cx.nopar with
    | some dev, _ => ({ s with cx := { s.cx with nohold := none } }).survivalFault dev 0x4C
    | none, some dev => ({ s with cx := { s.cx with nopar := none } }).survivalFault dev 0x4D
    | none, none => s
  else s.blockBundle

theorem exec_fenceSurv {s : State} {g : Fin 16} (hi : Issues (.fenceSurv g) s) :
    let b := s.begun (.fenceSurv g)
    exec (.fenceSurv g) s = .next (if s.protDrained then b else (b.drain true).markOutbound).awaitSurvival := by
  refine (State.syl_of_issues hi _).trans (congrArg _ ?_)
  dsimp only
  rw [s.protDrained_begun, State.awaitSurvival, State.survives]
  generalize (if s.protDrained = true then _ else _ : State) = u
  cases (!u.protDrained || decide (u.cx.parity ≠ 0) || u.cx.awaiting.any (·.prot)) <;> rfl

theorem State.awaitSurvival_blocks {s : State}
    (h : s.protDrained = false ∨ s.cx.parity ≠ 0 ∨ ∃ l ∈ s.cx.awaiting, l.prot = true) : s.awaitSurvival = s.blockBundle := by
  refine if_neg fun hs => ?_
  obtain ⟨hdrained, hparity, hacked⟩ := s.survives_iff.1 hs
  obtain h | h | ⟨l, hl, hprot⟩ := h
  · rw [hdrained] at h
    cases h
  · exact h hparity
  · rw [hacked l hl] at hprot
    cases hprot

section Survives
variable {s : State} (h : s.survives = true)
include h

theorem State.awaitSurvival_goes (hh : s.cx.nohold = none) (hp : s.cx.nopar = none) : s.awaitSurvival = s := by
  rw [State.awaitSurvival, if_pos h, hh, hp]

theorem State.awaitSurvival_noHolder {d : Fin 64} (hh : s.cx.nohold = some d) :
    s.awaitSurvival = ({ s with cx := { s.cx with nohold := none } }).survivalFault d 0x4C := by
  rw [State.awaitSurvival, if_pos h, hh]

theorem State.awaitSurvival_noParity {d : Fin 64} (hh : s.cx.nohold = none) (hp : s.cx.nopar = some d) :
    s.awaitSurvival = ({ s with cx := { s.cx with nopar := none } }).survivalFault d 0x4D := by
  rw [State.awaitSurvival, if_pos h, hh, hp]

end Survives

/-! ## Waiting at a barrier (R122) -/

theorem State.myBarrier_begun (s : State) (i : Instr) (b : Nat) : (s.begun i).myBarrier b = s.myBarrier b := by
  obtain ⟨_, h⟩ := s.begun_eq i
  rw [h]
  rfl

section Wait
variable {s : State} {k : Fin 16} {x : Barrier} {p : BarrierPart} (hx : s.myBarrier k.val = some x) (hp : s.cx.barriers[k] = p)
include hx hp

theorem State.waitBarrier_idle (hpend : p.pend = false) : s.waitBarrier k = s := by
  simp only [State.waitBarrier, hx, hp, hpend, Bool.not_false, if_true]

variable (hpend : p.pend = true)
include hpend

theorem State.waitBarrier_done (hdone : x.done (p.next - 1) = true) :
    s.waitBarrier k = s.setPart k { p with pend := false, waiting := none } := by
  simp only [State.waitBarrier, hx, hp, hpend, hdone, Bool.not_true, Bool.false_eq_true, if_false, if_true]

theorem State.waitBarrier_blocks (hdone : x.done (p.next - 1) = false) : s.waitBarrier k = s.blockBundle := by
  simp only [State.waitBarrier, hx, hp, hpend, hdone, Bool.not_true, Bool.false_eq_true, if_false]

end Wait

/-! ## Arriving at a barrier (R122, R123) -/

section Arrive
variable {s : State} {k : Fin 16} {x : Barrier} {p : BarrierPart} (hx : s.myBarrier k.val = some x) (hp : s.cx.barriers[k] = p)
  (after : State → State)
include hx hp

theorem State.arrive_blocks (h : ¬ (p.pend = false ∨ x.done (p.next - 1) = true)) : s.arrive k after = s.blockBundle := by
  rw [not_or, Bool.not_eq_false, Bool.not_eq_true] at h
  obtain ⟨hpend, hdone⟩ := h
  simp only [State.arrive, hx, hp, hpend, hdone, Bool.not_false, Bool.and_true, if_true]

/-- An arrival whose release and joins are done counts. -/
theorem State.arrive_counts {z : State} (hfree : p.pend = false ∨ x.done (p.next - 1) = true) (hpub : s.publish.published = true)
    (hjoined : ∀ o ∈ s.publish.markOutbound.allJoins, o.complete = true ∧ o.fault = none)
    (hz : z = s.publish.markOutbound.allJoins.foldl State.joined s.publish.markOutbound)
    (hrelaid : ∀ r ∈ z.ownRelayouts, r.state ≠ .active) : s.arrive k after = after (z.countArrival k x) := by
  have hgo : (p.pend && !x.done (p.next - 1)) = false := by
    obtain h | h := hfree <;> simp [h]
  have hany : ¬ (z.ownRelayouts.any fun r => r.state == .active) = true := by
    rw [List.any_eq_true]
    rintro ⟨r, hr, hactive⟩
    exact hrelaid r hr (eq_of_beq hactive)
  simp only [State.arrive, hx, hp, hgo, Bool.false_eq_true, if_false]
  rw [State.release_goes _ hpub, State.joinAll_goes _ hjoined, ← hz, if_neg hany]

end Arrive

/-! ## What an arrival leaves (R63, R120, R121, R123) -/

theorem State.countArrival_part (s : State) (k : Fin 16) (x : Barrier) :
    (s.countArrival k x).cx.barriers[k] = { s.cx.barriers[k] with next := (s.cx.barriers[k]).next + 1, pend := true } :=
  Vector.getElem_set_self _

theorem State.countArrival_barrier (s : State) (k : Fin 16) (x : Barrier) :
    x.arrive (s.cx.barriers[k]).next ∈ (s.countArrival k x).pool.barriers := List.mem_cons_self

/-- With an empty journal, the buffer phase is committed in the context alone. -/
theorem State.countArrival_commits {s : State} (k : Fin 16) (x : Barrier) (h : s.cx.journal = []) :
    (∃ c, (s.countArrival k x).cx.ckpt = some c ∧ c.committed = true ∧ c.outbound = false) ∧
      ∀ l ∈ (s.countArrival k x).cx.dsb, l.isSealed = true := by
  have hcommit : s.arrives.commitHere = s.arrives.commit ((s.issue.jump.or s.issue.link).getD s.cx.regs.pc) :=
    State.sealJournal_empty h
  rw [State.countArrival, hcommit]
  refine ⟨⟨_, rfl, rfl, rfl⟩, fun l hl => ?_⟩
  obtain ⟨_, -, rfl⟩ := List.mem_map.1 hl
  rfl

section Arrivals
variable (x : Barrier) (odd : Bool) (k : Nat)

theorem Barrier.arrivals_setArrivals_same : (x.setArrivals odd k).arrivals odd = k := by cases odd <;> rfl
theorem Barrier.arrivals_setArrivals_other : (x.setArrivals odd k).arrivals (!odd) = x.arrivals (!odd) := by cases odd <;> rfl
theorem Barrier.setArrivals_phase : (x.setArrivals odd k).phase = x.phase := by cases odd <;> rfl
theorem Barrier.setArrivals_n : (x.setArrivals odd k).n = x.n := by cases odd <;> rfl

end Arrivals

/-- The phase changes, the counts stay. -/
theorem Barrier.arrivals_withPhase (x : Barrier) (b odd : Bool) : ({ x with phase := b } : Barrier).arrivals odd = x.arrivals odd := rfl

section Phase
variable {x : Barrier} {n : Nat}

theorem Barrier.arrive_last (h : x.arrivals (n % 2 == 1) + 1 = x.n) :
    x.arrive n = { x.setArrivals (n % 2 == 1) 0 with phase := !x.phase } := if_pos h

theorem Barrier.arrive_early (h : x.arrivals (n % 2 == 1) + 1 ≠ x.n) :
    x.arrive n = x.setArrivals (n % 2 == 1) (x.arrivals (n % 2 == 1) + 1) := if_neg h

end Phase

/-- An arrival leaves the count of the other phase and the number of participants. -/
theorem Barrier.arrive_keeps (x : Barrier) (n : Nat) :
    (x.arrive n).arrivals (n % 2 == 0) = x.arrivals (n % 2 == 0) ∧ (x.arrive n).n = x.n := by
  have hother : (n % 2 == 0) = !(n % 2 == 1) := by
    obtain h | h := Nat.mod_two_eq_zero_or_one n <;> simp [h]
  rw [hother]
  by_cases h : x.arrivals (n % 2 == 1) + 1 = x.n
  · rw [Barrier.arrive_last h, Barrier.arrivals_withPhase]
    exact ⟨x.arrivals_setArrivals_other _ _, x.setArrivals_n _ _⟩
  · rw [Barrier.arrive_early h]
    exact ⟨x.arrivals_setArrivals_other _ _, x.setArrivals_n _ _⟩

/-! ## The barrier instructions (R248) -/

section Barriers
variable {s : State} {g k : Fin 16}

theorem exec_mlsWt (hi : Issues (.mlsWt g k) s) : exec (.mlsWt g k) s = .next ((s.begun (.mlsWt g k)).waitBarrier k) :=
  State.syl_of_issues hi _

theorem exec_mlsArr (hi : Issues (.mlsArr g k) s) : exec (.mlsArr g k) s = .next ((s.begun (.mlsArr g k)).arrive k fun t => t) :=
  State.syl_of_issues hi _

/-- Tried again at its code address, `mls` waits alone (assumption 78). -/
theorem exec_mls_waits (hi : Issues (.mls g k) s) (hwait : (s.cx.barriers[k]).waiting = some s.cx.regs.pc) :
    exec (.mls g k) s = .next ((s.begun (.mls g k)).waitBarrier k) := by
  refine (State.syl_of_issues hi _).trans (congrArg _ ?_)
  simp only [State.begun_barriers_c, State.begun_pc_r, hwait, if_true]

theorem exec_mls_arrives (hi : Issues (.mls g k) s) (hwait : (s.cx.barriers[k]).waiting ≠ some s.cx.regs.pc) :
    exec (.mls g k) s = .next ((s.begun (.mls g k)).arrive k fun t =>
      (t.setPart k { t.cx.barriers[k] with waiting := some s.cx.regs.pc }).waitBarrier k) := by
  refine (State.syl_of_issues hi _).trans (congrArg _ ?_)
  simp only [State.begun_barriers_c, State.begun_pc_r, hwait, if_false]

theorem exec_mlsQ {d : Dst} {x : Barrier} (hi : Issues (.mlsQ g d k) s) (hx : s.myBarrier k.val = some x) :
    exec (.mlsQ g d k) s = .next ((s.begun (.mlsQ g d k)).push .s1 d
      (word (!(s.cx.barriers[k]).pend || x.done ((s.cx.barriers[k]).next - 1)).toNat)) := by
  refine (State.syl_of_issues hi _).trans (congrArg _ ?_)
  simp only [State.begun_barriers_c, State.myBarrier_begun, hx]

end Barriers

/-! ## A barrier that the node does not declare (R120) -/

theorem State.barrierCause_undeclared {s : State} {k : Fin 16} (h : s.myBarrier k.val = none) : s.barrierCause k = some 0x0A := by
  unfold State.barrierCause State.nodeOf
  unfold State.myBarrier at h
  cases hinst : s.cx.inst with
  | none => rfl
  | some i =>
    cases hg : s.pool.graph with
    | none => rfl
    | some g =>
      cases hn : g.nodes[i.node]? with
      | none => simp only [hn]
      | some n =>
        simp only [hinst, hg, hn] at h ⊢
        rw [ite_eq_right_iff] at h
        exact if_neg fun hb => nomatch h hb

/-- A syllable that is illegal by itself, outside a bundle that has been checked (R207). -/
theorem State.syl_illegal {i : Instr} {s : State} {c : Nat} (hk : s.issue.checked = false) (hc : (Instr.info s i).cause = some c)
    (body : State → State) : s.syl (Instr.info s i) body =
      .next (s.idle.trap ⟨0x01, s.cx.regs.pc, bundleInfo 0 s.issue.slot.val false c⟩) := by
  have hstatic : s.idle.checkStatic (s.issue.slot, Instr.info s i) =
      .fault ⟨0x01, s.cx.regs.pc, bundleInfo 0 s.issue.slot.val false c⟩ s.issue.slot := by
    simp only [State.checkStatic, hc]
    rfl
  have hchecks : s.idle.checks [(s.issue.slot, Instr.info s i)] =
      .fault ⟨0x01, s.cx.regs.pc, bundleInfo 0 s.issue.slot.val false c⟩ s.issue.slot := by
    simp only [State.checks, firstVerdict, hstatic, Verdict.or]
  rw [State.syl_unchecked hk, hchecks]

theorem exec_barrier_undeclared {s : State} {g k : Fin 16} {d : Dst} {i : Instr} (hk : s.issue.checked = false)
    (hx : s.myBarrier k.val = none) (hstop : s.issue.stop = true) (hi : i ∈ [Instr.mls g k, .mlsArr g k, .mlsWt g k, .mlsQ g d k]) :
    exec i s = .next (s.idle.trap ⟨0x01, s.cx.regs.pc, bundleInfo 0 s.issue.slot.val false 0x0A⟩) := by
  have hcause := State.barrierCause_undeclared hx
  have hstopCause : s.stopCause.or (s.barrierCause k) = some 0x0A := by rw [State.stopCause, if_pos hstop]; exact hcause
  simp only [List.mem_cons, List.not_mem_nil, or_false] at hi
  obtain rfl | rfl | rfl | rfl := hi
  · exact State.syl_illegal (i := .mls g k) hk hstopCause _
  · exact State.syl_illegal (i := .mlsArr g k) hk hstopCause _
  · exact State.syl_illegal (i := .mlsWt g k) hk hcause _
  · exact State.syl_illegal (i := .mlsQ g d k) hk hcause _

/-! ## The statement -/

/-- Settles O20: fences by what a release and the binding of reads do, the barrier instructions by what arriving and waiting do. -/
theorem fencesAndMilestones : Obligations.FencesAndMilestones := by
  unfold Obligations.FencesAndMilestones
  refine ⟨fun s g o c hi => ⟨exec_fence_acquires hi, exec_fence_unpublished hi, fun ho hpub => exec_fence_releases hi hpub ho,
      fun ho hpub => exec_fence_orders hi hpub ho⟩, fun s g hi => ?survival, fun s g k d x => ?barriers, fun x n => ?phase⟩
  case survival =>
    intro b u
    have hexec := exec_fenceSurv hi
    refine ⟨fun hwait => hexec.trans (congrArg _ (State.awaitSurvival_blocks hwait)), fun hdrained hparity hacked => ?_⟩
    have hs : u.survives = true := u.survives_iff.2 ⟨hdrained, hparity, hacked⟩
    exact ⟨fun hh hp => hexec.trans (congrArg _ (State.awaitSurvival_goes hs hh hp)),
      fun d hh => hexec.trans (congrArg _ (State.awaitSurvival_noHolder hs hh)),
      fun d hh hp => hexec.trans (congrArg _ (State.awaitSurvival_noParity hs hh hp))⟩
  case barriers =>
    intro part free ready
    have hx' : ∀ i, s.myBarrier k.val = some x → (s.begun i).myBarrier k.val = some x := fun i => (s.myBarrier_begun i k.val).trans
    have hpart : ∀ i, (s.begun i).cx.barriers[k] = part := fun i => by rw [State.begun_barriers_c]
    refine ⟨fun hi hx hpend => ?idle, fun hi hx hpend hdone => ?done, fun hi hx hpend hdone => ?waits, fun hi hx hbusy => ?busy,
      fun z hi hx hfree ⟨hpub, hjoined, hz, hrelaid⟩ => ?arrives, fun z hi hx hnew hfree ⟨hpub, hjoined, hz, hrelaid⟩ => ?both,
      fun hi hx hagain hpend hdone => ?againDone, fun hi hx hagain hpend hdone => ?againWaits, exec_mlsQ,
      fun hk hx hstop i => exec_barrier_undeclared hk hx hstop,
      ⟨s.countArrival_part k x, s.countArrival_barrier k x, State.countArrival_commits k x⟩⟩
    case idle => rw [exec_mlsWt hi, State.waitBarrier_idle (hx' _ hx) (hpart _) hpend]
    case done => rw [exec_mlsWt hi, State.waitBarrier_done (hx' _ hx) (hpart _) hpend hdone]
    case waits => rw [exec_mlsWt hi, State.waitBarrier_blocks (hx' _ hx) (hpart _) hpend hdone]
    case busy => rw [exec_mlsArr hi, State.arrive_blocks (hx' _ hx) (hpart _) _ hbusy]
    case arrives => rw [exec_mlsArr hi, State.arrive_counts (hx' _ hx) (hpart _) _ hfree hpub hjoined hz hrelaid]
    case both => rw [exec_mls_arrives hi hnew, State.arrive_counts (hx' _ hx) (hpart _) _ hfree hpub hjoined hz hrelaid]
    case againDone => rw [exec_mls_waits hi hagain, State.waitBarrier_done (hx' _ hx) (hpart _) hpend hdone]
    case againWaits => rw [exec_mls_waits hi hagain, State.waitBarrier_blocks (hx' _ hx) (hpart _) hpend hdone]
  case phase =>
    refine ⟨fun hlast => ?last, fun hearly => ?early, x.arrive_keeps n⟩
    case last =>
      rw [Barrier.arrive_last hlast]
      exact ⟨rfl, x.arrivals_setArrivals_same _ 0⟩
    case early =>
      rw [Barrier.arrive_early hearly]
      exact ⟨x.setArrivals_phase _ _, x.arrivals_setArrivals_same _ _⟩

end Sys2Proof.Machine
end

section
/-! PROOFS. The parity path (R131, R135 to R138, R143, R145, R389): deltas at the holder, acknowledgements, the settlement of what a lost
member holds, and the rebuild engine. -/

namespace Sys2Proof.Machine

/-! ## What the shared operations leave -/

/-- Freeing bays changes the light engines alone. -/
theorem State.freeFlits_eq (s : State) (peer : Fin 64) (cls n : Nat) : ∃ f, s.freeFlits peer cls n = { s with fab := f } := by
  unfold State.freeFlits
  split
  · exact ⟨_, rfl⟩
  · exact ⟨_, rfl⟩

@[simp] theorem State.freeFlits_prot (s : State) (peer : Fin 64) (cls n : Nat) : (s.freeFlits peer cls n).prot = s.prot := by
  obtain ⟨f, h⟩ := s.freeFlits_eq peer cls n
  rw [h]

/-- An error is recorded, and the interrupt raised when PROTCTL asks for it. -/
def State.recordError (s : State) (e : Word) : State :=
  let s := { s with prot := { s.prot with proterr := e } }
  if flag s.prot.protctl 1 then s.interrupt 3 else s

theorem State.recordError_prot (s : State) (e : Word) : (s.recordError e).prot = { s.prot with proterr := e } := by
  unfold State.recordError
  dsimp only
  split
  · exact State.interrupt_prot _ _
  · rfl

section ProtError
variable (s : State) (cause peer line : Nat)

/-- The first error is recorded, until software clears it. -/
theorem State.protError_eq : s.protError cause peer line = if flag s.prot.proterr 63 then s
    else s.recordError (fieldsWord [(63, 1, 1), (48, 8, cause), (42, 6, peer), (0, 42, line)]) := rfl

theorem State.protError_prot : (s.protError cause peer line).prot = { s.prot with
    proterr := if flag s.prot.proterr 63 then s.prot.proterr
      else fieldsWord [(63, 1, 1), (48, 8, cause), (42, 6, peer), (0, 42, line)] } := by
  rw [State.protError_eq]
  split
  · rfl
  · exact State.recordError_prot _ _

theorem State.protError_rebuild : (s.protError cause peer line).prot.rebuild = s.prot.rebuild := by
  rw [State.protError_prot]

end ProtError

/-- An acknowledgement is an event of this device or a message. -/
theorem State.ackDelta_eq (s : State) (d : Delta) (k : AckKind) : ∃ a o, s.ackDelta d k = { s with agenda := a, outbox := o } := by
  unfold State.ackDelta
  dsimp only
  split
  · exact ⟨_, _, rfl⟩
  · exact ⟨_, _, rfl⟩

/-! ## Deltas at the holder (R135, R138) -/

/-- A delta whose turn it is uses up its sequence number and frees its bays. -/
def State.takeDelta (s : State) (d : Delta) : State :=
  { s.freeFlits d.home 3 5 with prot := { s.prot with recvSeq := put d.home.val (d.seq + 1) s.prot.recvSeq } }

theorem State.takeDelta_eq (s : State) (d : Delta) : ∃ f, s.takeDelta d =
    { s with fab := f, prot := { s.prot with recvSeq := put d.home.val (d.seq + 1) s.prot.recvSeq } } := by
  obtain ⟨f, hf⟩ := s.freeFlits_eq d.home 3 5
  exact ⟨f, by rw [State.takeDelta, hf]⟩

section TakeDelta
variable (s : State) (d : Delta)

@[simp] theorem State.takeDelta_mem : (s.takeDelta d).mem = s.mem := by obtain ⟨f, h⟩ := s.takeDelta_eq d; rw [h]
@[simp] theorem State.takeDelta_cx : (s.takeDelta d).cx = s.cx := by obtain ⟨f, h⟩ := s.takeDelta_eq d; rw [h]
@[simp] theorem State.takeDelta_prot :
    (s.takeDelta d).prot = { s.prot with recvSeq := put d.home.val (d.seq + 1) s.prot.recvSeq } := rfl
@[simp] theorem State.takeDelta_parityFrame (n : Nat) : (s.takeDelta d).parityFrame n = s.parityFrame n := rfl

end TakeDelta

/-- The parity line takes the XOR of a delta. -/
def State.xorParity (s : State) (d : Delta) : State :=
  { s with mem := s.mem.setStored d.line (BitVec.allOnes 64) (s.mem.stored d.line ^^^ d.xor) }

@[simp] theorem State.xorParity_mem (s : State) (d : Delta) :
    (s.xorParity d).mem = s.mem.setStored d.line (BitVec.allOnes 64) (s.mem.stored d.line ^^^ d.xor) := rfl
@[simp] theorem State.xorParity_cx (s : State) (d : Delta) : (s.xorParity d).cx = s.cx := by rw [State.xorParity]
@[simp] theorem State.xorParity_prot (s : State) (d : Delta) : (s.xorParity d).prot = s.prot := by rw [State.xorParity]

section ApplyDelta
variable {s : State} {d : Delta}

/-- A delta for a line that is no parity line is an error (R138). -/
theorem State.applyDelta_misplaced (h : s.parityFrame (d.line / 2 ^ 16) = false) :
    s.applyDelta d = ((s.takeDelta d).protError 0x03 d.home.val d.line).ackDelta d .noPar :=
  if_pos (by rw [Bool.not_eq_true']; exact h)

variable (h : s.parityFrame (d.line / 2 ^ 16) = true) (hs : s.mem.soft = []) (hh : s.mem.hard = [])
include h hs hh

theorem State.applyDelta_parity : s.applyDelta d =
    if (s.takeDelta d).mem.poison.contains d.line then ((s.takeDelta d).protError 0x02 d.home.val d.line).ackDelta d .noPar
    else ((s.takeDelta d).xorParity d).ackDelta d .applied := by
  have htouch : (s.takeDelta d).touch d.line (BitVec.allOnes 64) = s.takeDelta d :=
    State.touch_clean (by rw [State.takeDelta_mem, hs]) (by rw [State.takeDelta_mem, hh]) _ _
  have hframe : ¬ (!(s.takeDelta d).parityFrame (d.line / 2 ^ 16)) = true := by
    rw [State.takeDelta_parityFrame, h]
    exact Bool.false_ne_true
  refine (if_neg hframe).trans ?_
  rw [← State.takeDelta, htouch]
  rfl

/-- A delta for a poisoned parity line is an error (R138). -/
theorem State.applyDelta_poisoned (hp : d.line ∈ s.mem.poison) :
    s.applyDelta d = ((s.takeDelta d).protError 0x02 d.home.val d.line).ackDelta d .noPar := by
  rw [State.applyDelta_parity h hs hh, if_pos (by simpa using hp)]

/-- A delta changes its parity line by the XOR (R135). -/
theorem State.applyDelta_applied (hp : d.line ∉ s.mem.poison) :
    s.applyDelta d = ((s.takeDelta d).xorParity d).ackDelta d .applied := by
  rw [State.applyDelta_parity h hs hh, if_neg (by simpa using hp)]

end ApplyDelta

/-- What a delta that is discarded with an error leaves. -/
theorem State.takeDelta_error (s : State) (d : Delta) (cause : Nat) :
    let t := ((s.takeDelta d).protError cause d.home.val d.line).ackDelta d .noPar
    t.mem = s.mem ∧ t.nextDelta d.home.val = d.seq + 1 ∧ (flag s.prot.proterr 63 = false →
      t.prot.proterr = fieldsWord [(63, 1, 1), (48, 8, cause), (42, 6, d.home.val), (0, 42, d.line)]) := by
  intro t
  obtain ⟨a, o, ht⟩ := ((s.takeDelta d).protError cause d.home.val d.line).ackDelta_eq d .noPar
  rw [show t = _ from ht]
  refine ⟨?mem, ?next, fun hvalid => ?error⟩
  case mem => exact (State.protError_mem _ _ _ _).trans (s.takeDelta_mem d)
  case next => simp [State.nextDelta, State.protError_prot, look_put]
  case error => simp [State.protError_prot, hvalid]

/-- What a delta that is applied leaves. -/
theorem State.takeDelta_xorParity (s : State) (d : Delta) :
    let t := ((s.takeDelta d).xorParity d).ackDelta d .applied
    t.mem = s.mem.setStored d.line (BitVec.allOnes 64) (s.mem.stored d.line ^^^ d.xor) ∧ t.prot.heldDeltas = s.prot.heldDeltas ∧
      t.nextDelta d.home.val = d.seq + 1 ∧ t.cx = s.cx := by
  intro t
  obtain ⟨a, o, ht⟩ := ((s.takeDelta d).xorParity d).ackDelta_eq d .applied
  rw [show t = _ from ht]
  refine ⟨?mem, ?held, ?next, ?cx⟩
  case next => simp [State.nextDelta, look_put]
  case mem | held | cx => simp

/-- The deltas that are held for their predecessors are those of a list. -/
def State.setHeld (s : State) (l : List Delta) : State := { s with prot := { s.prot with heldDeltas := l } }

/-- The first held delta of a home whose turn it is (R135). -/
def State.heldDue (s : State) (home : Nat) : Option Delta :=
  s.prot.heldDeltas.find? fun d => d.home.val == home && d.seq == s.nextDelta home

section ApplyHeld
variable {s : State} {home n : Nat}

theorem State.applyHeld_due {d : Delta} (h : s.heldDue home = some d) : State.applyHeld home (n + 1) s =
    State.applyHeld home n ((s.setHeld (s.prot.heldDeltas.erase d)).applyDelta d) := by
  unfold State.heldDue at h
  rw [State.applyHeld, h]
  rfl

theorem State.applyHeld_early (h : s.heldDue home = none) : State.applyHeld home (n + 1) s = s := by
  unfold State.heldDue at h
  rw [State.applyHeld, h]

end ApplyHeld

section DeltaArrival
variable {s : State} {d : Delta}

theorem deltaArrival_lost (h : s.lostDevice d.home.val = true) :
    exec (.deltaArrival d) s = .next (s.idle.freeFlits d.home 3 5) := congrArg Host.Outcome.next (if_pos h)

variable (hhome : s.lostDevice d.home.val = false) (hheld : s.prot.heldDeltas = [])
include hhome hheld

/-- Where no delta is held, one that arrives is held and then tried. -/
theorem deltaArrival_tried : exec (.deltaArrival d) s = .next (State.applyHeld d.home.val 1 (s.idle.setHeld [d])) := by
  have hlist : s.prot.heldDeltas ++ [d] = [d] := by rw [hheld, List.nil_append]
  rw [← hlist, show 1 = (s.prot.heldDeltas ++ [d]).length by rw [hlist, List.length_singleton]]
  exact congrArg Host.Outcome.next (if_neg (ne_true_of_eq_false hhome))

theorem deltaArrival_due (hseq : d.seq = s.nextDelta d.home.val) : exec (.deltaArrival d) s = .next (s.idle.applyDelta d) := by
  have hdue : (s.idle.setHeld [d]).heldDue d.home.val = some d :=
    List.find?_cons_of_pos (by rw [Bool.and_eq_true, beq_iff_eq, beq_iff_eq]; exact ⟨rfl, hseq⟩)
  have hback : (s.idle.setHeld [d]).setHeld ([d].erase d) = s.idle := by
    rw [List.erase_cons_head, ← hheld]
    rfl
  rw [deltaArrival_tried hhome hheld, State.applyHeld_due hdue, ← hback]
  rfl

theorem deltaArrival_early (hseq : d.seq ≠ s.nextDelta d.home.val) :
    exec (.deltaArrival d) s = .next (s.idle.setHeld [d]) := by
  have hdue : (s.idle.setHeld [d]).heldDue d.home.val = none :=
    List.find?_eq_none.2 fun x hx => by
      rw [List.mem_singleton.1 hx, Bool.and_eq_true, beq_iff_eq, beq_iff_eq]
      exact fun h => hseq h.2
  rw [deltaArrival_tried hhome hheld, State.applyHeld_early hdue]

end DeltaArrival

/-! ## What the settlement of a counted write can change (R136, R143) -/

/-- t is s but for contexts, the counts of engine operations and messages. -/
def State.SettlesTo (s t : State) : Prop := ∃ cx ctxs oc jo ob,
  t = { s with cx := cx, ctxs := ctxs, outbox := ob, prot := { s.prot with opCounts := oc, joinedOps := jo } }

theorem State.SettlesTo.refl (s : State) : s.SettlesTo s := ⟨_, _, _, _, _, rfl⟩

theorem State.SettlesTo.trans {s t u : State} (h : s.SettlesTo t) (h' : t.SettlesTo u) : s.SettlesTo u := by
  obtain ⟨_, _, _, _, _, rfl⟩ := h
  obtain ⟨_, _, _, _, _, rfl⟩ := h'
  exact ⟨_, _, _, _, _, rfl⟩

theorem State.settlesTo_foldl {α : Type} (f : State → α → State) (hf : ∀ s x, State.SettlesTo s (f s x)) (l : List α) (s : State) :
    s.SettlesTo (l.foldl f s) := by
  induction l generalizing s with
  | nil => exact .refl s
  | cons x l ih => exact (hf s x).trans (ih (f s x))

theorem State.modCtx_settlesTo (s : State) (c : Nat) (f : Ctx → Ctx) : s.SettlesTo (s.modCtx c f) := by
  unfold State.modCtx State.setCtx
  split
  · exact ⟨_, _, _, _, _, rfl⟩
  · exact ⟨_, _, _, _, _, rfl⟩

theorem State.setSticky_settlesTo (s : State) (c : Nat) (k : AckKind) (dev : Nat) : s.SettlesTo (s.setSticky c k dev) := by
  unfold State.setSticky
  cases k with
  | applied => exact .refl s
  | noHold => exact s.modCtx_settlesTo _ _
  | noPar => exact s.modCtx_settlesTo _ _

theorem State.settleCtx_settlesTo (s : State) (c gen : Nat) (k : AckKind) (dev : Nat) : s.SettlesTo (s.settleCtx c gen k dev) := by
  unfold State.settleCtx
  split
  · exact (s.modCtx_settlesTo _ _).trans (State.setSticky_settlesTo _ _ _ _)
  · exact .refl s

/-- The count of an engine operation falls, and is forgotten at 0. -/
def State.lowerOp (s : State) (o : Nat) : State := { s with prot := { s.prot with
  opCounts := if look 0 o s.prot.opCounts = 1 then s.prot.opCounts.filter (·.1 != o)
    else put o (look 0 o s.prot.opCounts - 1) s.prot.opCounts } }

theorem State.settleCounted_unjoined {s : State} {o : Nat} (h : 0 < look 0 o s.prot.opCounts) (c gen : Nat) (k : AckKind) (dev : Nat) :
    s.settleCounted c gen (some o) k dev =
      if (s.lowerOp o).runsGen c gen then (s.lowerOp o).setSticky c k dev else s.lowerOp o := if_pos h

theorem State.settleCounted_settlesTo (s : State) (c gen : Nat) (op : Option Nat) (k : AckKind) (dev : Nat) :
    s.SettlesTo (s.settleCounted c gen op k dev) := by
  cases op with
  | none => exact s.settleCtx_settlesTo c gen k dev
  | some o =>
    by_cases h : 0 < look 0 o s.prot.opCounts
    · have hlower : s.SettlesTo (s.lowerOp o) := ⟨_, _, _, _, _, rfl⟩
      rw [State.settleCounted_unjoined h]
      split
      · exact hlower.trans (State.setSticky_settlesTo _ _ _ _)
      · exact hlower
    · rw [State.settleCounted, if_neg h]
      split
      · exact State.SettlesTo.trans ⟨_, _, _, _, _, rfl⟩ (State.settleCtx_settlesTo _ _ _ _ _)
      · exact .refl s

/-! ## What one settlement does (R136, R137, R141) -/

/-- The count of the context that wrote falls, and a sticky bit may be set. -/
theorem State.settleCtx_own {s : State} (hc : s.cid < noCtx) (k : AckKind) (dev : Fin 64) :
    s.settleCtx s.cid s.cx.parityGen k dev.val = { s with cx := { s.cx with
      parity := s.cx.parity - 1
      nohold := if k = .noHold then s.cx.nohold.or (some dev) else s.cx.nohold
      nopar := if k = .noPar then s.cx.nopar.or (some dev) else s.cx.nopar } } := by
  have hruns : s.runsGen s.cid s.cx.parityGen = true := by simp [State.runsGen, hc]
  rw [State.settleCtx, if_pos hruns]
  cases k <;> simp [State.setSticky, State.modCtx, State.setCtx, State.ctx]

/-- A context that has been given to another run observes nothing (R141). -/
theorem State.settleCtx_later {s : State} {gen : Nat} (h : gen ≠ s.cx.parityGen) (k : AckKind) (dev : Nat) :
    s.settleCtx s.cid gen k dev = s := by
  refine if_neg ?_
  simp [State.runsGen, Ne.symm h]

theorem State.setSticky_parity (s : State) (c : Nat) (k : AckKind) (dev : Nat) :
    (s.setSticky c k dev).cx.parity = s.cx.parity ∧ (s.setSticky c k dev).prot = s.prot := by
  have hmod : ∀ f : Ctx → Ctx, (∀ x, (f x).parity = x.parity) → (s.modCtx c f).cx.parity = s.cx.parity := by
    intro f hf
    unfold State.modCtx State.setCtx
    split
    case isTrue hc => exact (hf _).trans (by rw [hc, State.ctx_cid])
    case isFalse => rfl
  cases k with
  | applied => exact ⟨rfl, rfl⟩
  | noHold => exact ⟨hmod _ fun _ => rfl, State.modCtx_prot _ _ _⟩
  | noPar => exact ⟨hmod _ fun _ => rfl, State.modCtx_prot _ _ _⟩

theorem look_filter_ne {α : Type} (d : α) (k : Nat) (l : List (Nat × α)) : look d k (l.filter (·.1 != k)) = d := by
  induction l with
  | nil => rfl
  | cons e l ih =>
    obtain ⟨k', v⟩ := e
    by_cases h : k' = k
    · rw [List.filter_cons_of_neg (by simp [h]), ih]
    · rw [List.filter_cons_of_pos (by simpa using h), look, if_neg h, ih]

/-- Of an operation that is not joined, its own count falls, and no context's (R136). -/
theorem State.settleCounted_op {s : State} {o : Nat} (h : 0 < look 0 o s.prot.opCounts) (c gen : Nat) (k : AckKind) (dev : Nat) :
    let t := s.settleCounted c gen (some o) k dev
    t.cx.parity = s.cx.parity ∧ look 0 o t.prot.opCounts = look 0 o s.prot.opCounts - 1 := by
  intro t
  have hlook : look 0 o (s.lowerOp o).prot.opCounts = look 0 o s.prot.opCounts - 1 := by
    unfold State.lowerOp
    dsimp only
    split
    case isTrue h1 => rw [look_filter_ne, h1]
    case isFalse => rw [look_put, if_pos rfl]
  rw [show t = _ from State.settleCounted_unjoined h c gen k dev]
  split
  · obtain ⟨hparity, hprot⟩ := (s.lowerOp o).setSticky_parity c k dev
    rw [hparity, hprot]
    exact ⟨rfl, hlook⟩
  · exact ⟨rfl, hlook⟩

/-! ## Acknowledgements (R136, R143) -/

/-- What the parity path keeps of an acknowledgement: at the home the delta is counted no longer, elsewhere a delta that is settled as NOHOLD is
remembered until its own acknowledgement comes. -/
def Protect.acked (p : Protect) (device : Nat) (a : ParityAck) : Protect :=
  if a.home.val = device then { p with unacked := p.unacked.filter fun u => !(u.holder == a.dev.val && u.seq == a.seq) }
  else if a.kind = .noHold && a.dev != a.home then { p with lateAcks := p.lateAcks ++ [(a.home.val, a.dev.val, a.seq)] }
  else { p with lateAcks := p.lateAcks.erase (a.home.val, a.dev.val, a.seq) }

/-- The acknowledgement is of a write that is still counted. -/
def State.ackCounts (s : State) (a : ParityAck) : Prop :=
  (a.home.val = s.device ∧ (a.kind = .noHold ∨ ∃ u ∈ s.prot.unacked, u.holder = a.dev.val ∧ u.seq = a.seq)) ∨
    (a.home.val ≠ s.device ∧ ((a.kind = .noHold ∧ a.dev ≠ a.home) ∨ (a.home.val, a.dev.val, a.seq) ∉ s.prot.lateAcks))

/-- The state that keeps of an acknowledgement what the parity path keeps. -/
def State.keepAck (s : State) (a : ParityAck) : State := { s with prot := s.prot.acked s.device a }

/-- The writer's device settles the write. -/
def State.settleAck (s : State) (a : ParityAck) : State :=
  if a.writer.val = s.device then s.settleCounted a.ctx a.gen a.op a.kind a.dev.val else s

section AtHome
variable {s : State} {a : ParityAck} (hhome : a.home.val = s.device)
include hhome

theorem State.ackCounts_home : s.ackCounts a ↔
    (s.prot.unacked.any fun u => u.holder == a.dev.val && u.seq == a.seq) = true ∨ a.kind = .noHold := by
  simp only [State.ackCounts, hhome, true_and, ne_eq, not_true_eq_false, false_and, or_false, List.any_eq_true, Bool.and_eq_true,
    beq_iff_eq]
  exact or_comm

theorem State.keepAck_home : s.keepAck a =
    { s with prot := { s.prot with unacked := s.prot.unacked.filter fun u => !(u.holder == a.dev.val && u.seq == a.seq) } } := by
  rw [State.keepAck, Protect.acked, if_pos hhome]

/-- A home that counts no such delta keeps what it has. -/
theorem State.keepAck_unknown (hnone : ¬ (s.prot.unacked.any fun u => u.holder == a.dev.val && u.seq == a.seq) = true) :
    s.keepAck a = s := by
  rw [Bool.not_eq_true, List.any_eq_false] at hnone
  rw [State.keepAck_home hhome, List.filter_eq_self.2 fun u hu => by rw [Bool.not_eq_true', ← Bool.not_eq_true]; exact hnone u hu]

theorem State.parityAcked_home : s.parityAcked a =
    if (s.prot.unacked.any fun u => u.holder == a.dev.val && u.seq == a.seq) = true ∨ a.kind = .noHold
    then (s.keepAck a).settleAck a else s.keepAck a := by
  refine (if_pos hhome).trans ?_
  by_cases hmine : (s.prot.unacked.any fun u => u.holder == a.dev.val && u.seq == a.seq) = true
  · rw [if_pos hmine, if_pos (.inl hmine), State.keepAck_home hhome]
    rfl
  · rw [if_neg hmine, State.keepAck_unknown hhome hmine]
    simp only [hmine, Bool.false_eq_true, false_or]
    rfl

end AtHome

section Away
variable {s : State} {a : ParityAck} (haway : ¬ a.home.val = s.device)
include haway

theorem State.ackCounts_away : s.ackCounts a ↔
    (a.kind = .noHold && a.dev != a.home) = true ∨ ¬ s.prot.lateAcks.contains (a.home.val, a.dev.val, a.seq) = true := by
  simp [State.ackCounts, haway]

theorem State.parityAcked_away : s.parityAcked a =
    if (a.kind = .noHold && a.dev != a.home) = true ∨ ¬ s.prot.lateAcks.contains (a.home.val, a.dev.val, a.seq) = true
    then (s.keepAck a).settleAck a else s.keepAck a := by
  refine (if_neg haway).trans ?_
  rw [State.keepAck, Protect.acked, if_neg haway]
  by_cases hnew : (a.kind = .noHold && a.dev != a.home) = true
  · rw [if_pos hnew, if_pos hnew, if_pos (.inl hnew)]
    rfl
  · rw [if_neg hnew, if_neg hnew]
    by_cases hlate : s.prot.lateAcks.contains (a.home.val, a.dev.val, a.seq) = true
    · rw [if_pos hlate, if_neg (not_or.2 ⟨hnew, not_not.2 hlate⟩)]
    · rw [if_neg hlate, if_pos (.inr hlate), List.erase_of_not_mem (by simpa using hlate)]
      rfl

end Away

section ParityAcked
variable {s : State} {a : ParityAck}

/-- A write that is still counted is settled. -/
theorem State.parityAcked_counts (h : s.ackCounts a) : s.parityAcked a = (s.keepAck a).settleAck a := by
  by_cases hhome : a.home.val = s.device
  · rw [State.parityAcked_home hhome, if_pos ((State.ackCounts_home hhome).1 h)]
  · rw [State.parityAcked_away hhome, if_pos ((State.ackCounts_away hhome).1 h)]

/-- An acknowledgement of a delta that was settled before is only kept (R143). -/
theorem State.parityAcked_late (h : ¬ s.ackCounts a) : s.parityAcked a = s.keepAck a := by
  by_cases hhome : a.home.val = s.device
  · rw [State.parityAcked_home hhome, if_neg fun h' => h ((State.ackCounts_home hhome).2 h')]
  · rw [State.parityAcked_away hhome, if_neg fun h' => h ((State.ackCounts_away hhome).2 h')]

end ParityAcked

/-- Settling changes only what settlements can change. -/
theorem State.settleAck_settlesTo (s : State) (a : ParityAck) : s.SettlesTo (s.settleAck a) := by
  unfold State.settleAck
  split
  · exact s.settleCounted_settlesTo _ _ _ _ _
  · exact .refl s

theorem State.parityAcked_settlesTo (s : State) (a : ParityAck) : (s.keepAck a).SettlesTo (s.parityAcked a) := by
  by_cases h : s.ackCounts a
  · rw [State.parityAcked_counts h]
    exact State.settleAck_settlesTo _ a
  · rw [State.parityAcked_late h]
    exact .refl _

theorem State.settleAck_elsewhere {s : State} {a : ParityAck} (h : ¬ a.writer.val = s.device) :
    (s.keepAck a).settleAck a = s.keepAck a := if_neg h

section Leaves
variable {s : State} {a : ParityAck}

theorem State.parityAcked_mem : (s.parityAcked a).mem = s.mem := by
  obtain ⟨_, _, _, _, _, h⟩ := s.parityAcked_settlesTo a
  rw [h, State.keepAck]

theorem State.parityAcked_unacked : (s.parityAcked a).prot.unacked = (s.keepAck a).prot.unacked := by
  obtain ⟨_, _, _, _, _, h⟩ := s.parityAcked_settlesTo a
  rw [h]

/-- The home counts the delta no longer. -/
theorem State.parityAcked_home_forgets (hhome : a.home.val = s.device) {u : Unacked} (hu : u ∈ (s.parityAcked a).prot.unacked) :
    ¬ (u.holder = a.dev.val ∧ u.seq = a.seq) := by
  rw [State.parityAcked_unacked, State.keepAck_home hhome] at hu
  rintro ⟨hholder, hseq⟩
  simpa [hholder, hseq] using (List.mem_filter.1 hu).2

theorem State.parityAcked_away_unacked (haway : ¬ a.home.val = s.device) : (s.parityAcked a).prot.unacked = s.prot.unacked := by
  rw [State.parityAcked_unacked, State.keepAck, Protect.acked, if_neg haway]
  split
  · rfl
  · rfl

theorem State.keepAck_opCounts : (s.keepAck a).prot.opCounts = s.prot.opCounts := by
  rw [State.keepAck, Protect.acked]
  split
  · rfl
  · split
    · rfl
    · rfl

theorem State.parityAcked_late_cx (h : ¬ s.ackCounts a) : (s.parityAcked a).cx = s.cx := by
  rw [State.parityAcked_late h, State.keepAck]

theorem State.parityAcked_elsewhere_cx (hw : ¬ a.writer.val = s.device) : (s.parityAcked a).cx = s.cx := by
  by_cases h : s.ackCounts a
  · rw [State.parityAcked_counts h, State.settleAck_elsewhere hw, State.keepAck]
  · exact State.parityAcked_late_cx h

variable (h : s.ackCounts a) (hw : a.writer.val = s.device)
include h hw

theorem State.parityAcked_here : s.parityAcked a = (s.keepAck a).settleCounted a.ctx a.gen a.op a.kind a.dev.val :=
  (State.parityAcked_counts h).trans (if_pos hw)

/-- The count of the operation that wrote falls. -/
theorem State.parityAcked_op {o : Nat} (hop : a.op = some o) (ho : 0 < look 0 o s.prot.opCounts) :
    (s.parityAcked a).cx.parity = s.cx.parity ∧
      look 0 o (s.parityAcked a).prot.opCounts = look 0 o s.prot.opCounts - 1 := by
  rw [← State.keepAck_opCounts (a := a)] at ho
  obtain ⟨hparity, hcount⟩ := State.settleCounted_op ho a.ctx a.gen a.kind a.dev.val
  rw [State.parityAcked_here h hw, hop, hcount, State.keepAck_opCounts]
  exact ⟨hparity, rfl⟩

variable (hctx : a.ctx = s.cid) (hop : a.op = none)
include hctx hop

/-- The count of the run that wrote falls, and a sticky bit may be set. -/
theorem State.parityAcked_own (hc : s.cid < noCtx) (hgen : a.gen = s.cx.parityGen) :
    let x := (s.parityAcked a).cx
    x.parity = s.cx.parity - 1 ∧ x.regs = s.cx.regs ∧
      x.nohold = (if a.kind = .noHold then s.cx.nohold.or (some a.dev) else s.cx.nohold) ∧
      x.nopar = (if a.kind = .noPar then s.cx.nopar.or (some a.dev) else s.cx.nopar) := by
  have hown := State.settleCtx_own (s := s.keepAck a) hc a.kind a.dev
  rw [State.parityAcked_here h hw, hop, hctx, hgen]
  dsimp only
  rw [show (s.keepAck a).settleCounted s.cid s.cx.parityGen none a.kind a.dev.val = _ from hown]
  exact ⟨rfl, rfl, rfl, rfl⟩

/-- A later run of the context is not reached. -/
theorem State.parityAcked_later_cx (hgen : a.gen ≠ s.cx.parityGen) : (s.parityAcked a).cx = s.cx := by
  have hkeep := State.settleCtx_later (s := s.keepAck a) hgen a.kind a.dev.val
  rw [State.parityAcked_here h hw, hop, hctx]
  exact (congrArg State.cx hkeep).trans rfl

end Leaves

theorem State.freeAcks_eq (s : State) (l : List ParityAck) : ∃ f, s.freeAcks l = { s with fab := f } := by
  unfold State.freeAcks
  split
  · exact ⟨_, rfl⟩
  · split
    · exact ⟨_, rfl⟩
    · exact s.freeFlits_eq _ _ _

theorem exec_parityAckArrival (s : State) (l : List ParityAck) :
    exec (.parityAckArrival l) s = .next (l.foldl State.parityAcked (s.idle.freeAcks l)) := rfl

/-- One acknowledgement meets the state but for the light engines. -/
theorem parityAckArrival_one (s : State) (a : ParityAck) : ∃ q : State, exec (.parityAckArrival [a]) s = .next (q.parityAcked a) ∧
    q.mem = s.mem ∧ q.cx = s.cx ∧ q.cid = s.cid ∧ q.device = s.device ∧ q.prot = s.prot := by
  obtain ⟨f, hf⟩ := s.idle.freeAcks_eq [a]
  exact ⟨{ s.idle with fab := f }, by rw [exec_parityAckArrival, hf, List.foldl_cons, List.foldl_nil], rfl, rfl, rfl, rfl, rfl⟩

/-! ## A member that is lost (R131, R143) -/

/-- Nothing awaits a device: no delta of it is counted or waits to be sent. -/
def State.Settled (s : State) (dev : Nat) : Prop :=
  (∀ u ∈ s.prot.unacked, u.holder ≠ dev) ∧ ∀ x ∈ s.fab.txq, x.isDelta dev = false

/-- t has the memory, the registers of the parity path and part of the deltas of s. -/
structure State.DropsTo (s t : State) : Prop where
  mem : t.mem = s.mem
  protctl : t.prot.protctl = s.prot.protctl
  stripemap : t.prot.stripemap = s.prot.stripemap
  unacked : t.prot.unacked ⊆ s.prot.unacked
  txq : t.fab.txq ⊆ s.fab.txq

theorem State.DropsTo.refl (s : State) : s.DropsTo s := ⟨rfl, rfl, rfl, fun _ h => h, fun _ h => h⟩

theorem State.DropsTo.trans {s t u : State} (h : s.DropsTo t) (h' : t.DropsTo u) : s.DropsTo u where
  mem := h'.mem.trans h.mem
  protctl := h'.protctl.trans h.protctl
  stripemap := h'.stripemap.trans h.stripemap
  unacked := List.Subset.trans h'.unacked h.unacked
  txq := List.Subset.trans h'.txq h.txq

theorem State.SettlesTo.dropsTo {s t : State} (h : s.SettlesTo t) : s.DropsTo t := by
  obtain ⟨_, _, _, _, _, rfl⟩ := h
  exact ⟨rfl, rfl, rfl, fun _ h => h, fun _ h => h⟩

theorem State.Settled.mono {s t : State} {dev : Nat} (h : s.Settled dev) (h' : s.DropsTo t) : t.Settled dev :=
  ⟨fun u hu => h.1 u (h'.unacked hu), fun x hx => h.2 x (h'.txq hx)⟩

theorem State.DropsTo.member {s t : State} (h : s.DropsTo t) (m : Nat) : t.member m = s.member m := by
  rw [State.member, State.member, h.stripemap]

/-- The state without what awaits a lost device. -/
def State.forgetDevice (s : State) (dev : Nat) : State := { s.dropDeltas dev with prot := { s.prot with
  unacked := s.prot.unacked.filter (·.holder != dev), heldDeltas := s.prot.heldDeltas.filter (·.home.val != dev) } }

theorem State.settleLost_settlesTo (s : State) (dev : Nat) : (s.forgetDevice dev).SettlesTo (s.settleLost dev) := by
  refine State.settlesTo_foldl _ (fun t u => ?_) _ _
  split
  · exact t.settleCounted_settlesTo _ _ _ _ _
  · exact ⟨_, _, _, _, _, rfl⟩

theorem State.settleLost_dropsTo (s : State) (dev : Nat) : s.DropsTo (s.settleLost dev) := by
  refine .trans ?_ (s.settleLost_settlesTo dev).dropsTo
  exact ⟨rfl, rfl, rfl, List.filter_subset_self _, List.filter_subset_self _⟩

theorem State.settleLost_settled (s : State) (dev : Nat) : (s.settleLost dev).Settled dev := by
  refine .mono ⟨fun u hu => ?_, fun x hx => ?_⟩ (s.settleLost_settlesTo dev).dropsTo
  · simpa using (List.mem_filter.1 hu).2
  · simpa using (List.mem_filter.1 hx).2

/-- The members of a list that a write of PROTCTL marks as lost are settled, one after the other. -/
theorem State.settleLost_foldl (lost : Nat → Bool) (ms : List Nat) (s : State) :
    let t := ms.foldl (fun s m => if lost m then s.settleLost (s.member m) else s) s
    s.DropsTo t ∧ ∀ m ∈ ms, lost m = true → t.Settled (s.member m) := by
  induction ms generalizing s with
  | nil => exact ⟨.refl s, fun m hm => nomatch hm⟩
  | cons n ms ih =>
    rw [List.foldl_cons]
    obtain ⟨hdrops, hsettled⟩ := ih (if lost n then s.settleLost (s.member n) else s)
    have hfirst : s.DropsTo (if lost n then s.settleLost (s.member n) else s) := by
      split
      · exact s.settleLost_dropsTo _
      · exact .refl s
    refine ⟨hfirst.trans hdrops, fun m hm hlost => ?_⟩
    obtain rfl | hm := List.mem_cons.1 hm
    · refine .mono ?_ hdrops
      rw [if_pos hlost]
      exact s.settleLost_settled _
    · rw [← hfirst.member m]
      exact hsettled m hm hlost

theorem exec_protctlWrite (s : State) (v : BitVec 64) : exec (.protctlWrite v) s = .next (s.idle.writeProtctl v) := rfl

/-- A write of PROTCTL sets the register and settles what the members that are newly lost hold. -/
theorem State.writeProtctl_settled (s : State) (v : Word) :
    (s.writeProtctl v).prot.protctl = v &&& 0xFF03 ∧ (s.writeProtctl v).mem = s.mem ∧
      ∀ m < 8, flag v (8 + m) = true → flag s.prot.protctl (8 + m) = false → (s.writeProtctl v).Settled (s.member m) := by
  obtain ⟨hdrops, hsettled⟩ := State.settleLost_foldl (fun m => flag v (8 + m) && !flag s.prot.protctl (8 + m)) (List.range 8)
    { s with prot := { s.prot with protctl := v &&& 0xFF03 } }
  refine ⟨hdrops.protctl, hdrops.mem, fun m hm hnew hold => ?_⟩
  exact hsettled m (List.mem_range.2 hm) (by rw [hnew, hold]; rfl)

/-! ## The rebuild engine (R145, R389) -/

/-- An engine's read of a peer is a message, and frees bays. -/
theorem State.engAsk_prot (s : State) (dev : Fin 64) (r : RemoteReq) : (s.engAsk dev r).prot = s.prot := by
  unfold State.engAsk
  dsimp only
  rw [State.freeFlits_prot, State.send_prot, State.fresh_prot]

/-- The reads of the other members change no register of the parity path. What refuses a read is kept opaque: the kernel would compute with
the address that is asked for. -/
theorem State.peerLines_prot (v : PeerView) (line : Nat) (ms : List Nat) (s : State) :
    (State.peerLines v line ms s).2.prot = s.prot := by
  obtain ⟨refused, hrefused⟩ : ∃ r, r = State.refusedBy := ⟨_, rfl⟩
  delta State.peerLines State.peerLines._f
  rw [← hrefused]
  clear hrefused
  induction ms generalizing s with
  | nil => rfl
  | cons m ms ih =>
    dsimp only [List.brecOn, List.brecOn.go] at ih ⊢
    split
    · rfl
    · have hrest := (ih { s.engAsk (Fin.ofNat 64 (s.member m)) (s.rebuildReq line) with freeCount := s.freeCount + 1 }).trans
        (s.engAsk_prot _ _)
      split
      case h_1 hl => rw [hl] at hrest; exact hrest
      case h_2 hl => rw [hl] at hrest; exact hrest

theorem State.rebuildLine_rebuild (s : State) (v : PeerView) (line : Nat) :
    (s.rebuildLine v line).2.prot.rebuild = s.prot.rebuild := by
  have hread := State.peerLines_prot v line ((List.range 8).filter (· != s.selfMember)) s
  unfold State.rebuildLine
  split
  case h_1 hl => rw [hl] at hread; exact congrArg Protect.rebuild hread
  case h_2 hl =>
    rw [hl] at hread
    dsimp only
    split
    · rw [State.protError_rebuild]
      exact congrArg Protect.rebuild hread
    · exact congrArg Protect.rebuild hread

/-- The engine's own register stands while it restores lines. -/
theorem State.rebuildLines_rebuild (v : PeerView) (n a : Nat) (s : State) :
    (State.rebuildLines v n a s).2.prot.rebuild = s.prot.rebuild := by
  induction n generalizing a s with
  | zero => rfl
  | succ n ih =>
    have hline := s.rebuildLine_rebuild v a
    rw [State.rebuildLines]
    split
    case h_1 hl => rw [ih]; rw [hl] at hline; exact hline
    case h_2 hl => rw [hl] at hline; exact hline

/-- A run covers fewer frames than its counter can count. -/
theorem State.rebuildFrames_length_lt (s : State) (mode : Nat) : (s.rebuildFrames mode).length < 2 ^ 26 := by
  have hall : ((List.range (field s.prot.protregion 32 26)).map (field s.prot.protregion 0 26 + ·)).length < 2 ^ 26 := by
    rw [List.length_map, List.length_range]
    exact field_lt _ _ _
  unfold State.rebuildFrames
  dsimp only
  split
  · exact hall
  · split
    · exact Nat.one_lt_two_pow (by decide)
    · exact Nat.two_pow_pos 26
  · exact (List.length_filter_le _ _).trans_lt hall

/-- The state in which a step of a run looks at its next frame: the first step starts the run. -/
def State.rebuildBegun (s : State) : State :=
  if flag s.prot.rebuild 63 then s else s.setRebuild (setField (setFlag (setFlag s.prot.rebuild 63 true) 62 false) 0 26 0)

theorem flag_setField_disjoint (w : Word) (lo lo' len v : Nat) (h : lo < 64) (hlo : lo < lo' ∨ lo' + len ≤ lo) :
    flag (setField w lo' len v) lo = flag w lo := by
  rw [flag, getLsbD_setField _ _ _ _ _ h, if_neg (by omega), flag]

theorem State.rebuildBegun_busy (s : State) : flag s.rebuildBegun.prot.rebuild 63 = true := by
  unfold State.rebuildBegun
  split
  case isTrue h => exact h
  case isFalse =>
    change flag (setField (setFlag (setFlag s.prot.rebuild 63 true) 62 false) 0 26 0) 63 = true
    rw [flag_setField_disjoint _ _ _ _ _ (by decide) (by decide), flag_setFlag_ne _ _ _ _ (by decide) (by decide),
      flag_setFlag_same _ _ _ (by decide)]

/-- A step of a run, by the frame that its counter names. -/
theorem State.rebuildStep_eq (s : State) (mode : Nat) (again : PeerView → Event) (w : PeerView) : s.rebuildStep mode again w =
    match (s.rebuildFrames mode)[field s.rebuildBegun.prot.rebuild 0 26]? with
    | none => s.rebuildBegun.enqueue .rebuildDone
    | some f =>
      if s.rebuildBegun.draining then s.rebuildBegun.holdBack (again w)
      else match State.rebuildLines w 1024 (f * 2 ^ 16) s.rebuildBegun with
      | (false, u) => (u.setRebuild (setFlag u.prot.rebuild 62 true)).enqueue .rebuildDone
      | (true, u) =>
        let u := u.setRebuild (setField u.prot.rebuild 0 26 (field s.rebuildBegun.prot.rebuild 0 26 + 1))
        if field s.rebuildBegun.prot.rebuild 0 26 + 1 = (s.rebuildFrames mode).length then u.enqueue .rebuildDone
        else u.enqueue (again w) := rfl

theorem State.rebuildBegun_draining (s : State) : s.rebuildBegun.draining = s.draining := by
  unfold State.rebuildBegun
  split
  · rfl
  · rfl

/-- The run is still busy when its lines have been read. -/
theorem State.rebuildLines_busy {s u : State} {w : PeerView} {n a : Nat} {b : Bool}
    (h : State.rebuildLines w n a s.rebuildBegun = (b, u)) : flag u.prot.rebuild 63 = true := by
  have hkept := State.rebuildLines_rebuild w n a s.rebuildBegun
  rw [h] at hkept
  rw [hkept]
  exact s.rebuildBegun_busy

section RebuildStep
variable {s u : State} {mode f : Nat} {again : PeerView → Event} {w : PeerView}

theorem State.rebuildStep_ends (hk : (s.rebuildFrames mode)[field s.rebuildBegun.prot.rebuild 0 26]? = none) :
    s.rebuildStep mode again w = s.rebuildBegun.enqueue .rebuildDone := by
  rw [State.rebuildStep_eq, hk]

variable (hk : (s.rebuildFrames mode)[field s.rebuildBegun.prot.rebuild 0 26]? = some f)
include hk

theorem State.rebuildStep_waits (hd : s.draining = true) : s.rebuildStep mode again w = s.rebuildBegun.holdBack (again w) := by
  rw [State.rebuildStep_eq, hk]
  exact if_pos (s.rebuildBegun_draining.trans hd)

variable (hd : s.draining = false)
include hd

/-- A frame that is restored is counted, and the run goes on. -/
theorem State.rebuildStep_restores (hl : State.rebuildLines w 1024 (f * 2 ^ 16) s.rebuildBegun = (true, u)) :
    let t := s.rebuildStep mode again w
    field t.prot.rebuild 0 26 = field s.rebuildBegun.prot.rebuild 0 26 + 1 ∧ flag t.prot.rebuild 63 = true ∧ t.mem = u.mem := by
  intro t
  have hlt : field s.rebuildBegun.prot.rebuild 0 26 + 1 < 2 ^ 26 :=
    (Nat.succ_le_of_lt (List.getElem?_eq_some_iff.1 hk).1).trans_lt (s.rebuildFrames_length_lt mode)
  have hstep : ∃ e, t = (u.setRebuild (setField u.prot.rebuild 0 26 (field s.rebuildBegun.prot.rebuild 0 26 + 1))).enqueue e := by
    rw [show t = _ from s.rebuildStep_eq mode again w, hk]
    dsimp only
    rw [if_neg (by rw [s.rebuildBegun_draining, hd]; exact Bool.false_ne_true), hl]
    dsimp only
    split
    · exact ⟨_, rfl⟩
    · exact ⟨_, rfl⟩
  obtain ⟨e, ht⟩ := hstep
  rw [ht]
  refine ⟨?_, ?_, rfl⟩
  · exact (field_setField_same _ _ _ _ (by decide)).trans (Nat.mod_eq_of_lt hlt)
  · exact (flag_setField_disjoint _ _ _ _ _ (by decide) (by decide)).trans (State.rebuildLines_busy hl)

/-- A read that is refused stops the run with FAIL. -/
theorem State.rebuildStep_stops (hl : State.rebuildLines w 1024 (f * 2 ^ 16) s.rebuildBegun = (false, u)) :
    let t := s.rebuildStep mode again w
    flag t.prot.rebuild 62 = true ∧ flag t.prot.rebuild 63 = true ∧ t.mem = u.mem := by
  intro t
  have ht : t = (u.setRebuild (setFlag u.prot.rebuild 62 true)).enqueue .rebuildDone := by
    rw [show t = _ from s.rebuildStep_eq mode again w, hk]
    dsimp only
    rw [if_neg (by rw [s.rebuildBegun_draining, hd]; exact Bool.false_ne_true), hl]
  rw [ht]
  refine ⟨?_, ?_, rfl⟩
  · exact flag_setFlag_same _ _ _ (by decide)
  · exact (flag_setFlag_ne _ _ _ _ (by decide) (by decide)).trans (State.rebuildLines_busy hl)

end RebuildStep

/-- GO of a frame outside the region is ignored. -/
theorem rebuildFrame_ignored {s : State} (w : PeerView) (h : s.inRegion (field s.prot.rebuild 26 26) = false) :
    exec (.rebuildFrame w) s = .next s.idle := congrArg Host.Outcome.next (if_neg (ne_true_of_eq_false h))

/-- The three modes run the same engine, each as an event of its own. -/
theorem exec_rebuild {s : State} {w : PeerView} {mode : Nat} {i : Instr} (h : (mode = 0 ∧ i = .rebuildAll w) ∨
    (mode = 1 ∧ i = .rebuildFrame w ∧ s.inRegion (field s.prot.rebuild 26 26) = true) ∨ (mode = 2 ∧ i = .rebuildParity w)) :
    ∃ again : PeerView → Event, (again w).toInstr = i ∧ exec i s = .next (s.idle.rebuildStep mode again w) := by
  obtain ⟨rfl, rfl⟩ | ⟨rfl, rfl, hregion⟩ | ⟨rfl, rfl⟩ := h
  · exact ⟨.rebuildAll, rfl, rfl⟩
  · exact ⟨.rebuildFrame, rfl, congrArg Host.Outcome.next (if_pos hregion)⟩
  · exact ⟨.rebuildParity, rfl, rfl⟩

/-! ## The statement -/

/-- Settles O56: a delta by its turn and its line, an acknowledgement by whether its write is still counted, a write of PROTCTL by the members
that it settles one after the other, a step of a rebuild by its frame. -/
theorem parityPath : Obligations.ParityPath := by
  unfold Obligations.ParityPath
  refine ⟨fun s d => ?deltas, fun s a l o => ?acks, fun s v => ⟨?protctl, ?done⟩, fun s u w f mode i => ?rebuild⟩
  case deltas =>
    intro due error
    refine ⟨deltaArrival_lost, fun ⟨hhome, hheld, hseq⟩ hframe hs hh hp => ?applied, fun ⟨hhome, hheld, hseq⟩ hframe => ?misplaced,
      fun ⟨hhome, hheld, hseq⟩ hframe hs hh hp => ?poisoned,
      fun hhome hheld hseq => ⟨_, deltaArrival_early hhome hheld hseq, rfl, rfl⟩⟩
    case applied =>
      have hexec := deltaArrival_due hhome hheld hseq
      rw [State.applyDelta_applied (s := s.idle) hframe hs hh hp] at hexec
      obtain ⟨hmem, hkept, hnext, hcx⟩ := s.idle.takeDelta_xorParity d
      exact ⟨_, hexec, hmem, hkept.trans hheld, hnext, hcx⟩
    case misplaced =>
      have hexec := deltaArrival_due hhome hheld hseq
      rw [State.applyDelta_misplaced (s := s.idle) hframe] at hexec
      obtain ⟨hmem, hnext, herror⟩ := s.idle.takeDelta_error d 3
      exact ⟨_, hexec, hmem, hnext, herror⟩
    case poisoned =>
      have hexec := deltaArrival_due hhome hheld hseq
      rw [State.applyDelta_poisoned (s := s.idle) hframe hs hh hp] at hexec
      obtain ⟨hmem, hnext, herror⟩ := s.idle.takeDelta_error d 2
      exact ⟨_, hexec, hmem, hnext, herror⟩
  case acks =>
    obtain ⟨q, hexec, hmem, hcx, hcid, hdevice, hprot⟩ := parityAckArrival_one s a
    rw [← hmem, ← hcx, ← hcid, ← hdevice, ← hprot]
    exact ⟨_, hexec, State.parityAcked_mem, exec_parityAckArrival s l, fun hhome u => State.parityAcked_home_forgets hhome,
      State.parityAcked_away_unacked, State.parityAcked_elsewhere_cx, State.parityAcked_late_cx, fun hcounts hw hctx hc =>
        ⟨fun hop hgen => State.parityAcked_own hcounts hw hctx hop hc hgen, State.parityAcked_later_cx hcounts hw hctx,
          State.parityAcked_op hcounts hw⟩⟩
  case protctl =>
    obtain ⟨hreg, hmem, hlost⟩ := s.idle.writeProtctl_settled v
    exact ⟨_, exec_protctlWrite s v, hreg, hmem, hlost⟩
  case done => exact ⟨_, rfl, flag_setFlag_same _ _ _ (by decide), rfl⟩
  case rebuild =>
    intro b k
    refine ⟨rebuildFrame_ignored w, fun hmode => ?_⟩
    obtain ⟨again, hagain, hexec⟩ := exec_rebuild hmode
    refine ⟨fun hk => ?_, fun hk hd => ⟨again w, hagain, ?_⟩, fun hk hd hl => ⟨_, hexec, ?_⟩, fun hk hd hl => ⟨_, hexec, ?_⟩⟩
    · exact hexec.trans (congrArg _ (State.rebuildStep_ends (s := s.idle) hk))
    · exact hexec.trans (congrArg _ (State.rebuildStep_waits (s := s.idle) hk hd))
    · exact State.rebuildStep_restores (s := s.idle) hk hd hl
    · exact State.rebuildStep_stops (s := s.idle) hk hd hl

end Sys2Proof.Machine
end

section
/-! PROOFS. The state right after reset (R165, R175, R177, R198, R283, R372, R395, R399, R414, R422). -/

namespace Sys2Proof.Machine

/-- Every context is as reset leaves it, the current one too. -/
theorem State.ctx_reset (c : Nat) : State.reset.ctx c = Ctx.reset := ite_self _

theorem State.coreAt_reset (g : Nat) : State.reset.coreAt g = Core.reset := ite_self _

theorem Ctx.reset_lfsr {l : Nat} (h : l < 64) : at_ Ctx.reset.regs.lfsr l 0 = 1 := by
  simp [at_, Ctx.reset, Regs.reset, h]

theorem Core.reset_plane (p : Fin 4) : Core.reset.mx.plane p = IPlane.reset := Vector.getElem_replicate p.isLt

/-- The device registers at reset that the spec gives (R128, R372, R395, R414). -/
theorem State.regRead_reset : State.reset.regRead 0x1210 = 0x00001C61440C2040 ∧ State.reset.regRead 0x1400 = 0x0000000800000080 ∧
    State.reset.regRead 0x1500 = 0x960240C000000000 ∧ State.reset.regRead 0x1510 = 0x555F69 ∧ State.reset.regRead 0x1620 = 3 := by
  decide +kernel

/-- The device registers that read as zero at reset. -/
theorem State.regRead_reset_zero {a : Nat}
    (h : a ∈ [0x840, 0x1000, 0x1030, 0x1200, 0x1300, 0x1508, 0x1600, 0x1608, 0x1610]) : State.reset.regRead a = 0 := by
  revert a
  decide +kernel

/-- Settles O46: a table that lists nothing reads as its reset entry. -/
theorem resetState : Obligations.ResetState := by
  unfold Obligations.ResetState
  intro s
  obtain ⟨hstripe, hfab, hpwr, htherm, hroll⟩ := State.regRead_reset
  refine ⟨State.reset_mem_wf, fun a => rfl, fun c => ?contexts, fun g p => ?cores, fun n e => ⟨rfl, rfl, rfl⟩, ?_⟩
  case contexts =>
    rw [State.ctx_reset]
    exact ⟨rfl, rfl, rfl, rfl, rfl, fun l hl => Ctx.reset_lfsr hl⟩
  case cores =>
    rw [State.coreAt_reset, Core.reset_plane]
    exact ⟨rfl, rfl, fun k => rfl⟩
  refine ⟨?_, ?_, ?_, ?_, hstripe, ?_, hfab, hpwr, ?_, htherm, ?_, ?_, ?_, hroll, field_zero 45 2, rfl⟩ <;>
    exact State.regRead_reset_zero (by decide)

end Sys2Proof.Machine
end

section
/-! PROOFS. Contexts, cores and clusters over time (R165, R194, R211, R215, R227, R334, R358, R359, R364, R365): reading a context or a
core after another has changed, what writes that land leave alone, and each scheduling event. -/

namespace Sys2Proof.Machine

/-! ## Contexts and cores in their tables -/

theorem State.ctx_setCtx (s : State) (c d : Nat) (x : Ctx) : (s.setCtx c x).ctx d = if d = c then x else s.ctx d := by
  unfold State.setCtx
  split
  case isTrue hc =>
    subst hc
    change (if d = s.cid then x else look Ctx.reset d s.ctxs) = _
    by_cases h : d = s.cid <;> simp [h, State.ctx]
  case isFalse hc =>
    change (if d = s.cid then s.cx else look Ctx.reset d (put c x s.ctxs)) = _
    rw [look_put]
    by_cases h : d = s.cid
    · simp [h, State.ctx, Ne.symm hc]
    · simp [h, State.ctx, eq_comm]

theorem State.ctx_modCtx (s : State) (c d : Nat) (f : Ctx → Ctx) : (s.modCtx c f).ctx d = if d = c then f (s.ctx c) else s.ctx d :=
  s.ctx_setCtx c d _

theorem State.ctx_modCtx_same (s : State) (c : Nat) (f : Ctx → Ctx) : (s.modCtx c f).ctx c = f (s.ctx c) :=
  (s.ctx_modCtx c c f).trans (if_pos rfl)

theorem State.ctx_modCtx_ne (s : State) {c d : Nat} (f : Ctx → Ctx) (h : d ≠ c) : (s.modCtx c f).ctx d = s.ctx d :=
  (s.ctx_modCtx c d f).trans (if_neg h)

@[simp] theorem State.coreAt_modCtx (s : State) (c g : Nat) (f : Ctx → Ctx) : (s.modCtx c f).coreAt g = s.coreAt g := by
  have hgcore : (s.modCtx c f).gcore = s.gcore := congrArg (· / 4) (s.modCtx_cid c f)
  rw [State.coreAt, hgcore, State.modCtx_core, State.modCtx_cores, State.coreAt]

@[simp] theorem State.ctx_modCore (s : State) (g c : Nat) (f : Core → Core) : (s.modCore g f).ctx c = s.ctx c := by
  simp [State.ctx]

/-- A context made current is the one its table held. -/
theorem State.focus_cx (s : State) (c : Nat) : (s.focus c).cx = s.ctx c := by
  unfold State.focus State.ctx
  split
  case isTrue => rfl
  case isFalse hc => exact (look_put _ _ _ _ _).trans (if_neg hc)

theorem State.ctx_focus (s : State) (c d : Nat) : (s.focus c).ctx d = s.ctx d := by
  by_cases hd : d = c
  · subst hd
    rw [State.ctx, if_pos (s.focus_cid d).symm, State.focus_cx]
  · rw [State.ctx, State.focus_cid, if_neg hd]
    unfold State.focus
    split
    case isTrue hc => rw [State.ctx, if_neg (hc ▸ hd)]
    case isFalse =>
      change look Ctx.reset d (put s.cid s.cx s.ctxs) = _
      simp only [look_put, State.ctx]

theorem State.focus_core (s : State) (c : Nat) : (s.focus c).core = s.coreAt (c / 4) := by
  unfold State.focus
  split
  case isTrue hc => rw [hc]; exact s.coreAt_gcore.symm
  case isFalse =>
    change look Core.reset (c / 4) (put s.gcore s.core s.cores) = _
    simp only [look_put, State.coreAt]

theorem State.coreAt_focus (s : State) (c g : Nat) : (s.focus c).coreAt g = s.coreAt g := by
  have hgcore : (s.focus c).gcore = c / 4 := congrArg (· / 4) (s.focus_cid c)
  rw [State.coreAt, hgcore]
  by_cases hg : g = c / 4
  · rw [if_pos hg, hg, State.focus_core]
  · rw [if_neg hg]
    unfold State.focus
    split
    case isTrue hc => rw [State.coreAt, if_neg (fun h => hg (h.trans (congrArg (· / 4) hc.symm)))]
    case isFalse =>
      change look Core.reset g (put s.gcore s.core s.cores) = _
      simp only [look_put, State.coreAt]

/-- An operation on the current context needs no change of context. -/
theorem State.inCtx_current {s : State} {f : State → State} (h : (f s).cid = s.cid) : s.inCtx s.cid f = f s := by
  rw [State.inCtx, State.focus_self, ← h, State.focus_self]

theorem State.modCtx_current (s : State) (f : Ctx → Ctx) : s.modCtx s.cid f = { s with cx := f s.cx } := by
  rw [State.modCtx, State.setCtx_self, State.ctx_cid]

theorem State.modCore_current (s : State) (f : Core → Core) : s.modCore s.gcore f = { s with core := f s.core } := by
  rw [State.modCore, State.setCore_self, State.coreAt_gcore]

theorem State.clusterAt_modCluster (s : State) (n m : Nat) (f : Cluster → Cluster) :
    (s.modCluster n f).clusterAt m = if m = n then f (s.clusterAt n) else s.clusterAt m := look_put _ _ _ _ _

theorem State.clusterAt_modCluster_same (s : State) (n : Nat) (f : Cluster → Cluster) : (s.modCluster n f).clusterAt n = f (s.clusterAt n) :=
  (s.clusterAt_modCluster n n f).trans (if_pos rfl)

/-! ## Results that land (R194) -/

/-- The long-latency results that land with one of a tag. -/
def Flight.landsWith (tag : Nat) (x : Flight) : Bool := x.land.isNone && x.ready && x.tag == tag

/-- A result for a scalar register that has no company lands alone. -/
theorem State.landLong_scalar {s : State} {k : Nat} {f : Flight} {i : Fin 16} (hk : s.cx.inflight[k]? = some f) (hland : f.land = none)
    (hready : f.ready = true) (hreg : f.reg = .s i) (halone : s.cx.inflight.filter (Flight.landsWith f.tag) = [f]) :
    s.landLong k = { s with cx := { s.cx with
      inflight := s.cx.inflight.filter fun x => !x.landsWith f.tag,
      regs := { s.cx.regs with s := s.cx.regs.s.set i f.val.toWord } } } := by
  have hdue : (f.land.isNone && f.ready) = true := by rw [hland, hready]; rfl
  unfold State.landLong
  rw [hk]
  dsimp only
  rw [if_pos hdue]
  change (s.cx.inflight.filter (Flight.landsWith f.tag)).foldl State.landOne _ = _
  rw [halone, List.foldl_cons, List.foldl_nil, State.landOne, hreg]
  rfl

theorem State.landLong_waits {s : State} {k : Nat} (h : ∀ f, s.cx.inflight[k]? = some f → f.land ≠ none ∨ f.ready = false) :
    s.landLong k = s := by
  unfold State.landLong
  split
  case h_2 => rfl
  case h_1 f hf =>
    refine if_neg fun hdue => ?_
    obtain ⟨hnone, hready⟩ := Bool.and_eq_true_iff.1 hdue
    cases h f hf with
    | inl hland => exact hland (Option.isNone_iff_eq_none.1 hnone)
    | inr hwait => exact Bool.false_ne_true (hwait.symm.trans hready)

/-- A context as a retry of its bundle leaves it. -/
def Ctx.retried (x : Ctx) : Ctx := if x.status = .blocked ∧ x.wait = .bundle then { x with status := .ready, wait := .none } else x

theorem Ctx.retried_keeps (x : Ctx) : x.retried.regs = x.regs ∧ x.retried.inflight = x.inflight := by
  unfold Ctx.retried
  split <;> exact ⟨rfl, rfl⟩

theorem exec_resultLand_current {s t : State} {k : Nat} (h : s.idle.landLong k = t) (hcid : t.cid = s.cid) :
    exec (.resultLand s.cid k) s = .next { t with cx := t.cx.retried } := by
  have hin : s.idle.inCtx s.cid (·.landLong k) = t := (State.inCtx_current (s := s.idle) (h ▸ hcid)).trans h
  change Host.Outcome.next ((s.idle.inCtx s.cid (·.landLong k)).retry s.cid) = _
  rw [hin, State.retry, State.modCtx, ← hcid, State.setCtx_self, State.ctx_cid]
  rfl

/-! ## Becoming READY (R165, R227) -/

section BecomesReady
variable {s : State} {c : Nat}

theorem exec_blockCleared : exec (.blockCleared c) s =
    .next (s.idle.modCtx c fun x => if x.status = .blocked then { x with status := .ready, wait := .none } else x) := rfl

theorem exec_parkTExpiry_due {t0 : Nat} (hw : (s.ctx c).wait = .time t0) (ht : t0 ≤ s.now) :
    exec (.parkTExpiry c) s = .next (s.idle.makeReady c) := by
  have hw' : (s.idle.ctx c).wait = .time t0 := hw
  refine congrArg Host.Outcome.next ?_
  dsimp only
  rw [show ({ s with evt := End.done } : State) = s.idle from rfl, hw']
  exact if_pos ht

theorem exec_parkTExpiry_early (h : ∀ d, (s.ctx c).wait = .time d → s.now < d) : exec (.parkTExpiry c) s = .next s.idle := by
  refine congrArg Host.Outcome.next ?_
  dsimp only
  split
  case h_1 t0 hw => exact if_neg (Nat.not_le.2 (h t0 hw))
  case h_2 => rfl

end BecomesReady

/-! ## What writes that land leave alone (R197) -/

/-- t is s after writes have landed: they change the current context, its core and its cluster, and neither what the context waits for, nor
the core's cycle and RUNNING context, nor a sync round. -/
def State.LandsTo (s t : State) : Prop :=
  ∃ x k cl, t = { s with cx := x, core := k, clusters := cl } ∧ x.wait = s.cx.wait ∧ k.cycle = s.core.cycle ∧
    k.running = s.core.running ∧ ∀ n, (t.clusterAt n).rounds = (s.clusterAt n).rounds

theorem State.LandsTo.refl (s : State) : s.LandsTo s := ⟨_, _, _, rfl, rfl, rfl, rfl, fun _ => rfl⟩

theorem State.LandsTo.trans {s t u : State} (h : s.LandsTo t) (h' : t.LandsTo u) : s.LandsTo u := by
  obtain ⟨x, k, cl, rfl, hwait, hcycle, hrun, hrounds⟩ := h
  obtain ⟨x', k', cl', rfl, hwait', hcycle', hrun', hrounds'⟩ := h'
  exact ⟨x', k', cl', rfl, hwait'.trans hwait, hcycle'.trans hcycle, hrun'.trans hrun, fun n => (hrounds' n).trans (hrounds n)⟩

theorem State.landsTo_foldl {α : Type} (f : State → α → State) (hf : ∀ s x, State.LandsTo s (f s x)) (l : List α) (s : State) :
    s.LandsTo (l.foldl f s) := by
  induction l generalizing s with
  | nil => exact .refl s
  | cons x l ih => exact (hf s x).trans (ih (f s x))

/-- A change of the current context that keeps what it waits for. -/
theorem State.landsTo_cx (s : State) {x : Ctx} (h : x.wait = s.cx.wait) : s.LandsTo { s with cx := x } :=
  ⟨x, _, _, rfl, h, rfl, rfl, fun _ => rfl⟩

theorem State.modRegs_landsTo (s : State) (f : Regs → Regs) : s.LandsTo (s.modRegs f) := s.landsTo_cx rfl

theorem State.writeSys_landsTo (s : State) (n : SysReg) (v : Word) : s.LandsTo (s.writeSys n v) := by
  cases n
  case fpmode | issuectl | spillptr | energy | dsbjournal | estat | epc | ecode | eaddr | einfo | trapbase => exact s.landsTo_cx rfl
  case slotmap | katsig => exact ⟨_, _, _, rfl, rfl, rfl, rfl, fun _ => rfl⟩
  case ctxid | loopcnt | boostlvl => exact .refl s
  case permits =>
    rw [State.writeSys]
    split
    case isFalse => exact .refl s
    case isTrue =>
      refine ⟨_, _, _, rfl, rfl, rfl, rfl, fun n => ?_⟩
      rw [State.clusterAt_modCluster]
      split
      case isTrue h => rw [h]
      case isFalse => rfl

theorem State.landOne_landsTo (s : State) (f : Flight) : s.LandsTo (s.landOne f) := by
  rw [State.landOne]
  cases f.reg
  case s | qr | a | v | lfsr => exact s.modRegs_landsTo _
  case p | m =>
    dsimp only
    split
    · exact .refl s
    · exact s.modRegs_landsTo _
  case h | flags =>
    dsimp only
    split
    · exact s.modRegs_landsTo _
    · exact .refl s
  case sys n => exact s.writeSys_landsTo n _

theorem State.landOld_landsTo (s : State) : s.LandsTo s.landOld :=
  (State.landsTo_foldl _ State.landOne_landsTo _ s).trans (State.landsTo_cx _ rfl)

theorem State.landOld_core (s : State) : s.landOld.core.cycle = s.core.cycle ∧ s.landOld.core.running = s.core.running := by
  obtain ⟨x, k, cl, h, -, hcycle, hrun, -⟩ := s.landOld_landsTo
  rw [h]
  exact ⟨hcycle, hrun⟩

/-! ## When the last write has landed (R358) -/

section Grows
variable {α : Type} {step : Nat → α → Nat} (hgrows : ∀ m x, m ≤ step m x)
include hgrows

theorem le_foldl_of_grows (l : List α) (m : Nat) : m ≤ l.foldl step m := by
  induction l generalizing m with
  | nil => exact le_refl m
  | cons x l ih => exact (hgrows m x).trans (ih _)

theorem le_foldl_of_mem {n : Nat} {x : α} {l : List α} (hx : x ∈ l) (hn : ∀ m, n ≤ step m x) (m : Nat) : n ≤ l.foldl step m := by
  induction l generalizing m with
  | nil => cases hx
  | cons y l ih =>
    rw [List.foldl_cons]
    cases List.mem_cons.1 hx with
    | inl hxy => exact (hxy ▸ hn m).trans (le_foldl_of_grows hgrows l _)
    | inr hxl => exact ih hxl _

end Grows

theorem le_lastLanding {n : Nat} {f : Flight} {fs : List Flight} (hf : f ∈ fs) (hland : f.land = some n) : n ≤ lastLanding fs := by
  refine le_foldl_of_mem (fun m g => ?_) hf (fun m => ?_) 0
  · split
    · exact Nat.le_max_left _ _
    · exact le_refl m
  · simp only [hland]
    exact Nat.le_max_right _ _

/-- One more write taken into those that land by a cycle. -/
def insertDue (c : Nat) (acc : List (Nat × Flight)) (f : Flight) : List (Nat × Flight) :=
  match f.land with
  | some d => if d ≤ c then insertFlight f d acc else acc
  | none => acc

theorem landing_eq (c : Nat) (fs : List Flight) : landing c fs = (fs.foldl (insertDue c) []).map (·.2) := rfl

theorem mem_insertFlight {f : Flight} {c : Nat} {x : Nat × Flight} {l : List (Nat × Flight)} :
    x ∈ insertFlight f c l ↔ x = (c, f) ∨ x ∈ l := by
  induction l with
  | nil => simp [insertFlight]
  | cons y l ih =>
    obtain ⟨c', f'⟩ := y
    rw [insertFlight]
    split
    · rw [List.mem_cons, ih, List.mem_cons]
      tauto
    · rw [List.mem_cons]

theorem mem_foldl_insertDue {c : Nat} {x : Nat × Flight} {fs : List Flight} {acc : List (Nat × Flight)} (h : x ∈ acc) :
    x ∈ fs.foldl (insertDue c) acc := by
  refine List.foldlRecOn fs (insertDue c) (motive := (x ∈ ·)) h fun acc hacc f _ => ?_
  unfold insertDue
  split
  case h_1 d _ =>
    split
    · exact mem_insertFlight.2 (.inr hacc)
    · exact hacc
  case h_2 => exact hacc

/-- A write that is due is among those that land. -/
theorem mem_landing {c n : Nat} {f : Flight} {fs : List Flight} (hf : f ∈ fs) (hland : f.land = some n) (hdue : n ≤ c) :
    f ∈ landing c fs := by
  obtain ⟨l, r, rfl⟩ := List.append_of_mem hf
  rw [landing_eq, List.foldl_append, List.foldl_cons]
  refine List.mem_map.2 ⟨(n, f), mem_foldl_insertDue ?_, rfl⟩
  rw [insertDue, hland]
  dsimp only
  rw [if_pos hdue]
  exact mem_insertFlight.2 (.inl rfl)

/-- Once the writes of earlier bundles have landed, none of them landed later than the last landing. -/
theorem State.le_landOld_lastLand {s : State} {f : Flight} {n : Nat} (hf : f ∈ s.cx.inflight) (hland : f.land = some n) :
    n ≤ s.landOld.cx.lastLand :=
  (le_lastLanding (mem_landing hf hland (le_lastLanding hf hland)) hland).trans (Nat.le_max_right _ _)

/-! ## Leaving the core (R358) -/

/-- The cycle by which every fixed-latency write of a context has landed. -/
def Ctx.lastWrite (x : Ctx) : Nat := (x.inflight ++ x.fresh).foldl (fun m f => Nat.max m (f.land.getD 0)) x.lastLand

theorem Ctx.lastLand_le_lastWrite (x : Ctx) : x.lastLand ≤ x.lastWrite := le_foldl_of_grows (fun m _ => Nat.le_max_left m _) _ _

/-- The RUNNING context leaves its core, which issues again two cycles after the last write has landed. -/
theorem State.leaveCore_eq {s : State} (h : s.core.running = some (Fin.ofNat 4 s.cid)) : ∃ e r b, s.leaveCore = { s with
    cx := { s.cx with energy := e },
    core := { s.core with
      rem := r, sample := (s.clusterAt (s.gcore / 96)).energy, running := none, lastRun := Fin.ofNat 4 s.cid,
      readyAt := Nat.max s.core.cycle s.cx.lastWrite + 2, idle := b } } := by
  have hcore : s.coreAt (s.cid / 4) = s.core := s.coreAt_gcore
  unfold State.leaveCore State.stopRunning
  dsimp only
  rw [hcore, if_pos h, State.modCtx_current, State.ctx_cid]
  exact ⟨_, _, _, State.modCore_current _ _⟩

/-- A context whose quantum has ended is READY again, and its core is free. -/
theorem State.endQuantum_current {s : State} (h : s.core.running = some (Fin.ofNat 4 s.cid)) :
    s.endQuantum.cid = s.cid ∧ s.endQuantum.cx.status = .ready ∧ s.endQuantum.core.running = none ∧ s.endQuantum.mem = s.mem ∧
      s.core.cycle + 2 ≤ s.endQuantum.core.readyAt ∧
      ∀ f ∈ s.cx.inflight, ∀ n, f.land = some n → n + 2 ≤ s.endQuantum.core.readyAt := by
  obtain ⟨hcycle, hrun⟩ := s.landOld_core
  have hrun' : s.landOld.core.running = some (Fin.ofNat 4 s.landOld.cid) := by rw [hrun, s.landOld_cid, h]
  obtain ⟨e, r, b, hleave⟩ := State.leaveCore_eq (s := { s.landOld with cx := { s.landOld.cx with status := .ready } }) hrun'
  rw [State.endQuantum, hleave]
  refine ⟨s.landOld_cid, rfl, rfl, s.landOld_mem, Nat.add_le_add_right ?_ 2, fun f hf n hland => Nat.add_le_add_right ?_ 2⟩
  · exact hcycle.symm.le.trans (Nat.le_max_left _ _)
  · exact (State.le_landOld_lastLand hf hland).trans ((Ctx.lastLand_le_lastWrite _).trans (Nat.le_max_right _ _))

/-! ## Choosing a context (R358, R359) -/

theorem State.nextReady_ready {s : State} {g : Nat} {q : Fin 4} (h : s.nextReady g = some q) : s.isReady g q = true := by
  unfold State.nextReady at h
  split at h
  case h_1 k hk =>
    cases h
    have hfound := List.find?_some hk
    exact (Bool.and_eq_true_iff.1 hfound).1
  case h_2 => exact List.find?_some h

/-- One that a sync round has released goes first. -/
theorem State.nextReady_exempt {s : State} {g : Nat} {q j : Fin 4} (h : s.nextReady g = some q) (hj : s.isReady g j = true)
    (hexempt : (s.ctx (4 * g + j.val)).exempt = true) : (s.ctx (4 * g + q.val)).exempt = true := by
  unfold State.nextReady at h
  split at h
  case h_1 k hk =>
    cases h
    have hfound := List.find?_some hk
    exact (Bool.and_eq_true_iff.1 hfound).2
  case h_2 hnone => exact absurd (Bool.and_eq_true_iff.2 ⟨hj, hexempt⟩) (List.find?_eq_none.1 hnone j (List.mem_finRange j))

theorem exec_contextSwitch_stays {s : State} {g : Nat} (h : (s.coreAt g).running ≠ none ∨ s.nextReady g = none) :
    exec (.contextSwitch g) s = .next s.idle := by
  refine congrArg Host.Outcome.next ?_
  dsimp only
  split
  case isTrue => rfl
  case isFalse hfree =>
    have hnone : s.nextReady g = none := h.resolve_left fun hrun => hfree (Option.isSome_iff_ne_none.2 hrun)
    rw [show State.nextReady { s with evt := .done } g = none from hnone]
    rfl

theorem exec_contextSwitch_takes {s : State} {g : Nat} {q : Fin 4} (hfree : (s.coreAt g).running = none) (hq : s.nextReady g = some q) :
    exec (.contextSwitch g) s = .next (s.idle.startCtx g q) := by
  refine congrArg Host.Outcome.next ?_
  dsimp only
  rw [show State.coreAt { s with evt := .done } g = s.coreAt g from rfl, hfree,
    show State.nextReady { s with evt := .done } g = some q from hq]
  rfl

/-- Catching up moves the core's own count alone, and never back. -/
theorem State.catchUp_eq (s : State) : ∃ c t, s.catchUp = { s with core := { s.core with cycle := c, tick := t } } ∧ s.core.cycle ≤ c := by
  unfold State.catchUp
  dsimp only
  split
  case isTrue h => exact ⟨_, _, rfl, Nat.le_of_lt h⟩
  case isFalse => exact ⟨s.core.cycle, s.core.tick, rfl, le_refl _⟩

theorem State.startCtx_takes (s : State) (g : Nat) (q : Fin 4) : (s.startCtx g q).cid = 4 * g + q.val ∧
    (s.startCtx g q).cx.status = .running ∧ (s.startCtx g q).core.running = some q ∧
    (s.startCtx g q).cx.regs = (s.ctx (4 * g + q.val)).regs ∧ (s.startCtx g q).mem = s.mem ∧
    (s.coreAt g).readyAt ≤ (s.startCtx g q).cx.resumeAt ∧
    ((s.coreAt g).idle = true → (s.coreAt g).cycle + 2 ≤ (s.startCtx g q).cx.resumeAt) := by
  have hcore : (s.focus (4 * g + q.val)).core = s.coreAt g := by
    rw [State.focus_core, show (4 * g + q.val) / 4 = g by omega]
  obtain ⟨c, t, hup, hc⟩ := (s.focus (4 * g + q.val)).catchUp_eq
  unfold State.startCtx
  dsimp only
  rw [hup]
  dsimp only
  rw [hcore] at hc ⊢
  rw [State.focus_cx]
  refine ⟨s.focus_cid _, rfl, rfl, rfl, s.focus_mem _, ?_, fun hidle => ?_⟩
  · exact (Nat.le_max_left _ _).trans (Nat.le_max_left _ _)
  · rw [if_pos hidle]
    exact (Nat.add_le_add_right hc 2).trans ((Nat.le_max_right _ _).trans (Nat.le_max_left _ _))

/-! ## The quantum (R358) and stop spacing (R215) -/

theorem exec_quantum_current {s : State} (h : s.core.running = some (Fin.ofNat 4 s.cid)) :
    exec (.quantum s.gcore) s = .next (if s.atStop && s.quantumDue then s.idle.endQuantum else s.idle) := by
  have hcid : 4 * s.gcore + (Fin.ofNat 4 s.cid).val = s.cid := Nat.div_add_mod s.cid 4
  have hkeep : (if s.idle.atStop && s.idle.quantumDue then s.idle.endQuantum else s.idle).cid = s.idle.cid := by
    split
    · exact (State.endQuantum_current (s := s.idle) h).1
    · rfl
  have hin := State.inCtx_current (s := s.idle) (f := fun s => if s.atStop && s.quantumDue then s.endQuantum else s) hkeep
  refine congrArg Host.Outcome.next ?_
  dsimp only
  rw [show State.coreAt { s with evt := .done } s.gcore = s.core from s.coreAt_gcore, h]
  dsimp only
  rw [hcid]
  exact hin

theorem exec_quantum_free {s : State} {g : Nat} (h : (s.coreAt g).running = none) : exec (.quantum g) s = .next s.idle := by
  refine congrArg Host.Outcome.next ?_
  dsimp only
  rw [show State.coreAt { s with evt := .done } g = s.coreAt g from rfl, h]
  rfl

@[simp] theorem State.stopRunning_cid (s : State) (c : Nat) : (s.stopRunning c).cid = s.cid := by
  unfold State.stopRunning
  dsimp only
  split
  · rw [State.modCore_cid, State.modCtx_cid]
  · rfl

@[simp] theorem State.dropWaits_cid (s : State) (c : Nat) : (s.dropWaits c).cid = s.cid := by
  unfold State.dropWaits
  dsimp only
  split <;> rfl

/-- Ending a context leaves the current one current. -/
@[simp] theorem State.endContext_cid (s : State) (c : Nat) : (s.endContext c).cid = s.cid := by
  unfold State.endContext State.cancelAll
  simp only [State.modCtx_cid, State.dropWaits_cid, State.stopRunning_cid, State.modCore_cid, State.modMx_cid]
  split <;> rfl

theorem State.foldl_endContext_cid (l : List Nat) (s : State) : (l.foldl State.endContext s).cid = s.cid := by
  induction l generalizing s with
  | nil => rfl
  | cons c l ih => rw [List.foldl_cons, ih, State.endContext_cid]

@[simp] theorem State.failReplay_cid (s : State) (node code : Nat) : (s.failReplay node code).cid = s.cid := by
  unfold State.failReplay
  extract_lets ks tag regs told ended pool emptied u
  have hended : ended.cid = s.cid := State.foldl_endContext_cid _ told
  split
  · rw [State.interrupt_cid]
    exact hended
  · exact hended

@[simp] theorem State.fatal_cid (s : State) (code : BitVec 8) : (s.fatal code).cid = s.cid := by
  unfold State.fatal
  split
  case h_1 =>
    split
    · exact State.failReplay_cid _ _ _
    · rw [State.interrupt_cid, State.endContext_cid]
  case h_2 => rw [State.interrupt_cid, State.endContext_cid]

theorem exec_stopSpacing_current (s : State) :
    exec (.stopSpacing s.cid) s = .next (if 63 ≤ s.cx.stopCount then s.idle.stopFault else s.idle) := by
  refine congrArg Host.Outcome.next (State.inCtx_current (s := s.idle) (f := fun s => if 63 ≤ s.cx.stopCount then s.stopFault else s) ?_)
  split
  · exact State.fatal_cid _ _
  · rfl

/-! ## Prefetch (R211) -/

theorem exec_fetchRefill_none {s : State} (h : s.refillAddr = none) : exec (.fetchRefill s.cid) s = .next s.idle := by
  have hnone : s.idle.refillAddr = none := h
  refine congrArg Host.Outcome.next ((State.inCtx_current (s := s.idle) ?_).trans ?_) <;> simp only [hnone]

theorem exec_fetchRefill_fills {s u : State} {a : Word} (h : s.refillAddr = some a) (hfill : s.idle.fillOther a = u) (hcid : u.cid = s.cid) :
    exec (.fetchRefill s.cid) s = .next u := by
  have haddr : s.idle.refillAddr = some a := h
  refine congrArg Host.Outcome.next ((State.inCtx_current (s := s.idle) ?_).trans ?_) <;> simp only [haddr, hfill]
  exact hcid

theorem State.fillOther_ok {s u : State} {a : Word} {y : Segment} (h : s.readSegment a = (.ok y, u)) : s.fillOther a = u.setOther y := by
  rw [State.fillOther, h]

theorem State.fillOther_fault {s u : State} {a : Word} {e : Trap} (h : s.readSegment a = (.fault e, u)) : s.fillOther a = u := by
  rw [State.fillOther, h]

theorem State.setOther_halves (s : State) (y : Segment) : (s.setOther y).otherSeg = some y ∧ (s.setOther y).curSeg = s.curSeg ∧
    (s.setOther y).cx.regs = s.cx.regs := by
  unfold State.setOther State.otherSeg State.curSeg
  cases hh : s.cx.half <;> simp [hh]

/-! ## Sync rounds (R334, R359) -/

/-- t is s but for what a core that is cleared for a sync round changes: what each context waits for, the count of each core and the rounds
of each cluster stay. -/
structure State.SameRounds (s t : State) : Prop where
  mem : t.mem = s.mem
  wait : ∀ c, (t.ctx c).wait = (s.ctx c).wait
  cycle : ∀ g, (t.coreAt g).cycle = (s.coreAt g).cycle
  rounds : ∀ n, (t.clusterAt n).rounds = (s.clusterAt n).rounds

theorem State.SameRounds.refl (s : State) : s.SameRounds s := ⟨rfl, fun _ => rfl, fun _ => rfl, fun _ => rfl⟩

theorem State.SameRounds.trans {s t u : State} (h : s.SameRounds t) (h' : t.SameRounds u) : s.SameRounds u :=
  ⟨h'.mem.trans h.mem, fun c => (h'.wait c).trans (h.wait c), fun g => (h'.cycle g).trans (h.cycle g),
    fun n => (h'.rounds n).trans (h.rounds n)⟩

theorem State.sameRounds_foldl {α : Type} (f : State → α → State) (hf : ∀ s x, State.SameRounds s (f s x)) (l : List α) (s : State) :
    s.SameRounds (l.foldl f s) := by
  induction l generalizing s with
  | nil => exact .refl s
  | cons x l ih => exact (hf s x).trans (ih (f s x))

theorem State.focus_sameRounds (s : State) (c : Nat) : s.SameRounds (s.focus c) :=
  ⟨s.focus_mem c, fun d => congrArg Ctx.wait (s.ctx_focus c d), fun g => congrArg Core.cycle (s.coreAt_focus c g),
    fun n => congrArg (fun l => (look Cluster.reset n l).rounds) (s.focus_clusters c)⟩

theorem State.modCtx_sameRounds (s : State) (c : Nat) {f : Ctx → Ctx} (hf : ∀ x, (f x).wait = x.wait) :
    s.SameRounds (s.modCtx c f) := by
  refine ⟨s.modCtx_mem c f, fun d => ?_, fun g => congrArg Core.cycle (s.coreAt_modCtx c g f),
    fun n => congrArg (fun l => (look Cluster.reset n l).rounds) (s.modCtx_clusters c f)⟩
  rw [State.ctx_modCtx]
  split
  case isTrue h => rw [hf, h]
  case isFalse => rfl

theorem State.modCore_sameRounds (s : State) (g : Nat) {f : Core → Core} (hf : ∀ k, (f k).cycle = k.cycle) :
    s.SameRounds (s.modCore g f) := by
  refine ⟨s.modCore_mem g f, fun d => congrArg Ctx.wait (s.ctx_modCore g d f), fun g' => ?_,
    fun n => congrArg (fun l => (look Cluster.reset n l).rounds) (s.modCore_clusters g f)⟩
  rw [State.coreAt_modCore]
  split
  case isTrue h => rw [hf, h]
  case isFalse => rfl

theorem State.LandsTo.sameRounds {s t : State} (h : s.LandsTo t) : s.SameRounds t := by
  obtain ⟨x, k, cl, rfl, hwait, hcycle, -, hrounds⟩ := h
  refine ⟨rfl, fun c => ?_, fun g => ?_, hrounds⟩
  · change (if c = s.cid then x else look Ctx.reset c s.ctxs).wait = (if c = s.cid then s.cx else look Ctx.reset c s.ctxs).wait
    split
    · exact hwait
    · rfl
  · change (if g = s.gcore then k else look Core.reset g s.cores).cycle = (if g = s.gcore then s.core else look Core.reset g s.cores).cycle
    split
    · exact hcycle
    · rfl

theorem State.stopRunning_sameRounds (s : State) (c : Nat) : s.SameRounds (s.stopRunning c) := by
  unfold State.stopRunning
  dsimp only
  split
  · refine .trans (s.modCtx_sameRounds c ?_) (State.modCore_sameRounds _ _ ?_) <;> exact fun _ => rfl
  · exact .refl s

theorem State.endQuantum_sameRounds (s : State) : s.SameRounds s.endQuantum :=
  (s.landOld_landsTo.trans (t := s.landOld) (u := { s.landOld with cx := { s.landOld.cx with status := .ready } })
    (State.landsTo_cx _ rfl)).sameRounds.trans (State.stopRunning_sameRounds _ _)

theorem State.clearCore_sameRounds (s : State) (g : Nat) : s.SameRounds (s.clearCore g) := by
  unfold State.clearCore
  split
  case h_2 => exact .refl s
  case h_1 k _ =>
    refine (s.focus_sameRounds (4 * g + k.val)).trans (.trans (t := ite _ _ _) ?_ (State.focus_sameRounds _ _))
    split
    · exact .refl _
    · exact State.endQuantum_sameRounds _

/-- A context that waits for a round is released by it: it goes on at a cycle. -/
def Ctx.released (id at_ : Nat) (x : Ctx) : Ctx :=
  if x.wait = .round id then { x with status := .ready, wait := .none, exempt := true, synced := true, resumeAt := at_ } else x

theorem Ctx.released_eq {id : Nat} {x : Ctx} (at_ : Nat) (h : x.wait = .round id) :
    x.released id at_ = { x with status := .ready, wait := .none, exempt := true, synced := true, resumeAt := at_ } := if_pos h

theorem Ctx.released_twice (id at_ : Nat) (x : Ctx) : (x.released id at_).released id at_ = x.released id at_ := by
  by_cases h : x.wait = .round id
  · rw [Ctx.released_eq at_ h]
    exact if_neg (by simp)
  · have hx : x.released id at_ = x := if_neg h
    rw [hx, hx]

/-- One participant of a round is released, and its core is free for it. -/
def State.release1 (id at_ : Nat) (s : State) (c : Nat) : State :=
  (s.modCore (c / 4) fun k => { k with readyAt := Nat.min k.readyAt at_, idle := false }).modCtx c (Ctx.released id at_)

theorem State.foldl_release1_ctx (id at_ : Nat) (l : List Nat) (s : State) (d : Nat) :
    (l.foldl (State.release1 id at_) s).ctx d = if d ∈ l then (s.ctx d).released id at_ else s.ctx d := by
  induction l generalizing s with
  | nil => rfl
  | cons c l ih =>
    rw [List.foldl_cons, ih, State.release1, State.ctx_modCtx, State.ctx_modCore]
    by_cases hc : d = c
    · subst hc
      simp [Ctx.released_twice]
    · simp [hc]

theorem State.foldl_release1_mem (id at_ : Nat) (l : List Nat) (s : State) : (l.foldl (State.release1 id at_) s).mem = s.mem := by
  induction l generalizing s with
  | nil => rfl
  | cons c l ih => rw [List.foldl_cons, ih, State.release1, State.modCtx_mem, State.modCore_mem]

theorem State.foldl_release1_clusters (id at_ : Nat) (l : List Nat) (s : State) :
    (l.foldl (State.release1 id at_) s).clusters = s.clusters := by
  induction l generalizing s with
  | nil => rfl
  | cons c l ih => rw [List.foldl_cons, ih, State.release1, State.modCtx_clusters, State.modCore_clusters]

/-- The cores of a round's participants are cleared, and the round is gone. -/
def State.roundOver (s : State) (n id : Nat) (r : SyncRound) : State :=
  r.arrived.foldl (fun s c => s.clearCore (c / 4)) (s.modCluster n fun k => { k with rounds := k.rounds.filter (·.id != id) })

/-- The cycle before the one in which the participants issue their next bundle. -/
def State.roundResumes (s : State) (r : SyncRound) : Nat := (s.coreAt (r.arrived.getLastD 0 / 4)).cycle + 7

theorem State.roundOver_sameRounds (s : State) (n id : Nat) (r : SyncRound) :
    (s.modCluster n fun k => { k with rounds := k.rounds.filter (·.id != id) }).SameRounds (s.roundOver n id r) :=
  State.sameRounds_foldl _ (fun t _ => t.clearCore_sameRounds _) _ _

section Round
variable {s : State} {n id : Nat} {r : SyncRound}

theorem exec_syncRoundRelease_goes (hr : (s.clusterAt n).rounds.find? (·.id == id) = some r) (hall : r.n ≤ r.arrived.length) :
    exec (.syncRoundRelease n id) s =
      .next (r.arrived.foldl (State.release1 id ((s.idle.roundOver n id r).roundResumes r)) (s.idle.roundOver n id r)) := by
  refine congrArg Host.Outcome.next ?_
  dsimp only
  rw [show State.clusterAt { s with evt := .done } n = s.clusterAt n from rfl, hr]
  exact if_neg (Nat.not_lt.2 hall)

theorem exec_syncRoundRelease_waits (h : ((s.clusterAt n).rounds.find? (·.id == id) = some r ∧ r.arrived.length < r.n) ∨
    (s.clusterAt n).rounds.find? (·.id == id) = none) : exec (.syncRoundRelease n id) s = .next s.idle := by
  refine congrArg Host.Outcome.next ?_
  dsimp only
  rw [show State.clusterAt { s with evt := .done } n = s.clusterAt n from rfl]
  obtain ⟨hr, hless⟩ | hnone := h
  · rw [hr]
    exact if_pos hless
  · rw [hnone]
    rfl

end Round

/-! ## Known-answer injection (R364, R365) -/

theorem Core.freeCycle_range {k : Core} {inst lo n : Nat} (h : k.freeCycle inst lo = some n) : lo ≤ n ∧ n < k.cycle := by
  unfold Core.freeCycle at h
  dsimp only at h
  obtain hin | ⟨-, hafter⟩ := Option.or_eq_some_iff.1 h
  · obtain ⟨x, -, hx⟩ := List.exists_of_findSome?_eq_some hin
    obtain ⟨hfree, hn⟩ := Option.ite_none_right_eq_some.1 hx
    cases hn
    simp only [Bool.and_eq_true, decide_eq_true_eq] at hfree
    exact hfree.1
  · obtain ⟨hless, hn⟩ := Option.ite_none_right_eq_some.1 hafter
    cases hn
    exact ⟨Nat.le_max_left _ _, hless⟩

/-- The cycle from which an injection is due, n cycles after the last. -/
def Core.katNext (k : Core) (inst n : Nat) : Nat :=
  match (k.katLast.find? (·.1 == inst)).map (·.2) with
  | some c => Nat.max k.used.1 (c + Nat.max 1 n)
  | none => k.used.1

theorem Core.last_lt_katNext {k : Core} {inst : Nat} {x : Nat × Nat} (h : k.katLast.find? (·.1 == inst) = some x) (n : Nat) :
    x.2 < k.katNext inst n := by
  rw [Core.katNext, h]
  exact Nat.lt_of_lt_of_le (Nat.lt_add_of_pos_right (Nat.lt_of_lt_of_le Nat.one_pos (Nat.le_max_left 1 n))) (Nat.le_max_right _ _)

/-- An injection is due in a cycle that has ended, after the last injection into its unit, while KATCTL enables it. -/
theorem Core.katCycle_due {k : Core} {inst n : Nat} (h : k.katCycle inst = some n) : flag k.katctl 0 = true ∧ inst < 10 ∧ n < k.cycle ∧
    ∀ x, k.katLast.find? (·.1 == inst) = some x → x.2 < n := by
  have hcycle : k.katCycle inst = if !flag k.katctl 0 || 10 ≤ inst then none
      else if flag k.katctl 1 && field k.katctl 16 8 == inst then
        (if k.katNext inst 1 < k.cycle then some (k.katNext inst 1) else none)
      else k.freeCycle inst (k.katNext inst (field k.katctl 32 32)) := rfl
  rw [hcycle] at h
  obtain ⟨hoff, h⟩ := Option.ite_none_left_eq_some.1 h
  obtain ⟨hon, hinst⟩ : flag k.katctl 0 = true ∧ inst < 10 := by simpa using hoff
  refine ⟨hon, hinst, ?_⟩
  split at h
  case isTrue =>
    obtain ⟨hless, hn⟩ := Option.ite_none_right_eq_some.1 h
    cases hn
    exact ⟨hless, fun x hx => Core.last_lt_katNext hx 1⟩
  case isFalse =>
    obtain ⟨hlo, hless⟩ := Core.freeCycle_range h
    exact ⟨hless, fun x hx => (Core.last_lt_katNext hx _).trans_le hlo⟩

/-- KATSIG with one more difference counted. -/
def katCounted (old : Word) : Word := setField old 48 8 (satAdd 8 (field old 48 8) 1)

/-- KATSIG once an injected operation has differed in some lanes. -/
def katDiffers (old : Word) (inst : BitVec 8) (fails : BitVec 16) : Word :=
  if flag old 63 then katCounted old else setField (setField (setFlag (katCounted old) 63 true) 40 8 inst.toNat) 0 16 fails.toNat

theorem katCounted_fields (old : Word) : flag (katCounted old) 63 = flag old 63 ∧
    field (katCounted old) 48 8 = Nat.min 255 (field old 48 8 + 1) ∧ field (katCounted old) 40 8 = field old 40 8 ∧
    field (katCounted old) 0 16 = field old 0 16 := by
  refine ⟨flag_setField_disjoint _ _ _ _ _ (by decide) (by decide), ?_, field_setField_disjoint _ _ _ _ _ _ (by decide),
    field_setField_disjoint _ _ _ _ _ _ (by decide)⟩
  have hsat : satAdd 8 (field old 48 8) 1 = Nat.min 255 (field old 48 8 + 1) := Nat.min_comm _ _
  rw [katCounted, field_setField_same _ _ _ _ (by decide), hsat]
  exact Nat.mod_eq_of_lt (Nat.lt_of_le_of_lt (Nat.min_le_left _ _) (by decide))

theorem katDiffers_counts (old : Word) (inst : BitVec 8) (fails : BitVec 16) : flag (katDiffers old inst fails) 63 = true ∧
    field (katDiffers old inst fails) 48 8 = Nat.min 255 (field old 48 8 + 1) := by
  obtain ⟨hflag, hcount, -⟩ := katCounted_fields old
  unfold katDiffers
  split
  case isTrue h => exact ⟨hflag.trans h, hcount⟩
  case isFalse =>
    refine ⟨?_, ?_⟩
    · rw [flag_setField_disjoint _ _ _ _ _ (by decide) (by decide), flag_setField_disjoint _ _ _ _ _ (by decide) (by decide)]
      exact flag_setFlag_same _ _ _ (by decide)
    · rw [field_setField_disjoint _ _ _ _ _ _ (by decide), field_setField_disjoint _ _ _ _ _ _ (by decide)]
      exact (field_setField_disjoint _ _ _ _ _ _ (by decide)).trans hcount

/-- The first difference is shown, until KATSIG is cleared. -/
theorem katDiffers_first {old : Word} (h : flag old 63 = false) (inst : BitVec 8) (fails : BitVec 16) :
    field (katDiffers old inst fails) 40 8 = inst.toNat ∧ field (katDiffers old inst fails) 0 16 = fails.toNat := by
  rw [katDiffers, if_neg (Bool.eq_false_iff.1 h)]
  refine ⟨?_, ?_⟩
  · rw [field_setField_disjoint _ _ _ _ _ _ (by decide), field_setField_same _ _ _ _ (by decide)]
    exact Nat.mod_eq_of_lt inst.isLt
  · rw [field_setField_same _ _ _ _ (by decide)]
    exact Nat.mod_eq_of_lt fails.isLt

theorem katDiffers_later {old : Word} (h : flag old 63 = true) (inst : BitVec 8) (fails : BitVec 16) :
    field (katDiffers old inst fails) 40 8 = field old 40 8 ∧ field (katDiffers old inst fails) 0 16 = field old 0 16 := by
  rw [katDiffers, if_pos h]
  exact (katCounted_fields old).2.2

@[simp] theorem State.coreAt_interrupt (s : State) (k g : Nat) : (s.interrupt k).coreAt g = s.coreAt g := by
  have hgcore : (s.interrupt k).gcore = s.gcore := congrArg (· / 4) (s.interrupt_cid k)
  rw [State.coreAt, hgcore, State.interrupt_core, State.interrupt_cores, State.coreAt]

/-- The interrupt of a mismatch touches no core and no memory. -/
theorem State.katInterrupt_keeps (s : State) (g g' : Nat) :
    (s.katInterrupt g).coreAt g' = s.coreAt g' ∧ (s.katInterrupt g).mem = s.mem := by
  unfold State.katInterrupt
  split
  · exact ⟨rfl, rfl⟩
  · exact ⟨State.coreAt_interrupt _ _ _, State.interrupt_mem _ _⟩

theorem State.katOutcome_agrees (s : State) (g : Nat) (inst : BitVec 8) : s.katOutcome g inst 0 = s := if_pos rfl

theorem State.katOutcome_differs {s : State} {fails : BitVec 16} (h : fails ≠ 0) (g : Nat) (inst : BitVec 8) :
    (s.katOutcome g inst fails).coreAt g = { s.coreAt g with katsig := katDiffers (s.coreAt g).katsig inst fails } ∧
      (s.katOutcome g inst fails).mem = s.mem := by
  rw [State.katOutcome, if_neg h, katDiffers]
  dsimp only
  split
  case isTrue => exact ⟨(State.coreAt_modCore _ _ _ _).trans (if_pos rfl), State.modCore_mem _ _ _⟩
  case isFalse =>
    obtain ⟨hcore, hmem⟩ := State.katInterrupt_keeps (s.modCore g fun k => { k with
      katsig := setField (setField (setFlag (katCounted (s.coreAt g).katsig) 63 true) 40 8 inst.toNat) 0 16 fails.toNat }) g g
    exact ⟨hcore.trans ((State.coreAt_modCore _ _ _ _).trans (if_pos rfl)), hmem.trans (State.modCore_mem _ _ _)⟩

/-- The cycle of an injection is kept for its unit. -/
def State.katTested (s : State) (g inst n : Nat) : State := s.modCore g fun k => { k with katLast := put inst n k.katLast }

theorem State.katTested_coreAt (s : State) (g inst n : Nat) :
    (s.katTested g inst n).coreAt g = { s.coreAt g with katLast := put inst n (s.coreAt g).katLast } :=
  (State.coreAt_modCore _ _ _ _).trans (if_pos rfl)

section Kat
variable {s : State} {g : Nat} {v : BitVec 8} {fails : BitVec 16}

theorem exec_katInject_due {n : Nat} (h : (s.coreAt g).katCycle v.toNat = some n) :
    exec (.katInject g v fails) s = .next ((s.idle.katTested g v.toNat n).katOutcome g v (katLanes v.toNat fails)) := by
  refine congrArg Host.Outcome.next ?_
  dsimp only
  rw [show State.coreAt { s with evt := .done } g = s.coreAt g from rfl, h]
  rfl

theorem exec_katInject_idle (h : (s.coreAt g).katCycle v.toNat = none) : exec (.katInject g v fails) s = .next s.idle := by
  refine congrArg Host.Outcome.next ?_
  dsimp only
  rw [show State.coreAt { s with evt := .done } g = s.coreAt g from rfl, h]
  rfl

end Kat

/-! ## The statement -/

/-- Settles O52: each event by whether its time has come, a sync round by what clearing the cores of its participants leaves alone. -/
theorem scheduling : Obligations.Scheduling := by
  unfold Obligations.Scheduling
  refine ⟨fun s k f i => ?lands, fun s c t0 => ?ready, fun s g q => ?cores, fun s u a y e => ?prefetch, fun s k id r => ?rounds,
    fun s g n v fails => ?kat⟩
  case lands =>
    intro with_
    refine ⟨fun hk hland hready hreg halone => ?_, fun hwait => ?_⟩
    · refine ⟨_, exec_resultLand_current (State.landLong_scalar (s := s.idle) hk hland hready hreg halone) rfl, fun j => ?_, ?_, rfl,
        fun hb hw => congrArg Ctx.status (if_pos ⟨hb, hw⟩)⟩
      · refine (congrArg (fun r : Regs => r.s[j]) (Ctx.retried_keeps _).1).trans ?_
        simp only [State.readS, Fin.getElem_fin, Vector.getElem_set, Fin.ext_iff, eq_comm]
        rfl
      · exact (Ctx.retried_keeps _).2
    · obtain ⟨hregs, hinflight⟩ := s.cx.retried_keeps
      exact ⟨_, exec_resultLand_current (State.landLong_waits (s := s.idle) hwait) rfl, hregs, hinflight, rfl⟩
  case ready =>
    refine ⟨fun hb => ⟨_, exec_blockCleared, ?_⟩, fun hb => ⟨_, exec_blockCleared, fun d => ?_, State.modCtx_mem _ _ _⟩,
      fun hb hw ht => ⟨_, exec_parkTExpiry_due hw ht, ?_⟩, exec_parkTExpiry_early⟩
    · rw [State.ctx_modCtx_same, show s.idle.ctx c = s.ctx c from rfl, if_pos hb]
      exact ⟨rfl, rfl, rfl, fun d hd => State.ctx_modCtx_ne _ _ hd, State.modCtx_mem _ _ _⟩
    · rw [State.ctx_modCtx, show s.idle.ctx c = s.ctx c from rfl, if_neg hb]
      split
      case isTrue hd => rw [hd]
      case isFalse => rfl
    · rw [State.makeReady, State.ctx_modCtx_same, show s.idle.ctx c = s.ctx c from rfl, if_pos (.inl hb)]
      exact ⟨rfl, rfl, fun d hd => State.ctx_modCtx_ne _ _ hd, State.modCtx_mem _ _ _⟩
  case cores =>
    refine ⟨fun hfree hq => ⟨_, exec_contextSwitch_takes hfree hq, s.idle.startCtx_takes g q⟩, exec_contextSwitch_stays,
      fun hq => ⟨?_, fun ⟨j, hj, hexempt⟩ => State.nextReady_exempt hq hj hexempt⟩, fun hrun hstop hdue => ?_, fun hrun hno => ?_,
      exec_quantum_free, fun hfar => ?_, fun hnear => ?_⟩
    · exact beq_iff_eq.1 (State.nextReady_ready hq)
    · obtain ⟨-, hends⟩ := State.endQuantum_current (s := s.idle) hrun
      refine ⟨_, (exec_quantum_current hrun).trans (congrArg _ (if_pos ?_)), hends⟩
      rw [hstop, hdue]
      rfl
    · refine (exec_quantum_current hrun).trans (congrArg _ (if_neg fun hboth => ?_))
      obtain ⟨hstop, hdue⟩ := Bool.and_eq_true_iff.1 hboth
      simp [hstop, hdue] at hno
    · exact (exec_stopSpacing_current s).trans (congrArg _ (if_pos hfar))
    · exact (exec_stopSpacing_current s).trans (congrArg _ (if_neg (Nat.not_le.2 hnear)))
  case prefetch =>
    refine ⟨exec_fetchRefill_none, fun ha hread hcid => ?_, fun ha hread hcid => ?_⟩
    · obtain ⟨hother, hcur, hregs⟩ := u.setOther_halves y
      exact ⟨_, exec_fetchRefill_fills ha (State.fillOther_ok hread) hcid, hother, hcur, hregs, rfl⟩
    · exact exec_fetchRefill_fills ha (State.fillOther_fault hread) hcid
  case rounds =>
    refine ⟨fun hr hall => ⟨_, exec_syncRoundRelease_goes hr hall, ?_⟩, exec_syncRoundRelease_waits⟩
    obtain ⟨hmem, hwait, hcycle, hrounds⟩ := s.idle.roundOver_sameRounds k id r
    refine ⟨(State.foldl_release1_mem _ _ _ _).trans hmem, fun z hz => ?_, fun d hd hw => ?_⟩
    · rw [State.clusterAt, State.foldl_release1_clusters, ← State.clusterAt, hrounds, State.clusterAt_modCluster_same] at hz
      exact bne_iff_ne.1 (List.mem_filter.1 hz).2
    · have hround : ((s.idle.roundOver k id r).ctx d).wait = .round id := (hwait d).trans hw
      rw [State.foldl_release1_ctx, if_pos hd, Ctx.released_eq _ hround]
      exact ⟨rfl, rfl, rfl, congrArg (· + 7) (hcycle _)⟩
  case kat =>
    intro lanes old
    refine ⟨Core.katCycle_due, fun hdue => ⟨_, exec_katInject_due hdue, ?_⟩, exec_katInject_idle⟩
    have hlanes : katLanes v.toNat fails = lanes := rfl
    rw [hlanes]
    by_cases hzero : lanes = 0
    · rw [hzero, State.katOutcome_agrees, State.katTested_coreAt]
      exact ⟨State.modCore_mem _ _ _, rfl, fun _ => rfl, fun h => absurd rfl h, fun h => absurd rfl h, fun h => absurd rfl h⟩
    · obtain ⟨hcore, hmem⟩ := State.katOutcome_differs (s := s.idle.katTested g v.toNat n) hzero g v
      rw [State.katTested_coreAt] at hcore
      rw [hcore]
      exact ⟨hmem.trans (State.modCore_mem _ _ _), rfl, fun h => absurd h hzero, fun _ => katDiffers_counts old v lanes,
        fun _ hold => katDiffers_first hold v lanes, fun _ hold => katDiffers_later hold v lanes⟩

end Sys2Proof.Machine
end

section
/-! PROOFS. Replays (R157 to R164, R166, R357): GO and the start of a replay, the dies that instances go to, the contexts that
dispatchers start them on, and what a cycle of the pool changes. -/

namespace Sys2Proof.Machine

/-! ## GO (R157 to R159) -/

section Go
variable {s u : State}

/-- The state in which a GO is looked at: its KICK fields are taken up. -/
def State.atGo (s : State) : State := { s.idle with regs := { s.regs with kickGos := s.regs.kickGos.drop 1 } }

/-- The KICK fields of the GO that comes. -/
def State.goFields (s : State) : List Word := s.regs.kickGos.headD s.regs.kick

/-- Nothing keeps a GO from being taken (R158, R426). -/
def State.goFree (s : State) : Prop :=
  (field s.regs.kickstat 0 4 = 0 ∨ 4 ≤ field s.regs.kickstat 0 4) ∧ s.vacating = false ∧ s.regs.kickPend = none

theorem exec_kickGo (s : State) : exec .kickGo s = .next (
    if field s.mgmt.bootstat 62 2 ≠ 2 then s.atGo
    else if (1 ≤ field s.regs.kickstat 0 4 ∧ field s.regs.kickstat 0 4 ≤ 3) ∨ s.vacating = true ∨ s.regs.kickPend.isSome = true then
      { s.atGo with regs := { s.atGo.regs with kickstat := setFlag s.regs.kickstat 5 true } }
    else if field s.pwr.pwrstat 45 2 ≠ 0 then { s.atGo with regs := { s.atGo.regs with kickPend := some s.goFields } }
    else s.atGo.startReplay s.regs.kickView s.goFields) := rfl

theorem kickGo_dark (h : field s.mgmt.bootstat 62 2 ≠ 2) : exec .kickGo s = .next s.atGo :=
  (exec_kickGo s).trans (congrArg _ (if_pos h))

theorem kickGo_stray (hready : field s.mgmt.bootstat 62 2 = 2) (h : (1 ≤ field s.regs.kickstat 0 4 ∧ field s.regs.kickstat 0 4 ≤ 3) ∨
    s.vacating = true ∨ s.regs.kickPend ≠ none) :
    exec .kickGo s = .next { s.atGo with regs := { s.atGo.regs with kickstat := setFlag s.regs.kickstat 5 true } } := by
  rw [exec_kickGo, if_neg (not_not.2 hready), if_pos]
  rwa [Option.isSome_iff_ne_none]

theorem kickGo_free (hready : field s.mgmt.bootstat 62 2 = 2) (h : s.goFree) : exec .kickGo s = .next (
    if field s.pwr.pwrstat 45 2 ≠ 0 then { s.atGo with regs := { s.atGo.regs with kickPend := some s.goFields } }
    else s.atGo.startReplay s.regs.kickView s.goFields) := by
  obtain ⟨hstate, hvacating, hpend⟩ := h
  rw [exec_kickGo, if_neg (not_not.2 hready), if_neg]
  simp only [hvacating, hpend, Option.isSome_none, Bool.false_eq_true, or_false]
  omega

/-- Reading and checking the graph and the patches of a GO (R159, R160). -/
def State.loadReplay (s : State) (v : PeerView) (k : List Word) : Load (Graph × List (Nat × List Byte)) :=
  (s.loadGraph v k).then fun x s => (s.patches v k x.2).then fun l s => (.ok (x.1, l), s)

/-- The GO no longer waits. -/
def State.goTaken (s : State) : State := { s with regs := { s.regs with kickPend := none } }

/-- What a replay that has been loaded goes on to. -/
def State.replayLoaded (k : List Word) : Load (Graph × List (Nat × List Byte)) → State
  | (.error e, s) => s.kickError (k.getD 3 0) e.1 e.2
  | (.ok (g, ps), s) => State.runPatches g s.nextId ps
      { s with nextId := s.nextId + 1, regs := { s.regs with kickstat := setField s.regs.kickstat 0 4 2 } }

theorem State.startReplay_eq (s : State) (v : PeerView) (k : List Word) :
    s.startReplay v k = State.replayLoaded k (s.goTaken.loadReplay v k) := rfl

end Go

theorem State.kickError_fields (s : State) (tag : Word) (err node : Nat) :
    (s.kickError tag err node).regs.kickstat = fieldsWord [(56, 8, err), (32, 16, node), (4, 2, field s.regs.kickstat 4 2), (0, 4, 5)] ∧
      (s.kickError tag err node).regs.kickdone = tag ∧ (s.kickError tag err node).pool = s.pool ∧
      (s.kickError tag err node).mem = s.mem := by
  unfold State.kickError
  extract_lets ks regs t
  split
  · rw [State.interrupt_regs, State.interrupt_pool, State.interrupt_mem]
    exact ⟨rfl, rfl, rfl, rfl⟩
  · exact ⟨rfl, rfl, rfl, rfl⟩

/-! ## RUNNING and DONE (R161, R166) -/

/-- The pool of a replay of which nothing is expanded yet. -/
def State.emptyPool (s : State) (g : Graph) : Pool :=
  { Pool.reset with graph := some g, dead := s.deadCores, stopped := s.pool.stopped }

/-- The pool of a replay that begins: its ready nodes are expanded. -/
def State.firstPool (s : State) (g : Graph) : Pool := ((s.emptyPool g).expand g).mark g s.now

/-- KICKSTAT of a replay that runs. -/
def State.runningStat (s : State) : Word := fieldsWord [(4, 2, field s.regs.kickstat 4 2), (0, 4, 3)]

/-- A replay that has begun, before it is looked at whether it is done. -/
def State.begunRunning (s : State) (g : Graph) : State :=
  { s with regs := { s.regs with kickstat := s.runningStat }, pool := s.firstPool g,
           clusters := s.clusters.map fun (c : Nat × Cluster) => (c.1, { c.2 with events := [] }) }

theorem State.firstPool_keeps (s : State) (g : Graph) : (s.firstPool g).graph = some g ∧ (s.firstPool g).stopped = s.pool.stopped := by
  obtain ⟨_, _, _, h⟩ := (s.emptyPool g).expand_mark_eq g s.now
  rw [State.firstPool, h]
  exact ⟨rfl, rfl⟩

theorem State.enterRunning_eq (s : State) (g : Graph) : s.enterRunning g = (s.begunRunning g).finishReplay := rfl

theorem State.field_runningStat (s : State) : field s.runningStat 0 4 = 3 := field_setField_same _ 0 4 3 (by decide)

theorem State.begunRunning_graph (s : State) (g : Graph) : (s.begunRunning g).pool.graph = some g := (s.firstPool_keeps g).1

theorem State.finishReplay_of_done {s : State} {g : Graph} (hg : s.pool.graph = some g) (hrun : field s.regs.kickstat 0 4 = 3)
    (h : s.pool.done g = true) : s.finishReplay.pool = { Pool.reset with stopped := s.pool.stopped } ∧
      s.finishReplay.regs.kickstat = setField s.regs.kickstat 0 4 4 ∧ s.finishReplay.regs.kickdone = g.tag ∧ s.finishReplay.mem = s.mem := by
  unfold State.finishReplay
  split
  case h_2 hnone => rw [hnone] at hg; cases hg
  case h_1 g' hg' =>
    cases hg'.symm.trans hg
    rw [if_pos ⟨hrun, h⟩]
    dsimp only
    split
    · simp only [State.interrupt_regs, State.interrupt_pool, State.interrupt_mem, and_self]
    · exact ⟨rfl, rfl, rfl, rfl⟩

theorem State.enterRunning_runs {s : State} {g : Graph} (h : (s.firstPool g).done g = false) : s.enterRunning g = s.begunRunning g :=
  (s.enterRunning_eq g).trans (State.finishReplay_of_not_done (s.begunRunning_graph g) h)

theorem State.enterRunning_done {s : State} {g : Graph} (h : (s.firstPool g).done g = true) :
    (s.enterRunning g).pool = { Pool.reset with stopped := s.pool.stopped } ∧ field (s.enterRunning g).regs.kickstat 0 4 = 4 ∧
      (s.enterRunning g).regs.kickdone = g.tag ∧ (s.enterRunning g).mem = s.mem := by
  obtain ⟨hpool, hstat, htag, hmem⟩ := State.finishReplay_of_done (s.begunRunning_graph g) s.field_runningStat h
  have hstopped : (s.begunRunning g).pool.stopped = s.pool.stopped := (s.firstPool_keeps g).2
  rw [State.enterRunning_eq, hpool, hstat, hstopped]
  exact ⟨rfl, field_setField_same _ 0 4 4 (by decide), htag, hmem⟩

theorem State.enterRunning_mem (s : State) (g : Graph) : (s.enterRunning g).mem = s.mem := by
  by_cases h : (s.firstPool g).done g = true
  · exact (State.enterRunning_done h).2.2.2
  · rw [State.enterRunning_runs (Bool.eq_false_iff.2 h)]
    rfl

/-- The event counters of a replay that begins are clear. -/
theorem State.begunRunning_events (s : State) (g : Graph) (n v : Nat) : look 0 v ((s.begunRunning g).clusterAt n).events = 0 := by
  suffices h : ∀ l : List (Nat × Cluster),
      (look Cluster.reset n (l.map fun c => (c.1, { c.2 with events := [] }))).events = [] by
    rw [show ((s.begunRunning g).clusterAt n).events = [] from h s.clusters]
    rfl
  intro l
  induction l with
  | nil => rfl
  | cons c l ih =>
    rw [List.map_cons, look]
    split
    · rfl
    · exact ih

/-! ## The die that R357 gives -/

/-- The dies of some cores, in order. -/
def diesOf (cores : List Nat) : List Nat := cores.foldl (fun l c => insertNat (c / 192) l) []

theorem insertNat_sorted {n : Nat} {l : List Nat} (h : l.Pairwise (· < ·)) : (insertNat n l).Pairwise (· < ·) := by
  induction l with
  | nil => exact List.pairwise_singleton _ n
  | cons m l ih =>
    obtain ⟨hm, hl⟩ := List.pairwise_cons.1 h
    rw [insertNat]
    split
    case isTrue hlt =>
      refine List.pairwise_cons.2 ⟨fun x hx => ?_, h⟩
      cases List.mem_cons.1 hx with
      | inl hxm => exact hxm ▸ hlt
      | inr hxl => exact hlt.trans (hm x hxl)
    case isFalse hle =>
      split
      case isTrue => exact h
      case isFalse hne =>
        refine List.pairwise_cons.2 ⟨fun x hx => ?_, ih hl⟩
        cases mem_insertNat.1 hx with
        | inl hxn => omega
        | inr hxl => exact hm x hxl

theorem diesOf_sorted (cores : List Nat) : (diesOf cores).Pairwise (· < ·) :=
  List.foldlRecOn cores _ (motive := List.Pairwise (· < ·)) .nil fun _ h _ _ => insertNat_sorted h

theorem mem_diesOf {cores : List Nat} {d : Nat} : d ∈ diesOf cores ↔ ∃ x ∈ cores, x / 192 = d := by
  suffices h : ∀ l : List Nat, d ∈ cores.foldl (fun l c => insertNat (c / 192) l) l ↔ d ∈ l ∨ ∃ x ∈ cores, x / 192 = d by
    exact (h []).trans (or_iff_right List.not_mem_nil)
  induction cores with
  | nil => simp
  | cons c cores ih =>
    intro l
    rw [List.foldl_cons, ih, mem_insertNat, List.exists_mem_cons_iff, @eq_comm _ (c / 192)]
    tauto

/-- The one of two dies whose queue is shorter; of equal ones the one found first. -/
def State.shorter (s : State) (best : Option Nat) (d : Nat) : Option Nat :=
  match best with
  | none => some d
  | some b => if (s.dieAt d).queue.length < (s.dieAt b).queue.length then some d else best

/-- Die b goes before die d: its queue is shorter, or as short and its number no higher. -/
def State.dieFirst (s : State) (b d : Nat) : Prop :=
  (s.dieAt b).queue.length < (s.dieAt d).queue.length ∨ ((s.dieAt b).queue.length = (s.dieAt d).queue.length ∧ b ≤ d)

theorem State.foldl_shorter (s : State) {l : List Nat} {b : Nat} (h : (b :: l).Pairwise (· < ·)) :
    ∃ m ∈ b :: l, l.foldl s.shorter (some b) = some m ∧ ∀ d ∈ b :: l, s.dieFirst m d := by
  induction l generalizing b with
  | nil => exact ⟨b, List.mem_cons_self, rfl, fun d hd => List.mem_singleton.1 hd ▸ .inr ⟨rfl, le_refl d⟩⟩
  | cons c l ih =>
    obtain ⟨hb, hcl⟩ := List.pairwise_cons.1 h
    obtain ⟨-, hl⟩ := List.pairwise_cons.1 hcl
    rw [List.foldl_cons, State.shorter]
    split
    case isTrue hless =>
      obtain ⟨m, hm, hfold, hfirst⟩ := ih hcl
      refine ⟨m, List.mem_cons_of_mem _ hm, hfold, List.forall_mem_cons.2 ⟨?_, hfirst⟩⟩
      have hmc := hfirst c List.mem_cons_self
      unfold State.dieFirst at hmc ⊢
      omega
    case isFalse hge =>
      obtain ⟨m, hm, hfold, hfirst⟩ := ih (List.pairwise_cons.2 ⟨fun x hx => hb x (List.mem_cons_of_mem _ hx), hl⟩)
      refine ⟨m, ?_, hfold, fun d hd => ?_⟩
      · simp only [List.mem_cons] at hm ⊢
        tauto
      · have hmb := hfirst b List.mem_cons_self
        have hbc := hb c List.mem_cons_self
        simp only [List.mem_cons] at hd
        obtain rfl | rfl | hd := hd
        · exact hmb
        · unfold State.dieFirst at hmb ⊢
          omega
        · exact hfirst d (List.mem_cons_of_mem _ hd)

/-- The dies that rule 3 of R357 leaves: the origin element's, when one of the cores is there. -/
def diesLeft (origin : Option Nat) (cores : List Nat) : List Nat :=
  match origin with
  | some d => if (diesOf cores).contains d then [d] else diesOf cores
  | none => diesOf cores

theorem State.preferDie_eq (s : State) (origin : Option Nat) (cores : List Nat) :
    s.preferDie origin cores = (diesLeft origin cores).foldl s.shorter none := rfl

theorem diesLeft_origin {cores : List Nat} {d : Nat} (h : d ∈ diesOf cores) : diesLeft (some d) cores = [d] :=
  if_pos (List.contains_iff_mem.2 h)

theorem diesLeft_elsewhere {origin : Option Nat} {cores : List Nat} (h : ∀ d, origin = some d → d ∉ diesOf cores) :
    diesLeft origin cores = diesOf cores := by
  cases origin with
  | none => rfl
  | some d => exact if_neg (mt List.contains_iff_mem.1 (h d rfl))

theorem State.preferDie_origin {s : State} {cores : List Nat} {d e : Nat} (h : s.preferDie (some e) cores = some d) (he : e ∈ diesOf cores) :
    d = e := by
  rw [State.preferDie_eq, diesLeft_origin he] at h
  exact (Option.some.inj h).symm

theorem State.preferDie_shortest {s : State} {origin : Option Nat} {cores : List Nat} {d : Nat} (h : s.preferDie origin cores = some d)
    (helse : ∀ e, origin = some e → e ∉ diesOf cores) : d ∈ diesOf cores ∧ ∀ e ∈ diesOf cores, s.dieFirst d e := by
  have hsorted := diesOf_sorted cores
  rw [State.preferDie_eq, diesLeft_elsewhere helse] at h
  cases hdies : diesOf cores with
  | nil => rw [hdies] at h; cases h
  | cons b l =>
    rw [hdies] at h hsorted
    obtain ⟨m, hm, hfold, hfirst⟩ := s.foldl_shorter hsorted
    cases hfold.symm.trans h
    exact ⟨hm, hfirst⟩

/-- R357: the die of the origin element when a core is there, else the one with the shortest queue, the lowest of these. -/
theorem State.preferDie_spec {s : State} {origin : Option Nat} {cores : List Nat} {d : Nat} (h : s.preferDie origin cores = some d) :
    (∃ x ∈ cores, x / 192 = d) ∧ (∀ e, origin = some e → (∃ x ∈ cores, x / 192 = e) → d = e) ∧
      ((∀ e, origin = some e → ∀ x ∈ cores, x / 192 ≠ e) → ∀ x ∈ cores, s.dieFirst d (x / 192)) := by
  have helse : (∀ e, origin = some e → ∀ x ∈ cores, x / 192 ≠ e) → d ∈ diesOf cores ∧ ∀ e ∈ diesOf cores, s.dieFirst d e :=
    fun hno => State.preferDie_shortest h fun e he hmem => by
      obtain ⟨x, hx, hxe⟩ := mem_diesOf.1 hmem
      exact hno e he x hx hxe
  refine ⟨?_, fun e he hx => ?_, fun hno x hx => (helse hno).2 _ (mem_diesOf.2 ⟨x, hx, rfl⟩)⟩
  · by_cases horigin : ∃ e, origin = some e ∧ ∃ x ∈ cores, x / 192 = e
    · obtain ⟨e, rfl, hx⟩ := horigin
      rwa [State.preferDie_origin h (mem_diesOf.2 hx)]
    · exact mem_diesOf.1 (helse fun e he x hx hxe => horigin ⟨e, he, x, hx, hxe⟩).1
  · subst he
    exact State.preferDie_origin h (mem_diesOf.2 hx)

theorem State.preferDie_of_chooseDie {s : State} {g : Graph} {n : NodeEntry} {rs : List Reserve} {i : Inst} {origin : Option Nat} {d : Nat}
    (h : s.chooseDie g n rs i origin = some d) : s.preferDie origin (s.usableIn n.sClass (s.instCores g n i)) = some d := by
  unfold State.chooseDie at h
  dsimp only at h
  split at h
  case h_1 b hb =>
    obtain ⟨-, hbd⟩ := Option.ite_none_left_eq_some.1 h
    exact hb.trans hbd
  case h_2 => cases h

/-! ## Looking for the origin element leaves the pool as it is (R154, R357) -/

theorem walkFrom_sameButErrors (w : Who) (va : Word) (k : Kind) (ls : List (Nat × Nat × Nat)) (t : Nat) (s : State) :
    s.SameButErrors (walkFrom w va k ls t s).2 := by
  induction ls generalizing t s with
  | nil => exact .refl s
  | cons l ls ih =>
    obtain ⟨lvl, lo, len⟩ := l
    have htouch := s.touch_sameButErrors (lineOf (t + 8 * field va lo len)) (byteMask ((t + 8 * field va lo len) % 64) 8)
    unfold walkFrom
    dsimp only
    split
    case isTrue => exact htouch
    split
    case isTrue => exact htouch
    split
    case isFalse => exact htouch
    split
    case isTrue => exact htouch
    split
    case isTrue => exact htouch
    split
    case isTrue => exact htouch
    case isFalse => exact htouch.trans (ih _ _)

theorem State.SameButErrors.pool {s t : State} (h : s.SameButErrors t) : t.pool = s.pool := by
  obtain ⟨_, _, _, _, _, _, rfl⟩ := h
  rfl

theorem State.tlbFill_pool (s : State) (c : Nat) (t : TlbEntry) (p : Prop) [Decidable p] :
    (if p then s.tlbFill c t else s).pool = s.pool := by
  split
  · exact s.modCore_pool _ _
  · rfl

theorem State.walk_pool (s : State) (w : Who) (va : Word) (k : Kind) : (s.walk w va k).2.pool = s.pool := by
  have hwalk := (walkFrom_sameButErrors w va k walkLevels (field s.regs.ptroot 8 34 * 256) s).pool
  unfold State.walk
  split
  case h_1 t u h => rwa [h] at hwalk
  case h_2 e lvl u h =>
    rw [h] at hwalk
    exact (u.tlbFill_pool _ _ _).trans hwalk

theorem State.keepEntry_pool (s : State) (w : Who) (va : Word) : (s.keepEntry w va).pool = s.pool := by
  unfold State.keepEntry
  split
  · split <;> rfl
  · rfl

theorem State.hubWait_pool (s : State) (w : Who) (va : Word) : (s.hubWait w va).pool = s.pool := by
  unfold State.hubWait
  dsimp only
  split <;> rfl

theorem State.translateNow_pool (s : State) (w : Who) (va : Word) (k : Kind) : (s.translateNow w va k).2.pool = s.pool := by
  have hwalk := s.walk_pool w va k
  unfold State.translateNow
  split
  · rfl
  · split
    · exact s.keepEntry_pool w va
    · rfl
    · dsimp only
      split
      · exact s.hubWait_pool w va
      · split
        case h_1 p u h => rw [h] at hwalk; exact (u.keepEntry_pool w va).trans hwalk
        case h_2 t u h => rw [h] at hwalk; exact hwalk

theorem State.originDie_pool (s : State) (g : Graph) (n : NodeEntry) (u : Nat) : (s.originDie g n u).2.pool = s.pool := by
  unfold State.originDie
  split
  case h_1 => rfl
  case h_2 h a b oa ob _ =>
    have htouch := (s.touchDone_sameButErrors (poolWho 0) h).pool
    dsimp only
    split
    case h_1 va _ =>
      have htranslate := (s.touchDone (poolWho 0) h).translateNow_pool (poolWho 0) va .read
      split
      case h_1 p t ht => rw [ht] at htranslate; exact htranslate.trans htouch
      case h_2 e t ht => rw [ht] at htranslate; exact htranslate.trans htouch
    case h_2 => exact htouch

/-! ## What a cycle of the pool changes (R162) -/

/-- Expanding either changes nothing or lists one more node as expanded. -/
theorem Pool.expand_grows (p : Pool) (g : Graph) : p.expand g = p ∨ p.expanded.length < (p.expand g).expanded.length := by
  unfold Pool.expand
  generalize g.nodes.zipIdx = l
  induction l generalizing p with
  | nil => exact .inl rfl
  | cons x l ih =>
    obtain ⟨n, k⟩ := x
    rw [List.foldl_cons]
    dsimp only
    split
    · exact ih p
    · refine .inr ?_
      obtain hsame | hmore := ih { p with
        expanded := k :: p.expanded, waiting := p.waiting ++ g.instances k n (word (g.param + n.pbOff)) k false 0 }
      · rw [hsame]
        exact Nat.lt_succ_self _
      · exact (Nat.lt_succ_self _).trans hmore

/-- One that waits is looked at for the order of the pool. -/
def Pool.markStep (p : Pool) (g : Graph) (now : Nat) (acc : Nat × List Inst) (i : Inst) : Nat × List Inst :=
  if i.seq = 0 ∧ p.eligible g i = true then (acc.1 + 1, acc.2 ++ [{ i with seq := acc.1 + 1, since := now }])
  else (acc.1, acc.2 ++ [i])

theorem Pool.mark_waiting (p : Pool) (g : Graph) (now : Nat) :
    (p.mark g now).waiting = (p.waiting.foldl (p.markStep g now) (p.seq, [])).2 := rfl

theorem Pool.mark_length (p : Pool) (g : Graph) (now : Nat) : (p.mark g now).waiting.length = p.waiting.length := by
  suffices h : ∀ (l : List Inst) acc, (l.foldl (p.markStep g now) acc).2.length = acc.2.length + l.length by
    rw [Pool.mark_waiting, h]
    exact Nat.zero_add _
  intro l
  induction l with
  | nil => exact fun acc => rfl
  | cons i l ih =>
    intro acc
    rw [List.foldl_cons, ih, Pool.markStep]
    split <;> simp only [List.length_append, List.length_cons, List.length_nil] <;> omega

/-- A pool that has settled and given one up is not the pool it was. -/
theorem Pool.ne_of_shorter {p p' : Pool} {g : Graph} {now : Nat} (hexpanded : p'.expanded = ((p.expand g).mark g now).expanded)
    (hless : p'.waiting.length < ((p.expand g).mark g now).waiting.length) : p' ≠ p := by
  rintro rfl
  rw [Pool.mark_length] at hless
  obtain hsame | hmore := p'.expand_grows g
  · rw [hsame] at hless
    exact Nat.lt_irrefl _ hless
  · exact absurd (congrArg List.length hexpanded) (Nat.ne_of_lt hmore)

theorem Pool.leftQueue_keeps (p : Pool) (i : Inst) : (p.leftQueue i).waiting = p.waiting ∧ (p.leftQueue i).expanded = p.expanded := by
  unfold Pool.leftQueue
  split <;> exact ⟨rfl, rfl⟩

/-- The state once one that waited has gone to the queue of a die. -/
def State.queued (s : State) (i : Inst) (d : Nat) : State :=
  ({ s with pool := { s.pool with waiting := s.pool.waiting.filter fun j => !i.same j }.leftQueue i } : State).modDie d fun k =>
    { k with queue := k.queue ++ [i] }

theorem State.toDie_room {s : State} {i : Inst} {d : Nat} (hi : i.restarts = 0) (hroom : (s.dieAt d).queue.length < 64) :
    s.toDie i d = some (s.queued i d) := by
  unfold State.toDie
  rw [if_neg (by omega)]
  simp only [hi, if_true]
  rfl

theorem State.dieAt_modDie (s : State) (d e : Nat) (f : Die → Die) : (s.modDie d f).dieAt e = if e = d then f (s.dieAt d) else s.dieAt e :=
  look_put _ _ _ _ _

theorem State.queued_fields (s : State) (i : Inst) (d : Nat) : ((s.queued i d).dieAt d).queue = (s.dieAt d).queue ++ [i] ∧
    (s.queued i d).pool.waiting = s.pool.waiting.filter (fun j => !i.same j) ∧ (s.queued i d).pool.expanded = s.pool.expanded ∧
    (∀ e, e ≠ d → (s.queued i d).dieAt e = s.dieAt e) ∧ (s.queued i d).mem = s.mem ∧ (s.queued i d).evt = s.evt := by
  obtain ⟨hwaiting, hexpanded⟩ := Pool.leftQueue_keeps { s.pool with waiting := s.pool.waiting.filter fun j => !i.same j } i
  refine ⟨?_, hwaiting, hexpanded, fun e he => (State.dieAt_modDie _ _ _ _).trans (if_neg he), rfl, rfl⟩
  rw [State.queued, State.dieAt_modDie, if_pos rfl]
  rfl

section Place
variable {s q : State} {g : Graph} {n : NodeEntry} {i : Inst} {d : Nat} {o : Option Nat}

/-- One that waits for no gang and comes back from no restart goes to the die that R357 gives it. -/
theorem State.placeOne_goes (hn : g.nodes[i.node]? = some n) (hi : s.pool.waiting.find? (Inst.same i) = some i)
    (hstart : s.pool.starting = false) (hbar : n.barriers = []) (hbound : i.bound = none) (hrestarts : i.restarts = 0)
    (horigin : s.originDie g n i.u = (o, q)) (hdie : q.chooseDie g n (q.aheadOf g i) i o = some d)
    (hroom : (q.dieAt d).queue.length < 64) : State.placeOne g (s, none, 0) i = (q.queued i d, none, 1) := by
  have hrebound : q.rebound g n i o = i := by rw [State.rebound, hbound]
  have hnext : (q.chooseDie g n ((none : Option Reserve).toList ++ q.aheadOf g i) i o).bind (q.toDie i) = some (q.queued i d) := by
    rw [show (none : Option Reserve).toList ++ q.aheadOf g i = q.aheadOf g i from rfl, hdie]
    exact State.toDie_room hrestarts hroom
  unfold State.placeOne
  simp only [hn, hi, hstart, hbar, hrestarts]
  rw [if_neg (by simp), if_neg (by simp)]
  simp only [hi, horigin, hrebound]
  rw [hbound]
  refine (if_neg (by decide)).trans ?_
  simp only [List.isEmpty_nil, Bool.not_true, bne_self_eq_false, Bool.or_self, Bool.false_eq_true, if_false, hnext]

end Place

section Place
variable {s q : State} {g : Graph} {n : NodeEntry} {i : Inst} {d : Nat} {o : Option Nat}

/-- The pool once its cycle has given one to a die: nothing is reserved. -/
def State.placed (q : State) (i : Inst) (d : Nat) : State :=
  { q.queued i d with pool := { (q.queued i d).pool with reserve := none } }

theorem State.poolCycle_places (horder : s.settlePool.pool.order = [i]) (hbound : i.bound = none)
    (hone : State.placeOne g (s.settlePool, none, 0) i = (q.queued i d, none, 1)) : s.poolCycle g = q.placed i d := by
  unfold State.poolCycle
  dsimp only
  rw [horder, List.filter_cons_of_neg (by simp [hbound]), List.filter_cons_of_pos (by simp [hbound])]
  simp only [List.filter_nil, List.nil_append, List.foldl_cons, List.foldl_nil, hone]
  rfl

theorem exec_poolPlace_cycle {t : State} (hpatching : s.pool.patching = none) (hg : s.pool.graph = some g) (hruns : s.poolRuns = true)
    (ht : s.idle.poolCycle g = t) (hhub : t.evt.isHub = false) (hpool : t.pool ≠ s.pool) : exec .poolPlace s = .next t := by
  have hgoes : ¬ (t.evt.isHub = true ∨ (t.pool = s.idle.pool ∧ t.dies = s.idle.dies)) := by
    rintro (h | ⟨h, -⟩)
    · exact Bool.false_ne_true (hhub.symm.trans h)
    · exact hpool h
  refine congrArg Host.Outcome.next ?_
  dsimp only
  rw [hpatching, hg]
  dsimp only
  rw [show State.poolRuns { s with evt := .done } = true from hruns, show State.poolCycle { s with evt := .done } g = t from ht]
  exact if_neg hgoes

/-- R162, R357: one that is eligible leaves the pool for the queue of its die. -/
theorem exec_poolPlace_places (hg : s.pool.graph = some g) (hn : g.nodes[i.node]? = some n) (hruns : s.poolRuns = true)
    (hpatching : s.pool.patching = none) (horder : s.idle.settlePool.pool.order = [i])
    (hi : s.idle.settlePool.pool.waiting.find? (Inst.same i) = some i) (hstart : s.idle.settlePool.pool.starting = false)
    (hbar : n.barriers = []) (hbound : i.bound = none) (hrestarts : i.restarts = 0)
    (horigin : s.idle.settlePool.originDie g n i.u = (o, q)) (hhub : q.evt.isHub = false)
    (hdie : q.chooseDie g n (q.aheadOf g i) i o = some d) (hroom : (q.dieAt d).queue.length < 64) :
    exec .poolPlace s = .next (q.placed i d) := by
  obtain ⟨-, hwaiting, hexpanded, -, -, hevt⟩ := q.queued_fields i d
  have hone := State.placeOne_goes hn hi hstart hbar hbound hrestarts horigin hdie hroom
  have hsettled : q.pool = (s.pool.expand g).mark g s.now := by
    have hpool := s.idle.settlePool.originDie_pool g n i.u
    rw [horigin, State.settlePool_of_graph (s := s.idle) hg] at hpool
    exact hpool
  have hmem : i ∈ q.pool.waiting := by
    have hpool := s.idle.settlePool.originDie_pool g n i.u
    rw [horigin] at hpool
    exact hpool ▸ List.mem_of_find?_eq_some hi
  refine exec_poolPlace_cycle hpatching hg hruns (State.poolCycle_places horder hbound hone) (hevt ▸ hhub)
    (Pool.ne_of_shorter (g := g) (now := s.now) (hexpanded.trans (congrArg Pool.expanded hsettled)) ?_)
  rw [← hsettled]
  refine (congrArg List.length hwaiting).trans_lt (List.length_filter_lt_length_iff_exists.2 ⟨i, hmem, ?_⟩)
  simp [Inst.same]

end Place

/-! ## The context that a dispatcher takes (R357) -/

theorem State.freeCtx_spec {s : State} {ok : Nat → Bool} {g c : Nat} (h : s.freeCtx ok g = some c) :
    c / 4 = g ∧ (s.ctx c).status = .free ∧ ok c = true := by
  have hok := List.find?_some h
  obtain ⟨k, hk, rfl⟩ := List.mem_map.1 (List.mem_of_find?_eq_some h)
  obtain ⟨hfree, hok⟩ := Bool.and_eq_true_iff.1 hok
  have hk4 := List.mem_range.1 hk
  exact ⟨by omega, beq_iff_eq.1 hfree, hok⟩

/-- A core on the lighter layer goes before others, then one with fewer contexts in use. -/
def State.coreRank (s : State) (g : Nat) : Nat := (if s.lightCluster g then 0 else 8) + s.busyCtxs g

/-- One core looked at for a context: the better of the best found and its own. -/
def State.pickStep (s : State) (ok : Nat → Bool) (best : Option (Nat × Nat)) (g : Nat) : Option (Nat × Nat) :=
  match s.freeCtx ok g with
  | none => best
  | some c =>
    match best with
    | none => some (s.coreRank g, c)
    | some b => if s.coreRank g < b.1 then some (s.coreRank g, c) else best

theorem State.pickCtx_eq (s : State) (ok : Nat → Bool) (cores : List Nat) :
    s.pickCtx ok cores = (cores.foldl (s.pickStep ok) none).map (·.2) := rfl

theorem State.pickStep_cases (s : State) (ok : Nat → Bool) (best : Option (Nat × Nat)) (g : Nat) :
    s.pickStep ok best g = best ∨ ∃ r c, s.pickStep ok best g = some (r, c) ∧ s.freeCtx ok g = some c := by
  unfold State.pickStep
  split
  case h_1 => exact .inl rfl
  case h_2 c hc =>
    split
    case h_1 => exact .inr ⟨_, c, rfl, hc⟩
    case h_2 =>
      split
      · exact .inr ⟨_, c, rfl, hc⟩
      · exact .inl rfl

/-- The context picked is a free one of one of the cores. -/
theorem State.pickCtx_spec {s : State} {ok : Nat → Bool} {cores : List Nat} {c : Nat} (h : s.pickCtx ok cores = some c) :
    ∃ g ∈ cores, s.freeCtx ok g = some c := by
  have hbest : ∀ b, cores.foldl (s.pickStep ok) none = some b → ∃ g ∈ cores, s.freeCtx ok g = some b.2 := by
    refine List.foldlRecOn cores (s.pickStep ok) (motive := fun best => ∀ b, best = some b → ∃ g ∈ cores, s.freeCtx ok g = some b.2)
      (fun _ hb => (Option.some_ne_none _ hb.symm).elim) fun best ih g hg b hb => ?_
    obtain hsame | ⟨r, c, hnew, hc⟩ := s.pickStep_cases ok best g
    · exact ih b (hsame.symm.trans hb)
    · cases hnew.symm.trans hb
      exact ⟨g, hg, hc⟩
  rw [State.pickCtx_eq] at h
  obtain ⟨b, hb, rfl⟩ := Option.map_eq_some_iff.1 h
  exact hbest b hb

theorem State.queuePlace_spec {s : State} {g : Graph} {kept : List Nat} {d c : Nat} {n : NodeEntry} {i : Inst}
    (h : s.queuePlace g kept d n i = some c) : (s.ctx c).status = .free ∧ c / 768 = d ∧ (i.bound = some c ∨ c ∉ kept) ∧
      flag (s.coreAt (c / 4)).slotmap 0 = false := by
  obtain ⟨k, hk, hfree⟩ := State.pickCtx_spec h
  obtain ⟨hcore, hstatus, hok⟩ := State.freeCtx_spec hfree
  obtain ⟨husable, hdie⟩ := List.mem_filter.1 hk
  obtain ⟨-, halive⟩ := List.mem_filter.1 husable
  refine ⟨hstatus, ?_, ?_, ?_⟩
  · have hkd := beq_iff_eq.1 hdie
    omega
  · obtain hbound | hfar := Bool.or_eq_true_iff.1 hok
    · exact .inl (beq_iff_eq.1 hbound)
    · refine .inr fun hkept => ?_
      simp [setAside, hkept] at hfar
  · rw [hcore]
    simpa using (Bool.and_eq_true_iff.1 halive).2

section Dispatch
variable {s : State} {g : Graph} {n : NodeEntry} {i : Inst} {rest : List Inst} {d c : Nat} (hg : s.pool.graph = some g)
  (hn : g.nodes[i.node]? = some n) (hqueue : (s.dieAt d).queue = i :: rest)
include hg hn hqueue

theorem exec_dieDispatch_starts (hruns : s.poolRuns = true) (hplace : s.queuePlace g s.keptCtxs d n i = some c) :
    exec (.dieDispatch d) s = .next ((s.idle.setCtx c (s.startState g n i c)).modDie d fun k => { k with queue := rest }) := by
  refine congrArg Host.Outcome.next ?_
  dsimp only
  rw [hg, show (State.dieAt { s with evt := .done } d).queue = i :: rest from hqueue]
  dsimp only
  rw [hn]
  dsimp only
  rw [show State.queuePlace { s with evt := .done } g (State.keptCtxs { s with evt := .done }) d n i = some c from hplace,
    show State.poolRuns { s with evt := .done } = true from hruns]
  rfl

theorem exec_dieDispatch_waits (hplace : s.queuePlace g s.keptCtxs d n i = none) :
    exec (.dieDispatch d) s = .next { s with evt := .stall } := by
  refine congrArg Host.Outcome.next ?_
  dsimp only
  rw [hg, show (State.dieAt { s with evt := .done } d).queue = i :: rest from hqueue]
  dsimp only
  rw [hn]
  dsimp only
  rw [show State.queuePlace { s with evt := .done } g (State.keptCtxs { s with evt := .done }) d n i = none from hplace]

end Dispatch

/-- s0 and s1 give the parameter block and the number u, and no register from s4 on is set (R164). -/
theorem startScalars_spec (g : Graph) (n : NodeEntry) (i : Inst) : (startScalars g n i)[0] = i.pblock ∧ (startScalars g n i)[1] = word i.u ∧
    ∀ k : Fin 16, 4 ≤ k.val → (startScalars g n i)[k] = 0 := by
  unfold startScalars gen
  refine ⟨Vector.getElem_ofFn _, Vector.getElem_ofFn _, fun k hk => (Vector.getElem_ofFn _).trans (List.getD_eq_default _ _ hk)⟩

/-- A started context begins at the node's entry with the scalars of its start (R164). -/
theorem State.startState_fields (s : State) (g : Graph) (n : NodeEntry) (i : Inst) (c : Nat) :
    (s.startState g n i c).status = .ready ∧ (s.startState g n i c).estat = 0 ∧ (s.startState g n i c).regs.pc = n.entry ∧
      (s.startState g n i c).regs.s = startScalars g n i ∧ (s.startState g n i c).inst = some { i with bound := none } :=
  ⟨rfl, rfl, rfl, rfl, rfl⟩

theorem exec_priorityAging {s : State} {g : Graph} (hg : s.pool.graph = some g) : exec .priorityAging s = .next { s.idle with
    pool := { s.pool with waiting := s.pool.waiting.map fun j => j.aged s.now (((g.nodes[j.node]?).map (·.prio)).getD j.prio) } } := by
  refine congrArg Host.Outcome.next ?_
  dsimp only
  rw [hg]
  rfl

/-! ## The statement -/

/-- Settles O50: a GO by whether it is taken and whether its graph loads, a die by its place among those of the cores bound to,
and what the pool and a dispatcher do by the one that they place. -/
theorem replays : Obligations.Replays := by
  unfold Obligations.Replays
  refine ⟨⟨fun s u g ps e => ?go, fun s g op => ?running⟩, fun s q g n i rest d c o hg hn hruns => ⟨?place, ?dispatch, ?starts, ?aging⟩⟩
  case go =>
    intro k b st free q load
    have htaken : ∀ {x}, field s.mgmt.bootstat 62 2 = 2 → free → field s.pwr.pwrstat 45 2 = 0 → load = x →
        exec .kickGo s = .next (State.replayLoaded k x) := fun hready hfree hpower hload => by
      refine (kickGo_free hready hfree).trans (congrArg _ ((if_neg (not_not.2 hpower)).trans ?_))
      exact (State.startReplay_eq _ _ _).trans (congrArg _ hload)
    refine ⟨kickGo_dark, kickGo_stray, fun hready hfree hpower => (kickGo_free hready hfree).trans (congrArg _ (if_pos hpower)),
      fun hready hfree hpower hload => ⟨_, htaken hready hfree hpower hload, u.kickError_fields _ _ _⟩, htaken⟩
  case running =>
    intro q
    refine ⟨rfl, fun hgoes => ?_, fun hdone => ?_, s.enterRunning_mem g⟩
    · rw [State.enterRunning_runs hgoes]
      exact ⟨rfl, rfl, rfl, rfl, s.begunRunning_events g⟩
    · obtain ⟨hpool, hstat, htag, -⟩ := State.enterRunning_done hdone
      exact ⟨hpool, hstat, htag⟩
  case place =>
    intro p cores hpatching horder hi hstart hbar hbound hrestarts horigin hhub hdie
    obtain ⟨hcore, horiginDie, hfirst⟩ := State.preferDie_spec (State.preferDie_of_chooseDie hdie)
    refine ⟨hcore, horiginDie, hfirst, fun hroom => ⟨_, exec_poolPlace_places hg hn hruns hpatching horder hi hstart hbar hbound hrestarts
      horigin hhub hdie hroom, ?_⟩⟩
    obtain ⟨hqueue, hwaiting, -, hothers, hmem, -⟩ := q.queued_fields i d
    refine ⟨hqueue, fun j hj => ?_, hothers, hmem⟩
    have hj' : j ∈ q.pool.waiting.filter fun j => !i.same j := hwaiting ▸ hj
    simpa using (List.mem_filter.1 hj').2
  case dispatch =>
    intro hqueue place
    refine ⟨fun hplace => ?_, exec_dieDispatch_waits hg hn hqueue⟩
    obtain ⟨hfree, hdie, hkept, halive⟩ := State.queuePlace_spec hplace
    refine ⟨hfree, hdie, hkept, halive, _, exec_dieDispatch_starts hg hn hqueue hruns hplace, ?_, ?_, fun e he => ?_, s.idle.setCtx_mem _ _⟩
    · exact (s.idle.ctx_setCtx c c _).trans (if_pos rfl)
    · rw [State.dieAt_modDie, if_pos rfl]
    · exact (s.idle.ctx_setCtx c e _).trans (if_neg he)
  case starts =>
    intro x
    obtain ⟨hstatus, hestat, hpc, hscalars, hinst⟩ := s.startState_fields g n i c
    obtain ⟨hs0, hs1, hrest⟩ := startScalars_spec g n i
    refine ⟨hstatus, hestat, hpc, ?_, ?_, fun k hk => ?_, hinst⟩ <;> rw [show x.regs.s = startScalars g n i from hscalars]
    · exact hs0
    · exact hs1
    · exact hrest k hk
  case aging => exact ⟨_, exec_priorityAging hg, rfl, rfl, rfl⟩

end Sys2Proof.Machine
end

section
/-! PROOFS. What the quantisers `vqnt` and `vdqnt` do once they issue (R180 to R185, R273, R274). -/

namespace Sys2Proof.Machine

/-! ## Lanes (R174, R258) -/

theorem at_gen {α : Type} {n k : Nat} (f : Nat → α) (x : α) (hk : k < n) : at_ (gen n f) k x = f k := by
  simp [at_, gen, hk]

theorem at_mapLanes {mask : Word} {old : VReg} {f : Nat → Word32 × FFlags} {l : Nat} (hl : l < 64) :
    at_ (mapLanes mask old f).1 l 0 = if mask.getLsbD l then (f l).1 else at_ old l 0 := by
  have hmap : (mapLanes mask old f).1 = gen 64 fun k => (if mask.getLsbD k then f k else (at_ old k 0, 0)).1 := by
    ext k hk
    simp [mapLanes, gen]
  rw [hmap, at_gen _ _ hl]
  split <;> rfl

theorem at_mapLanes_allLanes {old : VReg} {f : Nat → Word32 × FFlags} {l : Nat} (hl : l < 64) :
    at_ (mapLanes allLanes old f).1 l 0 = (f l).1 := by
  have hon : allLanes.getLsbD l = true := BitVec.getLsbD_allOnes.trans (decide_eq_true hl)
  rw [at_mapLanes hl, if_pos hon]

/-! ## What a syllable that begins finds (R176, R177, R207) -/

@[simp] theorem State.begun_rounding (s : State) (i : Instr) : (s.begun i).rounding = s.rounding :=
  congrArg roundingOf (s.begun_fpmode_r i)

@[simp] theorem State.begun_stochastic (s : State) (i : Instr) : (s.begun i).stochastic = s.stochastic :=
  congrArg (flag · 2) (s.begun_fpmode_r i)

theorem State.begun_illegalNow (s : State) (i : Instr) (c : Nat) : (s.begun i).illegalNow c =
    (s.begun i).trap ⟨0x01, s.cx.regs.pc, bundleInfo 0 s.issue.slot.val false c⟩ := by
  simp [State.illegalNow, State.illegal, State.bundleTrap]

/-- The group check fails exactly when a source or vd + 1 is past v15 (R273). -/
theorem groupPast_iff {d a : Fin 16} {ctl : Word} : groupPast d a ctl = true ↔ 16 < a.val + groupCount ctl ∨ d.val = 15 := by
  simp only [groupPast, Bool.or_eq_true, decide_eq_true_eq]
  omega

/-! ## The statement -/

/-- Settles O26: `vqnt` by its group check, `vdqnt` lane by lane. -/
theorem quantisers : Obligations.Quantisers := by
  unfold Obligations.Quantisers
  intro s g d a b j e f t n q
  refine ⟨fun hi hsrc hdst _ => ?fits, fun hi _ hpast => ?past, fun hi => ?dequantised⟩
  case fits =>
    have hfits : ¬ groupPast d a (s.readS b) = true := fun hpast =>
      (groupPast_iff.1 hpast).elim hsrc.not_gt hdst.ne
    refine (State.syl_of_issues hi _).trans (congrArg _ ?_)
    simp only [State.begun_readS, if_neg hfits, State.begun_readV, State.begun_rounding, State.begun_stochastic, State.begun_lfsr_r,
      n, q]
  case past =>
    refine (State.syl_of_issues hi _).trans (congrArg _ ?_)
    rw [State.begun_readS, if_pos (groupPast_iff.2 hpast), State.begun_illegalNow]
  case dequantised =>
    refine ⟨_, _, _, State.syl_of_issues hi _, fun l hl => ?_⟩
    rw [at_mapLanes_allLanes hl, State.begun_readV, State.begun_readV, State.begun_rounding]

end Sys2Proof.Machine
end

section
/-! PROOFS. The decoders undo the encoder (R208), layout by layout. -/

namespace Sys2Proof

/-! ## Syllables -/

/-- `mset` and `mset.rd` share an opcode; the low three bits tell them apart. -/
theorem encode_mset_mod (g : Fin 16) (d : Fin 8) (a : Fin 16) (e : Bool) : ¬ encode (.mset g d a e) % 8 = 1 := by
  change ¬ shV_gdae.enc 0x4D g d a e % 8 = 1
  simp only [shV_gdae.enc, pack]
  omega

theorem encode_msetRd_mod (g d : Fin 16) (a : Fin 8) : encode (.msetRd g d a) % 8 = 1 := by
  change shV_gda2.enc 0x4D g d a % 8 = 1
  simp only [shV_gda2.enc, pack]
  omega

theorem rawB_encode {i : Instr} (hc : i.cls = .b) : rawB (encode i) = .ok i := by
  unfold rawB
  generalize hop : encode i / 2 ^ 20 % 256 = op
  cases i
  all_goals cases hc
  case br | brL | loopBrk | segAlt =>
    obtain rfl := hop.symm.trans (shB_gdk.encode_op _ (by decide) ..)
    exact shB_gdk.decode_encode _ _ (by decide) ..
  case brx | brxL | parkT | katArm | haltCtx =>
    obtain rfl := hop.symm.trans (shB_gse.encode_op _ (by decide) ..)
    exact shB_gse.decode_encode _ _ (by decide) ..
  case ret | loopEnd | endNode | yield | eret | illegal =>
    obtain rfl := hop.symm.trans (shB_g.encode_op _ (by decide) ..)
    exact shB_g.decode_encode _ _ (by decide) ..
  case loopPin =>
    obtain rfl := hop.symm.trans (shB_gsen.encode_op _ (by decide) ..)
    exact shB_gsen.decode_encode _ _ (by decide) ..
  case mpush | mpop =>
    obtain rfl := hop.symm.trans (shB_ga.encode_op _ (by decide) ..)
    exact shB_ga.decode_encode _ _ (by decide) ..
  case mjoin =>
    obtain rfl := hop.symm.trans (shB_gab.encode_op _ (by decide) ..)
    exact shB_gab.decode_encode _ _ (by decide) ..
  case waitEv | sigEv =>
    obtain rfl := hop.symm.trans (shB_gv.encode_op _ (by decide) ..)
    exact shB_gv.decode_encode _ _ (by decide) ..
  case spawn =>
    obtain rfl := hop.symm.trans (shB_gspn.encode_op _ (by decide) ..)
    exact shB_gspn.decode_encode _ _ (by decide) ..
  case trap | brk =>
    obtain rfl := hop.symm.trans (shB_gn.encode_op _ (by decide) ..)
    exact shB_gn.decode_encode _ _ (by decide) ..

theorem rawS_encode {i : Instr} (hc : i.cls = .s) : rawS 2 (encode i) = .ok i := by
  unfold rawS
  generalize hop : encode i / 2 ^ 20 % 256 = op
  cases i
  all_goals cases hc
  case add | sub | mul | mulh | mulhu | div | divu | rem | remu | and | or | xor | andn | shl | shr | sra | rotl | min |
      max | minu | maxu | bfi =>
    obtain rfl := hop.symm.trans (shS_gdabef.encode_op _ (by decide) ..)
    exact shS_gdabef.decode_encode _ _ (by decide) ..
  case addi | andi | ori | xori | shli | shri | srai | movhi =>
    obtain rfl := hop.symm.trans (shS_gdaei.encode_op _ (by decide) ..)
    exact shS_gdaei.decode_encode _ _ (by decide) ..
  case movi =>
    obtain rfl := hop.symm.trans (shS_gdi.encode_op _ (by decide) ..)
    exact shS_gdi.decode_encode _ _ (by decide) ..
  case cmpEq | cmpNe | cmpLt | cmpGe | cmpLtu | cmpGeu =>
    obtain rfl := hop.symm.trans (shS_gpabef.encode_op _ (by decide) ..)
    exact shS_gpabef.decode_encode _ _ (by decide) ..
  case cmpiEq | cmpiLt | cmpiLtu =>
    obtain rfl := hop.symm.trans (shS_gpaei.encode_op _ (by decide) ..)
    exact shS_gpaei.decode_encode _ _ (by decide) ..
  case clz | ctz | popc =>
    obtain rfl := hop.symm.trans (shS_gdae.encode_op _ (by decide) ..)
    exact shS_gdae.decode_encode _ _ (by decide) ..
  case bfx =>
    obtain rfl := hop.symm.trans (shS_gdabefx.encode_op _ (by decide) ..)
    exact shS_gdabefx.decode_encode _ _ (by decide) ..
  case sext =>
    obtain rfl := hop.symm.trans (shS_gdaex.encode_op _ (by decide) ..)
    exact shS_gdaex.decode_encode _ _ (by decide) ..
  case sel | lea | hcoord =>
    obtain rfl := hop.symm.trans (shS_gdabefx2.encode_op _ (by decide) ..)
    exact shS_gdabefx2.decode_encode _ _ (by decide) ..
  case pand | por | pxor =>
    obtain rfl := hop.symm.trans (shS_gpabn.encode_op _ (by decide) ..)
    exact shS_gpabn.decode_encode _ _ (by decide) ..
  case mpar =>
    obtain rfl := hop.symm.trans (shS_gaes.encode_op _ (by decide) ..)
    exact shS_gaes.decode_encode _ _ (by decide) ..
  case mova =>
    obtain rfl := hop.symm.trans (shS_gdk.encode_op _ (by decide) ..)
    exact shS_gdk.decode_encode _ _ (by decide) ..
  case hld | hst =>
    obtain rfl := hop.symm.trans (shS_ghaes.encode_op _ (by decide) ..)
    exact shS_ghaes.decode_encode _ _ (by decide) ..
  case hset =>
    obtain rfl := hop.symm.trans (shS_ghabef.encode_op _ (by decide) ..)
    exact shS_ghabef.decode_encode _ _ (by decide) ..
  case ldB | ldH | ldW =>
    obtain rfl := hop.symm.trans (shS_gdabefsx.encode_op _ (by decide) ..)
    exact shS_gdabefsx.decode_encode _ _ (by decide) ..
  case ldD =>
    obtain rfl := hop.symm.trans (shS_gdabefs.encode_op _ (by decide) ..)
    exact shS_gdabefs.decode_encode _ _ (by decide) ..
  case ldsB | ldsH | ldsW | ldsD =>
    obtain rfl := hop.symm.trans (shS_gdasrec.encode_op _ (by decide) ..)
    exact shS_gdasrec.decode_encode _ _ (by decide) ..
  case stB | stH | stW | stD =>
    obtain rfl := hop.symm.trans (shS_gsabef.encode_op _ (by decide) ..)
    exact shS_gsabef.decode_encode _ _ (by decide) ..
  case stsB | stsH | stsW | stsD =>
    obtain rfl := hop.symm.trans (shS_gsrabefc.encode_op _ (by decide) ..)
    exact shS_gsrabefc.decode_encode _ _ (by decide) ..
  case amoAdd | amoAnd | amoOr | amoXor | amoMin | amoMax | amoMinu | amoMaxu | amoSwap =>
    obtain rfl := hop.symm.trans (shS_gswoabefc.encode_op _ (by decide) ..)
    exact shS_gswoabefc.decode_encode _ _ (by decide) ..
  case amoCas =>
    obtain rfl := hop.symm.trans (shS_gswoabefc2.encode_op _ (by decide) ..)
    exact shS_gswoabefc2.decode_encode _ _ (by decide) ..
  case fxinit | fxaddF32 | fxaddH =>
    obtain rfl := hop.symm.trans (shS_gabefs.encode_op _ (by decide) ..)
    exact shS_gabefs.decode_encode _ _ (by decide) ..
  case fxrd =>
    obtain rfl := hop.symm.trans (shS_gdaes.encode_op _ (by decide) ..)
    exact shS_gdaes.decode_encode _ _ (by decide) ..
  case fence =>
    obtain rfl := hop.symm.trans (shS_goc.encode_op _ (by decide) ..)
    exact shS_goc.decode_encode _ _ (by decide) ..
  case fenceSurv | pwrRel =>
    obtain rfl := hop.symm.trans (shS_g.encode_op _ (by decide) ..)
    exact shS_g.decode_encode _ _ (by decide) ..
  case mls | mlsArr | mlsWt =>
    obtain rfl := hop.symm.trans (shS_gb.encode_op _ (by decide) ..)
    exact shS_gb.decode_encode _ _ (by decide) ..
  case mlsQ =>
    obtain rfl := hop.symm.trans (shS_gdb.encode_op _ (by decide) ..)
    exact shS_gdb.decode_encode _ _ (by decide) ..
  case sysrd =>
    obtain rfl := hop.symm.trans (shS_gdn.encode_op _ (by decide) ..)
    exact shS_gdn.decode_encode _ _ (by decide) ..
  case syswr =>
    obtain rfl := hop.symm.trans (shS_gnb.encode_op _ (by decide) ..)
    exact shS_gnb.decode_encode _ _ (by decide) ..
  case time | energy | cycle =>
    obtain rfl := hop.symm.trans (shS_gd.encode_op _ (by decide) ..)
    exact shS_gd.decode_encode _ _ (by decide) ..
  case tlbPf | pwrReq =>
    obtain rfl := hop.symm.trans (shS_gae.encode_op _ (by decide) ..)
    exact shS_gae.decode_encode _ _ (by decide) ..
  case pgInv =>
    obtain rfl := hop.symm.trans (shS_gabef.encode_op _ (by decide) ..)
    exact shS_gabef.decode_encode _ _ (by decide) ..
  case lvlIdx | lvlCnt =>
    obtain rfl := hop.symm.trans (shS_gdk2.encode_op _ (by decide) ..)
    exact shS_gdk2.decode_encode _ _ (by decide) ..
  case crc =>
    obtain rfl := hop.symm.trans (shS_gdabefx3.encode_op _ (by decide) ..)
    exact shS_gdabefx3.decode_encode _ _ (by decide) ..

theorem rawV_encode {i : Instr} (hc : i.cls = .v) : rawV (encode i) = .ok i := by
  unfold rawV
  generalize hop : encode i / 2 ^ 20 % 256 = op
  cases i
  all_goals cases hc
  case vfadd | vfsub | vfmul | vfma | vfms | vfnma | vfmin | vfmax | vfcpys | vdiv | vscl =>
    obtain rfl := hop.symm.trans (shV_gdabmeft.encode_op _ (by decide) ..)
    exact shV_gdabmeft.decode_encode _ _ (by decide) ..
  case vfabs | vfneg | vrcp | vrsq | vsqrt | vexp2 | vlog2 | vtanh | vsig | vfrnd | vfexp =>
    obtain rfl := hop.symm.trans (shV_gdamet.encode_op _ (by decide) ..)
    exact shV_gdamet.decode_encode _ _ (by decide) ..
  case vfcmpEq | vfcmpLt | vfcmpLe | vfcmpUn =>
    obtain rfl := hop.symm.trans (shV_gpabmeft.encode_op _ (by decide) ..)
    exact shV_gpabmeft.decode_encode _ _ (by decide) ..
  case vadd | vsub | vmul | vmulh | vmin | vmax | vminu | vmaxu | vshl | vshr | vsra | vbfx =>
    obtain rfl := hop.symm.trans (shV_gdabmeft2.encode_op _ (by decide) ..)
    exact shV_gdabmeft2.decode_encode _ _ (by decide) ..
  case vand | vor | vxor | vsel | vperm | vrot | vidx =>
    obtain rfl := hop.symm.trans (shV_gdabmef.encode_op _ (by decide) ..)
    exact shV_gdabmef.decode_encode _ _ (by decide) ..
  case vabs | vclz | vpopc | vhist =>
    obtain rfl := hop.symm.trans (shV_gdamet2.encode_op _ (by decide) ..)
    exact shV_gdamet2.decode_encode _ _ (by decide) ..
  case vcmpEq | vcmpLt | vcmpLtu =>
    obtain rfl := hop.symm.trans (shV_gpabmeft2.encode_op _ (by decide) ..)
    exact shV_gpabmeft2.decode_encode _ _ (by decide) ..
  case vmov =>
    obtain rfl := hop.symm.trans (shV_gdame.encode_op _ (by decide) ..)
    exact shV_gdame.decode_encode _ _ (by decide) ..
  case vsplat | vrsum | vrmax | vrmin | vrmaxi | vscan | vrev =>
    obtain rfl := hop.symm.trans (shV_gdamet3.encode_op _ (by decide) ..)
    exact shV_gdamet3.decode_encode _ _ (by decide) ..
  case vins | vclamp | vbcast =>
    obtain rfl := hop.symm.trans (shV_gdabmeft3.encode_op _ (by decide) ..)
    exact shV_gdabmeft3.decode_encode _ _ (by decide) ..
  case vext =>
    obtain rfl := hop.symm.trans (shV_gdabeft.encode_op _ (by decide) ..)
    exact shV_gdabeft.decode_encode _ _ (by decide) ..
  case vzip =>
    obtain rfl := hop.symm.trans (shV_gdabseft.encode_op _ (by decide) ..)
    exact shV_gdabseft.decode_encode _ _ (by decide) ..
  case vrpop =>
    obtain rfl := hop.symm.trans (shV_gdm.encode_op _ (by decide) ..)
    exact shV_gdm.decode_encode _ _ (by decide) ..
  case vtopk | vtopkI =>
    obtain rfl := hop.symm.trans (shV_gdabmeft4.encode_op _ (by decide) ..)
    exact shV_gdabmeft4.decode_encode _ _ (by decide) ..
  case vsort | vrank | vcompress | vexpand =>
    obtain rfl := hop.symm.trans (shV_gdamet4.encode_op _ (by decide) ..)
    exact shV_gdamet4.decode_encode _ _ (by decide) ..
  case vqnt =>
    obtain rfl := hop.symm.trans (shV_gdabeft2.encode_op _ (by decide) ..)
    exact shV_gdabeft2.decode_encode _ _ (by decide) ..
  case vdqnt =>
    obtain rfl := hop.symm.trans (shV_gdabjeft.encode_op _ (by decide) ..)
    exact shV_gdabjeft.decode_encode _ _ (by decide) ..
  case vcvt =>
    obtain rfl := hop.symm.trans (shV_gdamet5.encode_op _ (by decide) ..)
    exact shV_gdamet5.decode_encode _ _ (by decide) ..
  case vpack =>
    obtain rfl := hop.symm.trans (shV_gdabmeft5.encode_op _ (by decide) ..)
    exact shV_gdabmeft5.decode_encode _ _ (by decide) ..
  case vunpk =>
    obtain rfl := hop.symm.trans (shV_gdahmet.encode_op _ (by decide) ..)
    exact shV_gdahmet.decode_encode _ _ (by decide) ..
  case vsrnd =>
    obtain rfl := hop.symm.trans (shV_game.encode_op _ (by decide) ..)
    exact shV_game.decode_encode _ _ (by decide) ..
  case vld | vst | vldB =>
    obtain rfl := hop.symm.trans (shV_gdabmefs.encode_op _ (by decide) ..)
    exact shV_gdabmefs.decode_encode _ _ (by decide) ..
  case vldT | vstT =>
    obtain rfl := hop.symm.trans (shV_gdhbmfc.encode_op _ (by decide) ..)
    exact shV_gdhbmfc.decode_encode _ _ (by decide) ..
  case vgat | vsca =>
    obtain rfl := hop.symm.trans (shV_gdabmefks.encode_op _ (by decide) ..)
    exact shV_gdabmefks.decode_encode _ _ (by decide) ..
  case mand | mor | mxor =>
    obtain rfl := hop.symm.trans (shV_gdab.encode_op _ (by decide) ..)
    exact shV_gdab.decode_encode _ _ (by decide) ..
  case mnot | mfirst =>
    obtain rfl := hop.symm.trans (shV_gda.encode_op _ (by decide) ..)
    exact shV_gda.decode_encode _ _ (by decide) ..
  case mset =>
    obtain rfl := hop.symm.trans (shV_gdae.encode_op _ (by decide) ..)
    exact (if_neg (encode_mset_mod _ _ _ _)).trans (shV_gdae.decode_encode _ _ (by decide) ..)
  case msetRd =>
    obtain rfl := hop.symm.trans (shV_gda2.encode_op _ (by decide) ..)
    exact (if_pos (encode_msetRd_mod _ _ _)).trans (shV_gda2.decode_encode _ _ (by decide) ..)
  case vaccRd | vaccPk =>
    obtain rfl := hop.symm.trans (shV_gdnbmfc.encode_op _ (by decide) ..)
    exact shV_gdnbmfc.decode_encode _ _ (by decide) ..
  case vaccWr =>
    obtain rfl := hop.symm.trans (shV_gnabmefc.encode_op _ (by decide) ..)
    exact shV_gnabmefc.decode_encode _ _ (by decide) ..
  case vdot4 =>
    obtain rfl := hop.symm.trans (shV_gdabmeft6.encode_op _ (by decide) ..)
    exact shV_gdabmeft6.decode_encode _ _ (by decide) ..
  case vlut =>
    obtain rfl := hop.symm.trans (shV_gdabmeft7.encode_op _ (by decide) ..)
    exact shV_gdabmeft7.decode_encode _ _ (by decide) ..

theorem rawM_encode {i : Instr} (hc : i.cls = .m) : rawM (encode i) = .ok i := by
  unfold rawM
  generalize hop : encode i / 2 ^ 20 % 256 = op
  cases i
  all_goals cases hc
  case mcall | mcallB =>
    obtain rfl := hop.symm.trans (shM_gk.encode_op _ (by decide) ..)
    exact shM_gk.decode_encode _ _ (by decide) ..
  case mwait | mabort =>
    obtain rfl := hop.symm.trans (shM_g.encode_op _ (by decide) ..)
    exact shM_g.decode_encode _ _ (by decide) ..
  case mscale =>
    obtain rfl := hop.symm.trans (shM_gfi.encode_op _ (by decide) ..)
    exact shM_gfi.decode_encode _ _ (by decide) ..
  case mdrain =>
    obtain rfl := hop.symm.trans (shM_gi.encode_op _ (by decide) ..)
    exact shM_gi.decode_encode _ _ (by decide) ..
  case mclr =>
    obtain rfl := hop.symm.trans (shM_gif.encode_op _ (by decide) ..)
    exact shM_gif.decode_encode _ _ (by decide) ..
  case mldMs =>
    obtain rfl := hop.symm.trans (shM_gae.encode_op _ (by decide) ..)
    exact shM_gae.decode_encode _ _ (by decide) ..
  case mstMs =>
    obtain rfl := hop.symm.trans (shM_gabef.encode_op _ (by decide) ..)
    exact shM_gabef.decode_encode _ _ (by decide) ..
  case mqClr =>
    obtain rfl := hop.symm.trans (shM_gabl.encode_op _ (by decide) ..)
    exact shM_gabl.decode_encode _ _ (by decide) ..
  case mqSt | mstat =>
    obtain rfl := hop.symm.trans (shM_gd.encode_op _ (by decide) ..)
    exact shM_gd.decode_encode _ _ (by decide) ..
  case mhalf =>
    obtain rfl := hop.symm.trans (shM_gn.encode_op _ (by decide) ..)
    exact shM_gn.decode_encode _ _ (by decide) ..
  case mchk =>
    obtain rfl := hop.symm.trans (shM_gdi.encode_op _ (by decide) ..)
    exact shM_gdi.decode_encode _ _ (by decide) ..
  case mfix =>
    obtain rfl := hop.symm.trans (shM_gfix.encode_op _ (by decide) ..)
    exact shM_gfix.decode_encode _ _ (by decide) ..
  case mmov =>
    obtain rfl := hop.symm.trans (shM_gds.encode_op _ (by decide) ..)
    exact shM_gds.decode_encode _ _ (by decide) ..

theorem decodeC_encode {i : Instr} (hc : i.cls = .c) : (decodeC (encode i)).map EngSyl.toInstr = .ok i := by
  unfold decodeC
  generalize hop : encode i / 2 ^ 20 % 256 = op
  cases i
  all_goals cases hc
  case cpyGo | cpyCvt =>
    obtain rfl := hop.symm.trans (shC_gaec.encode_op _ (by decide) ..)
    exact congrArg (Except.map EngSyl.toInstr) (shC_gaec.decode_encode _ _ (by decide) ..)
  case cpyGq | cpyFill =>
    obtain rfl := hop.symm.trans (shC_gabefc.encode_op _ (by decide) ..)
    exact congrArg (Except.map EngSyl.toInstr) (shC_gabefc.decode_encode _ _ (by decide) ..)
  case cpyDrn | cpyCancel =>
    obtain rfl := hop.symm.trans (shC_gc.encode_op _ (by decide) ..)
    exact congrArg (Except.map EngSyl.toInstr) (shC_gc.decode_encode _ _ (by decide) ..)
  case cpySt =>
    obtain rfl := hop.symm.trans (shC_gdc.encode_op _ (by decide) ..)
    exact congrArg (Except.map EngSyl.toInstr) (shC_gdc.decode_encode _ _ (by decide) ..)
  case cpyPb | cpyInv =>
    obtain rfl := hop.symm.trans (shC_gae.encode_op _ (by decide) ..)
    exact congrArg (Except.map EngSyl.toInstr) (shC_gae.decode_encode _ _ (by decide) ..)
  case cpyZero =>
    obtain rfl := hop.symm.trans (shC_ghc.encode_op _ (by decide) ..)
    exact congrArg (Except.map EngSyl.toInstr) (shC_ghc.decode_encode _ _ (by decide) ..)
  case tmov | tmovH =>
    obtain rfl := hop.symm.trans (shC_gdsab.encode_op _ (by decide) ..)
    exact congrArg (Except.map EngSyl.toInstr) (shC_gdsab.decode_encode _ _ (by decide) ..)
  case rlay =>
    obtain rfl := hop.symm.trans (shC_ghabef.encode_op _ (by decide) ..)
    exact congrArg (Except.map EngSyl.toInstr) (shC_ghabef.decode_encode _ _ (by decide) ..)
  case rlayWt | rlaySt =>
    obtain rfl := hop.symm.trans (shC_gh.encode_op _ (by decide) ..)
    exact congrArg (Except.map EngSyl.toInstr) (shC_gh.decode_encode _ _ (by decide) ..)
  case bcDrv | bcLat =>
    obtain rfl := hop.symm.trans (shC_gdae.encode_op _ (by decide) ..)
    exact congrArg (Except.map EngSyl.toInstr) (shC_gdae.decode_encode _ _ (by decide) ..)
  case bcSync | pfG =>
    obtain rfl := hop.symm.trans (shC_gabef.encode_op _ (by decide) ..)
    exact congrArg (Except.map EngSyl.toInstr) (shC_gabef.decode_encode _ _ (by decide) ..)
  case bufArm =>
    obtain rfl := hop.symm.trans (shC_gckabef.encode_op _ (by decide) ..)
    exact congrArg (Except.map EngSyl.toInstr) (shC_gckabef.decode_encode _ _ (by decide) ..)
  case bufSwp =>
    obtain rfl := hop.symm.trans (shC_gk.encode_op _ (by decide) ..)
    exact congrArg (Except.map EngSyl.toInstr) (shC_gk.decode_encode _ _ (by decide) ..)
  case bufSt =>
    obtain rfl := hop.symm.trans (shC_gdk.encode_op _ (by decide) ..)
    exact congrArg (Except.map EngSyl.toInstr) (shC_gdk.decode_encode _ _ (by decide) ..)

theorem decodeF_encode {i : Instr} (hc : i.cls = .f) : (decodeF (encode i)).map EngSyl.toInstr = .ok i := by
  unfold decodeF
  generalize hop : encode i / 2 ^ 20 % 256 = op
  cases i
  all_goals cases hc
  case fsend | collRed | collAg | collRs | collA2a =>
    obtain rfl := hop.symm.trans (shF_ghae.encode_op _ (by decide) ..)
    exact congrArg (Except.map EngSyl.toInstr) (shF_ghae.decode_encode _ _ (by decide) ..)
  case fsendV =>
    obtain rfl := hop.symm.trans (shF_gvae.encode_op _ (by decide) ..)
    exact congrArg (Except.map EngSyl.toInstr) (shF_gvae.decode_encode _ _ (by decide) ..)
  case fsendM =>
    obtain rfl := hop.symm.trans (shF_gabef.encode_op _ (by decide) ..)
    exact congrArg (Except.map EngSyl.toInstr) (shF_gabef.decode_encode _ _ (by decide) ..)
  case rpost | rpostW =>
    obtain rfl := hop.symm.trans (shF_ghabef.encode_op _ (by decide) ..)
    exact congrArg (Except.map EngSyl.toInstr) (shF_ghabef.decode_encode _ _ (by decide) ..)
  case rcancel | rprobe | rwait | fpeer | fslot | fbays =>
    obtain rfl := hop.symm.trans (shF_gdae.encode_op _ (by decide) ..)
    exact congrArg (Except.map EngSyl.toInstr) (shF_gdae.decode_encode _ _ (by decide) ..)
  case rlbQ =>
    obtain rfl := hop.symm.trans (shF_gdae2.encode_op _ (by decide) ..)
    exact congrArg (Except.map EngSyl.toInstr) (shF_gdae2.decode_encode _ _ (by decide) ..)
  case fdrn | noiseClr =>
    obtain rfl := hop.symm.trans (shF_g.encode_op _ (by decide) ..)
    exact congrArg (Except.map EngSyl.toInstr) (shF_g.decode_encode _ _ (by decide) ..)
  case collBar | fretune | fgrant =>
    obtain rfl := hop.symm.trans (shF_gae.encode_op _ (by decide) ..)
    exact congrArg (Except.map EngSyl.toInstr) (shF_gae.decode_encode _ _ (by decide) ..)
  case collSt | fevt =>
    obtain rfl := hop.symm.trans (shF_gd.encode_op _ (by decide) ..)
    exact congrArg (Except.map EngSyl.toInstr) (shF_gd.decode_encode _ _ (by decide) ..)
  case collRing | frepair =>
    obtain rfl := hop.symm.trans (shF_gabef2.encode_op _ (by decide) ..)
    exact congrArg (Except.map EngSyl.toInstr) (shF_gabef2.decode_encode _ _ (by decide) ..)
  case noiseRd =>
    obtain rfl := hop.symm.trans (shF_gdn.encode_op _ (by decide) ..)
    exact congrArg (Except.map EngSyl.toInstr) (shF_gdn.decode_encode _ _ (by decide) ..)

/-- What passes the checks of `Instr.wf` passes the refinement. -/
theorem refine_ok {i : Instr} (hw : i.wf = true) : refine (.ok i) = .ok i := by
  simp [refine, hw]

section
variable {i : Instr} (hw : i.wf = true)
include hw

theorem decodeB_encode (hc : i.cls = .b) : decodeB (encode i) = .ok i := by
  rw [decodeB, rawB_encode hc, refine_ok hw]

theorem decodeS_encode (hc : i.cls = .s) : decodeS 2 (encode i) = .ok i := by
  rw [decodeS, rawS_encode hc, refine_ok hw]

theorem decodeV_encode (hc : i.cls = .v) : decodeV (encode i) = .ok i := by
  rw [decodeV, rawV_encode hc, refine_ok hw]

theorem decodeM_encode (hc : i.cls = .m) : decodeM (encode i) = .ok i := by
  rw [decodeM, rawM_encode hc, refine_ok hw]

/-- The slots of classes B and S read their class (R201). -/
theorem decodeSlot_encode {k : Fin 8} (hk : (i.cls = .b ∧ k.val < 2) ∨ (i.cls = .s ∧ (k = 2 ∨ k = 3))) :
    (Machine.decodeSlot k 2 (encode i)).map Machine.Syl.instr = .ok i := by
  obtain ⟨hc, hk⟩ | ⟨hc, rfl | rfl⟩ := hk
  · obtain rfl | rfl : k = 0 ∨ k = 1 := by omega
    all_goals simp only [Machine.decodeSlot, decodeB_encode hw hc, Except.map, Machine.Syl.instr]
  all_goals simp only [Machine.decodeSlot, decodeS_encode hw hc, Except.map, Machine.Syl.instr]

end

/-! ## Microwords -/

theorem MNext.dec_encode {n : MNext} (hw : n.wf = true) : MNext.dec n.cond.code n.nt.val n.nf.val = some n := by
  have hnf : ¬ (n.cond = .always ∧ n.nf.val ≠ 0) := by
    rintro ⟨hc, hn⟩
    simp only [MNext.wf, hc, beq_self_eq_true, Bool.not_true, Bool.false_or, beq_iff_eq] at hw
    exact hn (congrArg Fin.val hw)
  simp only [MNext.dec, Cond.ofCode_code, if_neg hnf, fin_val]

theorem Cond.code_lt (c : Cond) : c.code < 16 := by cases c <;> decide

/-- The fields of a microword, lowest first. -/
theorem unpack_packMicro {uop arg : Nat} (hu : uop < 16) (ha : arg < 2 ^ 32) (n : MNext) :
    unpack [32, 12, 12, 4, 4] (packMicro uop n arg) = [arg, n.nf.val, n.nt.val, n.cond.code, uop] := by
  have hc := n.cond.code_lt
  rw [packMicro, unpack_pack 32 _ _ _ ha, unpack_pack 12 _ _ _ n.nf.isLt, unpack_pack 12 _ _ _ n.nt.isLt,
    unpack_pack 4 _ _ _ hc, unpack_pack 4 _ _ _ hu, unpack]

theorem microPlain_encode (mk : MNext → Micro) {n : MNext} (hw : n.wf = true) :
    microPlain mk n.cond.code n.nt.val n.nf.val 0 = some (mk n) := by
  simp [microPlain, MNext.dec_encode hw]

theorem MacArg.arg_lt (x : MacArg) : x.arg < 2 ^ 32 := by
  have h₁ := toNat_lt_two x.ac
  have h₂ := toNat_lt_two x.cnt
  have h₃ := toNat_lt_two x.keepB
  have h₄ := toNat_lt_two x.keepA
  simp only [MacArg.arg, pack]
  omega

theorem microMac_encode (mk : MNext → MacArg → Micro) {n : MNext} (hw : n.wf = true) (x : MacArg) :
    microMac mk n.cond.code n.nt.val n.nf.val x.arg = some (mk n x) := by
  obtain ⟨keepA, keepB, cnt, ac⟩ := x
  simp only [microMac, MNext.dec_encode hw, Option.map_some]
  cases keepA <;> cases keepB <;> cases cnt <;> cases ac <;> rfl

theorem LdcArg.arg_lt (c : Fin 4) (v : LdcArg) : v.arg c < 2 ^ 32 := by
  cases v with
  | imm v => have h := v.isLt; simp only [LdcArg.arg, pack]; omega
  | areg k h => simp only [LdcArg.arg, pack]; omega

theorem microLdc_encode {n : MNext} (hw : n.wf = true) (c : Fin 4) (v : LdcArg) :
    microLdc n.cond.code n.nt.val n.nf.val (v.arg c) = some (.ldc n c v) := by
  cases v with
  | imm v =>
    have hv := v.isLt
    have hfields : unpack [2, 14, 3, 10, 1, 2] (LdcArg.arg c (.imm v)) = [v.toNat % 4, v.toNat / 4, 0, 0, 0, c.val] := by
      simp only [LdcArg.arg, pack, unpack, List.cons.injEq, and_true]
      omega
    have hv' : v.toNat % 4 + 4 * (v.toNat / 4) = v.toNat := Nat.mod_add_div _ _
    simp [microLdc, hfields, bit, MNext.dec_encode hw, hv']
  | areg k h =>
    have hfields : unpack [2, 14, 3, 10, 1, 2] (LdcArg.arg c (.areg k h)) = [h.val, 0, k.val, 0, 1, c.val] := by
      simp only [LdcArg.arg, pack, unpack, List.cons.injEq, and_true]
      omega
    simp [microLdc, hfields, bit, MNext.dec_encode hw]

/-- The instructions of class micro are those of the micro-ops. -/
theorem exists_micro {i : Instr} (hc : i.cls = .micro) : ∃ m : Micro, m.toInstr = i := by
  cases i
  all_goals cases hc
  case nop n => exact ⟨.nop n, rfl⟩
  case ldc n c v => exact ⟨.ldc n c v, rfl⟩
  case decc n c => exact ⟨.decc n c, rfl⟩
  case jmp nt k => exact ⟨.jmp nt k, rfl⟩
  case jcnd nt nf k b => exact ⟨.jcnd nt nf k b, rfl⟩
  case pulla n => exact ⟨.pulla n, rfl⟩
  case pullb n => exact ⟨.pullb n, rfl⟩
  case mac n x => exact ⟨.mac n x, rfl⟩
  case macb n x => exact ⟨.macb n x, rfl⟩
  case segcut n => exact ⟨.segcut n, rfl⟩
  case ckacc n => exact ⟨.ckacc n, rfl⟩
  case ckcmp n => exact ⟨.ckcmp n, rfl⟩
  case postp n tag => exact ⟨.postp n tag, rfl⟩
  case halfp n => exact ⟨.halfp n, rfl⟩
  case waitq n a b k => exact ⟨.waitq n a b k, rfl⟩
  case endRoutine => exact ⟨.endRoutine, rfl⟩

theorem decodeMicro_encode (m : Micro) (hw : m.toInstr.wf = true) : decodeMicro (encode m.toInstr) = some m := by
  cases m with
  | nop n | pulla n | pullb n | segcut n | ckacc n | ckcmp n | halfp n =>
    change decodeMicro (packMicro _ n 0) = _
    rw [decodeMicro, unpack_packMicro (by decide) (by decide)]
    exact microPlain_encode _ hw
  | ldc n c v =>
    change decodeMicro (packMicro 1 n (v.arg c)) = _
    rw [decodeMicro, unpack_packMicro (by decide) (v.arg_lt c)]
    exact microLdc_encode hw c v
  | mac n x | macb n x =>
    change decodeMicro (packMicro _ n x.arg) = _
    rw [decodeMicro, unpack_packMicro (by decide) x.arg_lt]
    exact microMac_encode _ hw x
  | decc n c =>
    have harg : pack [(30, 0), (2, c.val)] = 2 ^ 30 * c.val := by simp [pack]
    change decodeMicro (packMicro 2 n (pack [(30, 0), (2, c.val)])) = _
    rw [harg, decodeMicro, unpack_packMicro (by decide) (by omega)]
    have hn := MNext.dec_encode (n := n) hw
    simp [hn]
  | jmp nt k =>
    have harg : pack [(16, 0), (3, k.val)] = 2 ^ 16 * k.val := by simp [pack]
    change decodeMicro (packMicro 3 ⟨.always, nt, 0⟩ (pack [(16, 0), (3, k.val)])) = _
    rw [harg, decodeMicro, unpack_packMicro (by decide) (by omega)]
    have htop : 65536 * k.val < 524288 := by omega
    simp [Cond.code, htop]
  | jcnd nt nf k b =>
    have harg : pack [(6, b.val), (10, 0), (3, k.val)] = b.val + 65536 * k.val := by simp [pack]; omega
    change decodeMicro (packMicro 4 ⟨.always, nt, nf⟩ (pack [(6, b.val), (10, 0), (3, k.val)])) = _
    rw [harg, decodeMicro, unpack_packMicro (by decide) (by omega)]
    have hb : b.val % 65536 < 64 := by omega
    have htop : b.val + 65536 * k.val < 524288 := by omega
    have hk : (b.val + 65536 * k.val) / 65536 = k.val := by omega
    have hfin : fin 64 (b.val + 65536 * k.val) = b := Fin.ext (by simp [fin]; omega)
    simp [Cond.code, hb, hk, htop, hfin]
  | postp n tag =>
    have htag := tag.isLt
    change decodeMicro (packMicro 12 n tag.toNat) = _
    rw [decodeMicro, unpack_packMicro (by decide) (by omega)]
    have hn := MNext.dec_encode (n := n) hw
    simp [hn, Nat.div_eq_of_lt htag]
  | waitq n a b k =>
    obtain ⟨⟨hn, hlo⟩, hhi⟩ : (n.wf = true ∧ 1 ≤ k.val) ∧ k.val ≤ 4 := by simpa [Micro.toInstr, Instr.wf] using hw
    have ha := toNat_lt_two a
    have hb := toNat_lt_two b
    have harg : pack [(3, k.val), (27, 0), (1, b.toNat), (1, a.toNat)] = k.val + 2 ^ 30 * (b.toNat + 2 * a.toNat) := by
      simp only [pack]; omega
    change decodeMicro (packMicro 14 n (pack [(3, k.val), (27, 0), (1, b.toNat), (1, a.toNat)])) = _
    rw [harg, decodeMicro, unpack_packMicro (by decide) (by omega)]
    have hk : fin 8 (k.val + 2 ^ 30 * (b.toNat + 2 * a.toNat)) = k := Fin.ext (by simp only [fin, Fin.val_ofNat]; omega)
    have hbit : (k.val + 2 ^ 30 * (b.toNat + 2 * a.toNat)) / 2 ^ 31 = a.toNat := by omega
    have hbit' : bit ((k.val + 2 ^ 30 * (b.toNat + 2 * a.toNat)) / 2 ^ 30) = b := by
      rw [show (k.val + 2 ^ 30 * (b.toNat + 2 * a.toNat)) / 2 ^ 30 = b.toNat + 2 * a.toNat by omega, bit,
        Nat.add_mul_mod_self_left]
      exact bit_toNat b
    refine (if_neg (by omega)).trans ?_
    rw [MNext.dec_encode hn, hk, hbit, hbit', bit_toNat]
    rfl
  | endRoutine => decide

/-! ## The statement -/

/-- Settles O1: each class by its table of layouts, then the checks that `Instr.wf` names; microwords row by row. -/
theorem roundTrip : Obligations.RoundTrip := by
  unfold Obligations.RoundTrip
  refine ⟨fun i hw => ⟨decodeB_encode hw, decodeS_encode hw, fun k => decodeSlot_encode hw⟩,
    fun i hw => ⟨decodeV_encode hw, decodeM_encode hw⟩, fun i _ => ⟨decodeC_encode, decodeF_encode⟩, fun i hw hc => ?_⟩
  obtain ⟨m, rfl⟩ := exists_micro hc
  exact congrArg (Option.map Micro.toInstr) (decodeMicro_encode m hw)

/-- Settles O2: the decoders run on the words. -/
theorem decodeWords : Obligations.DecodeWords := by
  unfold Obligations.DecodeWords
  decide

end Sys2Proof
end

section
/-! PROOFS. Predicates and masks (R190, R191, R235, R237, R264): the constants, what a landing is read back as, and the pairs that
compares write. -/

namespace Sys2Proof.Machine

/-! ## The constants (R190) -/

@[simp] theorem State.readP_zero (s : State) : s.readP 0 = true := rfl
@[simp] theorem State.readP_one (s : State) : s.readP 1 = false := rfl
@[simp] theorem State.readM_zero (s : State) : s.readM 0 = BitVec.allOnes 64 := rfl
@[simp] theorem State.readM_one (s : State) : s.readM 1 = 0 := rfl

theorem State.readP_eq {s : State} {i : Fin 16} (hi : 2 ≤ i.val) : s.readP i = s.cx.regs.p.getLsbD i.val := by
  have h₀ : i ≠ 0 := by rintro rfl; simp at hi
  have h₁ : i ≠ 1 := by rintro rfl; simp at hi
  rw [State.readP, if_neg h₀, if_neg h₁]

theorem State.readM_eq {s : State} {i : Fin 8} (hi : 2 ≤ i.val) : s.readM i = s.cx.regs.m[i] := by
  have h₀ : i ≠ 0 := by rintro rfl; simp at hi
  have h₁ : i ≠ 1 := by rintro rfl; simp at hi
  rw [State.readM, if_neg h₀, if_neg h₁]

theorem State.readP_congr {s t : State} (h : t.cx.regs.p = s.cx.regs.p) (i : Fin 16) : t.readP i = s.readP i := by
  rw [State.readP, State.readP, h]

theorem State.readM_congr {s t : State} (h : t.cx.regs.m = s.cx.regs.m) (i : Fin 8) : t.readM i = s.readM i := by
  rw [State.readM, State.readM, h]

/-! ## What a landing writes (R191) -/

/-- Writes of system registers leave the scalar, address, predicate and mask registers. -/
theorem State.writeSys_files (s : State) (n : SysReg) (v : Word) : (s.writeSys n v).cx.regs.s = s.cx.regs.s ∧
    (s.writeSys n v).cx.regs.a = s.cx.regs.a ∧ (s.writeSys n v).cx.regs.p = s.cx.regs.p ∧ (s.writeSys n v).cx.regs.m = s.cx.regs.m := by
  cases n
  case permits => rw [State.writeSys]; split <;> exact ⟨rfl, rfl, rfl, rfl⟩
  all_goals exact ⟨rfl, rfl, rfl, rfl⟩

/-- The bit of a predicate register after a landing on it. -/
theorem getLsbD_landP (p : BitVec 16) (i j : Fin 16) (w : Word) :
    ((p &&& ~~~ (1#16 <<< i.val)) ||| (if w = 0 then 0 else 1#16 <<< i.val)).getLsbD j.val =
      if i = j then w != 0 else p.getLsbD j.val := by
  by_cases hij : i = j
  · subst hij
    by_cases hw : w = 0#64 <;> simp [hw]
  · have hne : ¬ i.val = j.val := fun h => hij (Fin.ext h)
    have hbit : (1#16 <<< i.val).getLsbD j.val = false := by
      simp
      omega
    have hzero : (if w = 0 then 0 else 1#16 <<< i.val : BitVec 16).getLsbD j.val = false := by
      split
      · exact BitVec.getLsbD_zero
      · exact hbit
    rw [BitVec.getLsbD_or, BitVec.getLsbD_and, BitVec.getLsbD_not, hbit, hzero, if_neg hij]
    simp

/-- A landing on a predicate register sets its bit, on a mask register its word; writes to the constants are discarded. -/
theorem State.landOne_of_p {s : State} {f : Flight} {i : Fin 16} (h : f.reg = .p i) (hi : 2 ≤ i.val) :
    s.landOne f = s.modRegs fun r => { r with
      p := (r.p &&& ~~~ (1#16 <<< i.val)) ||| (if f.val.toWord = 0 then 0 else 1#16 <<< i.val) } := by
  rw [State.landOne, h]
  exact if_neg (by omega)

theorem State.landOne_of_m {s : State} {f : Flight} {i : Fin 8} (h : f.reg = .m i) (hi : 2 ≤ i.val) :
    s.landOne f = s.modRegs fun r => { r with m := r.m.set i f.val.toWord } := by
  rw [State.landOne, h]
  exact if_neg (by omega)

theorem State.landOne_of_constP {s : State} {f : Flight} {i : Fin 16} (h : f.reg = .p i) (hi : i.val < 2) : s.landOne f = s := by
  rw [State.landOne, h]
  exact if_pos hi

theorem State.landOne_of_constM {s : State} {f : Flight} {i : Fin 8} (h : f.reg = .m i) (hi : i.val < 2) : s.landOne f = s := by
  rw [State.landOne, h]
  exact if_pos hi

/-- A landing leaves the scalar, address, predicate and mask registers of which it names none. -/
theorem State.landOne_files (s : State) (f : Flight) :
    ((∀ i, f.reg ≠ .s i) → (s.landOne f).cx.regs.s = s.cx.regs.s) ∧ ((∀ i, f.reg ≠ .a i) → (s.landOne f).cx.regs.a = s.cx.regs.a) ∧
    ((∀ i, f.reg ≠ .p i) → (s.landOne f).cx.regs.p = s.cx.regs.p) ∧ ((∀ i, f.reg ≠ .m i) → (s.landOne f).cx.regs.m = s.cx.regs.m) := by
  obtain ⟨reg, val, land, due, known, tag⟩ := f
  cases reg
  case s i => exact ⟨fun h => absurd rfl (h i), fun _ => rfl, fun _ => rfl, fun _ => rfl⟩
  case a i => exact ⟨fun _ => rfl, fun h => absurd rfl (h i), fun _ => rfl, fun _ => rfl⟩
  case p i =>
    by_cases hi : i.val < 2
    · rw [State.landOne_of_constP rfl hi]
      exact ⟨fun _ => rfl, fun _ => rfl, fun _ => rfl, fun _ => rfl⟩
    · rw [State.landOne_of_p rfl (by omega)]
      exact ⟨fun _ => rfl, fun _ => rfl, fun h => absurd rfl (h i), fun _ => rfl⟩
  case m i =>
    by_cases hi : i.val < 2
    · rw [State.landOne_of_constM rfl hi]
      exact ⟨fun _ => rfl, fun _ => rfl, fun _ => rfl, fun _ => rfl⟩
    · rw [State.landOne_of_m rfl (by omega)]
      exact ⟨fun _ => rfl, fun _ => rfl, fun _ => rfl, fun h => absurd rfl (h i)⟩
  case h | flags => cases val <;> exact ⟨fun _ => rfl, fun _ => rfl, fun _ => rfl, fun _ => rfl⟩
  case sys n =>
    obtain ⟨hs, ha, hp, hm⟩ := s.writeSys_files n val.toWord
    exact ⟨fun _ => hs, fun _ => ha, fun _ => hp, fun _ => hm⟩
  all_goals simp only [State.landOne, State.modRegs_cx, implies_true, and_self]

section Landing
variable (s : State) (f : Flight)

theorem State.landOne_readS (i : Fin 16) : (s.landOne f).readS i = if f.reg = .s i then f.val.toWord else s.readS i := by
  by_cases h : ∃ j, f.reg = .s j
  · obtain ⟨j, hj⟩ := h
    simp only [State.landOne, hj, State.readS, State.modRegs_cx, Fin.getElem_fin, Vector.getElem_set, Reg.s.injEq, Fin.ext_iff]
  · rw [if_neg fun hi => h ⟨i, hi⟩, State.readS, (s.landOne_files f).1 fun j hj => h ⟨j, hj⟩]
    rfl

theorem State.landOne_readA (i : Fin 8) : (s.landOne f).readA i = if f.reg = .a i then f.val.toWord else s.readA i := by
  by_cases h : ∃ j, f.reg = .a j
  · obtain ⟨j, hj⟩ := h
    simp only [State.landOne, hj, State.readA, State.modRegs_cx, Fin.getElem_fin, Vector.getElem_set, Reg.a.injEq, Fin.ext_iff]
  · rw [if_neg fun hi => h ⟨i, hi⟩, State.readA, (s.landOne_files f).2.1 fun j hj => h ⟨j, hj⟩]
    rfl

theorem State.landOne_readP {i : Fin 16} (hi : 2 ≤ i.val) :
    (s.landOne f).readP i = if f.reg = .p i then f.val.toWord != 0 else s.readP i := by
  by_cases h : ∃ j, f.reg = .p j
  · obtain ⟨j, hj⟩ := h
    rw [State.readP_eq hi, State.readP_eq hi]
    by_cases hlt : j.val < 2
    · have hne : f.reg ≠ .p i := fun h => by rw [hj, Reg.p.injEq] at h; omega
      rw [State.landOne_of_constP hj hlt, if_neg hne]
    · rw [State.landOne_of_p hj (by omega)]
      simp only [hj, Reg.p.injEq]
      exact getLsbD_landP ..
  · rw [if_neg fun hi => h ⟨i, hi⟩]
    exact State.readP_congr ((s.landOne_files f).2.2.1 fun j hj => h ⟨j, hj⟩) i

theorem State.landOne_readM {i : Fin 8} (hi : 2 ≤ i.val) :
    (s.landOne f).readM i = if f.reg = .m i then f.val.toWord else s.readM i := by
  by_cases h : ∃ j, f.reg = .m j
  · obtain ⟨j, hj⟩ := h
    rw [State.readM_eq hi, State.readM_eq hi]
    by_cases hlt : j.val < 2
    · have hne : f.reg ≠ .m i := fun h => by rw [hj, Reg.m.injEq] at h; omega
      rw [State.landOne_of_constM hj hlt, if_neg hne]
    · rw [State.landOne_of_m hj (by omega)]
      simp only [hj, Reg.m.injEq, State.modRegs_cx, Fin.getElem_fin, Vector.getElem_set, Fin.ext_iff]
  · rw [if_neg fun hi => h ⟨i, hi⟩]
    exact State.readM_congr ((s.landOne_files f).2.2.2 fun j hj => h ⟨j, hj⟩) i

/-- Whatever does not land on a predicate or mask register leaves what it reads, the constants included. -/
theorem State.landOne_readP_of_ne {i : Fin 16} (h : f.reg ≠ .p i) : (s.landOne f).readP i = s.readP i := by
  by_cases hi : 2 ≤ i.val
  · rw [State.landOne_readP s f hi, if_neg h]
  · obtain rfl | rfl : i = 0 ∨ i = 1 := by omega
    all_goals rfl

theorem State.landOne_readM_of_ne {i : Fin 8} (h : f.reg ≠ .m i) : (s.landOne f).readM i = s.readM i := by
  by_cases hi : 2 ≤ i.val
  · rw [State.landOne_readM s f hi, if_neg h]
  · obtain rfl | rfl : i = 0 ∨ i = 1 := by omega
    all_goals rfl

end Landing

/-! ## Compares and predicate instructions (R235, R237) -/

/-- An instruction with a predicate pair writes it. -/
theorem exec_of_pairResult {i : Instr} {s : State} {p : Fin 8} {x : Bool} (hr : pairResult s i = some (p, x)) (hi : Issues i s) :
    exec i s = .next ((s.begun i).writePair p x) := by
  cases i
  all_goals cases hr
  case cmpEq | cmpNe | cmpLt | cmpGe | cmpLtu | cmpGeu =>
    refine (State.syl_of_issues hi _).trans (congrArg _ ?_)
    simp only [State.compare, State.begun_readSrc, BitVec.slt, BitVec.ult, ← decide_not, Int.not_lt, Nat.not_lt]
  case cmpiEq | cmpiLt | cmpiLtu =>
    refine (State.syl_of_issues hi _).trans (congrArg _ ?_)
    simp only [State.comparei, State.begun_readSrc, State.begun_imm, BitVec.slt, BitVec.ult]
  case pand | por | pxor =>
    refine (State.syl_of_issues hi _).trans (congrArg _ ?_)
    rw [State.predOp, State.begun_readP, State.begun_readP]

/-! ## Vector compares (R264) -/

/-- A vector compare writes its mask pair and its flags. -/
theorem exec_of_compareResult {i : Instr} {s : State} {p : Fin 4} {x : Word} {f : FFlags}
    (hr : compareResult (s.begun i) i = some (p, x, f)) (hi : Issues i s) :
    exec i s = .next (((s.begun i).writeMaskPair .v2 p x).writeFlags .v2 f 0) := by
  cases i
  all_goals cases hr
  case vfcmpEq | vfcmpLt | vfcmpLe | vfcmpUn => exact State.syl_of_issues hi _
  case vcmpEq | vcmpLt | vcmpLtu =>
    rw [State.writeFlags, if_pos ⟨rfl, rfl⟩]
    exact State.syl_of_issues hi _

/-! ## The statement -/

/-- Settles O4: what a landing changes register by register; each compare by the pair it writes. -/
theorem pairsAndConstants : Obligations.PairsAndConstants := by
  unfold Obligations.PairsAndConstants
  refine ⟨fun s f => ⟨⟨rfl, rfl, rfl, rfl⟩, fun i hi hr => ?p, fun i hi hr => ?m, fun i => s.landOne_readP_of_ne f,
    fun i => s.landOne_readM_of_ne f, s.landOne_readS f, s.landOne_readA f⟩, fun i s p x => exec_of_pairResult,
    fun i s p x f => exec_of_compareResult⟩
  case p => rw [s.landOne_readP f hi, if_pos hr]
  case m => rw [s.landOne_readM f hi, if_pos hr]

end Sys2Proof.Machine
end

section
/-! PROOFS. The frame of the instructions that only compute (R192, R193, R198): the results they put in flight, and how a syllable that
ends as done has begun. -/

namespace Sys2Proof.Machine

/-! ## A fault never ends as done (R409) -/

@[simp] theorem State.dropWaits_evt (s : State) (c : Nat) : (s.dropWaits c).evt = s.evt := by
  unfold State.dropWaits
  dsimp only
  split <;> rfl

@[simp] theorem State.stopRunning_evt (s : State) (c : Nat) : (s.stopRunning c).evt = s.evt := by
  unfold State.stopRunning
  dsimp only
  split
  · simp
  · rfl

@[simp] theorem State.cancelAll_evt (s : State) (c n : Nat) : (s.cancelAll c n).evt = s.evt := by
  simp [State.cancelAll]

@[simp] theorem State.endContext_evt (s : State) (c : Nat) : (s.endContext c).evt = s.evt := by
  unfold State.endContext
  refine (State.modCtx_evt ..).trans ((State.dropWaits_evt ..).trans ((State.stopRunning_evt ..).trans ?_))
  refine (State.cancelAll_evt ..).trans ((State.modMx_evt ..).trans ?_)
  split
  · exact State.enqueue_evt ..
  · rfl

@[simp] theorem State.failReplay_evt (s : State) (node code : Nat) : (s.failReplay node code).evt = s.evt := by
  have hfold (l : List Nat) (s : State) : (l.foldl State.endContext s).evt = s.evt := by
    induction l generalizing s with
    | nil => rfl
    | cons c l ih => exact (ih _).trans (s.endContext_evt c)
  have htell (b : Bool) (s : State) : (if b then s.interrupt 0 else s).evt = s.evt := by
    split
    · exact s.interrupt_evt 0
    · rfl
  unfold State.failReplay
  exact (htell _ _).trans (hfold _ _)

@[simp] theorem State.fatal_evt (s : State) (code : BitVec 8) : (s.fatal code).evt = s.evt := by
  unfold State.fatal
  split
  · split <;> simp
  · simp

theorem State.take_evt (s : State) (t : Trap) (epc : Word) : (s.take t epc).evt = .trap t := by
  unfold State.take
  dsimp only
  split
  · exact State.fatal_evt _ _
  · rfl

theorem State.trap_evt (s : State) (t : Trap) : (s.trap t).evt = .trap t := s.take_evt t _

theorem State.silentTrap_evt_ne (s : State) (code : BitVec 8) (x : Option Word) : (s.silentTrap code x).evt ≠ .done := by
  unfold State.silentTrap
  cases x <;> simp [State.trap_evt]

/-! ## What computing puts in flight -/

/-- The state with more writes in flight, and QP past n queue entries. -/
def State.putting (s : State) (n : Nat) (fs : List Flight) : State :=
  { s with cx := { s.cx with
      fresh := s.cx.fresh ++ fs, regs := { s.cx.regs with qp := s.cx.regs.qp + BitVec.ofNat 4 n } } }

/-- The state t is s with writes of the registers `ds`, of n queue entries and of FPMODE's flags put in flight, and QP past the entries. -/
def State.Puts (s : State) (n : Nat) (ds : List Reg) (t : State) : Prop :=
  ∃ fs : List Flight, t = s.putting n fs ∧ ∀ f ∈ fs, f.reg ∈ ds ∨ f.reg ∈ s.pushRegs n ∨ f.reg = .flags

/-- The write of a register as it is put in flight. -/
def State.flight (s : State) (l : Lat) (r : Reg) (v : Val) : Flight :=
  match l with
  | .fixed n => ⟨r, v, some (s.slotCycle + n), 0, true, 0⟩
  | .long => ⟨r, v, none, s.slotCycle + longDelay, true, 8 * s.slotCycle + s.issue.slot.val⟩

theorem State.flight_reg (s : State) (l : Lat) (r : Reg) (v : Val) : (s.flight l r v).reg = r := by
  cases l <;> rfl

theorem State.write_putting (s : State) (n : Nat) (fs : List Flight) (l : Lat) (r : Reg) (v : Val) :
    (s.putting n fs).write l r v = s.putting n (fs ++ [s.flight l r v]) := by
  unfold State.write State.putting
  simp only [List.append_assoc]
  cases l <;> rfl

theorem State.putting_zero (s : State) : s.putting 0 [] = s := by
  simp [State.putting]

theorem State.pushSlot_putting (s : State) (fs : List Flight) :
    (s.putting 0 fs).pushSlot = (.qr (Fin.ofNat 16 s.cx.regs.qp.toNat), s.putting 1 fs) := by
  simp [State.pushSlot, State.putting, State.modRegs]

section Puts
variable {s t : State} {n : Nat} {ds : List Reg}

theorem State.puts_self (s : State) (ds : List Reg) : s.Puts 0 ds s := ⟨[], s.putting_zero.symm, by simp⟩

/-- One more write, of a destination or of the flags. -/
theorem State.Puts.write (h : s.Puts n ds t) (l : Lat) {r : Reg} (hr : r ∈ ds ∨ r = .flags) (v : Val) :
    s.Puts n ds (t.write l r v) := by
  obtain ⟨fs, rfl, hfs⟩ := h
  refine ⟨_, s.write_putting n fs l r v, fun f hf => ?_⟩
  obtain hf | rfl : f ∈ fs ∨ f = s.flight l r v := by simpa using hf
  · exact hfs f hf
  · rw [s.flight_reg]
    exact hr.imp_right .inr

theorem State.Puts.writeFlags (h : s.Puts n ds t) (l : Lat) (x : FFlags) (k : Nat) : s.Puts n ds (t.writeFlags l x k) := by
  unfold State.writeFlags
  split
  · exact h
  · exact h.write l (.inr rfl) _

theorem State.putVec_puts (s : State) (l : Lat) (d : Fin 16) (r : VReg × FFlags) : s.Puts 0 [.v d] (s.putVec l d r) :=
  (s.puts_self _).write l (.inl (by simp)) _ |>.writeFlags l _ _

theorem State.setMask_puts (s : State) (d : Fin 8) (x : Word) : s.Puts 0 [mReg d] (s.setMask d x) :=
  (s.puts_self _).write .v2 (.inl (by simp [mReg])) _

theorem State.writePair_puts (s : State) (p : Fin 8) (x : Bool) : s.Puts 0 (pPair p) (s.writePair p x) :=
  ((s.puts_self _).write .s1 (.inl (by simp [pPair, evenP])) _).write .s1 (.inl (by simp [pPair, oddP])) _

theorem State.writeMaskPair_puts (s : State) (l : Lat) (p : Fin 4) (x : Word) : s.Puts 0 (mPair p) (s.writeMaskPair l p x) :=
  ((s.puts_self _).write l (.inl (by simp [mPair])) _).write l (.inl (by simp [mPair])) _

/-- A queue entry as well, where there was none. -/
theorem State.Puts.pushQueue (h : s.Puts 0 ds t) (l : Lat) (x : Word) :
    s.Puts 1 ds (t.pushSlot.2.write l t.pushSlot.1 (.word x)) := by
  obtain ⟨fs, rfl, hfs⟩ := h
  rw [s.pushSlot_putting]
  refine ⟨_, s.write_putting 1 fs l _ _, fun f hf => ?_⟩
  obtain hf | rfl : f ∈ fs ∨ f = s.flight l (.qr (Fin.ofNat 16 s.cx.regs.qp.toNat)) (.word x) := by simpa using hf
  · exact (hfs f hf).imp_right (.imp_left fun h => by simp [State.pushRegs] at h)
  · exact .inr (.inl (by simp [s.flight_reg, State.pushRegs]))

theorem State.push_puts (s : State) (l : Lat) (d : Dst) (x : Word) : s.Puts 1 (Dst.regs d) (s.push l d x) := by
  cases d with
  | s i | a i => exact ((s.puts_self _).write l (.inl (by simp [Dst.regs, Dst.reg])) (.word x)).pushQueue l x
  | queue => exact (s.puts_self _).pushQueue l x

end Puts

/-! ## The instructions that only compute -/

/-- In a state with the instance and the pool of s, instruction i puts its results in flight unless it faults. -/
def Computing (s : State) (i : Instr) : Prop :=
  ∃ body : State → State, exec i s = s.syl (Instr.info s i) body ∧
    ∀ u : State, u.cx.inst = s.cx.inst → u.pool = s.pool → (body u).evt = .done →
      u.Puts (Instr.info s i).pushes (Instr.info s i).dsts (body u)

section Computing
variable {s : State} {i : Instr}

/-- A context that runs an instance of a graph reads a level (R254). -/
theorem State.levelValue_puts {u : State} {x : Inst} {g : Graph} (hx : u.cx.inst = some x) (hg : u.pool.graph = some g) (d : Dst)
    (v : Inst → Graph → Nat) : u.Puts 1 (Dst.regs d) (u.levelValue d v) := by
  rw [State.levelValue, hx, hg]
  exact u.push_puts _ _ _

theorem computing_levelValue {d : Dst} {v : Inst → Graph → Nat} (hexec : exec i s = s.syl (Instr.info s i) fun u => u.levelValue d v)
    (hpush : (Instr.info s i).pushes = 1) (hdsts : (Instr.info s i).dsts = Dst.regs d) (hx : s.cx.inst ≠ none)
    (hg : s.pool.graph ≠ none) : Computing s i := by
  obtain ⟨x, hx⟩ := Option.ne_none_iff_exists'.1 hx
  obtain ⟨g, hg⟩ := Option.ne_none_iff_exists'.1 hg
  refine ⟨_, hexec, fun u hinst hpool _ => ?_⟩
  rw [hpush, hdsts]
  exact State.levelValue_puts (hinst.trans hx) ((congrArg _ hpool).trans hg) d v

theorem State.clamp_puts (s : State) (t : XTy) (d a b : Fin 16) (m : Fin 8) : s.Puts 0 [.v d] (s.clamp t d a b m) := by
  unfold State.clamp
  dsimp only
  split <;> exact s.putVec_puts _ _ _

theorem computing_of_scalarResult {r : Lat × Dst × Word} (h : scalarResult s i = some r) :
    Computing s i ∧ (Instr.info s i).pushes = 1 := by
  cases i
  case lvlIdx | lvlCnt =>
    have hsome : s.cx.inst ≠ none ∧ s.pool.graph ≠ none := by
      simp only [scalarResult] at h
      split at h
      case h_1 hx hg => simp [hx, hg]
      case h_2 => cases h
    exact ⟨computing_levelValue rfl rfl rfl hsome.1 hsome.2, rfl⟩
  all_goals cases h
  all_goals exact ⟨⟨_, rfl, fun u _ _ _ => u.push_puts _ _ _⟩, rfl⟩

theorem computing_of_quotient {r : Dst × Src × Word} (h : quotient s i = some r) :
    Computing s i ∧ (Instr.info s i).pushes = 1 := by
  cases i
  all_goals cases h
  all_goals
    refine ⟨⟨_, rfl, fun u _ _ hdone => ?_⟩, rfl⟩
    unfold State.divide at hdone ⊢
    split at hdone
    case isTrue => exact absurd hdone (State.silentTrap_evt_ne _ _ _)
    case isFalse hb =>
      rw [if_neg hb]
      exact u.push_puts _ _ _

theorem computing_of_pairResult {r : Fin 8 × Bool} (h : pairResult s i = some r) :
    Computing s i ∧ (Instr.info s i).pushes = 0 ∧ scalarResult s i = none ∧ quotient s i = none := by
  cases i
  all_goals cases h
  all_goals exact ⟨⟨_, rfl, fun u _ _ _ => u.writePair_puts _ _⟩, rfl, rfl, rfl⟩

theorem computing_of_maskResult {r : Fin 8 × Word} (h : maskResult s i = some r) :
    Computing s i ∧ (Instr.info s i).pushes = 0 ∧ scalarResult s i = none ∧ quotient s i = none := by
  cases i
  all_goals cases h
  all_goals exact ⟨⟨_, rfl, fun u _ _ _ => u.setMask_puts _ _⟩, rfl, rfl, rfl⟩

theorem computing_of_compareResult {r : Fin 4 × Word × FFlags} (h : compareResult s i = some r) :
    Computing s i ∧ (Instr.info s i).pushes = 0 ∧ scalarResult s i = none ∧ quotient s i = none := by
  cases i
  all_goals cases h
  case vcmpEq | vcmpLt | vcmpLtu => exact ⟨⟨_, rfl, fun u _ _ _ => u.writeMaskPair_puts _ _ _⟩, rfl, rfl, rfl⟩
  all_goals exact ⟨⟨_, rfl, fun u _ _ _ => (u.writeMaskPair_puts _ _ _).writeFlags _ _ _⟩, rfl, rfl, rfl⟩

theorem computing_of_vecResult {r : Lat × Fin 16 × VReg × FFlags} (h : vecResult s i = some r) :
    Computing s i ∧ (Instr.info s i).pushes = 0 ∧ scalarResult s i = none ∧ quotient s i = none := by
  cases i
  case vclamp => exact ⟨⟨_, rfl, fun u _ _ _ => u.clamp_puts _ _ _ _ _⟩, rfl, rfl, rfl⟩
  all_goals cases h
  all_goals exact ⟨⟨_, rfl, fun u _ _ _ => u.putVec_puts _ _ _⟩, rfl, rfl, rfl⟩

/-- An instruction that only computes puts its results in flight; it pushes when it has a scalar result (R193). -/
theorem computing_of_computes (h : computes s i = true) : Computing s i ∧
    (Instr.info s i).pushes = if (scalarResult s i).isSome || (quotient s i).isSome then 1 else 0 := by
  simp only [computes, Bool.or_eq_true, Option.isSome_iff_exists] at h
  obtain ((((⟨_, h⟩ | ⟨_, h⟩) | ⟨_, h⟩) | ⟨_, h⟩) | ⟨_, h⟩) | ⟨_, h⟩ := h
  · obtain ⟨hc, hp⟩ := computing_of_scalarResult h
    exact ⟨hc, by simp [hp, h]⟩
  · obtain ⟨hc, hp, hs, hq⟩ := computing_of_pairResult h
    exact ⟨hc, by simp [hp, hs, hq]⟩
  · obtain ⟨hc, hp⟩ := computing_of_quotient h
    exact ⟨hc, by simp [hp, h]⟩
  · obtain ⟨hc, hp, hs, hq⟩ := computing_of_vecResult h
    exact ⟨hc, by simp [hp, hs, hq]⟩
  · obtain ⟨hc, hp, hs, hq⟩ := computing_of_maskResult h
    exact ⟨hc, by simp [hp, hs, hq]⟩
  · obtain ⟨hc, hp, hs, hq⟩ := computing_of_compareResult h
    exact ⟨hc, by simp [hp, hs, hq]⟩

/-! ## A syllable that is done (R201, R207) -/

theorem State.markViol_readP (s : State) (xs : List Slotted) (k : Fin 16) : (s.markViol xs).readP k = s.readP k := by
  obtain ⟨w, h⟩ := s.markViol_eq xs
  rw [h]
  rfl

/-- A syllable that ends as done has passed its checks: its effect, or none when its guard reads 0. -/
theorem State.syl_done {t : State} {body : State → State} (h : s.syl (Instr.info s i) body = .next t) (hdone : t.evt = .done) :
    t = if s.readP (Instr.info s i).guard then body (s.begun i) else s.begun i := by
  cases hk : s.issue.checked with
  | true =>
    cases hg : s.readP (Instr.info s i).guard with
    | true =>
      rw [State.syl_of_issues ⟨hg, .inl hk⟩] at h
      injection h with h
      exact h.symm
    | false =>
      rw [State.syl_of_guard_off hg hk] at h
      injection h with h
      rw [← h, State.begun, if_pos hk]
      rfl
  | false =>
    rw [State.syl_unchecked hk] at h
    injection h with h
    have hbegun : s.begun i = s.idle.markViol [(s.issue.slot, Instr.info s i)] := by simp [State.begun, hk]
    subst h
    cases hv : s.idle.checks [(s.issue.slot, Instr.info s i)] with
    | go =>
      rw [hbegun]
      dsimp only
      rw [State.markViol_readP]
      rfl
    | fault x => rw [hv] at hdone; cases (s.idle.trap_evt x).symm.trans hdone
    | block => rw [hv] at hdone; cases (s.idle.blockOn_evt _).symm.trans hdone
    | wake => rw [hv] at hdone; cases (State.blockOn_evt _ _).symm.trans hdone
    | walk va wr => rw [hv] at hdone; cases hdone

end Computing

/-! ## The statement -/

/-- Settles O7: a syllable that is done has begun, and one that only computes then puts its results in flight. -/
theorem computeFrame : Obligations.ComputeFrame := by
  unfold Obligations.ComputeFrame
  intro i s t hcomp hexec hdone n
  obtain ⟨⟨body, hbody, hputs⟩, hpushes⟩ := computing_of_computes hcomp
  have ht := State.syl_done (hbody.symm.trans hexec) hdone
  have hflight : (s.begun i).Puts n (Instr.info s i).dsts t := by
    simp only [n]
    cases hg : s.readP (Instr.info s i).guard with
    | true =>
      rw [hg, if_pos rfl] at ht
      rw [ht] at hdone ⊢
      exact hputs _ (s.begun_inst_c i) (s.begun_pool i) hdone
    | false =>
      rw [hg] at ht
      rw [ht]
      exact State.puts_self _ _
  obtain ⟨fs, hfs, hregs⟩ := hflight
  have hqueue : (s.begun i).pushRegs n = s.pushRegs n := by simp [State.pushRegs]
  refine ⟨hpushes, fs, ?_, fun f hf => hqueue ▸ hregs f hf⟩
  obtain ⟨w, hw⟩ := s.begun_eq i
  rw [hfs, hw]
  rfl

end Sys2Proof.Machine
end

section
/-! PROOFS. The checks before issue (R193 to R195, R197, R198, R201, R207, R216): what each of them finds for one syllable, in their
order, and what the syllable then does. -/

namespace Sys2Proof.Machine

/-! ## What the verdict on a syllable makes it do (R207) -/

section Verdict
variable {i : Instr} {s : State} (hm : i.cls ≠ .micro) (he : i.cls ≠ .event)
include hm he

theorem exec_of_guard_off (hk : s.issue.checked = true) (hg : s.readP (Instr.info s i).guard = false) : exec i s = .next s.idle := by
  obtain ⟨body, hbody⟩ := exec_eq_syl i hm he
  exact (hbody s).trans (State.syl_of_guard_off hg hk body)

variable (hk : s.issue.checked = false)
include hk

theorem exec_of_fault {t : Trap} {k : Fin 8} (hv : s.idle.checks [(s.issue.slot, Instr.info s i)] = .fault t k) :
    exec i s = .next (s.idle.trap t) := by
  obtain ⟨body, hbody⟩ := exec_eq_syl i hm he
  rw [hbody, State.syl_unchecked hk, hv]

theorem exec_of_block (hv : s.idle.checks [(s.issue.slot, Instr.info s i)] = .block) : exec i s = .next s.idle.blockBundle := by
  obtain ⟨body, hbody⟩ := exec_eq_syl i hm he
  rw [hbody, State.syl_unchecked hk, hv]

theorem exec_of_wake (hv : s.idle.checks [(s.issue.slot, Instr.info s i)] = .wake) : exec i s = .next s.idle.wakeBank := by
  obtain ⟨body, hbody⟩ := exec_eq_syl i hm he
  rw [hbody, State.syl_unchecked hk, hv]

theorem exec_of_walk {va : Word} {wr : Bool} (hv : s.idle.checks [(s.issue.slot, Instr.info s i)] = .walk va wr) :
    exec i s = .next (s.idle.parkSpill va wr) := by
  obtain ⟨body, hbody⟩ := exec_eq_syl i hm he
  rw [hbody, State.syl_unchecked hk, hv]

theorem exec_of_go_guard_off (hv : s.idle.checks [(s.issue.slot, Instr.info s i)] = .go)
    (hg : s.readP (Instr.info s i).guard = false) : exec i s = .next (s.begun i) := by
  obtain ⟨body, hbody⟩ := exec_eq_syl i hm he
  have hbegun : s.begun i = s.idle.markViol [(s.issue.slot, Instr.info s i)] := by simp [State.begun, hk]
  have hoff : (s.begun i).readP (Instr.info s i).guard = false := (s.begun_readP i _).trans hg
  rw [hbody, State.syl_unchecked hk, hv]
  dsimp only
  rw [← hbegun, hoff]
  rfl

end Verdict

/-- A verdict other than `go` stands whatever comes after it. -/
theorem Verdict.or_of_ne {v : Verdict} (h : v ≠ .go) (w : Verdict) : v.or w = v := by
  cases v with
  | go => exact absurd rfl h
  | block | wake | walk | fault => rfl

/-! ## Step 2: illegal, absent and privileged (R207) -/

section One
variable {s : State} {k : Fin 8} {f : Info}

theorem State.checks_one (s : State) (k : Fin 8) (f : Info) :
    s.checks [(k, f)] = (s.checkStatic (k, f)).or ((s.checkStacks [(k, f)]).or (s.checkSources [(k, f)])) := by
  rw [State.checks, firstVerdict, firstVerdict]
  cases s.checkStatic (k, f) <;> rfl

theorem State.checks_of_cause {c : Nat} (hc : f.cause = some c) : s.checks [(k, f)] = s.slotTrap k 0x01 0 c := by
  rw [s.checks_one, State.checkStatic, hc]
  rfl

theorem State.checks_of_absent (hc : f.cause = none) (ha : s.absent f.engine = true) : s.checks [(k, f)] = s.slotTrap k 0x03 0 0 := by
  simp only [s.checks_one, State.checkStatic, hc, ha, if_true]
  rfl

theorem State.checks_of_priv (hc : f.cause = none) (ha : s.absent f.engine = false) (hp : f.priv = true) (hs : s.system = false) :
    s.checks [(k, f)] = s.slotTrap k 0x02 0 0 := by
  simp only [s.checks_one, State.checkStatic, hc, ha, hp, hs, Bool.false_eq_true, if_false, Bool.not_false, Bool.and_self, if_true]
  rfl

/-- A syllable that passes step 2. -/
theorem State.checks_of_static (hc : f.cause = none) (ha : s.absent f.engine = false) (hp : f.priv = true → s.system = true) :
    s.checks [(k, f)] = (s.checkStacks [(k, f)]).or (s.checkSources [(k, f)]) := by
  have hpriv : (f.priv && !s.system) = false := by
    cases h : f.priv with
    | true => simp [hp h]
    | false => rfl
  simp only [s.checks_one, State.checkStatic, hc, ha, hpriv, Bool.false_eq_true, if_false]
  rfl

/-! ## Step 3: the stacks (R216) -/

/-- A syllable with no stack operation, or with its guard off, passes step 3. -/
theorem State.checkStacks_of_none (h : f.stack = .none ∨ s.readP f.guard = false) : s.checkStacks [(k, f)] = .go := by
  simp only [State.checkStacks, State.checkStack]
  obtain h | h := h
  · simp [h]
  · simp [h]

/-- The stack operation of a syllable. -/
def stackOpOf (mask push : Bool) : StackOp :=
  match mask, push with
  | false, true => .pushR
  | false, false => .popR
  | true, true => .pushM
  | true, false => .popM

/-- A syllable with a stack operation makes it at the depth of its stack. -/
theorem State.checkStacks_of_error {mask push : Bool} {v : Verdict} (hg : s.readP f.guard = true) (hst : f.stack = stackOpOf mask push)
    (hv : s.stackMove s.issue.slot mask push (s.depth mask) = .error v) : s.checkStacks [(s.issue.slot, f)] = v := by
  simp only [State.checkStacks, State.checkStack, hg, Bool.not_true, Bool.false_eq_true, if_false, hst]
  cases mask <;> cases push <;> simp only [stackOpOf] <;> rw [hv]

/-- A stack operation that must spill or fill: a push onto a full stack, a pop of an empty one. -/
def Depth.past (d : Depth) (mask push : Bool) : Prop := if push then (if mask then 8 else 16) ≤ d.chip else d.chip = 0

/-- The spill entry it writes or reads. -/
def Depth.entry (d : Depth) (push : Bool) : Nat := if push then d.spill else d.spill - 1

theorem Depth.move_of_past {d : Depth} {mask push : Bool} (h : d.past mask push) :
    (push = true → d.spill = 255 → d.move mask push = .error 0x52) ∧ (push = false → d.spill = 0 → d.move mask push = .error 0x53) ∧
    ((if push then d.spill ≠ 255 else d.spill ≠ 0) → ∃ d', d.move mask push = .ok (d', some (d.entry push))) := by
  cases push with
  | true =>
    have hfull : ¬ d.chip < if mask then mstackSize else rstackSize := Nat.not_lt.2 h
    refine ⟨fun _ hs => ?_, nofun, fun hs => ⟨⟨d.chip, d.spill + 1⟩, ?_⟩⟩
    · simp [Depth.move, hfull, hs]
    · simp only [Depth.move, hfull, if_true, if_false, if_neg (show ¬ d.spill = 255 from hs)]
      rfl
  | false =>
    have hempty : ¬ 0 < d.chip := Nat.not_lt.2 (Nat.le_of_eq h)
    refine ⟨nofun, fun _ hs => ?_, fun hs => ⟨⟨0, d.spill - 1⟩, ?_⟩⟩
    · simp [Depth.move, hempty, hs]
    · simp only [Depth.move, hempty, if_false, Bool.false_eq_true, if_neg (show ¬ d.spill = 0 from hs)]
      rfl

theorem State.stackMove_of_error {mask push : Bool} {d : Depth} {c : Nat} (h : d.move mask push = .error c) :
    s.stackMove k mask push d = .error (.fault (s.stackTrap s.cx.regs.pc c) k) := by
  rw [State.stackMove, h]

theorem State.stackMove_of_spill {mask push : Bool} {d d' : Depth} {n : Nat} {x : XErr} (h : d.move mask push = .ok (d', some n))
    (hp : s.spillPlace mask n (if push then .write else .read) = .error x) :
    s.stackMove k mask push d = .error (match x with
      | .fault t => .fault t k
      | .miss va => .walk va push) := by
  simp only [State.stackMove, h, hp]
  cases x <;> rfl

/-! ## Step 4: the sources (R193 to R195, R197) -/

/-- A long-latency result for the register is still to come. -/
def State.Coming (s : State) (r : Reg) : Prop := ∃ x ∈ s.cx.inflight, x.reg = r ∧ x.land = none

theorem State.empty_iff {r : Reg} : s.cx.empty r = true ↔ s.Coming r := by
  simp [Ctx.empty, State.Coming, and_comm]

/-- A fixed-latency write of the register is still to land. -/
def State.Late (s : State) (r : Reg) : Prop :=
  ∃ x ∈ s.cx.inflight, ∃ c, x.land = some c ∧ s.issue.cycle < c ∧ (x.reg = r ∨ (r = .sys .fpmode ∧ x.reg = .flags))

theorem Ctx.stale_iff {x : Ctx} {r : Reg} {c : Nat} :
    x.stale r c = true ↔ ∃ f ∈ x.inflight, ∃ d, f.land = some d ∧ c < d ∧ f.reg = r := by
  simp only [Ctx.stale, List.any_eq_true, Bool.and_eq_true, beq_iff_eq]
  refine exists_congr fun f => and_congr_right fun _ => ?_
  cases f.land with
  | none => simp
  | some d => simp [and_comm]

theorem State.isStale_iff {r : Reg} : s.isStale r = true ↔ r.isConst = false ∧ s.Late r := by
  simp only [State.isStale, Bool.and_eq_true, Bool.not_eq_true', Bool.or_eq_true, beq_iff_eq, Ctx.stale_iff, State.Late]
  refine and_congr_right fun _ => ⟨?_, ?_⟩
  · rintro (⟨f, hf, d, hl, hc, hr⟩ | ⟨hr, f, hf, d, hl, hc, hfl⟩)
    · exact ⟨f, hf, d, hl, hc, .inl hr⟩
    · exact ⟨f, hf, d, hl, hc, .inr ⟨hr, hfl⟩⟩
  · rintro ⟨f, hf, d, hl, hc, hr | ⟨hr, hfl⟩⟩
    · exact .inl ⟨f, hf, d, hl, hc, hr⟩
    · exact .inr ⟨hr, f, hf, d, hl, hc, hfl⟩

/-- The vector register is marked invalid. -/
def State.Invalid (s : State) (r : Reg) : Prop := ∃ v, r = .v v ∧ s.cx.regs.vinvalid.getLsbD v.val = true

theorem State.vinvalid_iff {r : Reg} : s.vinvalid r = true ↔ s.Invalid r := by
  cases r <;> simp [State.vinvalid, State.Invalid]

/-- A fault for sources of a kind is one for some such source, and there is none without. -/
theorem State.checkUse_of_exists {code : BitVec 8} {bad : Use → Bool} (h : ∃ u ∈ s.reads (k, f), bad u = true) :
    ∃ u ∈ s.reads (k, f), bad u = true ∧ firstVerdict (s.checkUse code bad) [(k, f)] = s.slotTrap k code u.code 0 := by
  obtain ⟨u, hu⟩ := Option.isSome_iff_exists.1 (List.find?_isSome.2 h)
  refine ⟨u, List.mem_of_find?_eq_some hu, List.find?_some hu, ?_⟩
  simp only [firstVerdict, State.checkUse, hu]
  rfl

theorem State.checkUse_of_forall {code : BitVec 8} {bad : Use → Bool} (h : ∀ u ∈ s.reads (k, f), ¬ bad u = true) :
    firstVerdict (s.checkUse code bad) [(k, f)] = .go := by
  simp only [firstVerdict, State.checkUse, List.find?_eq_none.2 h]
  rfl

/-- The registers that a syllable whose guard reads 1 writes, the entries of its pushes among them. -/
def State.writes (s : State) (f : Info) : List Reg := if s.readP f.guard then f.dsts ++ s.pushRegs f.pushes else []

/-- A syllable whose guard reads 1 names a vector register. -/
def State.Names (s : State) (k : Fin 8) (f : Info) : Prop :=
  s.readP f.guard = true ∧ ((∃ u ∈ s.reads (k, f), u.reg.isVector = true) ∨ ∃ r ∈ f.dsts, r.isVector = true)

/-- Step 4 for one syllable, before the sources are looked at for faults other than 0x04. -/
theorem State.checkSources_one : s.checkSources [(k, f)] =
    (firstVerdict (s.checkUse 0x04 fun u => u.trap && s.cx.empty u.reg) [(k, f)]).or
      ((if (s.reads (k, f)).any (fun u => s.cx.empty u.reg) || (s.writes f).any s.cx.empty then .block
        else if s.cx.retained && s.namesBank ([(k, f)].filter fun x => s.readP x.2.guard) then .wake else .go : Verdict).or
      ((firstVerdict (s.checkUse 0x05 fun u => s.vinvalid u.reg) [(k, f)]).or
        (if flag s.cx.regs.issuectl 0 then firstVerdict (s.checkUse 0x0D fun u => s.isStale u.reg) [(k, f)] else .go))) := by
  have hwrites : ([(k, f)].filter fun x => s.readP x.2.guard).flatMap (fun x => x.2.dsts) ++
      s.pushRegs ((([(k, f)].filter fun x => s.readP x.2.guard).map fun x => x.2.pushes).sum) = s.writes f := by
    cases hg : s.readP f.guard <;> simp [State.writes, State.pushRegs, hg]
  simp only [State.checkSources, hwrites, List.any_cons, List.any_nil, Bool.or_false]

theorem State.namesBank_iff : s.namesBank ([(k, f)].filter fun x => s.readP x.2.guard) = true ↔ s.Names k f := by
  cases hg : s.readP f.guard <;> simp [State.namesBank, State.Names, hg]

theorem State.checkSources_of_trap (h : ∃ u ∈ s.reads (k, f), u.trap = true ∧ s.Coming u.reg) :
    ∃ u ∈ s.reads (k, f), (u.trap = true ∧ s.Coming u.reg) ∧ s.checkSources [(k, f)] = s.slotTrap k 0x04 u.code 0 := by
  obtain ⟨u, hu, hbad, hv⟩ := s.checkUse_of_exists (code := 0x04) (bad := fun u => u.trap && s.cx.empty u.reg)
    (by simpa only [Bool.and_eq_true, State.empty_iff] using h)
  rw [Bool.and_eq_true, State.empty_iff] at hbad
  refine ⟨u, hu, hbad, ?_⟩
  rw [State.checkSources_one, hv]
  rfl

theorem State.checkSources_of_coming (htrap : ∀ u ∈ s.reads (k, f), u.trap = true → ¬ s.Coming u.reg)
    (h : (∃ u ∈ s.reads (k, f), s.Coming u.reg) ∨ ∃ r ∈ s.writes f, s.Coming r) : s.checkSources [(k, f)] = .block := by
  have hwaits : ((s.reads (k, f)).any (fun u => s.cx.empty u.reg) || (s.writes f).any s.cx.empty) = true := by
    simpa only [Bool.or_eq_true, List.any_eq_true, State.empty_iff] using h
  rw [State.checkSources_one, State.checkUse_of_forall (by simpa only [Bool.and_eq_true, State.empty_iff, not_and] using htrap),
    if_pos hwaits]
  rfl

theorem State.not_wakes (hawake : s.cx.retained = false ∨ ¬ s.Names k f) :
    ¬ (s.cx.retained && s.namesBank ([(k, f)].filter fun x => s.readP x.2.guard)) = true := by
  rw [Bool.and_eq_true, State.namesBank_iff]
  rintro ⟨hret, hn⟩
  obtain h | h := hawake
  · rw [h] at hret
    cases hret
  · exact h hn

section Ready
variable (hreads : ∀ u ∈ s.reads (k, f), ¬ s.Coming u.reg) (hwrites : ∀ r ∈ s.writes f, ¬ s.Coming r)
include hreads hwrites

/-- With nothing still to come, what is left of step 4. -/
theorem State.checkSources_of_ready : s.checkSources [(k, f)] =
    (if s.cx.retained && s.namesBank ([(k, f)].filter fun x => s.readP x.2.guard) then .wake else .go : Verdict).or
      ((firstVerdict (s.checkUse 0x05 fun u => s.vinvalid u.reg) [(k, f)]).or
        (if flag s.cx.regs.issuectl 0 then firstVerdict (s.checkUse 0x0D fun u => s.isStale u.reg) [(k, f)] else .go)) := by
  have hwaits : ¬ ((s.reads (k, f)).any (fun u => s.cx.empty u.reg) || (s.writes f).any s.cx.empty) = true := by
    simp only [Bool.or_eq_true, List.any_eq_true, State.empty_iff]
    rintro (⟨u, hu, hc⟩ | ⟨r, hr, hc⟩)
    · exact hreads u hu hc
    · exact hwrites r hr hc
  have htrap : ∀ u ∈ s.reads (k, f), ¬ (u.trap && s.cx.empty u.reg) = true := fun u hu h =>
    hreads u hu (State.empty_iff.1 (Bool.and_eq_true_iff.1 h).2)
  rw [State.checkSources_one, State.checkUse_of_forall htrap, if_neg hwaits]
  rfl

theorem State.checkSources_of_wake (hret : s.cx.retained = true) (hn : s.Names k f) : s.checkSources [(k, f)] = .wake := by
  rw [State.checkSources_of_ready hreads hwrites, hret, State.namesBank_iff.2 hn]
  rfl

variable (hawake : s.cx.retained = false ∨ ¬ s.Names k f)
include hawake

theorem State.checkSources_of_invalid (h : ∃ u ∈ s.reads (k, f), s.Invalid u.reg) :
    ∃ u ∈ s.reads (k, f), s.Invalid u.reg ∧ s.checkSources [(k, f)] = s.slotTrap k 0x05 u.code 0 := by
  obtain ⟨u, hu, hbad, hv⟩ := s.checkUse_of_exists (code := 0x05) (bad := fun u => s.vinvalid u.reg)
    (by simpa only [State.vinvalid_iff] using h)
  refine ⟨u, hu, State.vinvalid_iff.1 hbad, ?_⟩
  rw [State.checkSources_of_ready hreads hwrites, if_neg (State.not_wakes hawake), hv]
  rfl

theorem State.checkSources_of_late (hvalid : ∀ u ∈ s.reads (k, f), ¬ s.Invalid u.reg) (hstrict : flag s.cx.regs.issuectl 0 = true)
    (h : ∃ u ∈ s.reads (k, f), u.reg.isConst = false ∧ s.Late u.reg) :
    ∃ u ∈ s.reads (k, f), (u.reg.isConst = false ∧ s.Late u.reg) ∧ s.checkSources [(k, f)] = s.slotTrap k 0x0D u.code 0 := by
  obtain ⟨u, hu, hbad, hv⟩ := s.checkUse_of_exists (code := 0x0D) (bad := fun u => s.isStale u.reg)
    (by simpa only [State.isStale_iff] using h)
  refine ⟨u, hu, State.isStale_iff.1 hbad, ?_⟩
  rw [State.checkSources_of_ready hreads hwrites, if_neg (State.not_wakes hawake), if_pos hstrict,
    State.checkUse_of_forall (fun u hu h => hvalid u hu (State.vinvalid_iff.1 h)), hv]
  rfl

end Ready

end One

/-! ## The statement -/

/-- Settles O24: the verdict of the checks for one syllable, step by step, and what it makes the syllable do. -/
theorem checksBeforeIssue : Obligations.ChecksBeforeIssue := by
  unfold Obligations.ChecksBeforeIssue
  refine ⟨?static, ?sources, ?depth⟩
  case static =>
    intro i s hm he f tr
    refine ⟨fun hk hg => exec_of_guard_off hm he hk hg, fun hk => ⟨fun c hc => ?_, fun hc ha => ?_, fun hc ha hp hs => ?_,
      fun hv hg => exec_of_go_guard_off hm he hk hv hg, fun t k hv => exec_of_fault hm he hk hv⟩⟩
    · exact exec_of_fault hm he hk (State.checks_of_cause hc)
    · exact exec_of_fault hm he hk (State.checks_of_absent hc ha)
    · exact exec_of_fault hm he hk (State.checks_of_priv hc ha hp hs)
  case sources =>
    intro i s hm he f on reads writes coming invalid late names faults hk hc ha hp hst
    have hv : s.idle.checks [(s.issue.slot, f)] = s.idle.checkSources [(s.issue.slot, f)] := by
      rw [State.checks_of_static (s := s.idle) hc ha hp, State.checkStacks_of_none (s := s.idle) hst]
      rfl
    refine ⟨fun h => ?trap, fun htrap h => ?block, fun hreads hwrites => ⟨fun hret hn => ?wake, fun hawake => ⟨fun h => ?invalid, ?late⟩⟩⟩
    case trap =>
      obtain ⟨u, hu, hbad, hf⟩ := State.checkSources_of_trap (s := s.idle) (k := s.issue.slot) (f := f) h
      exact ⟨u, hu, hbad, exec_of_fault hm he hk (hv.trans hf)⟩
    case block => exact exec_of_block hm he hk (hv.trans (State.checkSources_of_coming (s := s.idle) htrap h))
    case wake => exact exec_of_wake hm he hk (hv.trans (State.checkSources_of_wake (s := s.idle) hreads hwrites hret hn))
    case invalid =>
      obtain ⟨u, hu, hbad, hf⟩ := State.checkSources_of_invalid (s := s.idle) hreads hwrites hawake h
      exact ⟨u, hu, hbad, exec_of_fault hm he hk (hv.trans hf)⟩
    case late =>
      intro hvalid hstrict h
      obtain ⟨u, hu, hbad, hf⟩ := State.checkSources_of_late (s := s.idle) hreads hwrites hawake hvalid hstrict h
      exact ⟨u, hu, hbad, exec_of_fault hm he hk (hv.trans hf)⟩
  case depth =>
    intro i s mask push hm he f chip spilled entry trap hk hc ha hp hg hst hpast
    have hv {v : Verdict} (h : s.idle.stackMove s.issue.slot mask push (s.idle.depth mask) = .error v) (hgo : v ≠ .go) :
        s.idle.checks [(s.issue.slot, f)] = v := by
      rw [State.checks_of_static (s := s.idle) hc ha hp]
      exact (congrArg (Verdict.or · _) (State.checkStacks_of_error (s := s.idle) hg hst h)).trans (Verdict.or_of_ne hgo _)
    obtain ⟨hfull, hempty, hspill⟩ := Depth.move_of_past (d := s.idle.depth mask) (mask := mask) (push := push) hpast
    refine ⟨fun hpu hs => ?_, fun hpu hs => ?_, fun hs => ?_⟩
    · exact exec_of_fault hm he hk (hv (State.stackMove_of_error (hfull hpu hs)) nofun)
    · exact exec_of_fault hm he hk (hv (State.stackMove_of_error (hempty hpu hs)) nofun)
    · obtain ⟨d', hd⟩ := hspill hs
      refine ⟨fun t ht => ?_, fun va hva => ?_⟩
      · exact exec_of_fault hm he hk (hv (State.stackMove_of_spill hd ht) nofun)
      · exact exec_of_walk hm he hk (hv (State.stackMove_of_spill hd hva) nofun)

end Sys2Proof.Machine
end

section
/-! PROOFS. The queries and controls of the fabric (R352, R353, R354, R367, R379): one equation for each instruction that issues. -/

namespace Sys2Proof.Machine

/-- The fault of operands out of range, or of a reserve line without room, at a syllable that issues. -/
def State.refused (s : State) (i : Instr) (cause : Nat) : State :=
  (s.begun i).trap ⟨0x01, s.cx.regs.pc, bundleInfo 0 s.issue.slot.val false cause⟩

section Issued
variable {s : State} {g : Fin 16} {d : Dst} {a x : Src} {e f : Bool}

/-! ## Noise registers (R352) -/

theorem exec_noiseRd {n : Fin 4} (hi : Issues (.noiseRd g d n) s) :
    exec (.noiseRd g d n) s = .next ((s.begun (.noiseRd g d n)).push .s1 d s.cx.regs.noise[n]) :=
  (State.syl_of_issues hi _).trans (by rw [State.begun_noise_r])

theorem exec_noiseClr (hi : Issues (.noiseClr g) s) :
    exec (.noiseClr g) s = .next ((s.begun (.noiseClr g)).modRegs fun r => { r with noise := Vector.replicate 4 0 }) :=
  State.syl_of_issues hi _

/-! ## Queries (R353, R379) -/

/-- The shift of peer p and the relay of its detour, as `fpeer` returns them. -/
def State.peerWord (s : State) (p : Nat) : Word :=
  fieldsWord ([(63, 1, (flag s.fab.podmask p).toNat), (0, 6, (p + 64 - s.device) % 64)] ++
    match s.fab.detourOf ((p + 64 - s.device) % 64) with
    | some r => [(62, 1, 1), (8, 6, r)]
    | none => [])

theorem exec_fpeer (hi : Issues (.fpeer g d a e) s) : exec (.fpeer g d a e) s = .next
    (if 64 ≤ (s.readSrc a).toNat then s.refused (.fpeer g d a e) 0x2C
     else (s.begun (.fpeer g d a e)).push .s3 d (s.peerWord (s.readSrc a).toNat)) := by
  refine (State.syl_of_issues hi _).trans ?_
  simp only [State.begun_readSrc, State.begun_illegalNow, State.begun_fab, State.device, State.begun_mgmt]
  rfl

theorem exec_fslot (hi : Issues (.fslot g d a e) s) : exec (.fslot g d a e) s = .next
    (let w := s.readSrc a
     let r := (s.begun (.fslot g d a e)).shownEntry (field w 0 5) (field w 8 8) (field w 5 3)
     if 2 ^ 16 ≤ w.toNat ∨ s.fab.plen ≤ field w 8 8 then s.refused (.fslot g d a e) 0x2C
     else r.2.push .s3 d (fieldsWord [(0, 16, r.1), (16, 8, r.2.fab.plen)])) := by
  refine (State.syl_of_issues hi _).trans ?_
  simp only [State.begun_readSrc, State.begun_illegalNow, State.begun_fab, Bool.or_eq_true, decide_eq_true_eq]
  rfl

theorem State.shownEntry_shown {k t l : Nat} (h : s.fab.profile ≠ 1 ∨ s.fab.entry k t l ≠ slotEntry 3 0) :
    s.shownEntry k t l = ((s.fab.entry k t l).toNat, s) :=
  if_neg (not_and_or.2 h)

theorem State.shownEntry_spare {k t l : Nat} (hp : s.fab.profile = 1) (hspare : s.fab.entry k t l = slotEntry 3 0) :
    ∃ z : Nat, z < 64 ∧ s.shownEntry k t l = (0xC000 + z * 256, { s with freeCount := s.freeCount + 1 }) :=
  ⟨_, Nat.mod_lt _ (by decide), if_pos ⟨hp, hspare⟩⟩

theorem exec_fbays (hi : Issues (.fbays g d a e) s) : exec (.fbays g d a e) s = .next
    (let w := s.readSrc a
     if w &&& 0xFFFFFFFFFFFFC0E0 ≠ 0 then s.refused (.fbays g d a e) 0x2C
     else (s.begun (.fbays g d a e)).push .s3 d
       (((s.fab.link (field w 0 5) (Fin.ofNat 64 (field w 8 6))).map Link.allowance).getD 64 |>.setWidth 64)) := by
  refine (State.syl_of_issues hi _).trans ?_
  simp only [State.begun_readSrc, State.begun_illegalNow, State.begun_fab, bne_iff_ne]
  cases s.fab.link (field (s.readSrc a) 0 5) (Fin.ofNat 64 (field (s.readSrc a) 8 6)) <;> rfl

/-! ## Controls (R354, R366, R367, R371) -/

theorem exec_fevt (hi : Issues (.fevt g d) s) : exec (.fevt g d) s = .next
    (({ s.begun (.fevt g d) with fab := { s.fab with log := s.fab.log.drop 1 } } : State).push .long d (s.fab.log.headD 0)) := by
  refine (State.syl_of_issues hi _).trans ?_
  simp only [State.begun_fab]

theorem exec_fretune (hi : Issues (.fretune g a e) s) : exec (.fretune g a e) s = .next
    (let w := s.readSrc a
     if w &&& 0xFFFFFFFFFFFFFEFC ≠ 0 ∨ 2 ≤ field w 0 2 then s.refused (.fretune g a e) 0x2C
     else { s.begun (.fretune g a e) with
       fab := { s.fab with windowPend := s.fab.windowPend ++ [(field w 0 2, w.getLsbD 8)] } }) := by
  refine (State.syl_of_issues hi _).trans ?_
  simp only [State.begun_readSrc, State.begun_illegalNow, State.begun_fab, Bool.or_eq_true, bne_iff_ne, decide_eq_true_eq]
  rfl

theorem exec_frepair (hi : Issues (.frepair g a x e f) s) : exec (.frepair g a x e f) s = .next
    (let w := s.readSrc a
     let y := s.readSrc x
     let ent : BitVec 16 := BitVec.ofNat 16 (field y 0 16)
     let u := (s.begun (.frepair g a x e f)).installEntry (field w 0 5) (field w 8 8) (field w 5 3) ent (s.fab.installAt (field y 32 32))
     if 2 ^ 16 ≤ w.toNat ∨ field y 16 16 ≠ 0 ∨ s.fab.plen ≤ field w 8 8 then s.refused (.frepair g a x e f) 0x2C
     else u.modLink (field w 0 5) (Fin.ofNat 64 (u.shiftPeer (entryShift ent))) fun l => { l with failed := false }) := by
  refine (State.syl_of_issues hi _).trans ?_
  simp only [State.begun_readSrc, State.begun_illegalNow, State.begun_fab, Bool.or_eq_true, bne_iff_ne, decide_eq_true_eq, or_assoc]
  rfl

/-- The lane that a control word of `fgrant` names, with its line. -/
def grantKey (w : Word) : Nat × Nat × Nat := (field w 0 7, field w 7 5, field w 12 3)

/-- A control word grants a reserve line that has no room for the lane. -/
abbrev State.NoRoom (s : State) (w : Word) : Prop :=
  w.getLsbD 15 = true ∧ 64 ≤ field w 0 7 ∧ s.fab.granted.contains (grantKey w) = false ∧ s.fab.reserveRoom (field w 0 7) = false

theorem exec_fgrant (hi : Issues (.fgrant g a e) s) : exec (.fgrant g a e) s = .next
    (let w := s.readSrc a
     if s.NoRoom w then s.refused (.fgrant g a e) 0x2B
     else if 2 ^ 16 ≤ w.toNat then s.refused (.fgrant g a e) 0x2C
     else (s.begun (.fgrant g a e)).grant (field w 0 7) (field w 7 5) (field w 12 3) (w.getLsbD 15)) := by
  refine (State.syl_of_issues hi _).trans ?_
  simp only [State.begun_readSrc, State.begun_illegalNow, State.begun_fab, Bool.and_eq_true, Bool.not_eq_true', decide_eq_true_eq,
    and_assoc]
  rfl

theorem State.not_noRoom {w : Word} (h : w.getLsbD 15 = true → 64 ≤ field w 0 7 →
    s.fab.granted.contains (grantKey w) = true ∨ s.fab.reserveRoom (field w 0 7) = true) : ¬ s.NoRoom w :=
  fun ⟨hon, hline, hnew, hfull⟩ => (h hon hline).elim (fun hin => Bool.false_ne_true (hnew.symm.trans hin))
    fun hfree => Bool.false_ne_true (hfull.symm.trans hfree)

theorem exec_fgrant_of_room (hi : Issues (.fgrant g a e) s) (hroom : ¬ s.NoRoom (s.readSrc a)) (hw : (s.readSrc a).toNat < 2 ^ 16) :
    exec (.fgrant g a e) s = .next ((s.begun (.fgrant g a e)).grant (field (s.readSrc a) 0 7) (field (s.readSrc a) 7 5)
      (field (s.readSrc a) 12 3) ((s.readSrc a).getLsbD 15)) :=
  (exec_fgrant hi).trans (congrArg _ ((if_neg hroom).trans (if_neg (Nat.not_le.2 hw))))

end Issued

/-! ## What a grant leaves (R366, R367) -/

section Grant
variable {s : State} {line plane lane : Nat}

@[simp] theorem State.grant_mem (s : State) (line plane lane : Nat) (on : Bool) : (s.grant line plane lane on).mem = s.mem := by
  unfold State.grant
  dsimp only
  split <;> rfl

theorem State.grant_withheld (hline : line < 64) (on : Bool) : (s.grant line plane lane on).fab =
    { s.fab with withheld := if on then s.fab.withheld.filter (· != (line, plane, lane))
                             else (line, plane, lane) :: s.fab.withheld.filter (· != (line, plane, lane)) } := by
  rw [State.grant, if_pos hline]

theorem State.grant_granted (hline : 64 ≤ line) (on : Bool) : (s.grant line plane lane on).fab =
    { s.fab with granted := if on then (line, plane, lane) :: s.fab.granted.filter (· != (line, plane, lane))
                            else s.fab.granted.filter (· != (line, plane, lane)) } := by
  rw [State.grant, if_neg (by omega)]

end Grant

/-! ## The statement -/

/-- Settles O45: each query and control by its equation. -/
theorem fabricQueries : Obligations.FabricQueries := by
  unfold Obligations.FabricQueries
  intro s g d a x e f n l w y ill
  have hnot {k : Nat × Nat × Nat} {l : List (Nat × Nat × Nat)} : k ∉ l.filter (· != k) := by simp
  refine ⟨exec_noiseRd, exec_noiseClr, fun hi hw hd => ?peer, fun hi hw k hd => ?detour, fun hi hw => ?noPeer,
    fun hi hw hp hs => ?slot, fun hi hbad => ?noSlot, fun hi hw hp hprof hspare => ?spare, fun hi hw => ?noBays,
    fun hi hw hl => ?noLink, fun hi hw hl => ?bays, fun hi => ?evt, fun hi hw hf => ?retune, fun hi hbad => ?noRetune,
    fun hi hbad => ?noRepair, fun hi hw hy hp => ?repair, fun hi hw hroom => ?noGrant, fun hi hw hoff => ?revoke,
    fun hi hw hon hline => ?restore, fun hi hw hon hline hroom => ?grant, fun hi hon hline hnew hroom => ?noRoom⟩
  case peer =>
    rw [exec_fpeer hi, if_neg (Nat.not_le.2 hw), State.peerWord, hd]
    rfl
  case detour =>
    rw [exec_fpeer hi, if_neg (Nat.not_le.2 hw), State.peerWord, hd]
    rfl
  case noPeer => rw [exec_fpeer hi, if_pos hw]; rfl
  case slot =>
    have hshown := State.shownEntry_shown (s := s.begun (.fslot g d a e)) (k := field w 0 5) (t := field w 8 8) (l := field w 5 3)
      (by simpa only [State.begun_fab] using hs)
    rw [exec_fslot hi]
    dsimp only
    rw [if_neg (not_or.2 ⟨Nat.not_le.2 hw, Nat.not_le.2 hp⟩), hshown, State.begun_fab]
  case noSlot => rw [exec_fslot hi]; exact congrArg _ (if_pos hbad)
  case spare =>
    obtain ⟨z, hz, hshown⟩ := State.shownEntry_spare (s := s.begun (.fslot g d a e)) (k := field w 0 5) (t := field w 8 8)
      (l := field w 5 3) (by rwa [State.begun_fab]) (by rwa [State.begun_fab])
    refine ⟨z, hz, ?_⟩
    rw [exec_fslot hi]
    dsimp only
    rw [if_neg (not_or.2 ⟨Nat.not_le.2 hw, Nat.not_le.2 hp⟩), hshown]
    simp only [State.begun_fab, State.begun_freeCount]
  case noBays => rw [exec_fbays hi]; exact congrArg _ (if_pos hw)
  case noLink =>
    rw [exec_fbays hi]
    refine congrArg _ ((if_neg (not_not.2 hw)).trans ?_)
    rw [hl]
    rfl
  case bays =>
    rw [exec_fbays hi]
    refine congrArg _ ((if_neg (not_not.2 hw)).trans ?_)
    rw [hl]
    rfl
  case evt => exact ⟨_, exec_fevt hi, rfl, s.begun_mem _⟩
  case retune =>
    rw [exec_fretune hi]
    exact ⟨_, congrArg _ (if_neg (not_or.2 ⟨not_not.2 hw, Nat.not_le.2 hf⟩)), rfl, s.begun_mem _⟩
  case noRetune => rw [exec_fretune hi]; exact congrArg _ (if_pos hbad)
  case noRepair => rw [exec_frepair hi]; exact congrArg _ (if_pos hbad)
  case repair =>
    rw [exec_frepair hi]
    refine ⟨_, congrArg _ (if_neg (not_or.2 ⟨Nat.not_le.2 hw, not_or.2 ⟨not_not.2 hy, Nat.not_le.2 hp⟩⟩)), s.begun_mem _, ?_⟩
    rw [State.modLink, State.installEntry, State.begun_fab]
  case noGrant =>
    rw [exec_fgrant hi]
    exact congrArg _ ((if_neg (State.not_noRoom hroom)).trans (if_pos hw))
  case revoke =>
    refine ⟨_, exec_fgrant_of_room hi (fun h => Bool.false_ne_true (hoff.symm.trans h.1)) hw, ?_, fun hline => ?_, fun hline => ?_⟩
    · rw [State.grant_mem, s.begun_mem]
    · rw [State.grant_granted hline, State.begun_fab, hoff]
      exact ⟨hnot, rfl⟩
    · rw [State.grant_withheld hline, State.begun_fab, hoff]
      exact ⟨List.mem_cons_self, rfl⟩
  case restore =>
    refine ⟨_, exec_fgrant_of_room hi (fun h => Nat.not_lt.2 h.2.1 hline) hw, ?_⟩
    rw [State.grant_withheld hline, State.begun_fab, hon, State.grant_mem, s.begun_mem]
    exact ⟨hnot, rfl, rfl⟩
  case grant =>
    refine ⟨_, exec_fgrant_of_room hi (State.not_noRoom fun _ _ => hroom) hw, ?_⟩
    rw [State.grant_granted hline, State.begun_fab, hon, State.grant_mem, s.begun_mem]
    exact ⟨List.mem_cons_self, rfl⟩
  case noRoom =>
    rw [exec_fgrant hi]
    exact congrArg _ (if_pos ⟨hon, hline, hnew, hroom⟩)

end Sys2Proof.Machine
end

section
/-! PROOFS. A step (R199 to R201, R207, R289): what it takes next, and how a bundle of one syllable goes through it. -/

namespace Sys2Proof.Machine

/-! ## What a step takes next -/

section Taken
variable {s : State} {e : Event} {l : List Event}

theorem step_of_off (hp : s.powerState = 3) : step s = s.stepOff := if_pos hp

theorem step_of_powered (hp : s.powerState ≠ 3) : step s = s.perform1 s.nextAction := if_neg hp

theorem State.nextAction_event (ha : s.agenda = e :: l) : s.nextAction = .event e := by rw [State.nextAction, ha]

theorem State.perform1_event (ha : s.agenda = e :: l) : s.perform1 (.event e) = exec e.toInstr { s with agenda := l } := by
  rw [exec_toInstr_event, State.perform1, ha]
  rfl

theorem State.perform1_microOp {g : Nat} {r : Routine} {m : Micro} (hr : (s.focus (4 * g)).core.mx.routine = some r)
    (hm : decodeMicro (look 0 r.addr (s.focus (4 * g)).core.mx.store).toNat = some m) :
    s.perform1 (.microOp g) = endEngine g (exec m.toInstr (s.focus (4 * g))) := by
  rw [exec_toInstr_micro, State.perform1, State.microStep]
  simp only [hr, hm]

end Taken

/-! ## The instruction of a syllable -/

theorem Syl.run_eq_exec (y : Syl) (s : State) : y.run s = exec y.instr s := by
  cases y with
  | core i => rfl
  | eng x => exact (exec_toInstr_eng x s).symm

/-- The guard that a syllable names does not depend on the state. -/
theorem Syl.info_guard (y : Syl) (s t : State) : (y.info s).guard = (y.info t).guard := by
  cases y with
  | core i => cases i <;> rfl
  | eng x => cases x <;> rfl

/-- The syllables that run before the others make no access and do not run after the others. -/
theorem Syl.early_excludes (y : Syl) : (y.early && (y.late || y.accesses)) = false := by
  cases y with
  | core i => cases i <;> rfl
  | eng x => rfl

/-! ## A bundle of one syllable -/

theorem decodeWords_one {h w : Word32} {lits : List Word32} {k : Fin 8} {y : Syl} (hk : slotsOf (presOf h) = [k])
    (hd : decodeSlot k (nlitOf h) w.toNat = .ok y) : decodeWords h (w :: lits) = ([(k, .ok y)], lits) := by
  simp only [decodeWords, hk, List.zip_cons_cons, List.zip_nil_left, List.map_cons, List.map_nil, hd, List.length_singleton,
    List.drop_succ_cons, List.drop_zero]

theorem runOrder_one (x : Placed) : runOrder [x] = [x] := by
  unfold runOrder
  cases he : x.2.early with
  | true =>
    obtain ⟨hl, ha⟩ : x.2.late = false ∧ x.2.accesses = false := by simpa [he] using x.2.early_excludes
    simp [he, hl, ha]
  | false => cases hl : x.2.late <;> cases ha : x.2.accesses <;> simp [he, hl, ha]

section OneSyllable
variable {s t u : State} {x : Placed}

/-- Only a BA voids a syllable, and it voids a BB. -/
theorem State.baEnds_one (h : x.1 = 1) : s.baEnds [x] = false := by
  simp [State.baEnds, h]

theorem State.effective_one (hon : s.on x = true) : s.effective [x] = [x] := by
  have hkept : (s.on x && !(x.1 == 1 && s.baEnds [x])) = true := by
    by_cases h : x.1 = 1
    · simp [hon, State.baEnds_one h]
    · simp [hon, h]
  exact List.filter_cons_of_pos hkept

theorem State.void_one : s.void [x] = [] := by
  refine List.filter_cons_of_neg fun h => ?_
  obtain ⟨⟨-, hbb⟩, hends⟩ : (s.on x = true ∧ (x.1 == 1) = true) ∧ s.baEnds [x] = true := by simpa using h
  exact Bool.false_ne_true ((State.baEnds_one (eq_of_beq hbb)).symm.trans hends)

/-- The pushes of a bundle begin at QP as it stood before the bundle. -/
theorem State.atPush_first (hqp : s.issue.qp = s.cx.regs.qp) : s.atPush [x] x.1.val = s := by
  simp [State.atPush, State.modRegs, hqp]

theorem State.trialRuns_one (hqp : s.issue.qp = s.cx.regs.qp) : trialRuns [x] [x] s = [(x, s.alone x)] := by
  rw [trialRuns, trialRuns, State.atPush_first hqp]

/-- A syllable that ends as done, without a clash, has nothing to settle. -/
theorem State.settleFirst_one (hon : s.on x = true) (hqp : s.issue.qp = s.cx.regs.qp) (ht : s.alone x = .next t) (hdone : t.evt = .done)
    (hclash : s.checkClash [] (s.slotted [x]) = .go) : s.settleFirst [x] = none := by
  have hend : endOf (.next t) = .done := hdone
  rw [State.settleFirst]
  simp only [State.effective_one hon, runOrder_one, State.trialRuns_one hqp, State.void_one, hclash, ht]
  simp [firstTrial, hend, refuses, End.isIllegal, End.isTrap]

theorem State.runSyls_one {src : Regs} (hqp : s.issue.qp = s.cx.regs.qp) (hacc : x.2.accesses = false ∨ s.awaitsReplies = false)
    (ht : s.alone x = .next t) (hdone : t.evt = .done) : runSyls [x] src false [x] s = .next (t.atPush [x] 8) := by
  have hnow : (x.2.accesses && s.awaitsReplies) = false := Bool.and_eq_false_iff.2 hacc
  rw [runSyls, hnow]
  simp only [Bool.false_eq_true, if_false, State.runOne, State.atPush_first hqp, Bool.false_and, ht, hdone, runSyls]

theorem State.runBundle_one {src : Regs} {pc : Word} {n : Nat} (hqp : s.issue.qp = s.cx.regs.qp)
    (hacc : x.2.accesses = false ∨ s.awaitsReplies = false) (ht : s.alone x = .next t) (hdone : t.evt = .done) :
    s.runBundle pc [x] src false n [x] = .next ((t.atPush [x] 8).closeBundle pc n) := by
  have hlast : (t.atPush [x] 8).evt = .done := hdone
  rw [State.runBundle, State.runSyls_one hqp hacc ht hdone]
  simp only [hlast]

/-! ## Its checks made, it issues -/

theorem State.markViol_issue (s : State) (xs : List Slotted) : (s.markViol xs).issue = s.issue := by
  obtain ⟨w, h⟩ := s.markViol_eq xs
  rw [h]

theorem State.markViol_qp (s : State) (xs : List Slotted) : (s.markViol xs).cx.regs.qp = s.cx.regs.qp := by
  obtain ⟨w, h⟩ := s.markViol_eq xs
  rw [h]

theorem State.markViol_awaitsReplies (s : State) (xs : List Slotted) : (s.markViol xs).awaitsReplies = s.awaitsReplies := by
  obtain ⟨w, h⟩ := s.markViol_eq xs
  rw [h]
  rfl

/-- The record of a bundle whose only syllable takes effect, its checks up to the sources made. -/
theorem State.checkedOf_one (hon : s.on x = true) : s.checkedOf [x] = { s with
    issue := { s.issue with checked := true, slots := [x.1], point := x.2.blockPoint && !(s.cx.synced && x.1 == 6) },
    core := { s.core with used := (s.core.cycle, s.usage 0 (s.splitBundle [x])) } } := by
  simp only [State.checkedOf, State.effective_one hon, List.map_cons, List.map_nil, List.any_cons, List.any_nil, Bool.or_false]

theorem State.checkedOf_on (s : State) (xs : List Placed) : (s.checkedOf xs).on x = s.on x := by
  rw [State.on, x.2.info_guard (s.checkedOf xs) s]
  rfl

/-- A bundle of one syllable that the trial and the run both end as done: QP takes its pushes, and the bundle closes. -/
theorem State.issueChecked_one {pc : Word} (hon : s.on x = true) (hqp : s.issue.qp = s.cx.regs.qp)
    (hclash : (s.checkedOf [x]).checkClash [] ((s.checkedOf [x]).slotted [x]) = .go)
    (hacc : x.2.accesses = false ∨ (s.checkedOf [x]).awaitsReplies = false)
    (hu : (s.checkedOf [x]).alone x = .next u) (hudone : u.evt = .done)
    (ht : ((s.checkedOf [x]).markViol ((s.checkedOf [x]).slotted [x])).alone x = .next t) (htdone : t.evt = .done) :
    s.issueChecked pc [x] = .next ((t.atPush [x] 8).closeBundle pc (s.checkedOf [x]).issue.subs) := by
  have hsettled := State.settleFirst_one ((s.checkedOf_on [x]).trans hon) hqp hu hudone hclash
  rw [State.issueChecked]
  simp only [State.effective_one hon, hsettled, runOrder_one]
  rw [State.runBundle_one _ _ ht htdone, State.markViol_issue]
  · rw [State.markViol_issue, State.markViol_qp]
    exact hqp
  · rw [State.markViol_awaitsReplies]
    exact hacc

/-! ## It comes to issue -/

/-- Nothing is due at a stop-flagged bundle, and it passes the checks. -/
theorem State.issueFresh_of_go {pc : Word} {h : Word32} {ds : List (Fin 8 × Except Nat Syl)} (hstop : stopOf h = true)
    (hbad : badHeader h = false) (hheld : s.cx.held = []) (hpend : s.cx.pending = []) (hreq : s.cx.stopReq = none)
    (hquant : s.quantumDue = false) (hrec : s.recorded s.cx.regs.pc = []) (hgo : s.verdict ds = .go) :
    s.issueFresh pc h ds = State.atBlock (s.issueChecked pc (Machine.placed ds)) := by
  have hjoin : s.firstJoinFault (Machine.placed ds) = none := by rw [State.firstJoinFault, hrec]; rfl
  rw [State.issueFresh]
  simp [hgo, hjoin, hheld, hpend, hreq, hquant, hstop, hbad, Verdict.waits]

/-- Nothing comes due before the cycle at which the bundle issues. -/
theorem State.issueWords_of_fresh {pc : Word} {h : Word32} {ws lits : List Word32} {ds : List (Fin 8 × Except Nat Syl)}
    {xs : List Placed} (hd : decodeWords h ws = (ds, lits)) (hxs : Machine.placed ds = xs)
    (ha : (s.reachCycle (s.issueCycle h)).agenda = s.agenda)
    (hpart : ((s.reachCycle (s.issueCycle h)).cx.findMarks pc).part = none) :
    s.issueWords pc h ws =
      (({ s.reachCycle (s.issueCycle h) with cx := (s.reachCycle (s.issueCycle h)).cx.findMarks pc } : State).openBundle h lits
        xs).issueFresh pc h ds := by
  rw [State.issueWords, hd, ← hxs]
  dsimp only
  rw [if_neg (not_not.2 ha), hpart]
  rfl

theorem State.issueNext_of_line {h : Word32} {ws : List Word32} (hgo : s.idle.goTo s.cx.regs.pc = .ok t)
    (hline : t.lineAtPc s.cx.regs.pc = .ok (h, ws)) : s.issueNext = t.issueWords s.cx.regs.pc h ws := by
  have hgo' : ({ s with evt := .done } : State).goTo s.cx.regs.pc = .ok t := hgo
  rw [State.issueNext]
  simp only [hgo', hline]

end OneSyllable

theorem State.atBlock_next (s : State) : ∃ v, State.atBlock (.next s) = .next v := by
  unfold State.atBlock
  dsimp only
  split_ifs <;> exact ⟨_, rfl⟩

/-! ## The statement -/

/-- Settles O47: the agenda, the routine's microword, and a bundle of one syllable through its issue. -/
theorem stepRuns : Obligations.StepRuns := by
  unfold Obligations.StepRuns
  refine ⟨fun s hp ha => ?dark, fun s e l hp ha => ?off, fun s e l hp ha => ?event, fun s g r m hp hact hr hm => ?micro, ?issue⟩
  case dark => rw [step_of_off hp, State.stepOff, ha]
  case off =>
    rw [step_of_off hp, State.stepOff, ha]
    dsimp only
    rw [State.perform1_event ha]
  case event => rw [step_of_powered hp, State.nextAction_event ha, State.perform1_event ha]
  case micro => rw [step_of_powered hp, hact, State.perform1_microOp hr hm]
  case issue =>
    intro s b t u c k h w lits y i pc r q x subs z hp hact hgo hline hslots hstop hbad hdec hagenda hpart hheld hpend hreq hquant hrec
      hguard hverdict hclash hacc hu hudone ht htdone
    have hon : x.on (k, y) = true := hguard
    have hz : x.checkedOf [(k, y)] = z := State.checkedOf_one hon
    have hchecked : x.issueChecked pc [(k, y)] = .next ((t.atPush [(k, y)] 8).closeBundle pc z.issue.subs) := by
      clear_value z
      subst hz
      exact State.issueChecked_one hon rfl hclash hacc ((y.run_eq_exec _).trans hu) hudone ((y.run_eq_exec _).trans ht) htdone
    have hnext : (s.focus c).issueNext = State.atBlock (x.issueChecked pc [(k, y)]) :=
      calc (s.focus c).issueNext
        _ = b.issueWords pc h (w :: lits) := State.issueNext_of_line hgo hline
        _ = x.issueFresh pc h [(k, .ok y)] := State.issueWords_of_fresh (decodeWords_one hslots hdec) rfl hagenda hpart
        _ = State.atBlock (x.issueChecked pc [(k, y)]) :=
          State.issueFresh_of_go hstop hbad hheld hpend hreq hquant hrec hverdict
    obtain ⟨v, hv⟩ := State.atBlock_next ((t.atPush [(k, y)] 8).closeBundle pc z.issue.subs)
    refine ⟨v, hv, ?_⟩
    rw [step_of_powered hp, hact, State.perform1, State.issueStep, hnext, hchecked, hv]

end Sys2Proof.Machine
end
